-- ==== Sys2Proof/Word.lean ====
section
/-! DEFINITION. The widths of the block's registers and samples, and the form its sparse tables take. -/

namespace Sys2Proof

/-- A register of BAR0 is 32 bits wide (R553); a sample is the bit pattern of an IEEE 754 binary32 (R6). -/
abbrev Word := BitVec 32

/-- The unit of the vat, of descriptors and of ring entries (R11). -/
abbrev Byte := BitVec 8

/-- A table indexed by numbers, most of whose entries are at their default: the pairs of an index and a value, indices
strictly rising, no value equal to the default. -/
abbrev Sparse (α : Type) := List (Nat × α)

end Sys2Proof
end

