-- ==== Sys2Proof/Syntax.lean ====
section
/-! DEFINITION. The commands the block takes: one constructor of `Instr` for each row of the table of operations and events,
with the operands that its sender, a port, a link or the clock supplies. Indices of physical things are bounded by their
types; everything the spec checks itself is a plain number or a bit pattern. -/

namespace Sys2Proof

/-- Who reads or writes a register (R14, R411, R522, R555): a host port, the lockstep supervisor pair, an application core,
or another matrix master. -/
inductive Master where
  | host (p : Fin 3)
  | ssv
  | ac (n : Fin 4)
  | other
deriving DecidableEq, Repr

/-- Where a descriptor stands: entry `index` of a ring, or of an application core's queue (R458, R527). -/
inductive Origin where
  | ring (r : Fin 32768) (index : BitVec 32)
  | core (n : Fin 4) (index : BitVec 32)
deriving DecidableEq, Repr

/-- The part of a descriptor after its OPCODE (R447): FLAGS, the reserved word, TAG, COMMIT and the 40 payload bytes. -/
structure Body where
  flags : BitVec 16 := 0
  rsv : BitVec 32 := 0
  tag : BitVec 64 := 0
  commit : BitVec 64 := 0
  payload : List Byte := []
deriving DecidableEq, Repr, Inhabited

/-- A descriptor (R447). -/
structure Desc where
  opcode : BitVec 16 := 0
  body : Body := {}
deriving DecidableEq, Repr, Inhabited

/-- Bits [5:0] of FLAGS (R447). -/
def Body.chain (d : Body) : Bool := d.flags.getLsbD 0
def Body.policy (d : Body) : Nat := d.flags.toNat / 2 % 4
def Body.whenF (d : Body) : Nat := d.flags.toNat / 8 % 4
def Body.irq (d : Body) : Bool := d.flags.getLsbD 5

/-- Byte `i` of the payload; a byte the sender did not give counts as zero. -/
def Body.byte (d : Body) (i : Nat) : Nat := (d.payload.getD i 0#8).toNat

/-- The little-endian number in `n` payload bytes from `off` (R11, R447). -/
def Body.pl (d : Body) (off : Nat) : Nat → Nat
  | 0 => 0
  | n + 1 => d.byte off + 256 * Body.pl d (off + 1) n

/-- The two's complement value of a 16-bit payload field. -/
def Body.pls (d : Body) (off : Nat) : Int :=
  let v := d.pl off 2
  if v < 32768 then (v : Int) else (v : Int) - 65536

/-- A descriptor that commits at a heat is seen twice: when it is accepted, and when its commit heat has come (R449). -/
inductive Phase where
  | accept
  | commit
deriving DecidableEq, Repr

/-- The class of an event (R472): corrected, uncorrected but contained, fatal. -/
inductive Cls where
  | c | u | f
deriving DecidableEq, Repr, Inhabited

/-- One event as a block presents it to the collector (R472): its source, class, default reaction mask in the order of R476,
syndrome, and whether the block discarded events before it. -/
structure Ev where
  src : Fin 256
  cls : Cls
  react : BitVec 6
  syn : Word
  lost : Bool := false
deriving DecidableEq, Repr, Inhabited

/-- The straps sampled when power-on reset is released (R528). -/
structure Straps where
  engineId : BitVec 6 := 0
  warmupEn : Bool := false
  wupSrc : Bool := false
  bootSrc : BitVec 2 := 0
  ftmEn : Bool := false
deriving DecidableEq, Repr, Inhabited

/-- What the controller and the SSV find on a port whose link has trained at the end of the training window (R329, R538): the tile's
identification word, its rail in 0.1 V, half the round trip in ns, and whether its lane-defaults memory reads back damaged. -/
structure TileProbe where
  tile : Fin 16
  id : Word
  rail : BitVec 16
  ofs : BitVec 16 := 0
  corrupt : Bool := false
deriving DecidableEq, Repr, Inhabited

/-- A firmware image as the ROM finds it (R529 to R532): which image of the boot order it is, whether the flash was read
without error, and its bytes. -/
structure FwImage where
  which : Fin 4
  readOk : Bool
  bytes : List Byte
deriving DecidableEq, Repr, Inhabited

/-- A stream with a clock of its own (R72, R77): a TDM port, an AES3 receiver, a PDM group or a receive flow. -/
inductive Stream where
  | tdm (n : Fin 16)
  | aes (n : Fin 8)
  | pdm (g : Fin 4)
  | flow (f : Fin 2048)
deriving DecidableEq, Repr

/-- A port channel with a gain and a mute (R104, R466). -/
inductive Chan where
  | tdmRx (n : Fin 16) (slot : Fin 32)
  | aesRx (n : Fin 8) (ch : Fin 2)
  | tdmTx (n : Fin 16) (slot : Fin 32)
  | mic (m : Fin 32)
deriving DecidableEq, Repr

/-- One AES3 subframe as received (R108, R113, R114): the 24 bits of time slots 4 to 27, the validity bit, and whether its
parity is good. -/
structure SubFrame where
  bits : BitVec 24
  invalid : Bool
  parityOk : Bool
deriving DecidableEq, Repr, Inhabited

/-- What a waiting step of the zone mixer belongs to (R167, R169): a layer's gain, the side of a source switch that leaves or
joins, a zone, or the leaving or joining side of a lane route. -/
inductive StepTarget where
  | layerGain (z : Fin 256) (l : Fin 8)
  | layerLeave (z : Fin 256) (l : Fin 8)
  | layerJoin (z : Fin 256) (l : Fin 8)
  | zone (z : Fin 256)
  | routeLeave (lane : Fin 128)
  | routeJoin (lane : Fin 128)
  | fallbackJoin (entry : Fin 8192)
  | fallbackLeave (entry : Fin 8192)
deriving DecidableEq, Repr

/-- A read that ends well with its data, or in an error (R410). -/
inductive ReadResult where
  | data (bytes : List Byte)
  | error
deriving DecidableEq, Repr

/-- One switch-node transition as the time-to-digital converter of a lane finds it (R301, R302): how long after the time it was commanded for it
came, in ps, and the current then, in mA, both signed. -/
structure EdgeMeasure where
  lane : Fin 8
  late : BitVec 16
  mA : BitVec 16
deriving DecidableEq, Repr

/-- What a tile's converters measure for one upstream frame (R301, R327, R329, R389): the 32 sense codes, sample s of channel c at 2c + s;
the rail in units of 200 / 65,536 V; the temperatures in 1/16 °C; BATT_SENSE in 0.1 mV; the transitions of the lanes since the last frame,
each lane's in the order it was commanded to make them; two samples of the earth converter, common-mode voltage and summed half-bridge current
in binary32; and the line-evidence inputs, two samples a lane, sample s of local lane l at 2l + s, coded as a sense voltage; and
whether the frame arrives good. -/
structure TileMeasure where
  sense : List (BitVec 24) := []
  railMin : BitVec 16 := 0
  railMax : BitVec 16 := 0
  railMean : BitVec 16 := 0
  tDie : BitVec 16 := 0
  tSink : BitVec 16 := 0
  battPin : BitVec 16 := 0
  edges : List EdgeMeasure := []
  earth : List (Word × Word) := []
  lev : List (BitVec 24) := []
  good : Bool := true
deriving DecidableEq, Repr, Inhabited

/-- A clock island (R65, R66): of the controller, or of a tile, lanes 0 to 7, the link, the sense converters, housekeeping. -/
inductive Island where
  | ctl (i : Fin 81)
  | tile (t : Fin 16) (i : Fin 11)
deriving DecidableEq, Repr

/-- What a clock monitor finds of an island: out of tolerance, or in tolerance again (R71). -/
structure IslandReading where
  island : Island
  out : Bool
deriving DecidableEq, Repr

/-- A TDM line at an edge of its frame sync: the level after the edge, and the levels of the data line at the rising and the falling edges of
the bit clocks from there on, bit i the i-th of them (R86). -/
structure TdmLine where
  high : Bool
  rise : BitVec 1024
  fall : BitVec 1024
deriving DecidableEq, Repr, Inhabited

/-- A read of word 0 of a channel status window, by its master (R111, R138). -/
structure CsRead where
  master : Master
  ch : Fin 2
deriving DecidableEq, Repr

/-- A reading of a tile: a temperature in °C or a rail in 0.1 V. -/
structure TileReading where
  tile : Fin 16
  value : BitVec 16
deriving DecidableEq, Repr

/-- A sample of a lane's last link frame, and the rail ADC's code at it (R286). -/
structure RailSample where
  sample : Fin 8
  rail : BitVec 16
deriving DecidableEq, Repr

/-- The rail ADC's codes in a slot of a tile, 250 ns apart (R297). -/
structure TileRails where
  tile : Fin 16
  rails : List (BitVec 16)
deriving DecidableEq, Repr

/-- A value that an event stands for and that the block has measured itself: the place of the operand, without content. -/
abbrev Measured := Unit

/-- What a register write reaches (R408, R409, R505, R553): a word of BAR0, which the SSV and the cores reach through their map at
0x2000_0000; the configuration space of the writing port, its bus master enable, MSI-X enable and function mask; or another address of the
matrix map, written by the matrix master of that number. -/
inductive RegTarget where
  | bar0 (off : Nat)
  | config (bme msixEn fmask : Bool)
  | matrix (addr : Word) (id : Fin 32)
deriving DecidableEq, Repr

/-- The commands of the table: its operations, and the events of its ports, links and clock. -/
inductive Instr where
  /-- `POWER_ON` (R536). -/
  | powerOn (straps : Straps)
  /-- `POWER_FAIL` (R586). -/
  | powerFail
  /-- `LINK_TRAINING_WINDOW_END` (R20). -/
  | linkTrainingWindowEnd (probes : List TileProbe)
  /-- `LINK_TRAINED_ON_ABSENT_PORT` (R22). -/
  | linkTrainedOnAbsentPort (t : Fin 16)
  /-- `TILE_LINK_LOST` (R23). -/
  | tileLinkLost (t : Fin 16)
  /-- `FIRMWARE_BOOT` (R531). -/
  | firmwareBoot (img : FwImage)
  /-- `HEAT_BOUNDARY` (R58). -/
  | heatBoundary (lines : List (List Bool))
  /-- `PCR_TIME_LO_READ` (R47). -/
  | pcrTimeLoRead (m : Master)
  /-- `PCR_ADJ_FREQ_WRITE` (R48). -/
  | pcrAdjFreqWrite (m : Master) (v : Word)
  /-- `PCR_SLEW_WRITE` (R54). -/
  | pcrSlewWrite (m : Master) (v : Word)
  /-- `PCR_STEP_HI_WRITE` (R53). -/
  | pcrStepHiWrite (m : Master) (v : Word)
  /-- `PCR_SERVO_OFFSET_WRITE` (R49). -/
  | pcrServoOffsetWrite (m : Master) (v : Word)
  /-- `DISC_SRC_CHANGE` (R51). -/
  | discSrcChange (m : Master) (v : Word)
  /-- `HOLD_FORCE` (R51). -/
  | holdForce (m : Master) (on : Bool)
  /-- `REF_1PPS_EDGE` (R50). -/
  | ref1ppsEdge (off : Word)
  /-- `REF_10M_LOSS` (R50). -/
  | ref10mLoss
  /-- `REF_1PPS_TIMEOUT` (R50). -/
  | ref1ppsTimeout
  /-- `SERVO_WATCHDOG_EXPIRY` (R50). -/
  | servoWatchdogExpiry
  /-- `LOCK_GAINED` (R51). -/
  | lockGained
  /-- `LOCK_LOST` (R51). -/
  | lockLost
  /-- `HOLDOVER_LIMIT_REACHED` (R51). -/
  | holdoverLimitReached
  /-- `STEP_JUMP` (R55). -/
  | stepJump
  /-- `STEP_RESUME` (R55). -/
  | stepResume
  /-- `STEP_APPLIED` (R55). -/
  | stepApplied
  /-- `SYNTH_LOCK_LOSS` (R64). -/
  | synthLockLoss
  /-- `SYNTH_RELOCK` (R64). -/
  | synthRelock
  /-- `ISLAND_OUT_OF_TOLERANCE` (R71). -/
  | islandOutOfTolerance (x : IslandReading)
  /-- `CROSSING_ABANDONED` (R68). -/
  | crossingAbandoned (master : Fin 32) (read : Bool)
  /-- `DROOP_DETECTED` (R79). -/
  | droopDetected
  /-- `DROOP_END` (R79). -/
  | droopEnd (us : BitVec 10)
  /-- `DROOP_STRETCH_EXCEEDED` (R81). -/
  | droopStretchExceeded (us : BitVec 10)
  /-- `RATE_JUMP` (R77). -/
  | rateJump (st : Stream)
  /-- `CONVERTER_RELOCK_DONE` (R77). -/
  | converterRelockDone (st : Stream)
  /-- `RATIO_OUT_OF_RANGE` (R77). -/
  | ratioOutOfRange (st : Stream)
  /-- `PORT_CLOCK_LOSS` (R77). -/
  | portClockLoss (st : Stream)
  /-- `PORT_CLOCK_RETURN` (R77). -/
  | portClockReturn (st : Stream)
  /-- `TDM_RX_FRAME` (R90). -/
  | tdmRxFrame (n : Fin 16) (len : BitVec 11) (line : TdmLine) (glitch full : Bool)
  /-- `RX_BLOCK_CLOSE` (R90). -/
  | rxBlockClose (st : Stream) (lines : List (List Bool))
  /-- `TDM_TX_FRAME` (R101). -/
  | tdmTxFrame (n : Fin 16) (k : Fin 48) (ahead : Bool)
  /-- `TDM_FRAME_WRITE` (R84). -/
  | tdmFrameWrite (m : Master) (n : Fin 16) (v : Word)
  /-- `TDM_ENABLE` (R87). -/
  | tdmEnable (m : Master) (n : Fin 16) (v : Word)
  /-- `TDM_DISABLE` (R89). -/
  | tdmDisable (m : Master) (n : Fin 16) (v : Word)
  /-- `RX_MASK_NEXT_WRITE` (R96). -/
  | rxMaskNextWrite (m : Master) (n : Fin 16) (v : Word)
  /-- `TX_MASK_NEXT_WRITE` (R96). -/
  | txMaskNextWrite (m : Master) (n : Fin 16) (v : Word)
  /-- `CHANNEL_ZERO_CROSSING` (R104). -/
  | channelZeroCrossing (c : Chan)
  /-- `ZC_TIMEOUT_EXPIRY` (R104). -/
  | zcTimeoutExpiry (c : Chan)
  /-- `AES_RX_FRAME` (R108). -/
  | aesRxFrame (n : Fin 8) (a b : SubFrame) (glitch : Bool)
  /-- `AES_CS_BLOCK` (R110). -/
  | aesCsBlock (n : Fin 8) (ch : Fin 2) (bytes : List Byte) (early : Bool)
  /-- `AES_RATE_DETECT` (R107). -/
  | aesRateDetect (n : Fin 8) (hz : Nat) (above : Measured)
  /-- `AES_RX_CS_READ` (R111). -/
  | aesRxCsRead (m : Master) (n : Fin 8) (ch : Fin 2)
  /-- `AES_RX_ENABLE` (R106). -/
  | aesRxEnable (m : Master) (n : Fin 8) (v : Word)
  /-- `AES_TX_ENABLE` (R115). -/
  | aesTxEnable (m : Master) (n : Fin 4) (v : Word)
  /-- `AES_TX_FRAME` (R116). -/
  | aesTxFrame (n : Fin 4) (k : Fin 192)
  /-- `AES_TX_CS_COMMIT` (R117). -/
  | aesTxCsCommit (m : Master) (n : Fin 4) (v : Word)
  /-- `PDM_GROUP_ENABLE` (R124). -/
  | pdmGroupEnable (m : Master) (g : Fin 4) (v : Word)
  /-- `PDM_MIC_EN_WRITE` (R124). -/
  | pdmMicEnWrite (m : Master) (g : Fin 4) (v : Word)
  /-- `PDM_WARMING_END` (R124). -/
  | pdmWarmingEnd (k : Fin 32)
  /-- `PDM_MIC_STUCK_LONG` (R125). -/
  | pdmMicStuckLong (k : Fin 32)
  /-- `PKT_RX_FRAME` (R132). -/
  | pktRxFrame (p : Fin 2) (fcsOk : Bool) (bytes : List Byte)
  /-- `LEG_DOWN` (R143). -/
  | legDown (f : Fin 2048) (p : Fin 2)
  /-- `PKT_LINK_DOWN` (R71). -/
  | pktLinkDown (p : Fin 2)
  /-- `PKT_LINK_UP` (R130). -/
  | pktLinkUp (p : Fin 2) (fast : Bool) (fec : Fin 3)
  /-- `PKT_HOST_FRAME_SEND` (R147). -/
  | pktHostFrameSend (p : Fin 2) (entry : List Byte)
  /-- `FLOW_PACKET_SEND` (R151). -/
  | flowPacketSend (f : Fin 512)
  /-- `PKT_CS_READ` (R138). -/
  | pktCsRead (x : CsRead)
  /-- `ZONE_SET` (R194). -/
  | zoneSet (ph : Phase) (o : Origin) (d : Body)
  /-- `LAYER_SET` (R195). -/
  | layerSet (ph : Phase) (o : Origin) (d : Body)
  /-- `LAYER_ASSERT` (R196). -/
  | layerAssert (ph : Phase) (o : Origin) (d : Body)
  /-- `LAYER_RELEASE` (R196). -/
  | layerRelease (ph : Phase) (o : Origin) (d : Body)
  /-- `LANE_ROUTE` (R186). -/
  | laneRoute (ph : Phase) (o : Origin) (d : Body)
  /-- `RETURN_SET` (R187). -/
  | returnSet (ph : Phase) (o : Origin) (d : Body)
  /-- `AMB_SET` (R197). -/
  | ambSet (ph : Phase) (o : Origin) (d : Body)
  /-- `LAYER_ZERO_CROSSING` (R167). -/
  | layerZeroCrossing (t : StepTarget)
  /-- `STEP_ZC_TIMEOUT` (R167). -/
  | stepZcTimeout (t : StepTarget)
  /-- `READY_DEADLINE` (R178). -/
  | readyDeadline (o : Origin)
  /-- `SILENT_JOIN` (R179). -/
  | silentJoin (z : Fin 256) (l : Fin 8)
  /-- `ZONE_BLOCK_LATE` (R185). -/
  | zoneBlockLate (z : Fin 256)
  /-- `ACTIVITY_HOLD_EXPIRY` (R173). -/
  | activityHoldExpiry (z : Fin 256) (l : Fin 8)
  /-- `PLAYER_SET` (R222). -/
  | playerSet (ph : Phase) (o : Origin) (d : Body)
  /-- `PLAYER_FLUSH` (R222). -/
  | playerFlush (o : Origin) (d : Body)
  /-- `CLIP_LOAD` (R219). -/
  | clipLoad (o : Origin) (d : Body)
  /-- `CLIP_LOAD_DONE` (R219). -/
  | clipLoadDone (o : Origin) (rd : ReadResult)
  /-- `CLIP_PIN` (R222). -/
  | clipPin (o : Origin) (d : Body)
  /-- `CLIP_DROP` (R220). -/
  | clipDrop (o : Origin) (d : Body)
  /-- `PLAYLIST_FETCH_DONE` (R203). -/
  | playlistFetchDone (p : Fin 64) (rd : ReadResult)
  /-- `CLIP_FETCH_DONE` (R215). -/
  | clipFetchDone (p : Fin 64) (i : Fin 10) (rd : ReadResult)
  /-- `ENTRY_END` (R210). -/
  | entryEnd (p : Fin 64)
  /-- `PLAYER_STARVED` (R214). -/
  | playerStarved (p : Fin 64)
  /-- `PLAYER_RESUME` (R214). -/
  | playerResume (p : Fin 64)
  /-- `PLAYLIST_HOST_LOST` (R216). -/
  | playlistHostLost (p : Fin 64)
  /-- `FNOP` (R232). -/
  | fnop (n : Fin 16) (f1 : Bool)
  /-- `FADD` (R232). -/
  | fadd (n : Fin 16) (f1 : Bool)
  /-- `FSUB` (R232). -/
  | fsub (n : Fin 16) (f1 : Bool)
  /-- `FMUL` (R232). -/
  | fmul (n : Fin 16) (f1 : Bool)
  /-- `FMA` (R232). -/
  | fma (n : Fin 16) (f1 : Bool)
  /-- `FMS` (R232). -/
  | fms (n : Fin 16) (f1 : Bool)
  /-- `FMIN` (R232). -/
  | fmin (n : Fin 16) (f1 : Bool)
  /-- `FMAX` (R232). -/
  | fmax (n : Fin 16) (f1 : Bool)
  /-- `FABS` (R232). -/
  | fabs (n : Fin 16) (f1 : Bool)
  /-- `FNEG` (R232). -/
  | fneg (n : Fin 16) (f1 : Bool)
  /-- `FSEL` (R232). -/
  | fsel (n : Fin 16) (f1 : Bool)
  /-- `FCLAMP` (R232). -/
  | fclamp (n : Fin 16) (f1 : Bool)
  /-- `FRCP` (R232). -/
  | frcp (n : Fin 16) (f1 : Bool)
  /-- `FRSQ` (R232). -/
  | frsq (n : Fin 16) (f1 : Bool)
  /-- `FLOG2` (R232). -/
  | flog2 (n : Fin 16) (f1 : Bool)
  /-- `FEXP2` (R232). -/
  | fexp2 (n : Fin 16) (f1 : Bool)
  /-- `FCVTI` (R232). -/
  | fcvti (n : Fin 16) (f1 : Bool)
  /-- `FCVTF` (R232). -/
  | fcvtf (n : Fin 16) (f1 : Bool)
  /-- `FLI` (R232). -/
  | fli (n : Fin 16) (f1 : Bool)
  /-- `MNOP` (R233). -/
  | mnop (n : Fin 16)
  /-- `LDF` (R233). -/
  | ldf (n : Fin 16)
  /-- `STF` (R233). -/
  | stf (n : Fin 16)
  /-- `LDFP` (R233). -/
  | ldfp (n : Fin 16)
  /-- `STFP` (R233). -/
  | stfp (n : Fin 16)
  /-- `LDA` (R233). -/
  | lda (n : Fin 16)
  /-- `STA` (R233). -/
  | sta (n : Fin 16)
  /-- `VLD` (R233). -/
  | vld (n : Fin 16)
  /-- `VST` (R233). -/
  | vst (n : Fin 16)
  /-- `VAT_TRANSFER_DONE` (R234). -/
  | vatTransferDone (n : Fin 16) (i : Fin 4)
  /-- `DLYX` (R233). -/
  | dlyx (n : Fin 16)
  /-- `CNOP` (R235). -/
  | cnop (n : Fin 16)
  /-- `BR` (R235). -/
  | br (n : Fin 16)
  /-- `BZ` (R235). -/
  | bz (n : Fin 16)
  /-- `BNZ` (R235). -/
  | bnz (n : Fin 16)
  /-- `BLT` (R235). -/
  | blt (n : Fin 16)
  /-- `CALL` (R235). -/
  | call (n : Fin 16)
  /-- `RET` (R235). -/
  | ret (n : Fin 16)
  /-- `LOOP` (R235). -/
  | loop (n : Fin 16)
  /-- `AMOV` (R235). -/
  | amov (n : Fin 16)
  /-- `AADD` (R235). -/
  | aadd (n : Fin 16)
  /-- `AADDR` (R235). -/
  | aaddr (n : Fin 16)
  /-- `ASHL` (R235). -/
  | ashl (n : Fin 16)
  /-- `MVFA` (R235). -/
  | mvfa (n : Fin 16)
  /-- `MVAF` (R235). -/
  | mvaf (n : Fin 16)
  /-- `ODONE` (R235). -/
  | odone (n : Fin 16)
  /-- `HEND` (R235). -/
  | hend (n : Fin 16)
  /-- `SYNCV` (R235). -/
  | syncv (n : Fin 16)
  /-- `BIQ` (R236). -/
  | biq (n : Fin 16)
  /-- `FIRB` (R236). -/
  | firb (n : Fin 16)
  /-- `POLY8` (R236). -/
  | poly8 (n : Fin 16)
  /-- `ENV` (R236). -/
  | env (n : Fin 16)
  /-- `TBL` (R236). -/
  | tbl (n : Fin 16)
  /-- `LIA` (R236). -/
  | lia (n : Fin 16)
  /-- `LIARD` (R236). -/
  | liard (n : Fin 16)
  /-- `NCOSET` (R236). -/
  | ncoset (n : Fin 16)
  /-- `RAMP` (R237). -/
  | ramp (n : Fin 16)
  /-- `HEAT_ABANDONED` (R240). -/
  | heatAbandoned (n : Fin 16)
  /-- `LP_HANG` (R240). -/
  | lpHang (n : Fin 16)
  /-- `PARAM_SHADOW_WRITE` (R241). -/
  | paramShadowWrite
  /-- `LANE_PARAM` (R241). -/
  | laneParam (ph : Phase) (o : Origin) (d : Body) (rd : ReadResult)
  /-- `LANE_PARAM_INLINE` (R241). -/
  | laneParamInline (ph : Phase) (o : Origin) (d : Body)
  /-- `LANE_DELAY` (R246). -/
  | laneDelay (ph : Phase) (o : Origin) (d : Body)
  /-- `LP_LOAD` (R250). -/
  | lpLoad (ph : Phase) (o : Origin) (d : Body) (rd : ReadResult)
  /-- `IMAGE_ACCEPTED` (R249). -/
  | imageAccepted (o : Origin)
  /-- `LP_SWITCH_HALT` (R250). -/
  | lpSwitchHalt (n : Fin 16)
  /-- `LP_SWITCH_START` (R250). -/
  | lpSwitchStart (n : Fin 16)
  /-- `LP_RUN_START` (R251). -/
  | lpRunStart (ph : Phase) (o : Origin) (d : Body)
  /-- `LP_RUN_STOP` (R251). -/
  | lpRunStop (ph : Phase) (o : Origin) (d : Body)
  /-- `LP_EN_WRITE` (R262). -/
  | lpEnWrite (m : Master) (n : Fin 16) (v : Word)
  /-- `LP_RELOAD_DONE` (R253). -/
  | lpReloadDone (n : Fin 16)
  /-- `MODEL_SECOND_UPDATE` (R272). -/
  | modelSecondUpdate (n : Fin 128) (vr vi ir ii c1 c2 g : Measured)
  /-- `RIND_SET` (R280). -/
  | rindSet (ph : Phase) (o : Origin) (d : Body)
  /-- `RIND_CLEAR` (R282). -/
  | rindClear (ph : Phase) (o : Origin) (d : Body)
  /-- `BATT_SET` (R285). -/
  | battSet (ph : Phase) (o : Origin) (d : Body)
  /-- `POOL_SET` (R290). -/
  | poolSet (ph : Phase) (o : Origin) (d : Body)
  /-- `RIND_TRIP` (R279). -/
  | rindTrip (n : Fin 128) (irms dc vs v : Measured)
  /-- `RIND_RESTART` (R279). -/
  | rindRestart (n : Fin 128)
  /-- `TDIE_WARNING` (R279). -/
  | tdieWarning (t : Fin 16) (celsius : BitVec 16)
  /-- `TDIE_TRIP` (R279). -/
  | tdieTrip (t : Fin 16) (celsius : BitVec 16)
  /-- `TDIE_RESTART` (R279). -/
  | tdieRestart (x : TileReading)
  /-- `RIND_ACK_TIMEOUT` (R280). -/
  | rindAckTimeout (t : Fin 16)
  /-- `FAST_PATH_LIMIT` (R286). -/
  | fastPathLimit (n : Fin 128) (x : RailSample)
  /-- `TILE_POWER_UP` (R309). -/
  | tilePowerUp (t : Fin 16)
  /-- `TL_DOWNSTREAM_FRAME` (R325). -/
  | tlDownstreamFrame (t : Fin 16) (k : Fin 48) (rails : List (BitVec 16))
  /-- `DOWNSTREAM_FRAME_MISSING` (R315). -/
  | downstreamFrameMissing (x : TileRails)
  /-- `TL_UPSTREAM_FRAME` (R327). -/
  | tlUpstreamFrame (t : Fin 16) (k : Fin 48) (m : TileMeasure)
  /-- `LANE_RELEASE` (R309). -/
  | laneRelease (n : Fin 128) (gateOk : Bool)
  /-- `LANE_RUN_START` (R311). -/
  | laneRunStart (ph : Phase) (o : Origin) (d : Body)
  /-- `LANE_RUN_STOP` (R312). -/
  | laneRunStop (ph : Phase) (o : Origin) (d : Body)
  /-- `LANE_RUN_MUTE` (R312). -/
  | laneRunMute (ph : Phase) (o : Origin) (d : Body)
  /-- `LANE_RUN_UNMUTE` (R312). -/
  | laneRunUnmute (ph : Phase) (o : Origin) (d : Body)
  /-- `LANE_RAMP_DONE` (R312). -/
  | laneRampDone (n : Fin 128)
  /-- `SC_CLEAR` (R322). -/
  | scClear (ph : Phase) (o : Origin) (d : Body)
  /-- `RELAY_SET` (R323). -/
  | relaySet (ph : Phase) (o : Origin) (d : Body)
  /-- `ILIM_HIT` (R319). -/
  | ilimHit (n : Fin 128) (mA : BitVec 16) (consecutive : Bool)
  /-- `PROBE_START` (R321). -/
  | probeStart (n : Fin 128)
  /-- `PROBE_DONE` (R321). -/
  | probeDone (n : Fin 128) (z : Measured)
  /-- `LANE_CLOCK_FAULT` (R300). -/
  | laneClockFault (n : Fin 128)
  /-- `LANE_CLOCK_RECOVERED` (R300). -/
  | laneClockRecovered (n : Fin 128)
  /-- `TILE_SAFE_ASSERT` (R316). -/
  | tileSafeAssert (t : Fin 16)
  /-- `TILE_SAFE_RELEASE` (R316). -/
  | tileSafeRelease (t : Fin 16)
  /-- `RAIL_OVERVOLTAGE` (R314). -/
  | railOvervoltage (t : Fin 16) (decivolts : BitVec 16)
  /-- `RAIL_OV_CLEAR` (R318). -/
  | railOvClear (x : TileReading)
  /-- `RAIL_UNDERVOLTAGE` (R314). -/
  | railUndervoltage (t : Fin 16) (decivolts : BitVec 16)
  /-- `RAIL_UV_CLEAR` (R318). -/
  | railUvClear (x : TileReading)
  /-- `RAIL_ADC_FAULT` (R318). -/
  | railAdcFault (t : Fin 16) (decivolts : BitVec 16)
  /-- `GATE_SUPPLY_LOW` (R314). -/
  | gateSupplyLow (n : Fin 128)
  /-- `GATE_SUPPLY_RECOVERED` (R310). -/
  | gateSupplyRecovered (n : Fin 128)
  /-- `HK_FAULT_CLEAR` (R310). -/
  | hkFaultClear (t : Fin 16)
  /-- `AUX12_LOW` (R323). -/
  | aux12Low (t : Fin 16)
  /-- `RELAY_COIL_FAULT` (R323). -/
  | relayCoilFault (t : Fin 16) (r : Fin 12) (mA : BitVec 16)
  /-- `BOND_IMBALANCE` (R307). -/
  | bondImbalance (n : Fin 128) (mA : Measured)
  /-- `TDC_CALIBRATION` (R303). -/
  | tdcCalibration (t : Fin 16)
  /-- `TEST_REQ` (R348). -/
  | testReq (ph : Phase) (o : Origin) (d : Body)
  /-- `TEST_CANCEL` (R366). -/
  | testCancel (ph : Phase) (o : Origin) (d : Body)
  /-- `TESTGEN_SET` (R365). -/
  | testgenSet (ph : Phase) (o : Origin) (d : Body)
  /-- `TEST_DONE` (R364). -/
  | testDone (n : Fin 128) (r : Measured)
  /-- `TEST_STOP` (R354). -/
  | testStop (n : Fin 128)
  /-- `TEST_EXPIRED` (R351). -/
  | testExpired (n : Fin 128) (k : Fin 6)
  /-- `PILOT_WINDOW_END` (R339). -/
  | pilotWindowEnd (n : Fin 128) (valid z ph v i : Measured)
  /-- `PILOT_BLIND` (R342). -/
  | pilotBlind (n : Fin 128)
  /-- `PILOT_BLIND_LONG` (R342). -/
  | pilotBlindLong (n : Fin 128)
  /-- `LP_DIAG_ADMIT_WRITE` (R349). -/
  | lpDiagAdmitWrite (m : Master) (k : Fin 5) (v : Word)
  /-- `MODE_SET_VA` (R370). -/
  | modeSetVa (ph : Phase) (o : Origin) (d : Body)
  /-- `MODE_SET_BAT` (R371). -/
  | modeSetBat (ph : Phase) (o : Origin) (d : Body)
  /-- `MODE_SET_WUP` (R376). -/
  | modeSetWup (ph : Phase) (o : Origin) (d : Body)
  /-- `MODE_SET_MNT` (R373). -/
  | modeSetMnt (ph : Phase) (o : Origin) (d : Body)
  /-- `MODE_SET_FTM` (R379). -/
  | modeSetFtm (ph : Phase) (o : Origin) (d : Body)
  /-- `BAT_AUTO_ENTER` (R371). -/
  | batAutoEnter
  /-- `BAT_AUTO_LEAVE` (R371). -/
  | batAutoLeave
  /-- `MNT_TIMEOUT` (R373). -/
  | mntTimeout
  /-- `GBL_FTM_UNLOCK_WRITE` (R379). -/
  | gblFtmUnlockWrite (m : Master) (v : Word)
  /-- `UNLOCK_WINDOW_EXPIRY` (R379). -/
  | unlockWindowExpiry (entry : Bool)
  /-- `FTM_INJ_SOURCE` (R381). -/
  | ftmInjSource (m : Master) (v : Word)
  /-- `FTM_INJ_HOLD_CAUSE` (R380). -/
  | ftmInjHoldCause (m : Master) (v : Word)
  /-- `FTM_INJ_LINK_FRAMES` (R380). -/
  | ftmInjLinkFrames (m : Master) (v : Word)
  /-- `FTM_INJ_VAT_ECC` (R380). -/
  | ftmInjVatEcc (m : Master) (v : Word)
  /-- `INJECTED_CAUSE_EXPIRY` (R385). -/
  | injectedCauseExpiry (n : Fin 128) (cause : Fin 11)
  /-- `CROSSOVER_ZERO_CROSSING` (R547). -/
  | crossoverZeroCrossing (n : Fin 128) (timeout : Bool)
  /-- `CROSSOVER_APPLY` (R547). -/
  | crossoverApply (n : Fin 128)
  /-- `CROSSOVER_COMPLETE` (R547). -/
  | crossoverComplete
  /-- `TROXLINK_CONTROL_FRAME` (R392). -/
  | troxlinkControlFrame (bytes : List Byte)
  /-- `TROXLINK_BUS_FRAME` (R394). -/
  | troxlinkBusFrame (bytes : List Byte)
  /-- `BLOCK_LOCK_LOSS` (R390). -/
  | blockLockLoss
  /-- `HEARTBEAT_TIMEOUT` (R390). -/
  | heartbeatTimeout
  /-- `PARTNER_ALIVE_CHECK` (R401). -/
  | partnerAliveCheck
  /-- `PARTNER_BUS_MISSING` (R399). -/
  | partnerBusMissing (n : Fin 128)
  /-- `TAKEOVER_RECHECK` (R398). -/
  | takeoverRecheck (n : Fin 128)
  /-- `TAKEOVER_RELEASE` (R398). -/
  | takeoverRelease (n : Fin 128)
  /-- `TAKEOVER_COMPLETE` (R398). -/
  | takeoverComplete (n : Fin 128)
  /-- `RETURN_SILENCE` (R403). -/
  | returnSilence (n : Fin 128)
  /-- `MAX_HOLD_EXPIRY` (R403). -/
  | maxHoldExpiry (n : Fin 128)
  /-- `RETURN_MUTE` (R404). -/
  | returnMute (n : Fin 128)
  /-- `RETURN_RELAY_CLEAR` (R404). -/
  | returnRelayClear (n : Fin 128)
  /-- `RETURN_RESTORE` (R404). -/
  | returnRestore (n : Fin 128)
  /-- `RETURN_COMPLETE` (R404). -/
  | returnComplete (n : Fin 128)
  /-- `PAIR_BIND` (R395). -/
  | pairBind (ph : Phase) (o : Origin) (d : Body)
  /-- `PAIR_BUS` (R393). -/
  | pairBus (ph : Phase) (o : Origin) (d : Body)
  /-- `PAIR_RETURN` (R403). -/
  | pairReturn (ph : Phase) (o : Origin) (d : Body)
  /-- `GBL_BATON_CLAIM_WRITE` (R413). -/
  | gblBatonClaimWrite (p : Fin 3) (v : Word)
  /-- `BATON_WITHDRAW` (R415). -/
  | batonWithdraw (p : Fin 3)
  /-- `GBL_BATON_LEASE_WRITE` (R415). -/
  | gblBatonLeaseWrite (m : Master) (v : Word)
  /-- `GBL_BATON_PASS_WRITE` (R417). -/
  | gblBatonPassWrite (m : Master) (v : Word)
  /-- `GBL_BATON_ACCEPT_WRITE` (R418). -/
  | gblBatonAcceptWrite (p : Fin 3) (v : Word)
  /-- `ELECTION_WINDOW_CLOSE` (R414). -/
  | electionWindowClose
  /-- `LEASE_EXPIRY` (R415). -/
  | leaseExpiry
  /-- `PASS_TIMEOUT` (R417). -/
  | passTimeout
  /-- `HANDOVER_COMPLETE` (R420). -/
  | handoverComplete
  /-- `BATON_ADOPT_DISCARD` (R422). -/
  | batonAdoptDiscard (o : Origin) (d : Body)
  /-- `BATON_ADOPT_ADOPT` (R422). -/
  | batonAdoptAdopt (o : Origin) (d : Body) (rds : List ReadResult)
  /-- `VOTE_MARK` (R423). -/
  | voteMark (ph : Phase) (o : Origin) (d : Body)
  /-- `VOTE_TIMEOUT` (R425). -/
  | voteTimeout (o : Origin)
  /-- `GBL_SHADOW_WRITE` (R427). -/
  | gblShadowWrite (m : Master) (k : Fin 64) (v : Word)
  /-- `SHADOW_LAG` (R428). -/
  | shadowLag (k : Fin 64)
  /-- `FUNCTION_LEVEL_RESET` (R430). -/
  | functionLevelReset (p : Fin 3) (burst : Bool)
  /-- `PCIE_LINK_DOWN` (R71). -/
  | pcieLinkDown (p : Fin 3)
  /-- `PCIE_LINK_UP` (R432). -/
  | pcieLinkUp (p : Fin 3) (speed : Fin 3) (width : Fin 3) (bme msixEn fmask : Bool)
  /-- `COMPLETION_TIMEOUT` (R410). -/
  | completionTimeout (p : Fin 3) (timeout : Bool) (ring : Option (Fin 32768))
  /-- `DOORBELL_WRITE` (R440). -/
  | doorbellWrite (m : Master) (r : Fin 32768) (low : Bool) (idx : Word)
  /-- `RING_ENABLE` (R437). -/
  | ringEnable (m : Master) (r : Fin 32768) (v : Word)
  /-- `RING_DISABLE` (R438). -/
  | ringDisable (m : Master) (r : Fin 32768) (v : Word)
  /-- `RING_READ_DONE` (R444). -/
  | ringReadDone (r : Fin 32768) (ds : List (Desc × List ReadResult))
  /-- `RING_WRITE_ERROR` (R446). -/
  | ringWriteError (r : Fin 32768)
  /-- `RING_STALL_LONG` (R445). -/
  | ringStallLong (r : Fin 32768)
  /-- `IRQ_COALESCE_TIMEOUT` (R460). -/
  | irqCoalesceTimeout (r : Fin 32768)
  /-- `NOP` (R465). -/
  | nop (ph : Phase) (o : Origin) (d : Body)
  /-- `BARRIER` (R465). -/
  | barrier (o : Origin) (d : Body)
  /-- `BARRIER_RELEASE` (R465). -/
  | barrierRelease (r : Fin 32768)
  /-- `SRC_BIND` (R467). -/
  | srcBind (ph : Phase) (o : Origin) (d : Body)
  /-- `SRC_FALLBACK` (R467). -/
  | srcFallback (ph : Phase) (o : Origin) (d : Body)
  /-- `STREAM_SET` (R468). -/
  | streamSet (ph : Phase) (o : Origin) (d : Body)
  /-- `CH_GAIN` (R467). -/
  | chGain (ph : Phase) (o : Origin) (d : Body)
  /-- `FLOW_RX_SET` (R469). -/
  | flowRxSet (ph : Phase) (o : Origin) (d : Body)
  /-- `FLOW_ENTRY_FETCHED` (R469). -/
  | flowEntryFetched (o : Origin) (rd : ReadResult)
  /-- `FLOW_TX_SET` (R149). -/
  | flowTxSet (ph : Phase) (o : Origin) (d : Body)
  /-- `VSRC_SET` (R154). -/
  | vsrcSet (ph : Phase) (o : Origin) (d : Body)
  /-- `FAULT_EVENT_LATCH` (R482). -/
  | faultEventLatch (evs : List Ev)
  /-- `BLOCK_RESET_DONE` (R478). -/
  | blockResetDone (src : Fin 256)
  /-- `SHADOW_CLOSE` (R489). -/
  | shadowClose (src : Fin 256)
  /-- `BLOCK_RESET_OVERDUE` (R491). -/
  | blockResetOverdue (src : Fin 256)
  /-- `ENGINE_RESET` (R539). -/
  | engineReset
  /-- `INT_HOLDOFF_END` (R477). -/
  | intHoldoffEnd (p : Fin 3)
  /-- `FC_ACK_WRITE` (R486). -/
  | fcAckWrite (m : Master) (v : Word)
  /-- `FC_PF_CLEAR_WRITE` (R484). -/
  | fcPfClearWrite (m : Master) (v : Word)
  /-- `FC_FSW_CLEAR` (R492). -/
  | fcFswClear (m : Master) (w : Fin 8) (v : Word)
  /-- `FC_FSW0_READ` (R492). -/
  | fcFsw0Read (m : Master)
  /-- `FC_HIST_TIME_LO_READ` (R483). -/
  | fcHistTimeLoRead (m : Master) (k : Fin 33)
  /-- `FAULT_ACK` (R486). -/
  | faultAck (o : Origin) (d : Body)
  /-- `FAULT_CLEAR` (R496). -/
  | faultClear (o : Origin) (d : Body)
  /-- `FAULT_PF_CLEAR` (R484). -/
  | faultPfClear (o : Origin) (d : Body)
  /-- `FAULT_REACT` (R496). -/
  | faultReact (ph : Phase) (o : Origin) (d : Body)
  /-- `COLLECTOR_OSCILLATOR_STOP` (R494). -/
  | collectorOscillatorStop
  /-- `SCRUB_LINE_READ` (R513). -/
  | scrubLineRead (bank : Fin 18) (bad : List (Fin 8 × Bool))
  /-- `GBL_SYS_CTRL_WRITE` (R506). -/
  | gblSysCtrlWrite (m : Master) (v : Word)
  /-- `LOCKSTEP_MISMATCH` (R521). -/
  | lockstepMismatch
  /-- `CORE_WATCHDOG_EXPIRY` (R526). -/
  | coreWatchdogExpiry (c : Fin 5)
  /-- `CORE_KICK_WRITE` (R526). -/
  | coreKickWrite (m : Master) (c : Fin 5) (v : Word)
  /-- `MACHINE_TIMER` (R524). -/
  | machineTimer (c : Fin 5)
  /-- `CORE_MTIME_LO_READ` (R524). -/
  | coreMtimeLoRead (m : Master)
  /-- `CORE_DQ_PUSH` (R527). -/
  | coreDqPush (m : Master) (n : Fin 4) (v : Word) (rd : ReadResult)
  /-- `CORE_CQ_POP` (R527). -/
  | coreCqPop (m : Master) (n : Fin 4) (v : Word)
  /-- `CORE_MBOX_BELL` (R523). -/
  | coreMboxBell (m : Master) (c : Fin 5)
  /-- `CORE_MBOX_RAISE` (R552). -/
  | coreMboxRaise (m : Master) (c : Fin 5) (v : Word)
  /-- `CORE_AC_RESET` (R478). -/
  | coreAcReset (m : Master) (n : Fin 4) (v : Word)
  /-- `CORE_HOSTBOOT_GO` (R532). -/
  | coreHostbootGo (m : Master) (v : Word)
  /-- `OTP_READ` (R535). -/
  | otpRead (m : Master)
  /-- `OTP_PROGRAM` (R535). -/
  | otpProgram (m : Master)
  /-- `OTP_PROGRAM_DONE` (R535). -/
  | otpProgramDone (ok : Bool)
  /-- `CRYPTO_SHA384` (R533). -/
  | cryptoSha384 (m : Master)
  /-- `CRYPTO_ECDSA_VERIFY` (R533). -/
  | cryptoEcdsaVerify (m : Master)
  /-- `CRYPTO_DONE` (R533). -/
  | cryptoDone
  /-- `TL_DEF_COMMIT` (R541). -/
  | tlDefCommit (m : Master) (t : Fin 16) (v : Word)
  /-- `TL_DEF_STORE_DONE` (R541). -/
  | tlDefStoreDone (t : Fin 16)
  /-- `SOFTWARE_RESET_KEY` (R561). -/
  | softwareResetKey (m : Master) (v : Word)
  /-- `GBL_LOCK_WRITE` (R564). -/
  | gblLockWrite (m : Master) (v : Word)
  /-- `DIE_TEMPERATURE_CROSSING` (R599). -/
  | dieTemperatureCrossing (celsius : BitVec 16)
  /-- `THERMAL_SHUTDOWN` (R599). -/
  | thermalShutdown
  /-- `THERMAL_RELEASE` (R599). -/
  | thermalRelease
  /-- `REGISTER_WRITE` (R12). -/
  | registerWrite (m : Master) (a : RegTarget) (be : BitVec 4) (v : Word)
  /-- `TILE_LINK_RETURN` (R333). -/
  | tileLinkReturn (t : Fin 16)
  /-- `TILE_FAULT_N_LOW` (R317). -/
  | tileFaultNLow (t : Fin 16)
  /-- `REF_10M_RETURN` (R50). -/
  | ref10mReturn
  /-- `AUX12_RESTORED` (R587). -/
  | aux12Restored (t : Fin 16)
  /-- `RC_REGISTER_READ` (R14). -/
  | rcRegisterRead (m : Master) (off : BitVec 25)
  /-- `HOST_BAR2_WRITE` (R411). -/
  | hostBar2Write (p : Fin 3) (off : BitVec 27) (bytes : List Byte)
deriving DecidableEq, Repr

end Sys2Proof
end

