-- ==== Sys2Proof/Decode.lean ====
section
/-! DEFINITION. The decoder over the rows of the table that give bits. No row of spec/opcode_table.json gives any: its commands
are writes and reads of registers, descriptors, frames and events, each presented with its operands. So no word spells one. -/

/-- The command a word spells by the table's bits: none, since no row of the table gives bits. -/
def Sys2Proof.decodeTableWord (_nbits _w : Nat) : Option Sys2Proof.Instr := none
end

