-- ==== Sys2Proof/Machine/Bits.lean ====
section
/-! DEFINITION. Bit fields of registers, little-endian fields of descriptors, sign extension, the CRC-32 of IEEE 802.3 and
the operations on sparse tables. -/

namespace Sys2Proof.Machine

/-! ### Fields of a register -/

/-- The mask of bits `hi` to `lo`. -/
def fieldMask (hi lo : Nat) : Word := BitVec.ofNat 32 (2 ^ (hi - lo + 1) - 1) <<< lo

/-- Bits `hi` to `lo` of a register, as a number. -/
def fld (w : Word) (hi lo : Nat) : Nat := (w >>> lo).toNat % 2 ^ (hi - lo + 1)

/-- A register with bits `hi` to `lo` replaced by the low bits of `v`. -/
def setFld (w : Word) (hi lo v : Nat) : Word :=
  (w &&& ~~~(fieldMask hi lo)) ||| ((BitVec.ofNat 32 v <<< lo) &&& fieldMask hi lo)

def bitAt (w : Word) (i : Nat) : Bool := w.getLsbD i

def setBitAt (w : Word) (i : Nat) (b : Bool) : Word :=
  if b then w ||| (1#32 <<< i) else w &&& ~~~(1#32 <<< i)

/-- One more, stopping at the largest value of `n` bits: the saturating counters of the tables. -/
def satInc (n v : Nat) : Nat := if v + 1 < 2 ^ n then v + 1 else 2 ^ n - 1

/-- The signed value of an `n`-bit two's complement number. -/
def signed (n v : Nat) : Int := if v < 2 ^ (n - 1) then (v : Int) else (v : Int) - 2 ^ n

/-- The `n`-bit two's complement pattern of an integer. -/
def pattern (n : Nat) (v : Int) : Nat := (v % 2 ^ n).toNat

def clampNat (lo hi v : Nat) : Nat := if v < lo then lo else if hi < v then hi else v

def clampInt (lo hi v : Int) : Int := if v < lo then lo else if hi < v then hi else v

def ceilDiv (a b : Nat) : Nat := (a + b - 1) / b

/-! ### Little-endian bytes (R11) -/

/-- The little-endian number in `n` bytes of `bs` from byte `off`; a byte beyond the end counts as zero. -/
def leAt (bs : List Byte) (off : Nat) : Nat → Nat
  | 0 => 0
  | n + 1 => (bs.getD off 0#8).toNat + 256 * leAt bs (off + 1) n

/-- The `n` little-endian bytes of a number. -/
def leBytes : Nat → Nat → List Byte
  | 0, _ => []
  | n + 1, v => BitVec.ofNat 8 v :: leBytes n (v / 256)

/-- Every byte from `off` for `n` bytes is zero: the check of a reserved field. -/
def zerosAt (bs : List Byte) (off n : Nat) : Bool := ((bs.drop off).take n).all (· == 0#8)

/-- The offset of the first non-zero byte among `n` bytes from `off`. -/
def firstNonzero (bs : List Byte) (off : Nat) : Nat → Option Nat
  | 0 => none
  | n + 1 => if bs.getD off 0#8 = 0#8 then firstNonzero bs (off + 1) n else some off

/-- `bs` with the bytes from `off` replaced by `new`. -/
def patch (bs : List Byte) (off : Nat) (new : List Byte) : List Byte :=
  bs.take off ++ new ++ bs.drop (off + new.length)

/-- The four words of bytes, first word first. -/
def wordsOf : Nat → List Byte → List Word
  | 0, _ => []
  | n + 1, bs => BitVec.ofNat 32 (leAt bs 0 4) :: wordsOf n (bs.drop 4)

def bytesOfWords (ws : List Word) : List Byte := ws.flatMap fun w => leBytes 4 w.toNat

/-! ### CRC-32 (IEEE 802.3), as R466, R541 and the clip and flow entries use it -/

def crcStep : Nat → Nat → Nat
  | 0, c => c
  | n + 1, c => crcStep n (if c % 2 = 1 then (c / 2) ^^^ 0xEDB88320 else c / 2)

def crcByte (c : Nat) (b : Byte) : Nat := crcStep 8 (c ^^^ b.toNat)

/-- Reflected polynomial 0xEDB8_8320, initial value and final exclusive-or all ones. -/
def crc32 (bs : List Byte) : Word := BitVec.ofNat 32 ((bs.foldl crcByte 0xFFFFFFFF) ^^^ 0xFFFFFFFF)

/-! ### Sparse tables -/

/-- The value at an index: the listed one, or the default. -/
def Sparse.get {α : Type} (d : α) : Sparse α → Nat → α
  | [], _ => d
  | (i, a) :: m, k => if k = i then a else Sparse.get d m k

/-- The table without an index. -/
def Sparse.del {α : Type} : Sparse α → Nat → Sparse α
  | [], _ => []
  | (i, a) :: m, k => if k = i then Sparse.del m k else (i, a) :: Sparse.del m k

/-- The table with a value listed at an index. -/
def Sparse.put {α : Type} : Sparse α → Nat → α → Sparse α
  | [], k, v => [(k, v)]
  | (i, a) :: m, k, v =>
    if k < i then (k, v) :: (i, a) :: m else if k = i then (k, v) :: m else (i, a) :: Sparse.put m k v

/-- The table with index `k` at `v`, in canonical form: the default is not listed. -/
def Sparse.set {α : Type} [DecidableEq α] (d : α) (m : Sparse α) (k : Nat) (v : α) : Sparse α :=
  if v = d then Sparse.del m k else Sparse.put m k v

/-- Indices strictly rise, the first above `lo`. -/
def Sparse.rising {α : Type} : Option Nat → Sparse α → Bool
  | _, [] => true
  | none, (i, _) :: m => Sparse.rising (some i) m
  | some lo, (i, _) :: m => decide (lo < i) && Sparse.rising (some i) m

/-- Canonical form: indices strictly rise and no listed value is the default of its index. -/
def Sparse.wf {α : Type} [DecidableEq α] (d : Nat → α) (m : Sparse α) : Bool :=
  Sparse.rising none m && m.all (fun p => decide (p.2 ≠ d p.1))

/-- A memory (the vat, core SRAM, a TCM) in canonical form: addresses strictly rise, and no entry is the zero that an unlisted
byte reads as. -/
abbrev Memory.wf (m : Sparse (BitVec 8)) : Bool := Sparse.wf (fun _ => 0#8) m

/-- The number whose bit `i`, of `n`, says whether `p i`. -/
def bitsOf (p : Nat → Bool) (n : Nat) : Nat := (List.range n).foldl (fun a i => a + if p i then 2 ^ i else 0) 0

/-- Apply `f` to each of `0 … n-1`, threading the state. -/
def forUpto {σ : Type} (n : Nat) (f : Nat → σ → σ) (s : σ) : σ := (List.range n).foldl (fun s i => f i s) s

end Sys2Proof.Machine
end

