-- ==== Sys2Proof/Machine/State.lean ====
section
/-! DEFINITION. The state of the block as plain data, its reset, and the reasons a step may stop.

Every register of BAR0 has one home, `State.regs`, a sparse table from its byte offset to its value; an offset that is not
listed reads as its reset value (`resetWord`). The records below hold what the spec gives the machine beyond its registers:
parameters in force that no register shows whole, ramps and waits in progress, queues, memories and pins. Tables indexed by
a lane, zone, ring or the like are sparse with a named default. -/

namespace Sys2Proof.Machine

/-! ### Why a step may stop -/

/-- The faults of this model: none. Every command of the table has an effect the spec gives (a command that finds the block
in a state it does not apply to leaves the state as it is), so no meaning ends in a fault. Safe: nothing raises one. -/
inductive Fault where
  /-- No meaning raises it; the constructor keeps the type inhabited. Safe. -/
  | none
deriving DecidableEq, Repr

/-- The refusals of this model. -/
inductive Refusal where
  /-- The command has no meaning yet: raised by an arm of `exec` only. Safe, and a gap where the spec gives an effect. -/
  | notModelled (mnemonic : String)
deriving DecidableEq, Repr

/-! ### Power, pins and straps -/

/-- Whether the controller runs, is held in power-on reset (R586), or is held in thermal shutdown (R599). -/
inductive Hold where
  | run | power | thermal
deriving DecidableEq, Repr, Inhabited

/-- The VA_ALIVE pin (R493, R494): not driven before the collector runs, toggling at 500 Hz, held low by a fault or a mode, or
static at its last level after the collector oscillator stops. -/
inductive VaPin where
  | notDriven | toggling | low | static
deriving DecidableEq, Repr, Inhabited

structure Pins where
  va : VaPin := .toggling
  /-- GEN_FAULT_n is driven low (R493, R494). -/
  genLow : Bool := false
  /-- Bit n: TILE_SAFE_n of tile port n is asserted (R316, R480, R536). -/
  tileSafe : BitVec 16 := 0xFFFF
deriving DecidableEq, Repr, Inhabited

/-! ### The pacer (02_pacer_heats_clocks.md) -/

/-- How far the step sequence of R55 has come: armed (before boundary h0), ramping out (h0 to h0 + 8 ms), jumped (from the jump to
the first heat of the new grid), ramping in (from step 4 to step 6). -/
inductive StepPhase where
  | armed | rampOut | jumped | rampIn
deriving DecidableEq, Repr, Inhabited

structure StepH where
  value : BitVec 64 := 0
  phase : StepPhase := .armed
  /-- Heat boundary h0 of R55, once it has come. -/
  h0 : Nat := 0
  /-- The engine was in warm-up, so steps 2 and 5 are left out (R57). -/
  warm : Bool := false
deriving DecidableEq, Repr, Inhabited

structure PacerH where
  /-- TAI nanoseconds (R44). -/
  ns : BitVec 64 := 0
  /-- Binary fraction of a nanosecond, in units of 2^-32 ns (R44). -/
  frac : BitVec 32 := 0
  /-- Outstanding slew (R54), in units of 10^-12 ns. -/
  slew : Int := 0
  /-- Slew written in HOLDOVER, held pending (R52), in ns. -/
  pendSlew : Int := 0
  /-- The adjustment f frozen on entry to HOLDOVER (R51), in units of 10^-12. -/
  frozen : Rat := 0
  /-- The adjustment f of the last 16,000 heats, newest first, as runs of (f, heats): what the 16 s average is taken over (R51). -/
  fHist : List (Rat × Nat) := []
  /-- When the present run of reported offsets inside, and outside, ±THRESH began, in pacer ns (R51). -/
  inSince : Option Nat := none
  outSince : Option Nat := none
  /-- Firmware has written PCR_SERVO_OFFSET within the watchdog, and since DISC_SRC last changed (R50). -/
  ptpOk : Bool := false
  ptpSince : Bool := false
  /-- Consecutive 1PPS edges outside the window (R50). -/
  ppsBad : Nat := 0
  step : Option StepH := none
  /-- The synthesiser has lost lock to the pacer clock (R64). -/
  synthLost : Bool := false
  /-- Stretched time of this heat so far, in µs, and whether it has passed `U_US` (R81). -/
  stretched : Nat := 0
deriving DecidableEq, Repr, Inhabited

/-! ### The collector (15_fault_collection.md) -/

/-- An open reaction shadow (R489): the reset source, the history slot and SEQ of the entry that caused it, how many consequential
events it has collected, whether event 0x01 of source 231 has been raised for it, and whether the reset has completed. -/
structure ShadowFc where
  src : Nat := 0
  slot : Nat := 0
  seq : Word := 0
  conseq : Nat := 0
  isOver : Bool := false
  done : Bool := false
deriving DecidableEq, Repr, Inhabited

structure FcH where
  /-- Entries created since power-on, which is SEQ of the last one (R483). -/
  seq : Word := 0
  shadows : List ShadowFc := []
  /-- Sources whose block reset is in progress (R478). -/
  resets : List Nat := []
  /-- Sources whose block is held in reset at RESET_MAX (R478). -/
  held : List Nat := []
  /-- Block resets in the open reaction window of a source (R478). -/
  rstCnt : Sparse Nat := []
  /-- Ports on which an MSI-X was raised within the last 10 µs (R477). -/
  irqBusy : List Nat := []
  /-- Ports with combined INTs waiting for the end of those 10 µs. -/
  irqWait : List Nat := []
  /-- A collector ENGINE_RESET or an accepted software reset awaits its start (R480, R561). -/
  engReset : Bool := false
  /-- The collector oscillator has stopped (R494). -/
  oscStopped : Bool := false
  /-- The collector runs (R536 step 2). -/
  running : Bool := true
  /-- Events presented and not yet latched, oldest first, at most 8 of a source (R472). -/
  queue : List Ev := []
  /-- Sources whose block has discarded an event that waited behind eight others (R472). -/
  lostSrc : List Nat := []
deriving DecidableEq, Repr, Inhabited

/-! ### Host ports, baton, votes and shadow rings (13_host_ports_baton.md) -/

structure HpH where
  /-- MSI-X is enabled, and the function mask, in the port's configuration space (R604). -/
  msixEn : Bool := false
  fmask : Bool := false
  /-- The port's MSI-X table and PBA, by word (R408, R409). -/
  table : Sparse Word := []
  pba : Sparse Word := []
  /-- The messages sent and the vector of the last one. -/
  sent : Nat := 0
  lastVec : Option Nat := none
  /-- A function-level reset is in progress (R446). -/
  flr : Bool := false
deriving DecidableEq, Repr, Inhabited

/-- A baton write made during HANDOVER, applied when the state reaches HELD (R418). -/
inductive BatonOp where
  | claim (port : Fin 3) (v : Word)
  | withdraw (port : Fin 3)
  | pass (port : Fin 3) (v : Word)
deriving DecidableEq, Repr

structure BatonH where
  /-- The port that last held the baton (R420), 3 for none. -/
  last : Nat := 3
  /-- The port a handover goes to and its lease (R420). -/
  next : Nat := 3
  nextLease : Nat := 0
  pendOps : List BatonOp := []
  /-- Writes were dropped, or doorbells refused, in this heat, so event 0x23 or 0x24 has been raised in it (R411, R412). -/
  dropSeen : Bool := false
  refSeen : Bool := false
  /-- A handover moved by R419: event 0x2A goes with 0x20. -/
  revert : Bool := false
deriving DecidableEq, Repr, Inhabited

/-- A copy of a voted descriptor (R425): where it stands, the port it came from, and its TAG and IRQ flag. -/
structure Copy where
  org : Origin
  port : Nat := 0
  tag : BitVec 64 := 0
  irq : Bool := false
deriving DecidableEq, Repr

/-- Which rule turns a commit time into a heat (R449): the zone mixer acts at samples, lane parameters at zone bus heats, every
other block at heat boundaries; a port channel's change acts at samples too (R60, R104); some opcodes act at acceptance. -/
inductive Blk where
  | zone | lane | port | other | now
deriving DecidableEq, Repr, Inhabited

/-- Where a voted update stands (R425, R416, R606): not voted, open, completed with no owner present yet, or completed with
an owner in a heat. -/
inductive VoteSt where
  | none | open_ | waits | done (heat : Nat)
deriving DecidableEq, Repr, Inhabited

/-- An accepted descriptor that has not completed: waiting for its commit (R175, R449), its vote, its readiness, or the
block that carries it out. -/
structure Sched where
  id : Nat := 0
  org : Origin := .core 0 0
  desc : Desc := {}
  blk : Blk := .other
  /-- The commit heat, and the sample within it (R60). -/
  heat : Nat := 0
  sample : Nat := 0
  late : Bool := false
  /-- The heat and sample of the scheduled commit, from which readiness is judged and a silent start counts (R178, R179). -/
  asked : Nat := 0
  askedSample : Nat := 0
  /-- READY_DL and ABANDON taken at the scheduled commit, once judged not ready (R178). -/
  ready : Option (Nat × Bool) := none
  /-- Group number and member index (R452). -/
  group : Option Nat := none
  gidx : Nat := 0
  /-- Heats spanned, for a member of a split group (R456). -/
  split : Option Nat := none
  vote : VoteSt := .none
  copies : List Copy := []
  /-- The update has started its layer silent and waits for its vote (R181). -/
  silent : Bool := false
  /-- Whether the layer's output is zero at the commit sample, so that a change to it applies there with no wait (R168), once judged. -/
  zero : Option Bool := none
  /-- Heats the update has been moved by R177, one already found able to commit. -/
  moved : Nat := 0
  /-- What the fetch a LANE_PARAM makes at acceptance returned (R241, R244). -/
  fetched : ReadResult := .error
  /-- The entry of the LP's pending area that holds the update's data (R241). -/
  pend : Option Nat := none
deriving DecidableEq, Repr, Inhabited

/-- An open or completed vote whose copies still count (R425): the update's number, boundaries left before the window closes. -/
structure VoteH where
  id : Nat := 0
  left : Nat := 0
  /-- The heat of the opening copy's acceptance. -/
  heat : Nat := 0
  complete : Bool := false
  /-- The status of the execution, once known: later copies complete with it. -/
  status : Option (Nat × Nat) := none
  desc : Desc := {}
  ports : List Nat := []
deriving DecidableEq, Repr, Inhabited

/-- A shadow descriptor fetched and not yet compared: the heats it has waited, whether 0x2B has been raised for it, and whether
it has completed already because a check refused it (R428). -/
structure ShadowEnt where
  org : Origin := .core 0 0
  desc : Desc := {}
  heats : Nat := 0
  lagged : Bool := false
  settled : Bool := false
deriving DecidableEq, Repr, Inhabited

/-- A shadow pair (R427 to R429): frozen, and the descriptors of each side that wait for a counterpart. -/
structure PairH where
  active : Bool := false
  frozen : Bool := false
  /-- Mirrored descriptors fetched and not yet compared, oldest first. -/
  mirror : List Desc := []
  shadow : List ShadowEnt := []
  /-- Pairs compared: the position of the next comparison. -/
  pos : Nat := 0
deriving DecidableEq, Repr, Inhabited

/-! ### Rings and descriptors (14_rings_descriptors.md) -/

/-- A group of chained descriptors (R452): its ring, its members accepted so far in ring order, whether it is closed, and the
member that settled it with its status and VALUE (R453). -/
structure GroupH where
  id : Nat := 0
  ring : Nat := 0
  policy : Nat := 0
  members : List Sched := []
  closed : Bool := false
  bad : Option (Nat × Nat × Nat) := none
deriving DecidableEq, Repr, Inhabited

structure RingH where
  /-- Entries the engine has written that the host has not returned, oldest first. -/
  ents : List (List Byte) := []
  /-- Completion slots of this ring reserved by fetches (R445). -/
  resv : Nat := 0
  /-- Entries written since the ring was enabled (R461). -/
  seq : Nat := 0
  /-- A run of drops is in progress, so the next entry has LOST_BEFORE (R443). -/
  dropRun : Bool := false
  /-- Blocks dropped since the previous capture entry (R463). -/
  dropped : Nat := 0
  /-- Entries written since the last interrupt, and whether the coalescing timer runs (R460). -/
  unsig : Nat := 0
  coRun : Bool := false
  /-- The pacer time in ns of the first entry not yet signalled (R460). -/
  coFrom : Nat := 0
  /-- Consecutive heats the ring has been stalled (R445). -/
  stallHeats : Nat := 0
  /-- A BARRIER that holds fetching from the ring (R465). -/
  barrier : Option Sched := none
  /-- The open group of the ring (R452). -/
  group : Option Nat := none
deriving DecidableEq, Repr, Inhabited


/-! ### Serial ports (03_serial_ports.md) -/

/-- A block being received (R90 to R95). -/
structure OpenBlk where
  time : BitVec 64 := 0
  heat : Nat := 0
  mask : Word := 0
  /-- Frames so far, oldest first: one sample per enabled channel; and the same before any channel gain or mute (R156). -/
  frames : List (List Word) := []
  raws : List (List Word) := []
  overrun : Nat := 0
  glitch : Nat := 0
  flags : Nat := 0
  first : Nat := 0
  inHeat : Nat := 0
  parity : Nat := 0
  invalid : Nat := 0
deriving DecidableEq, Repr, Inhabited

/-- A port or channel change waiting for a zero crossing (R104, R105): the gain in 0.01 dB and the mute it will leave, and the pacer time
in ns of its commit, from which a crossing counts (R60). -/
structure GainWait where
  gain : Int := 0
  mute : Bool := false
  start : Nat := 0
deriving DecidableEq, Repr, Inhabited

/-- A port channel's gain and mute in force, and the change waiting (R104). -/
structure ChanH where
  gain : Int := 0
  mute : Bool := false
  wait : Option GainWait := none
  /-- Changes whose commit sample has not come, in order of commit (R60). -/
  due : List GainWait := []
  /-- A 64-sample ramp from the gain and mute before a timeout (R104), at the sample reached. -/
  ramp : Option (Int × Bool × Nat) := none
  /-- The last sample that came to the channel, and whether it was a zero crossing: zero, or of another sign than the one before. -/
  last : Word := 0
  cross : Bool := true
deriving DecidableEq, Repr, Inhabited

/-- The converter of a stream (R32, R72 to R75, R94): the input frames it holds, newest first, each with its time in ns and one sample of
each channel, none of a channel that was not received; the length of its filter; TIME and frames of the last input block; the ratio measured last and the one
before, unsigned 8.24; the count of its converted blocks, and the blocks in the stream's own vat allocation, whose place the spec does not
give, newest first. -/
structure ConvH where
  hist : List (Rat × List (Option Word)) := []
  last : Option (Nat × Nat) := none
  ratio : Word := 0
  prev : Word := 0
  seq : Nat := 0
  ring : List (List Byte) := []
deriving DecidableEq, Repr, Inhabited

/-- The clock outputs of a TDM port in master mode (R87): driven, with the bit clocks of a frame, for how many of them frame sync is
active, and whether its active level is low. -/
structure TdmPins where
  drive : Bool := false
  clocks : Nat := 0
  fsActive : Nat := 0
  fsLow : Bool := false
deriving DecidableEq, Repr, Inhabited

/-- A received stream with a block under way: a TDM port's receiver, an AES3 receiver, a PDM group. -/
structure RxH where
  blk : Option OpenBlk := none
  /-- Blocks written since the port was enabled (R95). -/
  seq : Nat := 0
  /-- Frames of this heat so far, over all its blocks. -/
  frameIdx : Nat := 0
  /-- The next receive mask waits for a frame sync (R96), or for the next heat (R97). -/
  maskDue : Bool := false
  maskHeld : Bool := false
  /-- Consecutive good frames towards a return (R77). -/
  good : Nat := 0
  /-- The next block is the first after a clock return (R77, R95). -/
  returned : Bool := false
  /-- A STREAM_SET has committed for the stream (R468): its FILTER code and ALLOC. -/
  conv : Option (Nat × Nat) := none
  /-- Flags to put into the next block opened. -/
  nextFlags : Nat := 0
  /-- A PDM group is declared lost (R77); a TDM port or AES3 receiver shows it in its status register. Blocks of WARMING left of the group
  itself (R124). -/
  lost : Bool := false
  warm : Nat := 0
  /-- The blocks of this heat already closed, oldest first (R97). -/
  parts : List OpenBlk := []
  /-- The last heat whose block has closed. -/
  closed : Option Nat := none
deriving DecidableEq, Repr, Inhabited

/-- A transmitter: the next mask waits for a frame sync (R96), a template commit waits for a Z preamble (R117), the templates
in use and the channel status under way, and the frame sent last with its validity bits (R101, R116 to R118). -/
structure TxH where
  maskDue : Bool := false
  csDue : Bool := false
  tmplA : List Word := []
  tmplB : List Word := []
  csA : List Word := []
  csB : List Word := []
  sent : List Word := []
  /-- The validity bit of each channel (R118). -/
  invalid : List Bool := [false, false]
  zSent : Bool := false
  /-- The data line of the frame sent last, by bit clock, and the bit clocks at which it is driven; whether it changes on falling edges
  (R83, R86). -/
  line : BitVec 1024 := 0
  driven : BitVec 1024 := 0
  falling : Bool := false
deriving DecidableEq, Repr, Inhabited

/-- One AES3 (or AM824) channel's status assembly and muting (R110 to R114). -/
structure CsH where
  /-- Channel-status bits gathered since the last Z preamble, oldest first. -/
  bits : List Bool := []
  started : Bool := false
  /-- The channel plays audio (R112), and the good audio blocks counted towards lifting the mute. -/
  open_ : Bool := false
  okRun : Nat := 0
  /-- Samples done of the 64-sample fade-in after the mute (R112); 64 when none is under way. -/
  fade : Nat := 64
  nonAudio : Bool := false
  aux20 : Bool := false
  /-- The last valid sample, the previous output sample, and the run of held samples (R113, R114). -/
  lastValid : Option Word := none
  prev : Word := 0
  heldRun : Nat := 0
deriving DecidableEq, Repr, Inhabited

/-- A PDM microphone (R124, R125): blocks of WARMING left, consecutive stuck and moving heats. -/
structure MicH where
  warm : Nat := 0
  stuckRun : Nat := 0
  okRun : Nat := 0
  stuck : Bool := false
  /-- Consecutive heats in the stuck state (R125). -/
  stuckHeats : Nat := 0
  /-- The bits of the heat before, in the order sampled (R119, R121). -/
  bits : List Bool := []
  /-- The last blocks, newest first: heat and samples. -/
  blks : List (Nat × List Word) := []
deriving DecidableEq, Repr, Inhabited

/-! ### Source entries, flows, voted sources (04_packet_audio_voting.md, R467) -/

/-- What a source entry is bound to (R467). -/
inductive Bind where
  | none
  | tdm (port slot : Nat)
  | aes (rx ch : Nat)
  | mic (m : Nat)
  | flow (f ch : Nat)
  | voted (v : Nat)
deriving DecidableEq, Repr, Inhabited

/-- A converter in use (R72): the stream it serves (TDM port n is n, AES3 receiver n is 16 + n, TDM transmitter n is 32 + n, AES3
transmitter n is 48 + n, receive flow f is 4096 + f) and its channels. -/
structure AsrcH where
  stream : Nat := 0
  chans : Nat := 0
deriving DecidableEq, Repr, Inhabited

/-- One side of a switch between two inputs (R77, R169): silent, playing, waiting for a zero crossing to join or to leave, or ramping
in or out over 64 samples after a timeout, with the samples done. -/
inductive Side where
  | off | on | joinWait | leaveWait
  | rampIn (n : Nat)
  | rampOut (n : Nat)
deriving DecidableEq, Repr, Inhabited

/-- A block of a source entry at 48 kHz: its heat, the number since the epoch of the 48 kHz sample whose nominal time lies nearest its TIME
(R155), its samples, and what a voter compares: the samples as converted at the port, none where the input is absent (R94, R156). -/
structure EntBlk where
  heat : Nat := 0
  base : Int := 0
  out : List Word := []
  raw : List (Option Word) := []
  /-- No block closed for the heat: silence stands in its place. -/
  made : Bool := false
deriving DecidableEq, Repr, Inhabited

structure SrcH where
  bind : Bind := .none
  fallback : Option Nat := none
  /-- The input is lost, or its port disabled (R77, R89). -/
  lost : Bool := false
  /-- The entry's own input and its fallback, as they play (R77, R467). -/
  own : Side := .on
  fb : Side := .off
  /-- Samples left of a 64-sample fade-in or fade-out, and the sample a fade-out is formed from (R98). -/
  fadeIn : Nat := 0
  fadeOut : Nat := 0
  last : Word := 0
  /-- The entry's blocks, newest first (R165), and the first heat its input plays again after a return (R78). -/
  blks : List EntBlk := []
  since : Nat := 0
  /-- What the entry plays in the heat the zone mixer builds: its own input and its fallback, each by its side (R77, R467). -/
  plays : List Word := []
  /-- The entry counts as absent for the ambient estimator and tests (R125). -/
  stuck : Bool := false
deriving DecidableEq, Repr, Inhabited

structure LegH where
  up : Bool := false
  good : Nat := 0
deriving DecidableEq, Repr, Inhabited

/-- A receive flow (R133 to R145): its 48-byte entry in force, the jitter buffer as (sample count since the epoch, one sample of each
channel, whether each is as received), its legs and its counts for the open block. -/
structure FlowH where
  entry : List Byte := []
  buf : List (Nat × List Word × List Bool) := []
  leg0 : LegH := {}
  leg1 : LegH := {}
  /-- An asynchronous flow has acquired, and what its media times are to be shifted by, in ns (R141); the end of the last packet in
  samples with its arrival, and the same when the last block closed: the ratio is tracked between them. -/
  acquired : Bool := false
  shift : Int := 0
  arrived : Option (Nat × Nat) := none
  mark : Option (Nat × Nat) := none
  /-- The flow acquires after a restart, so its first usable block has TIME_DISC too (R136). -/
  fresh : Bool := false
  /-- The last heat whose block has closed. -/
  closed : Option Nat := none
  legs : Nat := 0
  late : Nat := 0
  early : Nat := 0
  dup : Nat := 0
  parity : Nat := 0
  invalid : Nat := 0
  seq : Nat := 0
  nextFlags : Nat := 0
  csA : CsH := {}
  csB : CsH := {}
  /-- The last channel status of each channel of an AM824 flow (R138). -/
  stA : List Byte := []
  stB : List Byte := []
  /-- The flow's block ring in the engine's own allocation, whose place in the vat the spec does not give: newest first. -/
  ring : List (List Byte) := []
deriving DecidableEq, Repr, Inhabited

/-- A transmit flow (R148 to R152): its 32-byte entry, the sequence number of the next packet, and the frame each leg sent last. -/
structure TxFlowH where
  entry : List Byte := []
  seq : BitVec 16 := 0
  last0 : List Byte := []
  last1 : List Byte := []
deriving DecidableEq, Repr, Inhabited

/-- A voted source (R153 to R160): its entry and the JOINING count of each input. -/
structure VsH where
  entry : List Byte := []
  join : List Nat := [0, 0, 0]
  /-- The kind of run in progress: 0 none, else the event code of the last heat (R157). -/
  run : Nat := 0
  /-- A crossfade from an input, and its samples done (R159). -/
  fade : Option (Nat × Nat) := none
deriving DecidableEq, Repr, Inhabited

/-! ### Zones (05_zones_layers.md) -/

/-- A gain ramp (R166): from a gain to the gain in force at its end, both in 0.01 dB with -12,000 for zero, over `len` samples,
`pos` of them done. -/
structure RampH where
  start : Rat := 0
  goal : Rat := 0
  len : Nat := 0
  pos : Nat := 0
deriving DecidableEq, Repr, Inhabited

structure ZoneH where
  gain : Int := 0
  mute : Bool := false
  en : Bool := false
  ambEn : Bool := false
  /-- ZC_TIMEOUT (R194). -/
  zcT : Nat := 0
  ramp : Option RampH := none
  /-- A step waiting for a zero crossing (R167): the gain, mute and enable it will leave. -/
  wait : Option (Int × Bool × Bool) := none
  /-- A 64-sample raised-cosine ramp of the zone's factor (R167): the factor it leaves, and the samples done. -/
  fade : Option (Rat × Nat) := none
  /-- The ambient entry in force (R197), the noise level in 0.01 dB, the offset in 0.01 dB, and a run of holding heats (R190). -/
  amb : List Byte := []
  noise : Option Int := none
  offset : Rat := 0
  holdRun : Bool := false
  /-- The averaged measured powers by microphone slot × 7 + band, the averaged powers of the buses lanes take by lane × 7 + band, and the
  predicted powers by microphone slot × 7 + band (R189). -/
  pMeas : List Rat := []
  pLane : Sparse Rat := []
  pPred : List Rat := []
  /-- The offset target T in 0.01 dB, unchanged while the estimator holds (R190, R191). -/
  ambT : Rat := 0
  /-- The last finished blocks, newest first: heat, post tap, pre tap, and whether the block was replaced (R185, R187). -/
  done : List (Nat × List Word × List Word × Bool) := []
  /-- The block under way is late (R185); samples done of the fade-in of the first finished block after a late one. -/
  late : Bool := false
  back : Option Nat := none
deriving DecidableEq, Repr, Inhabited

structure LayerH where
  srcType : Nat := 0
  srcId : Nat := 0
  gain : Int := 0
  mute : Bool := false
  prio : Nat := 0
  depth : Nat := 0
  att : Nat := 0
  rel : Nat := 0
  act : Nat := 0
  thresh : Nat := 0
  hold : Nat := 0
  readyDl : Nat := 0
  abandon : Bool := false
  va : Bool := false
  noAmb : Bool := false
  asserted : Bool := false
  /-- THRESHOLD activity: samples left of it (R173). -/
  holdLeft : Nat := 0
  ramp : Option RampH := none
  /-- A gain, mute or gate step waiting for a zero crossing (R167): gain, mute, gate. -/
  wait : Option (Int × Bool × Bool) := none
  /-- A 64-sample raised-cosine ramp of the gain under way: the linear factor it leaves, and the samples done. -/
  fade : Option (Rat × Nat) := none
  /-- The source in force, as it plays, and the source being left (R169). -/
  side : Side := .on
  old : Nat × Nat := (0, 0)
  oldSide : Side := .off
  /-- The gate in force: what assert opened and release has not yet closed (R173). -/
  gate : Bool := false
  /-- Duck depth in force and its target, in 0.01 dB (R172); the layer that set the target, its depth and times, and those of the layer that
  set the target before it; a 64-sample ramp of the factor: the factor it leaves, and the samples done. -/
  duck : Rat := 0
  duckGoal : Nat := 0
  duckSet : Nat := 0
  duckBy : Nat × Nat × Nat := (0, 0, 0)
  duckPrev : Nat × Nat × Nat := (0, 0, 0)
  duckFade : Option (Rat × Nat) := none
  /-- Started silent: its timeline starts at this heat and sample (R179). -/
  silent : Option (Nat × Nat) := none
  /-- The update whose vote a silent start waits for (R181). -/
  voteWait : Option Nat := none
  /-- NOT_READY: an update is being retried until this heat (R178). -/
  retry : Option Nat := none
deriving DecidableEq, Repr, Inhabited

/-- A lane's route: the bus in force and how it plays, and the one being left (R167, R169, R186): a zone, or from 256 on a zone bus of
the partner (R399). -/
structure RouteH where
  zone : Option Nat := none
  side : Side := .on
  old : Option Nat := none
  oldSide : Side := .off
  /-- The lane holds its partner's line or is about to, so it ignores its own route: the route to take back, and one stored meanwhile
  (R186, R399, R404). -/
  stored : Option (Option Nat) := none
  partner : Bool := false
deriving DecidableEq, Repr, Inhabited

/-- A wave of a test generator (R365): the 16 payload bytes that set it, the samples made since, its LFSR (R608), and the last white samples, newest
first. -/
structure WaveH where
  cfg : List Byte := []
  count : Nat := 0
  lfsr : Nat := 0
  noise : List Rat := []
deriving DecidableEq, Repr, Inhabited

/-- A test generator (R365): its descriptor's parameters, those it crossfades from, and the samples done of the crossfade. -/
structure GenH where
  cur : WaveH := {}
  /-- The wave it leaves, and how far the crossfade is. -/
  old : WaveH := {}
  fade : Option Nat := none
  /-- The last sample made: its number since the epoch, and its value. -/
  out : Option (Nat × Word) := none
deriving DecidableEq, Repr, Inhabited

/-! ### Players and the clip cache (06_announcement_players.md) -/

/-- Contents of a clip that a load has replaced: the pages of each copy, the length in words and the FORMAT (R219). -/
structure ClipOld where
  pages : List Nat := []
  pages2 : List Nat := []
  len : Nat := 0
  fmt : Nat := 0
deriving DecidableEq, Repr, Inhabited

/-- A playlist entry read and queued (R203, R204): its 64 bytes and its place in the ring; the bytes of a kind 0 clip fetched so far,
whether all of them are, and whether it has been found bad (R215), and where each read's bytes stand in the stream of bytes fetched for the
player, by their first byte in the clip (R224); the 48 kHz samples done of its current play, its repeats so far and the samples of the
timeline played in all. `own` marks the fallback clip, which no ring entry stands for (R216). -/
structure PEntry where
  bytes : List Byte := []
  index : Nat := 0
  data : List Byte := []
  reads : List (Nat × Nat) := []
  fetched : Bool := false
  bad : Bool := false
  own : Bool := false
  /-- It plays the contents its clip had before a load replaced them (R219). -/
  held : Option ClipOld := none
  at_ : Nat := 0
  rep : Nat := 0
  played : Nat := 0
deriving DecidableEq, Repr, Inhabited

/-- An entry that ends under a crossfade into the next (R210), with the samples done of how many. -/
structure PTail where
  ent : PEntry := {}
  done : Nat := 0
  len : Nat := 0
deriving DecidableEq, Repr, Inhabited

structure PlayerH where
  ring : Nat := 0
  cpl : Nat := 0
  fallback : Option Nat := none
  /-- Entries read, the one playing first. -/
  queue : List PEntry := []
  tail : Option PTail := none
  /-- The last sample played, the samples left of a fade-out, and the samples done of a fade-in (R214, R215). -/
  last : Word := 0
  fadeOut : Nat := 0
  fadeIn : Option Nat := none
  /-- Samples of the timeline since the player starved (R214). -/
  gap : Nat := 0
  /-- The player joins its next entry at the next heat boundary (R215). -/
  hold : Bool := false
  /-- The last entry finished carried END (R214). -/
  ended : Bool := false
  failedReads : Nat := 0
  /-- The message that was cut off goes on in entries not yet read, up to one with END (R213). -/
  dropping : Bool := false
  /-- The host port of the playlist ring has had a function-level reset (R216). -/
  flr : Bool := false
  /-- Bytes fetched for the player so far: the last 64 KiB of them stand in its fetch buffer in the vat (R224). -/
  fed : Nat := 0
deriving DecidableEq, Repr, Inhabited

/-- A CLIP_LOAD whose fetch is outstanding (R219). -/
structure LoadH where
  upd : Sched := {}
  pages : List Nat := []
  pages2 : List Nat := []
deriving DecidableEq, Repr

structure ClipH where
  pages : List Nat := []
  pages2 : List Nat := []
  /-- The heat in which it was played last, for eviction (R220). -/
  used : Nat := 0
deriving DecidableEq, Repr, Inhabited
/-! ### Cores, OTP and boot (17_cores_boot_warmup.md) -/

/-- A control core as the rest of the engine sees it: 0 to 3 are AC0 to AC3, 4 is the SSV (R523). What its firmware computes is
outside the block; each access it makes arrives as a command. -/
structure CoreH where
  /-- Descriptors queued, oldest first, at most 16 (R527), each with what a read it makes at acceptance returns. -/
  dq : List (Desc × ReadResult) := []
  /-- Descriptors taken from the queue so far: the INDEX of the next. -/
  dqTaken : Nat := 0
  /-- Completion slots reserved by descriptors taken. -/
  resv : Nat := 0
  /-- Completions waiting, oldest first, at most 32. -/
  cq : List (List Byte) := []
  /-- An NMI has been taken and not returned from, and a second is held (R525). -/
  nmi : Bool := false
  nmiHeld : Bool := false
  mcause : Word := 0
  /-- The pc of the core, where a command of the table sets it: the reset vector, the image's entry, or the NMI entry. -/
  pc : Word := 0
  /-- The pc an NMI interrupted: a free value, since the core's program is outside the block. -/
  mepc : Word := 0
  /-- Watchdog restarts seen since its last expiry. -/
  kicks : Nat := 0
  /-- Heats since the watchdog last started, was restarted or expired (R526). -/
  wdogHeats : Nat := 0
  /-- The machine timer interrupt is pending (R524). -/
  timer : Bool := false
  /-- An application core's tightly coupled memory (R520). -/
  tcm : Sparse Byte := []
deriving DecidableEq, Repr, Inhabited

/-- A crypto operation in progress (R533). -/
structure CryptoH where
  op : Nat := 0
  src : Word := 0
  len : Word := 0
  arg : Word := 0
deriving DecidableEq, Repr, Inhabited

/-- A vat word with an injected or detected error (R511 to R514): the bits that differ, and whether more than one does. -/
structure BadWord where
  word : Nat := 0
  double : Bool := false
  listed : Bool := false
deriving DecidableEq, Repr, Inhabited

structure BankH where
  /-- Words of the bank that hold an error, by 64-bit word index. -/
  bad : List BadWord := []
  /-- The next line the scrubber reads (R513). -/
  line : Nat := 0
  /-- Event 0x05 has been raised for a full list (R514). -/
  fullSeen : Bool := false
  /-- Bits to flip in the next write to the bank (R380): 0 none, 1 or 2. -/
  inject : Nat := 0
deriving DecidableEq, Repr, Inhabited

/-- The software reset key sequence (R561): the master that wrote the first key, and the pacer time at which it did, in ns. -/
abbrev KeySeq := Option (Master × Nat)

/-! ### Lanes and tiles (08_loudspeaker_protection.md, 09_modulation_power_tile.md) and the crossover (R547) -/

/-- The system gain of a lane (R311, R312, R55): zero, ramping in over 8 ms, full, or ramping out. -/
inductive GainSt where
  | zero | rampIn | full | rampOut
deriving DecidableEq, Repr, Inhabited

/-- An edge commanded of a half-bridge (R297, R302): of B rather than A, falling rather than rising, and when, in units of 62.5 ps from the start
of the link frame. -/
structure EdgeCmd where
  b : Bool := false
  fall : Bool := false
  time : Int := 0
deriving DecidableEq, Repr, Inhabited

/-- An edge as issued (R302): when one switch turns off and when its partner turns on, in ps from the start of the link frame. -/
structure EdgeOut where
  cmd : EdgeCmd := {}
  off : Rat := 0
  on : Rat := 0
deriving DecidableEq, Repr, Inhabited

/-- The edges of a lane (R297, R301 to R303, R331). -/
structure EdgesH where
  /-- Edges commanded that have not been measured, and those measured last as they were issued. -/
  due : List EdgeCmd := []
  out : List EdgeOut := []
  /-- The current at the last edge of half-bridges A and B, in mA. -/
  mA : Int := 0
  mB : Int := 0
  /-- The last five errors of the noise shaper, newest first, of each half-bridge's rising and falling edges. -/
  shaper : List (List Rat) := []
  /-- Updates of each entry of the correction table since tile power-up, up to 64. -/
  upd : Sparse Nat := []
  /-- This heat: transitions, the sum of the squares and the largest of their residuals in ps, periods clamped, and periods with ILIM. -/
  count : Nat := 0
  sumSq : Nat := 0
  top : Nat := 0
  clips : Nat := 0
  ilim : Nat := 0
  /-- The edge statistics of the heat before. -/
  stat : List Word := []
deriving DecidableEq, Repr, Inhabited

/-- What the rind of a lane measures (R279): the squares of the current over the last 100 ms and the voltage over the last 10 ms, newest first, the
leaky flux integral, and the sense periods for which the mean voltage has been above the ceiling. -/
structure RindH where
  ii : List Rat := []
  v : List Rat := []
  flux : Rat := 0
  dcRun : Nat := 0
deriving DecidableEq, Repr, Inhabited

/-- The probe of a lane (R321): samples played and sense samples taken since it began, and the sums of its lock-in for voltage and current. -/
structure ProbeH where
  played : Nat := 0
  taken : Nat := 0
  v : Rat × Rat := (0, 0)
  i : Rat × Rat := (0, 0)
deriving DecidableEq, Repr, Inhabited

/-- A CAL of a lane at its tile (R363): sense samples to average, those taken since it began, and the sums of the voltage and current codes. -/
structure CalH where
  len : Nat := 9600
  taken : Nat := 0
  v : Int := 0
  i : Int := 0
deriving DecidableEq, Repr, Inhabited

/-- An EARTH of a lane at its tile (R358): the injection in V peak, link frames played and samples taken since it began, and the sums of the 17 Hz
demodulation of the common-mode voltage and of the half-bridges' summed current. -/
structure EarthH where
  volts : Nat := 15
  played : Nat := 0
  taken : Nat := 0
  v : Rat × Rat := (0, 0)
  i : Rat × Rat := (0, 0)
deriving DecidableEq, Repr, Inhabited

/-- A lane beside its registers: `TLn_LANEl_STATE` holds its state code, hold causes, RUN and MUTE as the tile has them. -/
structure LaneH where
  gain : GainSt := .zero
  /-- Where in its 3,072 samples a ramp under way stands. -/
  rampPos : Nat := 0
  /-- RUN and MUTE as LANE_RUN commands them, the mute of an LP reset (R252, R313) and the pairing mute (R398, R404). -/
  run : Bool := false
  mute : Bool := false
  lpMute : Bool := false
  pairMute : Bool := false
  /-- What asks for the pairing mute: the partner holds the lane's line (R400), or the lane is to take or return one (R398, R404). -/
  pairOwn : Bool := false
  pairTake : Bool := false
  /-- The mute MUTE_REQ has brought about, and MUTE_REQ as the lane program's link control area gives it (R330); the last LANE_RUN of the lane was a stop (R391). -/
  muteReq : Bool := false
  mreq : Bool := false
  stopped : Bool := false
  /-- The LANE_RUN that is ramping (R312). -/
  cmd : Option Sched := none
  /-- PWM periods in a row whose pulse reached ILIM (R319, R320). -/
  ilimRun : Nat := 0
  /-- ILIM has acted in the run of heats before this one, and in this one (R319). -/
  ilimHeat : Bool := false
  ilimPrev : Bool := false
  /-- Gain and offset are applied in the tile; the fast-path gain g_F, and whether it acted in this heat and in the one before (R286). -/
  fast : Rat := 1
  /-- The lowest g_F of the frame under way (R328), and the commanded voltages of the last frame's samples (R297). -/
  fastLow : Rat := 1
  volts : List Rat := []
  fastAct : Bool := false
  fastPrev : Bool := false
  /-- The VPK clamp has acted in this heat, and in the one before (R279, R292). -/
  clamp : Bool := false
  clampPrev : Bool := false
  /-- FAST_FRAC and REL_MS as the lane program's link control area gives them (R326, R330). -/
  fastFrac : Nat := 0
  relMs : Nat := 0
  /-- The takeover relay as the pairing unit commands it, and a change the tile holds until the lane is safe (R323). -/
  relay : Bool := false
  relayHeld : Bool := false
  /-- The heats of the rind trips within the last 60 s, newest first, and a rind lockout (R282). -/
  trips : List Nat := []
  rindLocked : Bool := false
  /-- The eight 384 kHz samples of the last downstream frame, as signed 32-bit values (R325). -/
  samples : List Word := []
  /-- The heats of the confirmed shorts of the last 60 s, newest first, and an ILIM hit in the probe under way (R321, R322). -/
  shorts : List Nat := []
  probeHit : Bool := false
  /-- The edge statistics of the last heat reported (R331), as words; the edges of the lane, its rind's measures and its probe. -/
  edge : List Word := []
  edges : EdgesH := {}
  rind : RindH := {}
  probe : ProbeH := {}
  /-- The CAL under way, and the offsets of the sense calibration, in codes of voltage and current (R329, R363). -/
  cal : Option CalH := none
  offV : Rat := 0
  offI : Rat := 0
  /-- The EARTH under way (R358). -/
  earth : Option EarthH := none
  /-- Sense samples in a row in which the lane's current has been more than 15 % from its group's mean (R307). -/
  uneven : Nat := 0
  /-- The hold causes injected under factory test, each with the heat at which it clears (R380, R385). -/
  injected : List (Nat × Nat) := []
  /-- The emergency samples of the last frame cross zero: one is zero, or two in a row differ in sign (R104, R547). -/
  crossed : Bool := false
  /-- Periods with ILIM in the frame under way (R328), the spread LFSR and the phase of the triangular profile (R298, R299), the start
  of the next switching period after the frame, in units of 62.5 ps, and the switching periods of the last frame: each
  with its length in units of 62.5 ps and its modulation index (R295, R296, R298). -/
  ilimFrame : Nat := 0
  lfsr : Nat := 0
  tri : Rat := 0
  nextPer : Rat := 0
  periods : List (Nat × Rat) := []
  /-- What the line-evidence detector finds (R389): pilot amplitude in mV peak, programme level in 10 mV rms. -/
  levPilot : Nat := 0
  levProg : Nat := 0
  /-- The last 960 samples at the line-evidence inputs, newest first, in codes (R389). -/
  lev : List Int := []
deriving DecidableEq, Repr, Inhabited

/-- A mailbox operation (R325, R335): 1 write, 2 read, 3 SSV write; the tile register offset and the data. -/
structure MboxOp where
  op : Nat := 0
  off : Nat := 0
  data : Word := 0
deriving DecidableEq, Repr, Inhabited

/-- A tile and its link, beside the tile's registers. -/
structure TileH where
  /-- Events the tile has raised that no upstream frame has carried yet (R473): source, code, syndrome. -/
  evs : List (Nat × Nat × Word) := []
  /-- Mailbox operations waiting for a downstream frame, and the one the tile has yet to answer (R335). -/
  mbox : List MboxOp := []
  resp : Option MboxOp := none
  /-- Consecutive good downstream frames at the tile (R310), and consecutive missing upstream frames at the controller (R23). -/
  good : Nat := 0
  upMiss : Nat := 0
  /-- The seeds have been loaded since power-up or the last link loss (R299). -/
  seeded : Bool := false
  /-- Event 0xC1 has been raised in this heat (R315). -/
  missSeen : Bool := false
  missCnt : Nat := 0
  /-- RLY8 to RLY11 as RELAY_SET commands them, and drivers that wait for a fresh command after a de-energise (R323). -/
  relayCmd : BitVec 12 := 0
  fresh : BitVec 12 := 0
  /-- AUX12 is above 10 V (R323, R587). -/
  aux12 : Bool := true
  /-- The link trained on a port marked absent (R22), and downstream frames to omitFrames (R380). -/
  omitFrames : Nat := 0
  /-- The battery value the host has set, in 0.1 V (R285). -/
  batt : Option Nat := none
  /-- BATT_SENSE, rail minimum and mean of the last upstream frame; the rail ADC's code at the tile's latest sample. -/
  battPin : Nat := 0
  railMean : Nat := 0
  railCode : Nat := 0
  /-- The lane-defaults image stored, and the one in use since the last power-up or engine reset (R540, R541); empty as
  delivered (R607). -/
  defs : List Byte := []
  defsUse : List Byte := []
  /-- The SSV found the defaults bad in the last training window (R538). -/
  defsBad : Bool := false
  /-- Values the SSV would have sent, had it not been halted (R521). -/
  unsent : List MboxOp := []
  /-- TDC calibrations done (R303). -/
  tdcCals : Nat := 0
  /-- Bit i: the tile's island i is out of tolerance as its monitor found it last (R66, R69, R71). -/
  islOut : BitVec 11 := 0
  /-- Sense samples the tile took last, and those of the last good upstream frame, by channel (R327). -/
  sense : List (BitVec 24) := []
  heard : List (BitVec 24) := []
  /-- HEAT and FRAME of the last good downstream frame, and MISS of the next upstream frame (R327). -/
  lastHeat : Nat := 0
  lastFrame : Nat := 0
  missUp : Bool := false
  /-- TAG of the mailbox operation last sent (R325). -/
  tag : Bool := false
  /-- Heats in a row in which the rail stood below `BAT_FRAC` % of nominal (R371). -/
  railLow : Nat := 0
  /-- The last frame in each direction, as bytes (R325, R327). -/
  down : List Byte := []
  up : List Byte := []
deriving DecidableEq, Repr, Inhabited

/-- A lane that plays its emergency samples is taken over by the pipeline (R547): it waits for a zero crossing, ramps its emergency
samples to zero, is at zero since a heat, ramps in on the pipeline, or has passed. -/
inductive XPhase where
  | waiting | fading | zeroed (heat : Nat) | rampIn | passed
deriving DecidableEq, Repr, Inhabited

structure XoverH where
  active : Bool := false
  /-- The MODE_SET that completes with the crossover (R376). -/
  upd : Option Sched := none
  /-- The pacer time of its step 1 in ns. -/
  since : Nat := 0
  lanes : List (Nat × XPhase) := []
deriving DecidableEq, Repr, Inhabited

/-- The power pool (R289, R290): POOL_SET's values, and a run of shedding, of VA shedding and of overcommitment in progress. -/
structure PoolH where
  watts : Nat := 0
  floor : Int := 0
  vaFloor : Int := 0
  tau : Nat := 0
  en : Bool := false
  shed : Bool := false
  vaShed : Bool := false
  isOver : Bool := false
deriving DecidableEq, Repr, Inhabited


/-! ### Lane processors (07_lane_processor.md) -/

/-- A result of a slot waiting for its latency (R230, R231): the cycle in which it is written, its slot (0 F0, 1 F1, 2 M, 3 C), its
register (0 to 63 are f0 to f63, 64 to 79 a0 to a15), its value, and whether its bundle is the one still issuing. -/
structure WriteBack where
  due : Nat := 0
  slot : Nat := 0
  reg : Nat := 0
  val : Word := 0
  cur : Bool := false
deriving DecidableEq, Repr, Inhabited

/-- A hardware loop (R235): its first and last bundle and the runs left. -/
structure HwLoop where
  first : Nat := 0
  last : Nat := 0
  left : Nat := 0
deriving DecidableEq, Repr, Inhabited

/-- A VLD or VST in flight (R234): DMEM address, vat bank offset and bytes. -/
structure Transfer where
  load : Bool := false
  dmem : Nat := 0
  off : Nat := 0
  len : Nat := 0
deriving DecidableEq, Repr, Inhabited

/-- A lock-in channel (R225, R236, R237): frequency and phase as set, the binary64 accumulators and the count. -/
structure LockIn where
  freq : Word := 0
  phase : Word := 0
  i : BitVec 64 := 0
  q : BitVec 64 := 0
  count : Nat := 0
deriving DecidableEq, Repr, Inhabited

/-- A delay line (R246, R247): where the next sample goes, the delay in force, and a crossfade: from which delays, each with its
share of the mix reached, and how far. -/
structure DelayLn where
  pos : Nat := 0
  delay : Nat := 0
  old : List (Nat × Rat) := []
  fade : Option Nat := none
deriving DecidableEq, Repr, Inhabited

/-- The two states of a biquad section (R236). -/
structure BiqS where
  s1 : Word := 0
  s2 : Word := 0
deriving DecidableEq, Repr, Inhabited

/-- The signal chain of the standard program for one lane (R256, R258, R263, R270, R273, R275, R276, R288). -/
structure ChainH where
  /-- The lane gain in 0.01 dB, its ramp, a step that waits for a zero crossing (its goal and the samples waited), the 64-sample ramp that applies
  it after the timeout, and the last input sample (R256). -/
  gain : Int := 0
  ramp : Option RampH := none
  wait : Option (Int × Nat) := none
  fade : Option (Rat × Nat) := none
  last : Word := 0
  /-- The states of the EQ sections, and the last 511 samples that went into the FIR, oldest first. -/
  eq : List BiqS := []
  fir : List Word := []
  /-- The dynamic high-pass, the excursion model or flux integral, and the last 15 samples that went into the interpolation. -/
  hp : BiqS := {}
  model : BiqS := {}
  poly : List Word := []
  /-- The 10 s averages of the line's measured and predicted power, the means of v × i and v² of the heats of the last second, newest first, and the
  POOL_TAU average of the programme's mean square. -/
  pMeas : Rat := 0
  pPred : Rat := 0
  load : List (Rat × Rat) := []
  demand : Rat := 0
deriving DecidableEq, Repr, Inhabited

/-- The identification of a lane (R271): the last 63 sense samples of current and voltage, the samples decimated to 3 kHz, newest first, the
back-EMF, newest first, the fit c1, c2, g and its 3 × 3 matrix by rows, and whether the last heat updated it. -/
structure IdentH where
  i : List Rat := []
  v : List Rat := []
  iDec : List Rat := []
  eDec : List Rat := []
  fit : List Rat := []
  cov : List Rat := []
  active : Bool := false
deriving DecidableEq, Repr, Inhabited

/-- A test the standard program runs on a lane (R344, R346, R355 to R363): its kind and mode, level in dB, frequencies, the ms a tone is measured,
the zone bus heat it began with, the heat from which it ramps out, and whether it is done. -/
structure RunH where
  kind : Nat := 0
  mode : Nat := 0
  level : Rat := 0
  fA : Rat := 0
  fB : Rat := 0
  dur : Nat := 0
  start : Nat := 0
  stop : Option Nat := none
  done : Bool := false
  /-- Points measured, and the two conductances of a tweeter check. -/
  points : Nat := 0
  g : List Rat := []
  /-- PROVE's LFSR, and its last noise samples, newest first (R360, R608). -/
  lfsr : Nat := 0
  noise : List Rat := []
deriving DecidableEq, Repr, Inhabited

/-- The state of the standard program for one lane (R259, R263 to R276, R337 to R343). -/
structure LaneDiag where
  /-- The last good parameter block (R259), none when the program holds none. -/
  good : Option (List Byte) := none
  /-- The block before it, in the heat whose swap changes the EQ or the FIR (R256). -/
  prev : Option (List Byte) := none
  chain : ChainH := {}
  ident : IdentH := {}
  /-- TEST_SEQ of the last test section executed, and the test (R344). -/
  seq : Nat := 0
  test : Option RunH := none
  /-- Heats of the pilot window under way, and whether each has been valid (R339). -/
  win : Nat := 0
  winOk : Bool := true
  /-- The block taken in this heat changes the supervision fields. -/
  supNew : Bool := false
  /-- Heats without a valid window, as blindness counts them (R342). -/
  noWin : Nat := 0
  /-- The last kept reading of Re (R267). -/
  reMeas : Option Rat := none
  /-- The pilot: the candidate verdict and its consecutive windows, and windows since the last valid one (R341, R346). -/
  cand : Nat := 0
  run : Nat := 0
  since : Nat := 0
  /-- BLIND has been reported, and its 100 s (R342). -/
  blind : Bool := false
  /-- The thermal model (R266 to R269): coil and magnet temperatures, g_T, whether the estimate is confirmed, and the readings in a row
  that lay 20 K above the model, and out of range. -/
  tvc : Rat := 0
  tm : Rat := 0
  gT : Rat := 1
  confirmed : Bool := false
  hotRun : Nat := 0
  reRun : Nat := 0
  /-- Identification (R272): f0, Qms and K in force, results accepted, whether one has been, and seconds drifted. -/
  f0 : Rat := 0
  qms : Rat := 0
  k : Rat := 0
  accepted : Nat := 0
  first : Bool := false
  drift : Nat := 0
  /-- Heats since a zone bus sample reached IDLE_DB (R337). -/
  quiet : Nat := 0
  /-- The other gains and the high-pass corner in force (R273, R276, R284, R290), and the P_TAU average of the line's power. -/
  gX : Rat := 1
  fHp : Rat := 0
  gP : Rat := 1
  gR : Rat := 1
  gS : Rat := 1
  pAvg : Rat := 0
  /-- A limiter acted in the heat before: thermal, coil at T_MAX, excursion, saturation guard, line power (R269, R273, R275, R276). -/
  actT : Bool := false
  atMax : Bool := false
  actX : Bool := false
  actV : Bool := false
  actP : Bool := false
deriving DecidableEq, Repr, Inhabited

structure LpH where
  /-- f0 to f63 at 0 to 63 and a0 to a15 at 64 to 79. -/
  regs : Sparse Word := []
  wb : List WriteBack := []
  pc : Nat := 0
  /-- Cycles since the heat began, and the cycle from which the M slot is free (DLYX). -/
  cyc : Nat := 0
  mFree : Nat := 0
  /-- Slots of the current bundle that have issued: F0, F1, M. -/
  f0 : Bool := false
  f1 : Bool := false
  m : Bool := false
  stack : List Nat := []
  loops : List HwLoop := []
  xfers : List Transfer := []
  /-- Lanes with ODONE in this heat; lanes whose output is sent in the heat before it. -/
  odone : BitVec 8 := 0
  send : BitVec 8 := 0
  /-- Lanes whose last output was replaced, the samples left of the 512-sample fade-in after it, the value last sent, the value a fade
  starts from, and the non-finite samples replaced (R239, R240). -/
  replaced : BitVec 8 := 0
  fadeIn : Sparse Nat := []
  lastSent : Sparse Rat := []
  fadeFrom : Sparse Rat := []
  nonFin : Nat := 0
  /-- The zone bus heat being processed, the heat of the sense samples the program reads, and that of the samples being received (R228, R236, R329). -/
  zbHeat : Nat := 0
  senseHeat : Nat := 0
  fillHeat : Nat := 0
  /-- Bits of the next heat block (R228). -/
  first : Bool := true
  ovrPrev : Bool := false
  stretch : Bool := false
  senseB : Bool := false
  outB : Bool := false
  /-- Active parameter banks, and lanes whose bank flips at the next boundary (R241). -/
  bank : BitVec 8 := 0
  swap : BitVec 8 := 0
  imem : Sparse Word := []
  dmem : Sparse Word := []
  lock : Sparse LockIn := []
  dly : Sparse DelayLn := []
  diag : Sparse LaneDiag := []
  /-- The staged image's length and the SHA-384 recorded for it (R249, R253). -/
  stageLen : Nat := 0
  hash : List Byte := []
  /-- The state a block reset interrupted, and whether a start waits for a boundary (R251). -/
  was : Nat := 0
  startDue : Bool := false
  /-- A stop ramps the lanes out (R251). -/
  stopping : Bool := false
  /-- Lanes to ramp in once an output of the program has been sent (R250, R251). -/
  rampDue : Bool := false
  /-- Consecutive heats without HEND (R240). -/
  hangRun : Nat := 0
  /-- Rail and sense of the heat under way, from upstream frames: sum and count of means, lowest, highest, frames missing. -/
  railSum : Nat := 0
  railN : Nat := 0
  railMin : Nat := 0xFFFF
  railMax : Nat := 0
  gap : Nat := 0
  /-- Voltage of BATT_SENSE averaged (R285), in units of 0.1 mV. -/
  battAvg : Rat := 0
deriving DecidableEq, Repr, Inhabited

/-- An LP_LOAD that has not completed (R250): its image, its LPs, START, the SSV's verdict, whether it has committed and begun, and
the LPs that have still to start. -/
structure LpLoad where
  upd : Sched := {}
  mask : BitVec 16 := 0
  start : Bool := false
  image : List Byte := []
  verdict : Option Bool := none
  due : Bool := false
  begun : Bool := false
  /-- Heat Hc of R250, once begun. -/
  hc : Nat := 0
  left : BitVec 16 := 0
  failed : Bool := false
deriving DecidableEq, Repr

/-- An LP_RUN stop that has not completed (R251). -/
structure LpStop where
  upd : Sched := {}
  left : BitVec 16 := 0
deriving DecidableEq, Repr

/-! ### Line supervision and tests (10_line_diagnostics.md) -/

/-- A test requested and not ended (R348 to R354): its TEST_REQ, lane and type; queued or running, normal or inaudible. -/
structure TestH where
  upd : Sched := {}
  lane : Nat := 0
  kind : Nat := 0
  running : Bool := false
  forced : Bool := false
  inaud : Bool := false
  /-- It has waited in the queue (R353). -/
  queued : Bool := false
  /-- The zone bus heat at which it began. -/
  start : Option Nat := none
  /-- Times it has been stopped and requeued (R354). -/
  stops : Nat := 0
  /-- RUN and MUTE of a lane that a forced test runs, to be restored (R350). -/
  was : Option (Bool × Bool) := none
  /-- TEST_SEQ of its test section (R344), and the heat in which it began to wait (R351). -/
  seq : Nat := 0
  since : Nat := 0
  /-- The points of SPECTRO that have passed through the lane's record (R346, R355). -/
  pts : List (Word × Word) := []
  /-- The blocks of each named microphone during PROVE, newest first, each with its heat (R361). -/
  heard : Sparse (List (Nat × List Word)) := []
deriving DecidableEq, Repr

/-- What the admission unit keeps of a lane (R358, R378): its last EARTH was below EARTH_MIN; a valid window since its last test. -/
structure AdmitH where
  earthBad : Bool := false
  valid : Bool := true
deriving DecidableEq, Repr, Inhabited

/-! ### Pairing (12_troxlink_pairing.md) -/

/-- How far a takeover or return has come (R398, R404): the lane ramps out, the relay has been commanded, the lane ramps in. -/
inductive PairStep where
  | none | rampOut | relay | rampIn
deriving DecidableEq, Repr, Inhabited

/-- A taker lane's binding beside `TXL_BINDl` and `TXL_BSTATEl` (R395 to R404). -/
structure PairL where
  step : PairStep := .none
  /-- Its evidence is complete with the taker not ready, and 0xFA has been raised for the run. -/
  withheld : Bool := false
  /-- The takeover relay has been found energised. -/
  held : Bool := false
  /-- Consecutive missing partner blocks (R399), and consecutive silent heats of the bus played (R403). -/
  miss : Nat := 0
  silent : Nat := 0
  /-- The local zone of the takeover (R399). -/
  home : Option Nat := none
  /-- Boundary D + 4 of a scheduled return (R404). -/
  retHeat : Nat := 0
  /-- Heats in RETURN_WAIT (R403), and the pacer time in ns at which the relay bit last changed or the lane last came back (R398, R404). -/
  waited : Nat := 0
  since : Nat := 0
deriving DecidableEq, Repr, Inhabited

/-- The Troxlink beside its registers (R390 to R394). -/
structure TxlH where
  /-- Accepted frames in a row. -/
  good : Nat := 0
  /-- Heats without an accepted frame, and whether one has been accepted since the last boundary and since reset. -/
  miss : Nat := 0
  got : Bool := false
  ever : Bool := false
  /-- Heats since the link was lost, and whether its line check has been made (R401). -/
  lostFor : Option Nat := none
  checked : Bool := false
  /-- QUIET and RETURN of the last accepted frame; the lanes whose HEALTHY an accepted frame has shown since the last boundary. -/
  quiet : BitVec 128 := 0
  ret : BitVec 128 := 0
  healthy : BitVec 128 := 0
  /-- Control frames sent, and the last (R391). -/
  seq : Nat := 0
  sent : List Byte := []
  /-- The bus frames sent in the last heat (R393). -/
  buses : List (List Byte) := []
deriving DecidableEq, Repr, Inhabited

/-! ### Modes (11_twelve_modes.md) -/

structure ModeH where
  /-- How far the unlock sequence has come, and heat boundaries since its first write (R379). -/
  unlock : Nat := 0
  unlockHeat : Nat := 0
  /-- Entering FTM ends warm-up: the lanes that still ramp out (R378 result 30). -/
  quit : List Nat := []
  /-- Heats MNT has been in force (R373), and heats in a row in which every present tile's rail stood 5 % above `BAT_FRAC` (R371). -/
  mntHeats : Nat := 0
  batHigh : Nat := 0
deriving DecidableEq, Repr, Inhabited

/-! ### The state -/

structure State where
  /-- Every register of BAR0 whose value differs from its reset value, by byte offset (R553, R556). -/
  regs : Sparse Word := []
  /-- Words latched for a master by a read, by master code × 2^25 + offset (R47, R111, R138, R483, R492, R524). -/
  latch : Sparse (Option Word) := []
  /-- The data the last register read returned. -/
  rdata : Word := 0
  /-- What holds the controller: nothing, missing power, or the thermal shutdown (R586, R599). -/
  hold : Hold := .run
  /-- The straps as sampled at power-on (R3, R559). -/
  straps : Straps := {}
  /-- The levels of the output pins (R382, R493, R316). -/
  pins : Pins := {}
  /-- The pacer beyond its registers (R44 to R57). -/
  pacer : PacerH := {}
  /-- The fault collector beyond its registers (R472 to R494). -/
  fc : FcH := {}
  /-- The software reset key written so far (R561). -/
  key : KeySeq := none
  /-- Each host port beyond its registers (R408, R430, R604). -/
  hp : Sparse HpH := []
  /-- The baton unit beyond its registers (R413 to R420). -/
  baton : BatonH := {}
  /-- Votes whose window is open, and those settled (R423 to R427). -/
  votes : List VoteH := []
  /-- Each shadow pair (R428, R429). -/
  pairs : Sparse PairH := []
  /-- Each ring beyond its context registers (R434 to R446). -/
  rings : Sparse RingH := []
  /-- Groups of chained descriptors, open and closing (R182, R452 to R455). -/
  groups : List GroupH := []
  /-- Accepted updates that wait for their commit (R449, R450). -/
  sched : List Sched := []
  /-- The model's own number for the next update, by which a command finds it. -/
  nextId : Nat := 0
  /-- Each control core beyond its registers (R521 to R527). -/
  cores : Sparse CoreH := []
  /-- The OTP by word; an unlisted word is blank (R534). -/
  otp : Sparse Word := []
  /-- OTP words with an error: more than one bit, or one (R534). -/
  otpBad : List BadWord := []
  /-- The die temperature thresholds exceeded (R599): bit 0 for 100 °C, 1 for 110 °C, 2 for 120 °C. -/
  dieOver : BitVec 3 := 0
  /-- The OTP word being programmed and the bits asked for (R534). -/
  otpProg : Option (Nat × Word) := none
  /-- The operation the crypto unit runs (R533). -/
  crypto : Option CryptoH := none
  /-- Warm-up emergency path (R542 to R546): the SSV brought its port up, and converter 0 is the path's. -/
  wupPath : Bool := false
  /-- The vat by byte; an unlisted byte reads zero (R511, R536). -/
  vat : Sparse Byte := []
  /-- The error state of each bank of the vat (R511 to R517). -/
  banks : Sparse BankH := []
  /-- Core SRAM by byte; an unlisted byte reads zero (R509, R536). -/
  csram : Sparse Byte := []
  /-- The error state of core SRAM (R516). -/
  csramH : BankH := {}
  /-- The scrubber of ring context memory (R517). -/
  ctxH : BankH := {}
  /-- The receive side of each TDM port (R90 to R100). -/
  tdmRx : Sparse RxH := []
  /-- The transmit side of each TDM port (R101, R187). -/
  tdmTx : Sparse TxH := []
  /-- Each AES3 receiver (R106 to R114). -/
  aesRx : Sparse RxH := []
  /-- Each AES3 transmitter (R115 to R118). -/
  aesTx : Sparse TxH := []
  /-- Each PDM group (R119 to R125). -/
  pdm : Sparse RxH := []
  /-- Each PDM microphone (R124, R125). -/
  mics : Sparse MicH := []
  /-- Channel status of each AES3 channel (R110 to R112). -/
  cs : Sparse CsH := []
  /-- Gain and mute of each port channel (R104, R105). -/
  chans : Sparse ChanH := []
  /-- Each source entry (R468). -/
  srcs : Sparse SrcH := []
  /-- Which stream each converter serves (R72): its code and channels. -/
  asrc : Sparse (Option AsrcH) := []
  /-- What the converter of each stream holds, by stream code (R32, R73 to R75, R94). -/
  convs : Sparse ConvH := []
  /-- The bit clock and frame sync each TDM port drives (R87). -/
  tdmPins : Sparse TdmPins := []
  /-- Bit i: controller island i is out of tolerance as its monitor found it last (R69, R71). -/
  islOut : BitVec 81 := 0
  /-- Events of this heat so far, by source × 2^24 + code × 2^16 + slot, channel, microphone or flow (R126, R161, R261). -/
  evCounts : Sparse Nat := []
  /-- Each receive flow (R133 to R146). -/
  flows : Sparse FlowH := []
  /-- Updates whose flow entry is still being fetched (R469), by number. -/
  flowFetch : List Nat := []
  /-- The host frame each packet port sent last, FCS included (R147). -/
  frameTx : Sparse (List Byte) := []
  /-- Each transmit flow (R148 to R152). -/
  txFlows : Sparse TxFlowH := []
  /-- Each voted source (R153 to R160). -/
  vsrcs : Sparse VsH := []
  /-- Each zone (R163 to R170). -/
  zones : Sparse ZoneH := []
  /-- Each layer, by zone × 8 + layer (R165 to R181). -/
  layers : Sparse LayerH := []
  /-- What a layer that started silent under an open vote returns to if the vote times out (R181). -/
  layerBack : Sparse LayerH := []
  /-- Each test generator (R365). -/
  gens : Sparse GenH := []
  /-- The route of each lane (R186). -/
  routes : Sparse RouteH := []
  /-- Each player (R201 to R213). -/
  players : Sparse PlayerH := []
  /-- Clip loads in progress (R215, R222). -/
  clipLoads : List LoadH := []
  /-- Each clip of the cache (R214 to R221). -/
  clips : Sparse ClipH := []
  /-- The amplifier power pool (R288 to R290). -/
  pool : PoolH := {}
  /-- Each lane, in the controller and in its tile (R309 to R312). -/
  lanes : Sparse LaneH := []
  /-- Each tile and its link (R303 to R335). -/
  tiles : Sparse TileH := []
  /-- The crossover from warm-up (R547 to R549). -/
  xover : XoverH := {}
  /-- Each lane processor (R225 to R254). -/
  lps : Sparse LpH := []
  /-- Lane program loads in progress (R249, R250). -/
  lpLoads : List LpLoad := []
  /-- Lane processors that stop at a heat (R251). -/
  lpStops : List LpStop := []
  /-- The zone bus heat for which lane parameter updates are counted, and their number (R243). -/
  paramHeat : Nat := 0
  paramCnt : Nat := 0
  /-- Tests queued and running (R349 to R355). -/
  tests : List TestH := []
  /-- TEST_SEQ of the last test section written (R344). -/
  testSeq : Nat := 0
  /-- What the admission unit keeps of each lane (R358, R363, R378). -/
  admits : Sparse AdmitH := []
  /-- The Troxlink (R386 to R393). -/
  txl : TxlH := {}
  /-- Each lane's binding to a partner lane (R395 to R405). -/
  pairLs : Sparse PairL := []
  /-- Zone buses received from the partner, by zone, newest first: heat and samples (R394). -/
  pbus : Sparse (List (Nat × List Word)) := []
  /-- The modes beyond GBL_MODE (R379). -/
  modes : ModeH := {}
  /-- The first heat of the pacer's present grid: nothing is built for a heat before it (R55). -/
  firstHeat : Nat := 0
  /-- The model's own count of free values taken: nothing constrains the value a count stands for. -/
  freeCtr : Nat := 0
  /-- The commands waiting, first in, first out. -/
  pending : List Instr := []
deriving DecidableEq, Repr

/-- The block right after reset: every register at its reset value, nothing queued, memories zero (R536 step 3), the controller
out of power-on reset with its straps at zero. -/
def State.reset : State := {}

end Sys2Proof.Machine
end

