-- ==== Sys2Proof/Machine/Flags.lean ====
section
/-! DEFINITION. The event tables: the class and the default reaction of every event (R475 and the event table of each chapter),
by fault source (R474) and code; the reaction masks in the order of R476; and which sources have a block reset. -/

namespace Sys2Proof.Machine

/-! ### Reaction masks (R476): [0] INT, [1] NMI, [2] BLOCK_RESET, [3] ENGINE_RESET, [4] PIN_VA, [5] PIN_GEN -/

abbrev rNone : BitVec 6 := 0x00
abbrev rInt : BitVec 6 := 0x01
abbrev rIntGen : BitVec 6 := 0x21
abbrev rIntGenBlk : BitVec 6 := 0x25
abbrev rIntBlk : BitVec 6 := 0x05
abbrev rIntGenVa : BitVec 6 := 0x31
abbrev rNmiGen : BitVec 6 := 0x22
abbrev rNmiGenVa : BitVec 6 := 0x32
abbrev rNmiGenVaEng : BitVec 6 := 0x3A

/-- A row of an event table: the class and the default reaction. -/
abbrev EvRow := Cls × BitVec 6

/-- The default reactions of R475, where a chapter gives none. -/
def evDefault : Cls → EvRow
  | .c => (.c, rNone)
  | .u => (.u, rIntGen)
  | .f => (.f, rNmiGenVa)

/-- Lane events (R292, R332, R367): sources 0 to 127. -/
def evLane (code : Nat) : EvRow :=
  if code ∈ [0x80, 0x83, 0x84, 0x86, 0x87, 0x90, 0x98, 0xB0, 0xB2, 0xB3, 0xB6, 0xB8, 0xD3, 0xD4, 0xD7, 0xDA, 0x74, 0x79] then
    (.c, rNone)
  else if code = 0x82 then (.u, rInt) else (.u, rIntGen)

/-- Tile events (R292, R332, R551): sources 128 to 143. -/
def evTile (code : Nat) : EvRow := if code ∈ [0xA0, 0xC1, 0xC2, 0xC5] then (.c, rNone) else (.u, rIntGen)

/-- LP events (R261, R71): sources 144 to 159. -/
def evLp (code : Nat) : EvRow :=
  if code ∈ [0x70, 0x74, 0x75, 0x76, 0x79, 0x7A] then (.c, rNone)
  else if code ∈ [0x72, 0x73, 0x77, 0x0F] then (.u, rIntGenBlk) else (.u, rIntGen)

/-- Serial port events (R126): sources 160 to 191. -/
def evSerial (code : Nat) : EvRow := if code ∈ [0x05, 0x06, 0x12, 0x17, 0x22] then (.u, rInt) else (.c, rNone)

/-- Packet port events (R161), and the parity burst of an AM824 flow (R126, R138): sources 192 and 193. -/
def evPacket (code : Nat) : EvRow :=
  if code = 0x31 then (.u, rIntGen) else if code ∈ [0x35, 0x38, 0x12] then (.u, rInt) else (.c, rNone)

/-- Vat banks and core SRAM (R518). -/
def evMem (code : Nat) : EvRow :=
  if code = 0x02 then (.u, rIntGen) else if code = 0x03 then (.f, rNmiGenVa)
  else if code = 0x05 then (.c, rInt) else if code = 0x0F then (.f, rNmiGenVaEng) else (.c, rNone)

/-- Source 217: baton and votes (R432), modes (R384), refused resets (R562). -/
def ev217 (code : Nat) : EvRow :=
  if code ∈ [0x21, 0x27, 0x29] then (.u, rIntGen)
  else if code ∈ [0x23, 0x24, 0x28, 0xE4, 0xE5] then (.c, rNone) else (.c, rInt)

/-- Source 219: voter (R161), zone mixer (R199), pool (R292). -/
def ev219 (code : Nat) : EvRow :=
  if code ∈ [0x43, 0x44, 0x45] then (.u, rInt)
  else if code ∈ [0x51, 0x58, 0x5B, 0x5C] then (.u, rIntGen) else (.c, rNone)

/-- Source 229: boot and security (R551), factory test (R384). -/
def ev229 (code : Nat) : EvRow :=
  if code ∈ [0x01, 0xE7] then (.c, rNone) else if code ∈ [0x02, 0x04] then (.c, rInt)
  else if code = 0x05 then (.f, rNmiGenVaEng) else if code = 0x06 then (.f, rNmiGenVa) else (.u, rIntGen)

/-- The class and default reaction of the event `code` on source `src` (R474 names the table of each). -/
def evRow (src code : Nat) : EvRow :=
  if src < 128 then evLane code
  else if src < 144 then evTile code
  else if src < 160 then evLp code
  else if src < 192 then evSerial code
  else if src < 194 then evPacket code
  else if src = 194 then (if code ∈ [0x04, 0x0F] then (.u, rIntGen) else (.c, rNone))
  else if src = 195 then (.u, rIntGenVa)
  else if src ≤ 212 then evMem code
  else if src = 213 then (if code = 0x0F then (.f, rNmiGenVaEng) else (.c, rNone))
  else if src ≤ 216 then (if code = 0x01 then (.u, rIntGen) else if code = 0x03 then (.c, rInt) else (.c, rNone))
  else if src = 217 then ev217 code
  else if src = 218 then
    (if code ∈ [0x11, 0x12] then (.u, rIntGen) else if code = 0x14 then (.c, rInt)
     else if code = 0x16 then (.f, rNmiGen) else (.c, rNone))
  else if src = 219 then ev219 code
  else if src = 220 then (if code ∈ [0x61, 0x63, 0x64, 0x66] then (.u, rIntGen) else (.c, rNone))
  else if src = 221 then
    (if code = 0xF5 then (.c, rInt) else if code ∈ [0xF1, 0xF2, 0xF3, 0xF6, 0xF7, 0xFA] then (.u, rIntGen)
     else (.c, rNone))
  else if src = 222 then (.f, rNmiGenVa)
  else if src ≤ 226 then
    (if code ∈ [0x01, 0x04] then (.u, rIntGenBlk) else if code = 0x0F then (.u, rIntBlk) else (.c, rNone))
  else if src = 227 then (if code = 0x02 then (.u, rIntGen) else (.c, rNone))
  else if src = 228 then
    (if code = 0x01 then (.c, rNone) else if code = 0x04 then (.c, rInt) else if code = 0x02 then (.u, rIntGen)
     else (.f, rNmiGenVa))
  else if src = 229 then ev229 code
  else if src = 230 then (if code = 0x02 then (.u, rIntGen) else if code = 0x03 then (.u, rInt) else (.c, rNone))
  else if src = 231 then (.u, rIntGen)
  else if src = 255 then (.f, rNmiGenVa)
  else (.c, rNone)

/-- The source never raises (R474). -/
def srcReserved (src : Nat) : Bool := 232 ≤ src && src ≤ 254

/-- The table of R474 marks the source as having a block reset. -/
def srcResettable (src : Nat) : Bool :=
  (144 ≤ src && src < 194) || src == 221 || (223 ≤ src && src ≤ 226)

/-- Class order: C below U below F. -/
def clsRank : Cls → Nat
  | .c => 0
  | .u => 1
  | .f => 2

/-- The common layout of a syndrome: the code in [31:24] and three further fields of 8, 8 and 8 bits. -/
def syn8 (code a b c : Nat) : Word := BitVec.ofNat 32 (code % 256 * 2 ^ 24 + a % 256 * 2 ^ 16 + b % 256 * 2 ^ 8 + c % 256)

/-- The code in [31:24], a byte in [23:16] and a 16-bit value in [15:0]. -/
def syn16 (code a v : Nat) : Word := BitVec.ofNat 32 (code % 256 * 2 ^ 24 + a % 256 * 2 ^ 16 + v % 2 ^ 16)

/-- The code in [31:24] and a 12-bit pair in [23:12] and [11:0] (R161, R261). -/
def syn12 (code a v : Nat) : Word := BitVec.ofNat 32 (code % 256 * 2 ^ 24 + a % 2 ^ 12 * 2 ^ 12 + v % 2 ^ 12)

end Sys2Proof.Machine
end

