-- ==== Sys2Proof/Config.lean ====
section
/-! DEFINITION. What the spec leaves open: constants without a body, so that nothing can be proved of their values. A statement
about the block holds whatever they are. Each is marked in the assumption log. -/

namespace Sys2Proof.Config

/-- The n-th free value a step takes: `State.freeCtr` counts them. -/
opaque free : Nat → Word

/-- A converter's output sample at 48 kHz, or a transmit converter's or interpolation filter's at its own rate (R37, R74, R115), whose coefficients
the spec does not give: from the filter's length, the place of the output sample after the newest sample in the window, in sample periods,
and the window, newest first. -/
opaque filterOut : Nat → Rat → List Word → Word

/-- Coefficients of a player's interpolator, by RATE, phase and word, and its level in 0.01 dB, by RATE and phase (R202): not given.
The model takes at most 5 of the latter either way. -/
opaque clipTap : Nat → Nat → Nat → Rat
opaque clipRipple : Nat → Nat → Int

/-- A 24-bit sample of a decimated microphone (R121), whose filter coefficients the spec does not give: from the clock divider D, the
sample's number in the heat, and the bits of the heat before and of the heat, in the order sampled. -/
opaque pdmDecimate : Nat → Nat → List Bool → BitVec 24

/-- How much of a phase error, in units of 1 / 65,536, the ratio tracking of an asynchronous flow takes up in a heat (R141): the loop filter
is not given. -/
opaque asyncTrack : Int → Nat

/-- What a counter that the spec does not call saturating shows after its largest value, by register offset. -/
opaque counterWrap : Nat → Nat

/-- How far, in units of 2^-30 of it, a value computed from a real function lies from the exact one, by what it is computed for: the
precision is not given. The model takes at most 256 of them either way. -/
opaque slack : Nat → Rat → Int

/-- How the zone mixer and the ports round an exact value that binary32 does not hold (R163): away from zero when true. -/
opaque mixRound : Rat → Bool

/-- How the pacer clock rounds the 32.32 increment of one cycle (R44): up when true. -/
opaque incRoundUp : Rat → Bool

/-- The factory default of a word of a correction table (R303), by register offset. -/
opaque corrDefault : Nat → Word

/-- How far, in units in the last place, an approximate operation of the lane processor (R232) lies from the nearest binary32: by
operation and operand. -/
opaque lpUlp : Nat → Word → Nat

/-- How a lane processor rounds an exact value that the format does not hold, in a block primitive and in the standard program (R236): to
the neighbour away from zero when true. -/
opaque lpRound : Rat → Bool

/-- The 128 coefficients of the standard program's interpolation by 8 (R236, R257): not given. -/
opaque polyTap : Nat → Word

/-- The taps of the filter that shapes PROVE's noise (R360), and of the decimation to 3 kHz (R271): not given. -/
opaque speechTap : Nat → Rat
opaque decimTap : Nat → Rat

/-- The rms current in the band 0.5 to 2 times a frequency, from the samples decimated to 3 kHz, newest first (R271): how the band is cut out is not
given. -/
opaque bandRms : Rat → List Rat → Rat

/-- Where the identification starts (R271): its three coefficients, and the nine entries of its matrix. -/
opaque idStart : Nat → Rat

/-- A byte of the boot ROM (R520). -/
opaque romByte : Nat → Nat

/-- Where in the warm-up area the SSV places the emergency port's receive ring (R542, R543). -/
opaque wupRing : Nat

/-- The image of this identifier is the standard lane program (R255 to R259). -/
opaque standardImage : Word → Bool

/-- The rms voltage in the band 100 Hz to 10 kHz at a line-evidence input (R389), from its samples at 96 kHz, newest first: how the band is cut
out is not given. -/
opaque levBand : List Rat → Rat

/-- By how much more than 1 ms, in ns, the link's emergency samples lag the converter's (R545); the model keeps it between one sample period
and 150 µs, so that the path's latency stays below its 1,500 µs. -/
opaque warmLag : Nat

/-- The power of a block of samples in octave band b, 125 Hz first (R189). -/
opaque bandPower : List Word → Nat → Rat

/-- The taps of the fixed filter that makes a test generator's pink noise (R365): not given. -/
opaque pinkTap : Nat → Rat

/-- The five error taps of the modulator's noise shaper (R297), whose zeros are not given. -/
opaque shaperTap : Nat → Rat

/-- How an exact value is rounded to a register's unit or a table's, by what it is rounded for: up when true. -/
opaque roundUp : Nat → Rat → Bool

/-- The sharing trim of a bonded member in ps (R306), from its local lane and the members' currents in mA; the model keeps it within ±2,000. -/
opaque shareTrim : Nat → List Int → Int

/-- DT_EFF of a lane for a heat (R331), whose measure is not given: from the lane, the heat and DEADTIME. -/
opaque dtEff : Nat → Nat → Nat → Nat

/-- How the Tile Link controller rounds a sample × 2^31 that is no integer (R325): up when true. -/
opaque linkRoundUp : Rat → Bool

/-- The modulation value at a period's midpoint, by cubic interpolation (R297): the link samples, and where the midpoint lies among them. -/
opaque modInterp : List Rat → Rat → Rat

/-- Whether the vat can supply an allocation of so many bytes that the engine places itself (R135). -/
opaque vatSupplies : Nat → Bool

/-- The bits of a free value that a step takes as a number below a bound. -/
def freeBelow (n bound : Nat) : Nat := (free n).toNat % bound

end Sys2Proof.Config
end

