-- ==== Sys2Proof/Machine/SoftFloat.lean ====
section
/-! DEFINITION. IEEE 754 binary32 (R4, R6): bit patterns, exact values, and rounding to nearest even. -/

namespace Sys2Proof.Machine

def f32Exp (w : Word) : Nat := fld w 30 23
def f32Man (w : Word) : Nat := fld w 22 0
def f32Neg (w : Word) : Bool := bitAt w 31
def f32IsNan (w : Word) : Bool := f32Exp w == 255 && f32Man w != 0
def f32IsInf (w : Word) : Bool := f32Exp w == 255 && f32Man w == 0
def f32Finite (w : Word) : Bool := f32Exp w != 255
def f32IsZero (w : Word) : Bool := fld w 30 0 == 0
/-- An infinity of a sign. -/
def f32Inf (neg : Bool) : Word := if neg then 0xFF800000#32 else 0x7F800000#32
def f32Zero (neg : Bool) : Word := if neg then 0x80000000#32 else 0#32

/-- 2^e as a rational. -/
def pow2 (e : Int) : Rat := if 0 ≤ e then ((2 ^ e.toNat : Nat) : Rat) else 1 / ((2 ^ (-e).toNat : Nat) : Rat)

/-- The exact value of a finite pattern. -/
def f32ToRat (w : Word) : Rat :=
  let m : Rat := if f32Exp w = 0 then pow2 (-149) * (f32Man w : Rat)
    else pow2 ((f32Exp w : Int) - 150) * ((2 ^ 23 + f32Man w : Nat) : Rat)
  if f32Neg w then -m else m

/-- A quotient of naturals to the nearest integer, ties to even. -/
def divEven (n d : Nat) : Nat :=
  let q := n / d
  let r := n % d
  if 2 * r < d then q else if d < 2 * r then q + 1 else q + q % 2

/-- The largest e with 2^e ≤ n/d. -/
def ilog2 (n d : Nat) : Int :=
  let e : Int := (n.log2 : Int) - (d.log2 : Int)
  let ge : Bool := if 0 ≤ e then d * 2 ^ e.toNat ≤ n else d ≤ n * 2 ^ (-e).toNat
  if ge then e else e - 1

/-- The pattern nearest an exact value, ties to even, with subnormals and overflow to infinity. -/
def f32OfRat (q : Rat) : Word :=
  if q = 0 then 0#32
  else
    let n := q.num.natAbs
    let e := max (ilog2 n q.den) (-126)
    let sh : Int := 23 - e
    let m := if 0 ≤ sh then divEven (n * 2 ^ sh.toNat) q.den else divEven n (q.den * 2 ^ (-sh).toNat)
    let b := (e + 126).toNat * 2 ^ 23 + m
    let b := if 0x7F800000 ≤ b then 0x7F800000 else b
    BitVec.ofNat 32 (b + if q < 0 then 2 ^ 31 else 0)

/-- Whether binary32 holds a value exactly. -/
def f32Holds (q : Rat) : Bool := f32Finite (f32OfRat q) && f32ToRat (f32OfRat q) == q

/-- The pattern of largest magnitude that does not exceed an exact value's. -/
def f32Trunc (q : Rat) : Word :=
  if q = 0 then 0#32
  else
    let n := q.num.natAbs
    let e := max (ilog2 n q.den) (-126)
    let sh : Int := 23 - e
    let m := if 0 ≤ sh then n * 2 ^ sh.toNat / q.den else n / (q.den * 2 ^ (-sh).toNat)
    let b := (e + 126).toNat * 2 ^ 23 + m
    let b := if 0x7F800000 ≤ b then 0x7F7FFFFF else b
    BitVec.ofNat 32 (b + if q < 0 then 2 ^ 31 else 0)

/-- One of the two patterns next to an exact value that binary32 does not hold: the one away from zero when `away`. -/
def f32Beside (q : Rat) (away : Bool) : Word := if away then f32Trunc q + 1 else f32Trunc q

/-- The mixer's binary32 for an exact value: itself where binary32 holds it, one of its two neighbours elsewhere (R163). -/
def mixOf (q : Rat) : Word := if f32Holds q then f32OfRat q else f32Beside q (Config.mixRound q)

/-- A sample's value, a non-finite one counting as zero (R164). -/
def sampleVal (w : Word) : Rat := if f32Finite w then f32ToRat w else 0

end Sys2Proof.Machine
end

