-- ==== Sys2Proof/Machine/Reals.lean ====
section
/-! DEFINITION. The real functions the rules write their formulas with: powers, logarithms, roots, sines and their inverses. Each is
computed from its series to some 90 bits; the hardware's own precision is not stated, so a value taken from one of them carries a free
relative deviation of at most 2^-22 (`near`), but where a rule states a limit of its own. -/

namespace Sys2Proof.Machine

/-- A magnitude, and a quotient rounded to the nearest integer, a half upwards. -/
def absRat (q : Rat) : Rat := if q < 0 then -q else q
def roundRat (q : Rat) : Int := (q + 1 / 2).floor

/-- A rational cut to 128 binary places. -/
def cut (q : Rat) : Rat := ((q * ((2 ^ 128 : Nat) : Rat)).floor : Rat) / ((2 ^ 128 : Nat) : Rat)

/-- The constants, to 128 binary places. -/
def ln2 : Rat := ((235865763225513294137944142764154484399 : Nat) : Rat) / ((2 ^ 128 : Nat) : Rat)
def piVal : Rat := ((1069028584064966747859680373161870783301 : Nat) : Rat) / ((2 ^ 128 : Nat) : Rat)
def log2Ten : Rat := ((1130393554869435518674010122299176348979 : Nat) : Rat) / ((2 ^ 128 : Nat) : Rat)

/-- `n` terms of a power series from term number `k`: `t` is that term without its sign or denominator, `next` makes the following
one, `val` what it adds. -/
def series (next val : Nat → Rat → Rat) : Nat → Nat → Rat → Rat
  | 0, _, _ => 0
  | n + 1, k, t => val k t + series next val n (k + 1) (cut (next k t))

/-- 2^q. -/
def exp2 (q : Rat) : Rat :=
  let n := q.floor
  let x := cut ((q - (n : Rat)) * ln2)
  pow2 n * series (fun k t => t * x / ((k + 1 : Nat) : Rat)) (fun _ t => t) 32 0 1

/-- 10^q and e^q. -/
def exp10 (q : Rat) : Rat := exp2 (q * log2Ten)
def expE (q : Rat) : Rat := exp2 (q / ln2)

/-- log2 of a positive value, 0 for any other: the exponent and 2 artanh((m - 1)/(m + 1)) / ln 2. -/
def log2Of (q : Rat) : Rat :=
  if q ≤ 0 then 0
  else
    let e := ilog2 q.num.natAbs q.den
    let m := q / pow2 e
    let u := cut ((m - 1) / (m + 1))
    let uu := cut (u * u)
    (e : Rat) + cut (2 * series (fun _ t => t * uu) (fun k t => cut (t / ((2 * k + 1 : Nat) : Rat))) 32 0 u / ln2)

/-- log10 of a positive value. -/
def log10Of (q : Rat) : Rat := log2Of q / log2Ten

/-- The integer square root, from bit `n - 1` of the root down. -/
def isqrtFrom (v : Nat) : Nat → Nat → Nat
  | 0, r => r
  | n + 1, r => isqrtFrom v n (if (r + 2 ^ n) * (r + 2 ^ n) ≤ v then r + 2 ^ n else r)

/-- The square root of a value, 0 for a negative one: some 100 bits of it, and exact where the root has few. -/
def sqrtOf (q : Rat) : Rat :=
  if q ≤ 0 then 0
  else
    let e := ilog2 q.num.natAbs q.den / 2
    ((isqrtFrom (q / pow2 (2 * e) * ((2 ^ 200 : Nat) : Rat)).floor.toNat 102 0 : Nat) : Rat) / ((2 ^ 100 : Nat) : Rat) * pow2 e

/-- The sine of an angle of at most an eighth of a turn, and its cosine, from the angle in radians. -/
def sinSmall (x : Rat) : Rat :=
  let xx := cut (x * x)
  series (fun k t => -(t * xx) / (((2 * k + 2) * (2 * k + 3) : Nat) : Rat)) (fun _ t => t) 16 0 x
def cosSmall (x : Rat) : Rat :=
  let xx := cut (x * x)
  series (fun k t => -(t * xx) / (((2 * k + 1) * (2 * k + 2) : Nat) : Rat)) (fun _ t => t) 16 0 1

/-- The sine of an angle in turns: its eighth decides. -/
def sinTurn (t : Rat) : Rat :=
  let f := t - (t.floor : Rat)
  let o := (f * 8).floor.toNat
  let x (d : Rat) : Rat := cut (2 * piVal * d)
  match o with
  | 0 => sinSmall (x f)
  | 1 => cosSmall (x (1 / 4 - f))
  | 2 => cosSmall (x (f - 1 / 4))
  | 3 => sinSmall (x (1 / 2 - f))
  | 4 => -sinSmall (x (f - 1 / 2))
  | 5 => -cosSmall (x (3 / 4 - f))
  | 6 => -cosSmall (x (f - 3 / 4))
  | _ => -sinSmall (x (1 - f))
def cosTurn (t : Rat) : Rat := sinTurn (t + 1 / 4)
def tanTurn (t : Rat) : Rat := if cosTurn t = 0 then 0 else sinTurn t / cosTurn t

/-- The arctangent, in radians: twice that of x / (1 + sqrt(1 + x²)), three times over, then its series. -/
def arctan (x : Rat) : Rat :=
  let half (y : Rat) : Rat := cut (y / (1 + sqrtOf (1 + y * y)))
  let u := half (half (half x))
  let uu := cut (u * u)
  8 * series (fun _ t => -(t * uu)) (fun k t => cut (t / ((2 * k + 1 : Nat) : Rat))) 24 0 u

/-- A value as the hardware computes it: within 2^-22 of it, by what it is computed for. -/
def near (what : Nat) (q : Rat) : Rat := q * (1 + (clampInt (-256) 256 (Config.slack what q) : Rat) / ((2 ^ 30 : Nat) : Rat))

/-- An exact value rounded to an integer, either way where it is none, by what it is rounded for. -/
def roundFree (what : Nat) (q : Rat) : Int := if q.den = 1 then q.num else q.floor + (if Config.roundUp what q then 1 else 0)

/-- A level of a ratio of powers, in dB. -/
def powerDb (q : Rat) : Rat := 10 * log10Of q

/-- One step of an exponential average whose time constant is `tau` steps: the part e^(-1/tau) of what was held stays. -/
def expAverage (tau held x : Rat) : Rat := if tau ≤ 0 then x else cut (near 5 (x + (held - x) * expE (-1 / tau)))

/-- The linear factor of a level in 0.01 dB: 1 at 0 dB, 0 at -12,000 and below, else 10^(level/2000) (R163, R166). -/
def dbLinear (c : Rat) : Rat := if c = 0 then 1 else if c ≤ -12000 then 0 else near 0 (exp10 (c / 2000))

/-- The raised-cosine ramp: 0 before its first sample, 1 from its last, (1 - cos(π i / n)) / 2 between (R104, R167). -/
def rcos (i n : Nat) : Rat := if i = 0 then 0 else if n ≤ i then 1 else min 1 (near 1 ((1 - cosTurn ((i : Rat) / ((2 * n : Nat) : Rat))) / 2))

end Sys2Proof.Machine
end

