-- ==== Sys2Proof/Machine/RegMap.lean ====
section
/-! DEFINITION. The register map of the block: the offset of every register of BAR0 (R556, R557, R566 to R576), and the
row of its access type, writable bits and reset value (R12 and the register tables of each chapter).
An offset no row holds is a hole, which reads zero (R9, R554). -/

namespace Sys2Proof.Machine

/-- The lock bit an RWL register obeys (R12, R564). -/
inductive Lock where
  | none | fc | mx | core | acl | vote | lpSign | rind
deriving DecidableEq, Repr

/-- One row of a register table: which bits a write may set (`rw`), clear by writing 1 (`w1c`) and set by writing 1
(`w1s`); whether a read clears it (`rc`), whether it is write-only (`wo`), whether only the SSV writes it (`ssvw`); the
lock its `rw` bits obey; and its reset value. -/
structure RegRow where
  rw : Nat := 0
  w1c : Nat := 0
  w1s : Nat := 0
  rc : Bool := false
  wo : Bool := false
  ssvw : Bool := false
  lock : Lock := .none
  reset : Nat := 0
deriving DecidableEq, Repr

/-- A register or an array of registers: its first offset and, outermost first, each index's stride and count. -/
structure RegSpec where
  base : Nat
  dims : List (Nat × Nat)
  row : RegRow
deriving DecidableEq, Repr

/-- `d` is the distance of some element of the array from its base. -/
def dimsHit : Nat → List (Nat × Nat) → Bool
  | d, [] => d == 0
  | d, (st, n) :: ds => d / st < n && dimsHit (d % st) ds

def RegSpec.hit (r : RegSpec) (off : Nat) : Bool := r.base ≤ off && dimsHit (off - r.base) r.dims

namespace Reg

/-- `PCR_TIME_LO` (02_pacer_heats_clocks.md R82). -/
abbrev pcrTimeLo : Nat := 0x20000
/-- `PCR_TIME_HI` (02_pacer_heats_clocks.md R82). -/
abbrev pcrTimeHi : Nat := 0x20004
/-- `PCR_TIME_FRAC` (02_pacer_heats_clocks.md R82). -/
abbrev pcrTimeFrac : Nat := 0x20008
/-- `PCR_HEAT_LO` (02_pacer_heats_clocks.md R82). -/
abbrev pcrHeatLo : Nat := 0x2000c
/-- `PCR_HEAT_HI` (02_pacer_heats_clocks.md R82). -/
abbrev pcrHeatHi : Nat := 0x20010
/-- `PCR_CTRL` (02_pacer_heats_clocks.md R82). -/
abbrev pcrCtrl : Nat := 0x20014
/-- `PCR_STATUS` (02_pacer_heats_clocks.md R82). -/
abbrev pcrStatus : Nat := 0x20018
/-- `PCR_ADJ_FREQ` (02_pacer_heats_clocks.md R82). -/
abbrev pcrAdjFreq : Nat := 0x2001c
/-- `PCR_SLEW` (02_pacer_heats_clocks.md R82). -/
abbrev pcrSlew : Nat := 0x20020
/-- `PCR_SLEW_RATE` (02_pacer_heats_clocks.md R82). -/
abbrev pcrSlewRate : Nat := 0x20024
/-- `PCR_SLEW_LEFT` (02_pacer_heats_clocks.md R82). -/
abbrev pcrSlewLeft : Nat := 0x20028
/-- `PCR_STEP_LO` (02_pacer_heats_clocks.md R82). -/
abbrev pcrStepLo : Nat := 0x2002c
/-- `PCR_STEP_HI` (02_pacer_heats_clocks.md R82). -/
abbrev pcrStepHi : Nat := 0x20030
/-- `PCR_SERVO_OFFSET` (02_pacer_heats_clocks.md R82). -/
abbrev pcrServoOffset : Nat := 0x20034
/-- `PCR_LOCK_CFG` (02_pacer_heats_clocks.md R82). -/
abbrev pcrLockCfg : Nat := 0x20038
/-- `PCR_HOLD_LIMIT` (02_pacer_heats_clocks.md R82). -/
abbrev pcrHoldLimit : Nat := 0x2003c
/-- `PCR_REF_SEC_LO` (02_pacer_heats_clocks.md R82). -/
abbrev pcrRefSecLo : Nat := 0x20040
/-- `PCR_REF_SEC_HI` (02_pacer_heats_clocks.md R82). -/
abbrev pcrRefSecHi : Nat := 0x20044
/-- `PCR_REF_MISS` (02_pacer_heats_clocks.md R82). -/
abbrev pcrRefMiss : Nat := 0x20048
/-- `PCR_DROOP_CFG` (02_pacer_heats_clocks.md R82). -/
abbrev pcrDroopCfg : Nat := 0x2004c
/-- `PCR_DROOP_CNT` (02_pacer_heats_clocks.md R82). -/
abbrev pcrDroopCnt : Nat := 0x20050
/-- `PCR_DROOP_MAX` (02_pacer_heats_clocks.md R82). -/
abbrev pcrDroopMax : Nat := 0x20054
/-- `PCR_CLKMON0 to PCR_CLKMON2` (02_pacer_heats_clocks.md R82). -/
abbrev pcrClkmon (i : Nat) : Nat := 0x20100 + i * 0x4
/-- `PCR_ASRCn_STATUS` (02_pacer_heats_clocks.md R82). -/
abbrev pcrAsrcStatus (n : Nat) : Nat := 0x21000 + n * 0x10
/-- `PCR_ASRCn_RATIO` (02_pacer_heats_clocks.md R82). -/
abbrev pcrAsrcRatio (n : Nat) : Nat := 0x21004 + n * 0x10
/-- `PCR_ASRCn_ALLOC` (02_pacer_heats_clocks.md R82). -/
abbrev pcrAsrcAlloc (n : Nat) : Nat := 0x21008 + n * 0x10
/-- `PCR_ASRCn_RELOCK` (02_pacer_heats_clocks.md R82). -/
abbrev pcrAsrcRelock (n : Nat) : Nat := 0x2100c + n * 0x10
/-- `TDMn_CTRL` (03_serial_ports.md R127-R129). -/
abbrev tdmCtrl (n : Nat) : Nat := 0x40000 + n * 0x1000
/-- `TDMn_FRAME` (03_serial_ports.md R127-R129). -/
abbrev tdmFrame (n : Nat) : Nat := 0x40004 + n * 0x1000
/-- `TDMn_RX_MASK` (03_serial_ports.md R127-R129). -/
abbrev tdmRxMask (n : Nat) : Nat := 0x40008 + n * 0x1000
/-- `TDMn_RX_MASK_NEXT` (03_serial_ports.md R127-R129). -/
abbrev tdmRxMaskNext (n : Nat) : Nat := 0x4000c + n * 0x1000
/-- `TDMn_TX_MASK` (03_serial_ports.md R127-R129). -/
abbrev tdmTxMask (n : Nat) : Nat := 0x40010 + n * 0x1000
/-- `TDMn_TX_MASK_NEXT` (03_serial_ports.md R127-R129). -/
abbrev tdmTxMaskNext (n : Nat) : Nat := 0x40014 + n * 0x1000
/-- `TDMn_CH_MAX` (03_serial_ports.md R127-R129). -/
abbrev tdmChMax (n : Nat) : Nat := 0x40018 + n * 0x1000
/-- `TDMn_RX_RING_BASE` (03_serial_ports.md R127-R129). -/
abbrev tdmRxRingBase (n : Nat) : Nat := 0x4001c + n * 0x1000
/-- `TDMn_RX_RING_CFG` (03_serial_ports.md R127-R129). -/
abbrev tdmRxRingCfg (n : Nat) : Nat := 0x40020 + n * 0x1000
/-- `TDMn_RX_WR_IDX` (03_serial_ports.md R127-R129). -/
abbrev tdmRxWrIdx (n : Nat) : Nat := 0x40024 + n * 0x1000
/-- `TDMn_TX_RING_BASE` (03_serial_ports.md R127-R129). -/
abbrev tdmTxRingBase (n : Nat) : Nat := 0x40028 + n * 0x1000
/-- `TDMn_TX_RING_CFG` (03_serial_ports.md R127-R129). -/
abbrev tdmTxRingCfg (n : Nat) : Nat := 0x4002c + n * 0x1000
/-- `TDMn_ZC_TIMEOUT` (03_serial_ports.md R127-R129). -/
abbrev tdmZcTimeout (n : Nat) : Nat := 0x40030 + n * 0x1000
/-- `TDMn_STATUS` (03_serial_ports.md R127-R129). -/
abbrev tdmStatus (n : Nat) : Nat := 0x40034 + n * 0x1000
/-- `TDMn_OVR_CNT` (03_serial_ports.md R127-R129). -/
abbrev tdmOvrCnt (n : Nat) : Nat := 0x40038 + n * 0x1000
/-- `TDMn_UND_CNT` (03_serial_ports.md R127-R129). -/
abbrev tdmUndCnt (n : Nat) : Nat := 0x4003c + n * 0x1000
/-- `TDMn_GLITCH_CNT` (03_serial_ports.md R127-R129). -/
abbrev tdmGlitchCnt (n : Nat) : Nat := 0x40040 + n * 0x1000
/-- `TDMn_SLIP_CNT` (03_serial_ports.md R127-R129). -/
abbrev tdmSlipCnt (n : Nat) : Nat := 0x40044 + n * 0x1000
/-- `AES_RXn_CFG` (03_serial_ports.md R127-R129). -/
abbrev aesRxCfg (n : Nat) : Nat := 0x60000 + n * 0x100
/-- `AES_RXn_STATUS` (03_serial_ports.md R127-R129). -/
abbrev aesRxStatus (n : Nat) : Nat := 0x60004 + n * 0x100
/-- `AES_RXn_RING_BASE` (03_serial_ports.md R127-R129). -/
abbrev aesRxRingBase (n : Nat) : Nat := 0x60008 + n * 0x100
/-- `AES_RXn_RING_CFG` (03_serial_ports.md R127-R129). -/
abbrev aesRxRingCfg (n : Nat) : Nat := 0x6000c + n * 0x100
/-- `AES_RXn_WR_IDX` (03_serial_ports.md R127-R129). -/
abbrev aesRxWrIdx (n : Nat) : Nat := 0x60010 + n * 0x100
/-- `AES_RXn_ZC_TIMEOUT` (03_serial_ports.md R127-R129). -/
abbrev aesRxZcTimeout (n : Nat) : Nat := 0x60014 + n * 0x100
/-- `AES_RXn_PARITY_CNT` (03_serial_ports.md R127-R129). -/
abbrev aesRxParityCnt (n : Nat) : Nat := 0x60018 + n * 0x100
/-- `AES_RXn_CS_ERR` (03_serial_ports.md R127-R129). -/
abbrev aesRxCsErr (n : Nat) : Nat := 0x6001c + n * 0x100
/-- `AES_RXn_CS_A0 to A5` (03_serial_ports.md R127-R129). -/
abbrev aesRxCsA (n i : Nat) : Nat := 0x60020 + n * 0x100 + i * 0x4
/-- `AES_RXn_CS_B0 to B5` (03_serial_ports.md R127-R129). -/
abbrev aesRxCsB (n i : Nat) : Nat := 0x60038 + n * 0x100 + i * 0x4
/-- `AES_TXn_CFG` (03_serial_ports.md R127-R129). -/
abbrev aesTxCfg (n : Nat) : Nat := 0x61000 + n * 0x100
/-- `AES_TXn_STATUS` (03_serial_ports.md R127-R129). -/
abbrev aesTxStatus (n : Nat) : Nat := 0x61004 + n * 0x100
/-- `AES_TXn_RING_BASE` (03_serial_ports.md R127-R129). -/
abbrev aesTxRingBase (n : Nat) : Nat := 0x61008 + n * 0x100
/-- `AES_TXn_RING_CFG` (03_serial_ports.md R127-R129). -/
abbrev aesTxRingCfg (n : Nat) : Nat := 0x6100c + n * 0x100
/-- `AES_TXn_CS_COMMIT` (03_serial_ports.md R127-R129). -/
abbrev aesTxCsCommit (n : Nat) : Nat := 0x61010 + n * 0x100
/-- `AES_TXn_UND_CNT` (03_serial_ports.md R127-R129). -/
abbrev aesTxUndCnt (n : Nat) : Nat := 0x61014 + n * 0x100
/-- `AES_TXn_CS_A0 to A5` (03_serial_ports.md R127-R129). -/
abbrev aesTxCsA (n i : Nat) : Nat := 0x61020 + n * 0x100 + i * 0x4
/-- `AES_TXn_CS_B0 to B5` (03_serial_ports.md R127-R129). -/
abbrev aesTxCsB (n i : Nat) : Nat := 0x61038 + n * 0x100 + i * 0x4
/-- `PDM_GRPg_CFG` (03_serial_ports.md R127-R129). -/
abbrev pdmGrpCfg (g : Nat) : Nat := 0x70000 + g * 0x100
/-- `PDM_GRPg_MIC_EN` (03_serial_ports.md R127-R129). -/
abbrev pdmGrpMicEn (g : Nat) : Nat := 0x70004 + g * 0x100
/-- `PDM_GRPg_RING_BASE` (03_serial_ports.md R127-R129). -/
abbrev pdmGrpRingBase (g : Nat) : Nat := 0x70008 + g * 0x100
/-- `PDM_GRPg_RING_CFG` (03_serial_ports.md R127-R129). -/
abbrev pdmGrpRingCfg (g : Nat) : Nat := 0x7000c + g * 0x100
/-- `PDM_GRPg_WR_IDX` (03_serial_ports.md R127-R129). -/
abbrev pdmGrpWrIdx (g : Nat) : Nat := 0x70010 + g * 0x100
/-- `PDM_GRPg_STUCK` (03_serial_ports.md R127-R129). -/
abbrev pdmGrpStuck (g : Nat) : Nat := 0x70014 + g * 0x100
/-- `PDM_GRPg_ZC_TIMEOUT` (03_serial_ports.md R127-R129). -/
abbrev pdmGrpZcTimeout (g : Nat) : Nat := 0x70018 + g * 0x100
/-- `PKT_Pn_CTRL` (04_packet_audio_voting.md R162). -/
abbrev pktPCtrl (n : Nat) : Nat := 0x80000 + n * 0x400
/-- `PKT_Pn_STATUS` (04_packet_audio_voting.md R162). -/
abbrev pktPStatus (n : Nat) : Nat := 0x80004 + n * 0x400
/-- `PKT_Pn_MAC_LO` (04_packet_audio_voting.md R162). -/
abbrev pktPMacLo (n : Nat) : Nat := 0x80008 + n * 0x400
/-- `PKT_Pn_MAC_HI` (04_packet_audio_voting.md R162). -/
abbrev pktPMacHi (n : Nat) : Nat := 0x8000c + n * 0x400
/-- `PKT_Pn_IPV4` (04_packet_audio_voting.md R162). -/
abbrev pktPIpv4 (n : Nat) : Nat := 0x80010 + n * 0x400
/-- `PKT_Pn_TS_LAT` (04_packet_audio_voting.md R162). -/
abbrev pktPTsLat (n : Nat) : Nat := 0x80014 + n * 0x400
/-- `PKT_Pn_RINGS` (04_packet_audio_voting.md R162). -/
abbrev pktPRings (n : Nat) : Nat := 0x80018 + n * 0x400
/-- `PKT_Pn_RX_FRAMES` (04_packet_audio_voting.md R162). -/
abbrev pktPRxFrames (n : Nat) : Nat := 0x8001c + n * 0x400
/-- `PKT_Pn_RX_DROP` (04_packet_audio_voting.md R162). -/
abbrev pktPRxDrop (n : Nat) : Nat := 0x80020 + n * 0x400
/-- `PKT_Pn_FCS_ERR` (04_packet_audio_voting.md R162). -/
abbrev pktPFcsErr (n : Nat) : Nat := 0x80024 + n * 0x400
/-- `PKT_Pn_TX_FRAMES` (04_packet_audio_voting.md R162). -/
abbrev pktPTxFrames (n : Nat) : Nat := 0x80028 + n * 0x400
/-- `PKT_Pn_FLOW_PKTS` (04_packet_audio_voting.md R162). -/
abbrev pktPFlowPkts (n : Nat) : Nat := 0x8002c + n * 0x400
/-- `PKT_SRC_USED` (04_packet_audio_voting.md R162). -/
abbrev pktSrcUsed : Nat := 0x80800
/-- `PKT_FLOWS_USED` (04_packet_audio_voting.md R162). -/
abbrev pktFlowsUsed : Nat := 0x80804
/-- `PKT_CS_SEL` (04_packet_audio_voting.md R162). -/
abbrev pktCsSel : Nat := 0x80808
/-- `PKT_CS_A0 to A5` (04_packet_audio_voting.md R162). -/
abbrev pktCsA (i : Nat) : Nat := 0x80810 + i * 0x4
/-- `PKT_CS_B0 to B5` (04_packet_audio_voting.md R162). -/
abbrev pktCsB (i : Nat) : Nat := 0x80828 + i * 0x4
/-- `PKT_VSv_STATE` (04_packet_audio_voting.md R162). -/
abbrev pktVsState (v : Nat) : Nat := 0x81000 + v * 0x10
/-- `PKT_VSv_LAG` (04_packet_audio_voting.md R162). -/
abbrev pktVsLag (v : Nat) : Nat := 0x81004 + v * 0x10
/-- `PKT_VSv_OUTVOTE_CNT` (04_packet_audio_voting.md R162). -/
abbrev pktVsOutvoteCnt (v : Nat) : Nat := 0x81008 + v * 0x10
/-- `PKT_VSv_NOMAJ_CNT` (04_packet_audio_voting.md R162). -/
abbrev pktVsNomajCnt (v : Nat) : Nat := 0x8100c + v * 0x10
/-- `PKT_TXFt_STATE` (04_packet_audio_voting.md R162). -/
abbrev pktTxfState (t : Nat) : Nat := 0x84000 + t * 0x10
/-- `PKT_TXFt_PKT_CNT` (04_packet_audio_voting.md R162). -/
abbrev pktTxfPktCnt (t : Nat) : Nat := 0x84004 + t * 0x10
/-- `PKT_TXFt_UND_CNT` (04_packet_audio_voting.md R162). -/
abbrev pktTxfUndCnt (t : Nat) : Nat := 0x84008 + t * 0x10
/-- `PKT_TXFt_DROP_CNT` (04_packet_audio_voting.md R162). -/
abbrev pktTxfDropCnt (t : Nat) : Nat := 0x8400c + t * 0x10
/-- `PKT_RXFf_STATE` (04_packet_audio_voting.md R162). -/
abbrev pktRxfState (f : Nat) : Nat := 0x90000 + f * 0x20
/-- `PKT_RXFf_P0_CNT` (04_packet_audio_voting.md R162). -/
abbrev pktRxfP0Cnt (f : Nat) : Nat := 0x90004 + f * 0x20
/-- `PKT_RXFf_P1_CNT` (04_packet_audio_voting.md R162). -/
abbrev pktRxfP1Cnt (f : Nat) : Nat := 0x90008 + f * 0x20
/-- `PKT_RXFf_MISS_CNT` (04_packet_audio_voting.md R162). -/
abbrev pktRxfMissCnt (f : Nat) : Nat := 0x9000c + f * 0x20
/-- `PKT_RXFf_LATE_CNT` (04_packet_audio_voting.md R162). -/
abbrev pktRxfLateCnt (f : Nat) : Nat := 0x90010 + f * 0x20
/-- `PKT_RXFf_DUP_CNT` (04_packet_audio_voting.md R162). -/
abbrev pktRxfDupCnt (f : Nat) : Nat := 0x90014 + f * 0x20
/-- `PKT_RXFf_ERR_CNT` (04_packet_audio_voting.md R162). -/
abbrev pktRxfErrCnt (f : Nat) : Nat := 0x90018 + f * 0x20
/-- `PKT_RXFf_MARGIN` (04_packet_audio_voting.md R162). -/
abbrev pktRxfMargin (f : Nat) : Nat := 0x9001c + f * 0x20
/-- `ZM_CTRL` (05_zones_layers.md R200). -/
abbrev zmCtrl : Nat := 0xa0000
/-- `ZM_STATUS` (05_zones_layers.md R200). -/
abbrev zmStatus : Nat := 0xa0004
/-- `ZM_BUS_BASE` (05_zones_layers.md R200). -/
abbrev zmBusBase : Nat := 0xa0008
/-- `ZM_AMB_TF_BASE` (05_zones_layers.md R200). -/
abbrev zmAmbTfBase : Nat := 0xa000c
/-- `ZM_SCHED_USED` (05_zones_layers.md R200). -/
abbrev zmSchedUsed : Nat := 0xa0010
/-- `ZM_LOAD` (05_zones_layers.md R200). -/
abbrev zmLoad : Nat := 0xa0014
/-- `ZM_LOAD_MAX` (05_zones_layers.md R200). -/
abbrev zmLoadMax : Nat := 0xa0018
/-- `ZM_OVF_CNT` (05_zones_layers.md R200). -/
abbrev zmOvfCnt : Nat := 0xa001c
/-- `ZM_LATE_CNT` (05_zones_layers.md R200). -/
abbrev zmLateCnt : Nat := 0xa0020
/-- `ZM_NONFIN_CNT` (05_zones_layers.md R200). -/
abbrev zmNonfinCnt : Nat := 0xa0024
/-- `ZM_CAP_DROP_CNT` (05_zones_layers.md R200). -/
abbrev zmCapDropCnt : Nat := 0xa0028
/-- `ZM_Zz_STATE` (05_zones_layers.md R200). -/
abbrev zmZState (z : Nat) : Nat := 0xa1000 + z * 0x10
/-- `ZM_Zz_GAIN` (05_zones_layers.md R200). -/
abbrev zmZGain (z : Nat) : Nat := 0xa1004 + z * 0x10
/-- `ZM_Zz_NOISE` (05_zones_layers.md R200). -/
abbrev zmZNoise (z : Nat) : Nat := 0xa1008 + z * 0x10
/-- `ZM_LANEn_ROUTE` (05_zones_layers.md R200). -/
abbrev zmLaneRoute (n : Nat) : Nat := 0xa2000 + n * 0x4
/-- `ZM_RTDMn_Ss` (05_zones_layers.md R200). -/
abbrev zmRtdmS (n s : Nat) : Nat := 0xa3000 + n * 0x80 + s * 0x4
/-- `ZM_RAESt_Cc` (05_zones_layers.md R200). -/
abbrev zmRaesC (t c : Nat) : Nat := 0xa3800 + t * 0x8 + c * 0x4
/-- `ZM_RCAPz` (05_zones_layers.md R200). -/
abbrev zmRcap (z : Nat) : Nat := 0xa3900 + z * 0x4
/-- `ZM_Zz_Ll_STATE` (05_zones_layers.md R200). -/
abbrev zmZLState (z l : Nat) : Nat := 0xa4000 + z * 0x80 + l * 0x10
/-- `ZM_Zz_Ll_GAIN` (05_zones_layers.md R200). -/
abbrev zmZLGain (z l : Nat) : Nat := 0xa4004 + z * 0x80 + l * 0x10
/-- `ZM_Zz_Ll_SRC` (05_zones_layers.md R200). -/
abbrev zmZLSrc (z l : Nat) : Nat := 0xa4008 + z * 0x80 + l * 0x10
/-- `PLY_CTRL` (06_announcement_players.md R224). -/
abbrev plyCtrl : Nat := 0xc0000
/-- `PLY_CACHE_BASE` (06_announcement_players.md R224). -/
abbrev plyCacheBase : Nat := 0xc0004
/-- `PLY_CACHE_PAGES` (06_announcement_players.md R224). -/
abbrev plyCachePages : Nat := 0xc0008
/-- `PLY_CACHE_USED` (06_announcement_players.md R224). -/
abbrev plyCacheUsed : Nat := 0xc000c
/-- `PLY_BUF_BASE` (06_announcement_players.md R224). -/
abbrev plyBufBase : Nat := 0xc0010
/-- `PLY_CRC_ERR_CNT` (06_announcement_players.md R224). -/
abbrev plyCrcErrCnt : Nat := 0xc0014
/-- `PLY_EVICT_CNT` (06_announcement_players.md R224). -/
abbrev plyEvictCnt : Nat := 0xc0018
/-- `PLY_Pp_STATE` (06_announcement_players.md R224). -/
abbrev plyPState (p : Nat) : Nat := 0xc1000 + p * 0x20
/-- `PLY_Pp_TAG_LO` (06_announcement_players.md R224). -/
abbrev plyPTagLo (p : Nat) : Nat := 0xc1008 + p * 0x20
/-- `PLY_Pp_TAG_HI` (06_announcement_players.md R224). -/
abbrev plyPTagHi (p : Nat) : Nat := 0xc100c + p * 0x20
/-- `PLY_Pp_POS` (06_announcement_players.md R224). -/
abbrev plyPPos (p : Nat) : Nat := 0xc1010 + p * 0x20
/-- `PLY_Pp_STARVE_CNT` (06_announcement_players.md R224). -/
abbrev plyPStarveCnt (p : Nat) : Nat := 0xc1014 + p * 0x20
/-- `PLY_CLIPc_INFO` (06_announcement_players.md R224). -/
abbrev plyClipInfo (c : Nat) : Nat := 0xc2000 + c * 0x8
/-- `PLY_CLIPc_LEN` (06_announcement_players.md R224). -/
abbrev plyClipLen (c : Nat) : Nat := 0xc2004 + c * 0x8
/-- `LPn_CTRL` (07_lane_processor.md R262). -/
abbrev lpnCtrl (n : Nat) : Nat := 0xe0000 + n * 0x1000
/-- `LPn_STATUS` (07_lane_processor.md R262). -/
abbrev lpnStatus (n : Nat) : Nat := 0xe0004 + n * 0x1000
/-- `LPn_IMG_ID` (07_lane_processor.md R262). -/
abbrev lpnImgId (n : Nat) : Nat := 0xe0008 + n * 0x1000
/-- `LPn_ENTRY` (07_lane_processor.md R262). -/
abbrev lpnEntry (n : Nat) : Nat := 0xe000c + n * 0x1000
/-- `LPn_CYC_LAST` (07_lane_processor.md R262). -/
abbrev lpnCycLast (n : Nat) : Nat := 0xe0010 + n * 0x1000
/-- `LPn_CYC_MAX` (07_lane_processor.md R262). -/
abbrev lpnCycMax (n : Nat) : Nat := 0xe0014 + n * 0x1000
/-- `LPn_END_LAST` (07_lane_processor.md R262). -/
abbrev lpnEndLast (n : Nat) : Nat := 0xe0018 + n * 0x1000
/-- `LPn_OVR_CNT` (07_lane_processor.md R262). -/
abbrev lpnOvrCnt (n : Nat) : Nat := 0xe001c + n * 0x1000
/-- `LPn_FAULT` (07_lane_processor.md R262). -/
abbrev lpnFault (n : Nat) : Nat := 0xe0020 + n * 0x1000
/-- `LPn_STAGE_BASE` (07_lane_processor.md R262). -/
abbrev lpnStageBase (n : Nat) : Nat := 0xe0024 + n * 0x1000
/-- `LPn_PEND_BASE` (07_lane_processor.md R262). -/
abbrev lpnPendBase (n : Nat) : Nat := 0xe0028 + n * 0x1000
/-- `LPn_TLM_BASE` (07_lane_processor.md R262). -/
abbrev lpnTlmBase (n : Nat) : Nat := 0xe002c + n * 0x1000
/-- `LPn_PEND_USED` (07_lane_processor.md R262). -/
abbrev lpnPendUsed (n : Nat) : Nat := 0xe0030 + n * 0x1000
/-- `LPn_DLYl_BASE` (07_lane_processor.md R262). -/
abbrev lpnDlyBase (n l : Nat) : Nat := 0xe0040 + n * 0x1000 + l * 0x8
/-- `LPn_DLYl_ALLOC` (07_lane_processor.md R262). -/
abbrev lpnDlyAlloc (n l : Nat) : Nat := 0xe0044 + n * 0x1000 + l * 0x8
/-- `LPn_DLYl_STATE` (07_lane_processor.md R262). -/
abbrev lpnDlyState (n l : Nat) : Nat := 0xe0080 + n * 0x1000 + l * 0x4
/-- `LP_GCTRL` (07_lane_processor.md R262). -/
abbrev lpGctrl : Nat := 0xf0000
/-- `LP_GSTATUS` (07_lane_processor.md R262). -/
abbrev lpGstatus : Nat := 0xf0004
/-- `LP_OVF_CNT` (07_lane_processor.md R262). -/
abbrev lpOvfCnt : Nat := 0xf0008
/-- `TLn_RINDl_VPK` (08_loudspeaker_protection.md R293). -/
abbrev tlRindVpk (n l : Nat) : Nat := 0x102000 + n * 0x4000 + l * 0x20
/-- `TLn_RINDl_IRMS` (08_loudspeaker_protection.md R293). -/
abbrev tlRindIrms (n l : Nat) : Nat := 0x102004 + n * 0x4000 + l * 0x20
/-- `TLn_RINDl_DC` (08_loudspeaker_protection.md R293). -/
abbrev tlRindDc (n l : Nat) : Nat := 0x102008 + n * 0x4000 + l * 0x20
/-- `TLn_RINDl_VS` (08_loudspeaker_protection.md R293). -/
abbrev tlRindVs (n l : Nat) : Nat := 0x10200c + n * 0x4000 + l * 0x20
/-- `TLn_RINDl_STAT` (08_loudspeaker_protection.md R293). -/
abbrev tlRindStat (n l : Nat) : Nat := 0x102010 + n * 0x4000 + l * 0x20
/-- `TLn_RINDl_TRIP_CNT` (08_loudspeaker_protection.md R293). -/
abbrev tlRindTripCnt (n l : Nat) : Nat := 0x102014 + n * 0x4000 + l * 0x20
/-- `TLn_RIND_TDIE` (08_loudspeaker_protection.md R293). -/
abbrev tlRindTdie (n : Nat) : Nat := 0x102100 + n * 0x4000
/-- `TLn_RIND_CTRL` (08_loudspeaker_protection.md R293). -/
abbrev tlRindCtrl (n : Nat) : Nat := 0x102104 + n * 0x4000
/-- `TLn_BATT_CFG` (08_loudspeaker_protection.md R293). -/
abbrev tlBattCfg (n : Nat) : Nat := 0x102108 + n * 0x4000
/-- `TLn_BATT_SCALE` (08_loudspeaker_protection.md R293). -/
abbrev tlBattScale (n : Nat) : Nat := 0x10210c + n * 0x4000
/-- `TLn_BATT_VAL` (08_loudspeaker_protection.md R293). -/
abbrev tlBattVal (n : Nat) : Nat := 0x102110 + n * 0x4000
/-- `LP_POOL_STATE` (08_loudspeaker_protection.md R293). -/
abbrev lpPoolState : Nat := 0xf0100
/-- `LP_POOL_BUDGET` (08_loudspeaker_protection.md R293). -/
abbrev lpPoolBudget : Nat := 0xf0104
/-- `LP_POOL_DEMAND` (08_loudspeaker_protection.md R293). -/
abbrev lpPoolDemand : Nat := 0xf0108
/-- `LP_POOL_SHED_CNT` (08_loudspeaker_protection.md R293). -/
abbrev lpPoolShedCnt : Nat := 0xf010c
/-- `LP_POOL_Zz_GAIN` (08_loudspeaker_protection.md R293). -/
abbrev lpPoolZGain (z : Nat) : Nat := 0xf1000 + z * 0x4
/-- `TLn_LINK_STATUS` (09_modulation_power_tile.md R334). -/
abbrev tlLinkStatus (n : Nat) : Nat := 0x100000 + n * 0x4000
/-- `TLn_LINK_CRC_CNT` (09_modulation_power_tile.md R334). -/
abbrev tlLinkCrcCnt (n : Nat) : Nat := 0x100004 + n * 0x4000
/-- `TLn_LINK_MISS_CNT` (09_modulation_power_tile.md R334). -/
abbrev tlLinkMissCnt (n : Nat) : Nat := 0x100008 + n * 0x4000
/-- `TLn_LINK_LOSS_CNT` (09_modulation_power_tile.md R334). -/
abbrev tlLinkLossCnt (n : Nat) : Nat := 0x10000c + n * 0x4000
/-- `TLn_TILE_ID` (09_modulation_power_tile.md R334). -/
abbrev tlTileId (n : Nat) : Nat := 0x100010 + n * 0x4000
/-- `TLn_CLKMON` (09_modulation_power_tile.md R334). -/
abbrev tlClkmon (n : Nat) : Nat := 0x100014 + n * 0x4000
/-- `TLn_PRES_OFS` (09_modulation_power_tile.md R334). -/
abbrev tlPresOfs (n : Nat) : Nat := 0x100018 + n * 0x4000
/-- `TLn_BOND` (09_modulation_power_tile.md R334). -/
abbrev tlBond (n : Nat) : Nat := 0x10001c + n * 0x4000
/-- `TLn_RAIL_NOM` (09_modulation_power_tile.md R334). -/
abbrev tlRailNom (n : Nat) : Nat := 0x100020 + n * 0x4000
/-- `TLn_RAIL_OV` (09_modulation_power_tile.md R334). -/
abbrev tlRailOv (n : Nat) : Nat := 0x100024 + n * 0x4000
/-- `TLn_RAIL_UV` (09_modulation_power_tile.md R334). -/
abbrev tlRailUv (n : Nat) : Nat := 0x100028 + n * 0x4000
/-- `TLn_RAIL_NOW` (09_modulation_power_tile.md R334). -/
abbrev tlRailNow (n : Nat) : Nat := 0x10002c + n * 0x4000
/-- `TLn_TEMP` (09_modulation_power_tile.md R334). -/
abbrev tlTemp (n : Nat) : Nat := 0x100030 + n * 0x4000
/-- `TLn_RELAY` (09_modulation_power_tile.md R334). -/
abbrev tlRelay (n : Nat) : Nat := 0x100034 + n * 0x4000
/-- `TLn_LANEl_CFG` (09_modulation_power_tile.md R334). -/
abbrev tlLaneCfg (n l : Nat) : Nat := 0x101000 + n * 0x4000 + l * 0x40
/-- `TLn_LANEl_ILIM` (09_modulation_power_tile.md R334). -/
abbrev tlLaneIlim (n l : Nat) : Nat := 0x101004 + n * 0x4000 + l * 0x40
/-- `TLn_LANEl_ZMIN` (09_modulation_power_tile.md R334). -/
abbrev tlLaneZmin (n l : Nat) : Nat := 0x101008 + n * 0x4000 + l * 0x40
/-- `TLn_LANEl_STATE` (09_modulation_power_tile.md R334). -/
abbrev tlLaneState (n l : Nat) : Nat := 0x10100c + n * 0x4000 + l * 0x40
/-- `TLn_LANEl_SC` (09_modulation_power_tile.md R334). -/
abbrev tlLaneSc (n l : Nat) : Nat := 0x101010 + n * 0x4000 + l * 0x40
/-- `TLn_LANEl_PROBE_Z` (09_modulation_power_tile.md R334). -/
abbrev tlLaneProbeZ (n l : Nat) : Nat := 0x101014 + n * 0x4000 + l * 0x40
/-- `TLn_LANEl_ILIM_CNT` (09_modulation_power_tile.md R334). -/
abbrev tlLaneIlimCnt (n l : Nat) : Nat := 0x101018 + n * 0x4000 + l * 0x40
/-- `TLn_LANEl_EDGE` (09_modulation_power_tile.md R334). -/
abbrev tlLaneEdge (n l : Nat) : Nat := 0x10101c + n * 0x4000 + l * 0x40
/-- `TLn_LANEl_SEED` (09_modulation_power_tile.md R334). -/
abbrev tlLaneSeed (n l : Nat) : Nat := 0x101020 + n * 0x4000 + l * 0x40
/-- `TLn_LANEl_SAFE_CNT` (09_modulation_power_tile.md R334). -/
abbrev tlLaneSafeCnt (n l : Nat) : Nat := 0x101024 + n * 0x4000 + l * 0x40
/-- `TLn_RINDl_TSAFE` (09_modulation_power_tile.md R334). -/
abbrev tlRindTsafe (n l : Nat) : Nat := 0x102018 + n * 0x4000 + l * 0x20
/-- `TLn_CORRl` (09_modulation_power_tile.md R334). -/
abbrev tlCorr (n l j : Nat) : Nat := 0x103000 + n * 0x4000 + l * 0x100 + j * 0x4
/-- `LP_DIAG_CTRL` (10_line_diagnostics.md R368). -/
abbrev lpDiagCtrl : Nat := 0xf2000
/-- `LP_DIAG_RING` (10_line_diagnostics.md R368). -/
abbrev lpDiagRing : Nat := 0xf2004
/-- `LP_DIAG_QUEUE` (10_line_diagnostics.md R368). -/
abbrev lpDiagQueue : Nat := 0xf2008
/-- `LP_DIAG_EXP_CNT` (10_line_diagnostics.md R368). -/
abbrev lpDiagExpCnt : Nat := 0xf200c
/-- `LP_DIAG_ADMIT1` (10_line_diagnostics.md R368). -/
abbrev lpDiagAdmit1 : Nat := 0xf2010
/-- `LP_DIAG_ADMIT2` (10_line_diagnostics.md R368). -/
abbrev lpDiagAdmit2 : Nat := 0xf2014
/-- `LP_DIAG_ADMIT3` (10_line_diagnostics.md R368). -/
abbrev lpDiagAdmit3 : Nat := 0xf2018
/-- `LP_DIAG_ADMIT4` (10_line_diagnostics.md R368). -/
abbrev lpDiagAdmit4 : Nat := 0xf201c
/-- `LP_DIAG_ADMIT5` (10_line_diagnostics.md R368). -/
abbrev lpDiagAdmit5 : Nat := 0xf2020
/-- `LP_DIAG_LANEn` (10_line_diagnostics.md R368). -/
abbrev lpDiagLane (n : Nat) : Nat := 0xf2100 + n * 0x4
/-- `TLn_EARTH_STAT` (10_line_diagnostics.md R368). -/
abbrev tlEarthStat (n : Nat) : Nat := 0x100040 + n * 0x4000
/-- `TLn_EARTH_R` (10_line_diagnostics.md R368). -/
abbrev tlEarthR (n : Nat) : Nat := 0x100044 + n * 0x4000
/-- `TLn_EARTH_C` (10_line_diagnostics.md R368). -/
abbrev tlEarthC (n : Nat) : Nat := 0x100048 + n * 0x4000
/-- `GBL_MODE` (11_twelve_modes.md R385). -/
abbrev gblMode : Nat := 0x600
/-- `GBL_MODE_CFG` (11_twelve_modes.md R385). -/
abbrev gblModeCfg : Nat := 0x604
/-- `GBL_MODE_BAT_POOL` (11_twelve_modes.md R385). -/
abbrev gblModeBatPool : Nat := 0x608
/-- `GBL_MODE_BAT_AMB` (11_twelve_modes.md R385). -/
abbrev gblModeBatAmb : Nat := 0x60c
/-- `GBL_FTM_UNLOCK` (11_twelve_modes.md R385). -/
abbrev gblFtmUnlock : Nat := 0x610
/-- `GBL_FTM_INJ` (11_twelve_modes.md R385). -/
abbrev gblFtmInj : Nat := 0x614
/-- `GBL_FTM_INJ_SYN` (11_twelve_modes.md R385). -/
abbrev gblFtmInjSyn : Nat := 0x618
/-- `GBL_FTM_INJ_CNT` (11_twelve_modes.md R385). -/
abbrev gblFtmInjCnt : Nat := 0x61c
/-- `TXL_CTRL` (12_troxlink_pairing.md R407). -/
abbrev txlCtrl : Nat := 0x140000
/-- `TXL_CFG` (12_troxlink_pairing.md R407). -/
abbrev txlCfg : Nat := 0x140004
/-- `TXL_LEV_CFG` (12_troxlink_pairing.md R407). -/
abbrev txlLevCfg : Nat := 0x140008
/-- `TXL_STATUS` (12_troxlink_pairing.md R407). -/
abbrev txlStatus : Nat := 0x14000c
/-- `TXL_PARTNER` (12_troxlink_pairing.md R407). -/
abbrev txlPartner : Nat := 0x140010
/-- `TXL_HB_MISS_CNT` (12_troxlink_pairing.md R407). -/
abbrev txlHbMissCnt : Nat := 0x140014
/-- `TXL_CRC_CNT` (12_troxlink_pairing.md R407). -/
abbrev txlCrcCnt : Nat := 0x140018
/-- `TXL_BUS_MISS_CNT` (12_troxlink_pairing.md R407). -/
abbrev txlBusMissCnt : Nat := 0x14001c
/-- `TXL_TAKE_CNT` (12_troxlink_pairing.md R407). -/
abbrev txlTakeCnt : Nat := 0x140020
/-- `TXL_TAKENk` (12_troxlink_pairing.md R407). -/
abbrev txlTaken (k : Nat) : Nat := 0x140030 + k * 0x4
/-- `TXL_PHEALTHYk` (12_troxlink_pairing.md R407). -/
abbrev txlPhealthy (k : Nat) : Nat := 0x140040 + k * 0x4
/-- `TXL_PTAKENk` (12_troxlink_pairing.md R407). -/
abbrev txlPtaken (k : Nat) : Nat := 0x140050 + k * 0x4
/-- `TXL_BINDl` (12_troxlink_pairing.md R407). -/
abbrev txlBind (l : Nat) : Nat := 0x140100 + l * 0x8
/-- `TXL_BSTATEl` (12_troxlink_pairing.md R407). -/
abbrev txlBstate (l : Nat) : Nat := 0x140104 + l * 0x8
/-- `TXL_BUS_TXk` (12_troxlink_pairing.md R407). -/
abbrev txlBusTx (k : Nat) : Nat := 0x140800 + k * 0x4
/-- `TLn_LEV_TH` (12_troxlink_pairing.md R407). -/
abbrev tlLevTh (n : Nat) : Nat := 0x100058 + n * 0x4000
/-- `TLn_LEVl_CFG` (12_troxlink_pairing.md R407). -/
abbrev tlLevCfg (n l : Nat) : Nat := 0x100060 + n * 0x4000 + l * 0x8
/-- `TLn_LEVl_STAT` (12_troxlink_pairing.md R407). -/
abbrev tlLevStat (n l : Nat) : Nat := 0x100064 + n * 0x4000 + l * 0x8
/-- `GBL_BATON_CLAIM` (13_host_ports_baton.md R433). -/
abbrev gblBatonClaim : Nat := 0x200
/-- `GBL_BATON_STATE` (13_host_ports_baton.md R433). -/
abbrev gblBatonState : Nat := 0x204
/-- `GBL_BATON_CFG` (13_host_ports_baton.md R433). -/
abbrev gblBatonCfg : Nat := 0x208
/-- `GBL_BATON_LEASE` (13_host_ports_baton.md R433). -/
abbrev gblBatonLease : Nat := 0x20c
/-- `GBL_BATON_LEFT` (13_host_ports_baton.md R433). -/
abbrev gblBatonLeft : Nat := 0x210
/-- `GBL_BATON_PASS` (13_host_ports_baton.md R433). -/
abbrev gblBatonPass : Nat := 0x214
/-- `GBL_BATON_ACCEPT` (13_host_ports_baton.md R433). -/
abbrev gblBatonAccept : Nat := 0x218
/-- `GBL_BATON_EPOCH` (13_host_ports_baton.md R433). -/
abbrev gblBatonEpoch : Nat := 0x21c
/-- `GBL_BATON_CLAIMn` (13_host_ports_baton.md R433). -/
abbrev gblBatonClaimOf (n : Nat) : Nat := 0x220 + n * 0x4
/-- `GBL_BATON_DROP_CNT` (13_host_ports_baton.md R433). -/
abbrev gblBatonDropCnt : Nat := 0x230
/-- `GBL_VOTE_CFG` (13_host_ports_baton.md R433). -/
abbrev gblVoteCfg : Nat := 0x300
/-- `GBL_VOTE_STATE` (13_host_ports_baton.md R433). -/
abbrev gblVoteState : Nat := 0x304
/-- `GBL_VOTE_TO_CNT` (13_host_ports_baton.md R433). -/
abbrev gblVoteToCnt : Nat := 0x308
/-- `GBL_VOTE_OK_CNT` (13_host_ports_baton.md R433). -/
abbrev gblVoteOkCnt : Nat := 0x30c
/-- `GBL_VOTE_MARKk` (13_host_ports_baton.md R433). -/
abbrev gblVoteMark (k : Nat) : Nat := 0x380 + k * 0x4
/-- `GBL_SHADOW_CFG` (13_host_ports_baton.md R433). -/
abbrev gblShadowCfg : Nat := 0x4a0
/-- `GBL_SHADOW_MIS_CNT` (13_host_ports_baton.md R433). -/
abbrev gblShadowMisCnt : Nat := 0x4a4
/-- `GBL_SHADOW_LAST` (13_host_ports_baton.md R433). -/
abbrev gblShadowLast : Nat := 0x4a8
/-- `GBL_SHADOW_ACT0, 1` (13_host_ports_baton.md R433). -/
abbrev gblShadowAct (i : Nat) : Nat := 0x4b0 + i * 0x4
/-- `GBL_SHADOWk` (13_host_ports_baton.md R433). -/
abbrev gblShadow (k : Nat) : Nat := 0x500 + k * 0x4
/-- `GBL_HP_LOCK` (13_host_ports_baton.md R433). -/
abbrev gblHpLock : Nat := 0x7c0
/-- `HPn_STATUS` (13_host_ports_baton.md R433). -/
abbrev hpStatus (n : Nat) : Nat := 0x700 + n * 0x40
/-- `HPn_CTRL` (13_host_ports_baton.md R433). -/
abbrev hpCtrl (n : Nat) : Nat := 0x704 + n * 0x40
/-- `HPn_CPL_DROP_CNT` (13_host_ports_baton.md R433). -/
abbrev hpCplDropCnt (n : Nat) : Nat := 0x708 + n * 0x40
/-- `HPn_DB_REF_CNT` (13_host_ports_baton.md R433). -/
abbrev hpDbRefCnt (n : Nat) : Nat := 0x70c + n * 0x40
/-- `HPn_DBWk` (13_host_ports_baton.md R433). -/
abbrev hpDbw (n k : Nat) : Nat := 0x710 + n * 0x40 + k * 0x4
/-- `RINGr_BASE_LO` (14_rings_descriptors.md R471). -/
abbrev ringBaseLo (r : Nat) : Nat := 0x200000 + r * 0x40
/-- `RINGr_BASE_HI` (14_rings_descriptors.md R471). -/
abbrev ringBaseHi (r : Nat) : Nat := 0x200004 + r * 0x40
/-- `RINGr_CFG` (14_rings_descriptors.md R471). -/
abbrev ringCfg (r : Nat) : Nat := 0x200008 + r * 0x40
/-- `RINGr_IRQ` (14_rings_descriptors.md R471). -/
abbrev ringIrq (r : Nat) : Nat := 0x20000c + r * 0x40
/-- `RINGr_PROD` (14_rings_descriptors.md R471). -/
abbrev ringProd (r : Nat) : Nat := 0x200010 + r * 0x40
/-- `RINGr_CONS` (14_rings_descriptors.md R471). -/
abbrev ringCons (r : Nat) : Nat := 0x200014 + r * 0x40
/-- `RINGr_INFLIGHT` (14_rings_descriptors.md R471). -/
abbrev ringInflight (r : Nat) : Nat := 0x200018 + r * 0x40
/-- `RINGr_STATUS` (14_rings_descriptors.md R471). -/
abbrev ringStatus (r : Nat) : Nat := 0x20001c + r * 0x40
/-- `RINGr_DROP_CNT` (14_rings_descriptors.md R471). -/
abbrev ringDropCnt (r : Nat) : Nat := 0x200020 + r * 0x40
/-- `RINGr_DONE_CNT` (14_rings_descriptors.md R471). -/
abbrev ringDoneCnt (r : Nat) : Nat := 0x200024 + r * 0x40
/-- `DB_r` (14_rings_descriptors.md R471). -/
abbrev db (r : Nat) : Nat := 0x400000 + r * 0x8
/-- `RING_STATUS` (14_rings_descriptors.md R471). -/
abbrev rngStatus : Nat := 0x900
/-- `RING_ERR_LAST` (14_rings_descriptors.md R471). -/
abbrev rngErrLast : Nat := 0x904
/-- `RING_DB_BAD_CNT` (14_rings_descriptors.md R471). -/
abbrev rngDbBadCnt : Nat := 0x908
/-- `RING_ACCEPT_CNT` (14_rings_descriptors.md R471). -/
abbrev rngAcceptCnt : Nat := 0x90c
/-- `RING_LATE_CNT` (14_rings_descriptors.md R471). -/
abbrev rngLateCnt : Nat := 0x910
/-- `FC_CTRL` (15_fault_collection.md R498). -/
abbrev fcCtrl : Nat := 0x10000
/-- `FC_STATUS` (15_fault_collection.md R498). -/
abbrev fcStatus : Nat := 0x10004
/-- `FC_ACK` (15_fault_collection.md R498). -/
abbrev fcAck : Nat := 0x10008
/-- `FC_PF_CLEAR` (15_fault_collection.md R498). -/
abbrev fcPfClear : Nat := 0x1000c
/-- `FC_FSWw` (15_fault_collection.md R498). -/
abbrev fcFsw (w : Nat) : Nat := 0x10010 + w * 0x4
/-- `FC_OPENw` (15_fault_collection.md R498). -/
abbrev fcOpen (w : Nat) : Nat := 0x10030 + w * 0x4
/-- `FC_VASELw` (15_fault_collection.md R498). -/
abbrev fcVasel (w : Nat) : Nat := 0x10050 + w * 0x4
/-- `FC_HOLDVAw` (15_fault_collection.md R498). -/
abbrev fcHoldva (w : Nat) : Nat := 0x10070 + w * 0x4
/-- `FC_HOLDGENw` (15_fault_collection.md R498). -/
abbrev fcHoldgen (w : Nat) : Nat := 0x10090 + w * 0x4
/-- `FC_HIST_HEAD` (15_fault_collection.md R498). -/
abbrev fcHistHead : Nat := 0x100b0
/-- `FC_HIST_LOST` (15_fault_collection.md R498). -/
abbrev fcHistLost : Nat := 0x100b4
/-- `FC_EVT_CNT` (15_fault_collection.md R498). -/
abbrev fcEvtCnt : Nat := 0x100b8
/-- `FC_MERGE_CNT` (15_fault_collection.md R498). -/
abbrev fcMergeCnt : Nat := 0x100bc
/-- `FC_EVRINGp` (15_fault_collection.md R498). -/
abbrev fcEvring (p : Nat) : Nat := 0x100c0 + p * 0x4
/-- `FC_IRQp` (15_fault_collection.md R498). -/
abbrev fcIrq (p : Nat) : Nat := 0x100d0 + p * 0x4
/-- `FC_CORE_IRQ` (15_fault_collection.md R498). -/
abbrev fcCoreIrq : Nat := 0x100e0
/-- `FC_RESET_CAUSE` (15_fault_collection.md R498). -/
abbrev fcResetCause : Nat := 0x100e4
/-- `FC_LOCK` (15_fault_collection.md R498). -/
abbrev fcLock : Nat := 0x100e8
/-- `FC_SHADOW` (15_fault_collection.md R498). -/
abbrev fcShadow : Nat := 0x100ec
/-- `FC_SRCs_MASK` (15_fault_collection.md R498). -/
abbrev fcSrcMask (s : Nat) : Nat := 0x11000 + s * 0x10
/-- `FC_SRCs_ADD` (15_fault_collection.md R498). -/
abbrev fcSrcAdd (s : Nat) : Nat := 0x11004 + s * 0x10
/-- `FC_SRCs_CSET` (15_fault_collection.md R498). -/
abbrev fcSrcCset (s : Nat) : Nat := 0x11008 + s * 0x10
/-- `FC_SRCs_CNT` (15_fault_collection.md R498). -/
abbrev fcSrcCnt (s : Nat) : Nat := 0x1100c + s * 0x10
/-- `FC_HISTk` (15_fault_collection.md R498). -/
abbrev fcHist (k j : Nat) : Nat := 0x12000 + k * 0x20 + j * 0x4
/-- `FC_PF` (15_fault_collection.md R498). -/
abbrev fcPf (j : Nat) : Nat := 0x12400 + j * 0x4
/-- `MX_CTRL` (16_matrix_vat.md R519). -/
abbrev mxCtrl : Nat := 0x30000
/-- `MX_STATUS` (16_matrix_vat.md R519). -/
abbrev mxStatus : Nat := 0x30004
/-- `MX_ERR_INFO` (16_matrix_vat.md R519). -/
abbrev mxErrInfo : Nat := 0x30008
/-- `MX_ERR_ADDR` (16_matrix_vat.md R519). -/
abbrev mxErrAddr : Nat := 0x3000c
/-- `MX_DECERR_CNT` (16_matrix_vat.md R519). -/
abbrev mxDecerrCnt : Nat := 0x30010
/-- `MX_ORPHAN_CNT` (16_matrix_vat.md R519). -/
abbrev mxOrphanCnt : Nat := 0x30014
/-- `MX_ABANDON_CNT` (16_matrix_vat.md R519). -/
abbrev mxAbandonCnt : Nat := 0x30018
/-- `MX_LOCK` (16_matrix_vat.md R519). -/
abbrev mxLock : Nat := 0x3001c
/-- `MX_CSRAM_SSV` (16_matrix_vat.md R519). -/
abbrev mxCsramSsv : Nat := 0x30020
/-- `MX_CSRAM_CE_CNT` (16_matrix_vat.md R519). -/
abbrev mxCsramCeCnt : Nat := 0x30024
/-- `MX_CSRAM_UE_CNT` (16_matrix_vat.md R519). -/
abbrev mxCsramUeCnt : Nat := 0x30028
/-- `MX_VREGk` (16_matrix_vat.md R519). -/
abbrev mxVreg (k : Nat) : Nat := 0x30100 + k * 0x8
/-- `MX_VREGk_WR` (16_matrix_vat.md R519). -/
abbrev mxVregWr (k : Nat) : Nat := 0x30104 + k * 0x8
/-- `MX_VBANKn_CE_CNT` (16_matrix_vat.md R519). -/
abbrev mxVbankCeCnt (n : Nat) : Nat := 0x31000 + n * 0x20
/-- `MX_VBANKn_UE_CNT` (16_matrix_vat.md R519). -/
abbrev mxVbankUeCnt (n : Nat) : Nat := 0x31004 + n * 0x20
/-- `MX_VBANKn_ERR` (16_matrix_vat.md R519). -/
abbrev mxVbankErr (n : Nat) : Nat := 0x31008 + n * 0x20
/-- `MX_VBANKn_LAPS` (16_matrix_vat.md R519). -/
abbrev mxVbankLaps (n : Nat) : Nat := 0x3100c + n * 0x20
/-- `MX_VBANKn_BAD` (16_matrix_vat.md R519). -/
abbrev mxVbankBad (n : Nat) : Nat := 0x31010 + n * 0x20
/-- `CORE_BOOT_STATUS` (17_cores_boot_warmup.md R552). -/
abbrev coreBootStatus : Nat := 0x150000
/-- `CORE_FW_VERSION` (17_cores_boot_warmup.md R552). -/
abbrev coreFwVersion : Nat := 0x150004
/-- `CORE_HOSTBOOT` (17_cores_boot_warmup.md R552). -/
abbrev coreHostboot : Nat := 0x150008
/-- `CORE_HOSTBOOT_LEN` (17_cores_boot_warmup.md R552). -/
abbrev coreHostbootLen : Nat := 0x15000c
/-- `CORE_LOCK` (17_cores_boot_warmup.md R552). -/
abbrev coreLock : Nat := 0x150010
/-- `CORE_MTIME_LO` (17_cores_boot_warmup.md R552). -/
abbrev coreMtimeLo : Nat := 0x150014
/-- `CORE_MTIME_HI` (17_cores_boot_warmup.md R552). -/
abbrev coreMtimeHi : Nat := 0x150018
/-- `CORE_SSV_STATUS` (17_cores_boot_warmup.md R552). -/
abbrev coreSsvStatus : Nat := 0x150020
/-- `CORE_ACn_CTRL` (17_cores_boot_warmup.md R552). -/
abbrev coreAcCtrl (n : Nat) : Nat := 0x150040 + n * 0x20
/-- `CORE_ACn_STATUS` (17_cores_boot_warmup.md R552). -/
abbrev coreAcStatus (n : Nat) : Nat := 0x150044 + n * 0x20
/-- `CORE_ACn_WMASK` (17_cores_boot_warmup.md R552). -/
abbrev coreAcWmask (n : Nat) : Nat := 0x150048 + n * 0x20
/-- `CORE_ACn_OPMASK` (17_cores_boot_warmup.md R552). -/
abbrev coreAcOpmask (n : Nat) : Nat := 0x15004c + n * 0x20
/-- `CORE_ACn_DQ_PUSH` (17_cores_boot_warmup.md R552). -/
abbrev coreAcDqPush (n : Nat) : Nat := 0x150050 + n * 0x20
/-- `CORE_ACn_DQ_STAT` (17_cores_boot_warmup.md R552). -/
abbrev coreAcDqStat (n : Nat) : Nat := 0x150054 + n * 0x20
/-- `CORE_ACn_CQ_POP` (17_cores_boot_warmup.md R552). -/
abbrev coreAcCqPop (n : Nat) : Nat := 0x150058 + n * 0x20
/-- `CORE_ACn_DQ_WIN` (17_cores_boot_warmup.md R552). -/
abbrev coreAcDqWin (n j : Nat) : Nat := 0x150400 + n * 0x40 + j * 0x4
/-- `CORE_ACn_CQ_WIN` (17_cores_boot_warmup.md R552). -/
abbrev coreAcCqWin (n j : Nat) : Nat := 0x150500 + n * 0x20 + j * 0x4
/-- `CORE_MBOXc_IN` (17_cores_boot_warmup.md R552). -/
abbrev coreMboxIn (c j : Nat) : Nat := 0x150600 + c * 0x40 + j * 0x4
/-- `CORE_MBOXc_OUT` (17_cores_boot_warmup.md R552). -/
abbrev coreMboxOut (c j : Nat) : Nat := 0x150620 + c * 0x40 + j * 0x4
/-- `CORE_MBOXc_BELL` (17_cores_boot_warmup.md R552). -/
abbrev coreMboxBell (c : Nat) : Nat := 0x150800 + c * 0x8
/-- `CORE_MBOXc_CTRL` (17_cores_boot_warmup.md R552). -/
abbrev coreMboxCtrl (c : Nat) : Nat := 0x150804 + c * 0x8
/-- `CORE_IRQc_PEND` (17_cores_boot_warmup.md R552). -/
abbrev coreIrqPend (c : Nat) : Nat := 0x150900 + c * 0x20
/-- `CORE_IRQc_EN` (17_cores_boot_warmup.md R552). -/
abbrev coreIrqEn (c : Nat) : Nat := 0x150904 + c * 0x20
/-- `CORE_NMIVECc` (17_cores_boot_warmup.md R552). -/
abbrev coreNmivec (c : Nat) : Nat := 0x150908 + c * 0x20
/-- `CORE_MTIMECMPc_LO` (17_cores_boot_warmup.md R552). -/
abbrev coreMtimecmpLo (c : Nat) : Nat := 0x15090c + c * 0x20
/-- `CORE_MTIMECMPc_HI` (17_cores_boot_warmup.md R552). -/
abbrev coreMtimecmpHi (c : Nat) : Nat := 0x150910 + c * 0x20
/-- `CORE_WDOGc` (17_cores_boot_warmup.md R552). -/
abbrev coreWdog (c : Nat) : Nat := 0x150914 + c * 0x20
/-- `CORE_KICKc` (17_cores_boot_warmup.md R552). -/
abbrev coreKick (c : Nat) : Nat := 0x150918 + c * 0x20
/-- `CORE_OTP_ADDR` (17_cores_boot_warmup.md R552). -/
abbrev coreOtpAddr : Nat := 0x150a00
/-- `CORE_OTP_DATA` (17_cores_boot_warmup.md R552). -/
abbrev coreOtpData : Nat := 0x150a04
/-- `CORE_OTP_CMD` (17_cores_boot_warmup.md R552). -/
abbrev coreOtpCmd : Nat := 0x150a08
/-- `CORE_OTP_STATUS` (17_cores_boot_warmup.md R552). -/
abbrev coreOtpStatus : Nat := 0x150a0c
/-- `CORE_CRY_CMD` (17_cores_boot_warmup.md R552). -/
abbrev coreCryCmd : Nat := 0x150b00
/-- `CORE_CRY_SRC` (17_cores_boot_warmup.md R552). -/
abbrev coreCrySrc : Nat := 0x150b04
/-- `CORE_CRY_LEN` (17_cores_boot_warmup.md R552). -/
abbrev coreCryLen : Nat := 0x150b08
/-- `CORE_CRY_ARG` (17_cores_boot_warmup.md R552). -/
abbrev coreCryArg : Nat := 0x150b0c
/-- `CORE_CRY_STATUS` (17_cores_boot_warmup.md R552). -/
abbrev coreCryStatus : Nat := 0x150b10
/-- `TLn_DEFw` (17_cores_boot_warmup.md R552). -/
abbrev tlDef (n w : Nat) : Nat := 0x100200 + n * 0x4000 + w * 0x4
/-- `TLn_DEF_CTRL` (17_cores_boot_warmup.md R552). -/
abbrev tlDefCtrl (n : Nat) : Nat := 0x100300 + n * 0x4000
/-- `GBL_ID` (18_register_index.md R559). -/
abbrev gblId : Nat := 0x0
/-- `GBL_REV` (18_register_index.md R559). -/
abbrev gblRev : Nat := 0x4
/-- `GBL_DEV_ID_LO` (18_register_index.md R559). -/
abbrev gblDevIdLo : Nat := 0x8
/-- `GBL_DEV_ID_HI` (18_register_index.md R559). -/
abbrev gblDevIdHi : Nat := 0xc
/-- `GBL_STRAPS` (18_register_index.md R559). -/
abbrev gblStraps : Nat := 0x10
/-- `GBL_TILES` (18_register_index.md R559). -/
abbrev gblTiles : Nat := 0x14
/-- `GBL_SYS_CTRL` (18_register_index.md R559). -/
abbrev gblSysCtrl : Nat := 0x18
/-- `GBL_RESET` (18_register_index.md R559). -/
abbrev gblReset : Nat := 0x1c
/-- `GBL_RESET_INFO` (18_register_index.md R559). -/
abbrev gblResetInfo : Nat := 0x20
/-- `GBL_WHOAMI` (18_register_index.md R559). -/
abbrev gblWhoami : Nat := 0x24
/-- `GBL_LOCK` (18_register_index.md R559). -/
abbrev gblLock : Nat := 0x28
/-- `GBL_LOCK_STATUS` (18_register_index.md R559). -/
abbrev gblLockStatus : Nat := 0x2c
/-- `GBL_SCRATCH0 to GBL_SCRATCH3` (18_register_index.md R559). -/
abbrev gblScratch (i : Nat) : Nat := 0x30 + i * 0x4

end Reg

/-- The rows of 02_pacer_heats_clocks.md R82. -/
def regs02 : List RegSpec :=
  [⟨0x20000, [], { }⟩,
   ⟨0x20004, [], { }⟩,
   ⟨0x20008, [], { }⟩,
   ⟨0x2000c, [], { }⟩,
   ⟨0x20010, [], { }⟩,
   ⟨0x20014, [], { rw := 0xffc3, reset := 0xfa80 }⟩,
   ⟨0x20018, [], { w1c := 0x18 }⟩,
   ⟨0x2001c, [], { rw := 0xffffffff }⟩,
   ⟨0x20020, [], { rw := 0xffffffff, wo := true }⟩,
   ⟨0x20024, [], { rw := 0xffff, reset := 0x14 }⟩,
   ⟨0x20028, [], { }⟩,
   ⟨0x2002c, [], { rw := 0xffffffff }⟩,
   ⟨0x20030, [], { rw := 0xffffffff }⟩,
   ⟨0x20034, [], { rw := 0xffffffff }⟩,
   ⟨0x20038, [], { rw := 0xffffff, reset := 0x1003e8 }⟩,
   ⟨0x2003c, [], { rw := 0xffffffff, reset := 0xe10 }⟩,
   ⟨0x20040, [], { rw := 0xffffffff }⟩,
   ⟨0x20044, [], { rw := 0xffff }⟩,
   ⟨0x20048, [], { rc := true }⟩,
   ⟨0x2004c, [], { rw := 0xffff, reset := 0x190 }⟩,
   ⟨0x20050, [], { rc := true }⟩,
   ⟨0x20054, [], { rc := true }⟩,
   ⟨0x20100, [(0x4, 3)], { w1c := 0xffffffff }⟩,
   ⟨0x21000, [(0x10, 64)], { }⟩,
   ⟨0x21004, [(0x10, 64)], { }⟩,
   ⟨0x21008, [(0x10, 64)], { }⟩,
   ⟨0x2100c, [(0x10, 64)], { rc := true }⟩]

/-- The rows of 03_serial_ports.md R127-R129. -/
def regs03 : List RegSpec :=
  [⟨0x40000, [(0x1000, 16)], { rw := 0x1ff0fff, reset := 0x10200 }⟩,
   ⟨0x40004, [(0x1000, 16)], { rw := 0xfffffffb, reset := 0x20070082 }⟩,
   ⟨0x40008, [(0x1000, 16)], { }⟩,
   ⟨0x4000c, [(0x1000, 16)], { rw := 0xffffffff }⟩,
   ⟨0x40010, [(0x1000, 16)], { }⟩,
   ⟨0x40014, [(0x1000, 16)], { rw := 0xffffffff }⟩,
   ⟨0x40018, [(0x1000, 16)], { rw := 0x3f3f, reset := 0x2020 }⟩,
   ⟨0x4001c, [(0x1000, 16)], { rw := 0xffffffc0 }⟩,
   ⟨0x40020, [(0x1000, 16)], { rw := 0x7f, reset := 0x8 }⟩,
   ⟨0x40024, [(0x1000, 16)], { }⟩,
   ⟨0x40028, [(0x1000, 16)], { rw := 0xffffffff }⟩,
   ⟨0x4002c, [(0x1000, 16)], { rw := 0x7f, reset := 0x8 }⟩,
   ⟨0x40030, [(0x1000, 16)], { rw := 0x1ff, reset := 0x64 }⟩,
   ⟨0x40034, [(0x1000, 16)], { w1c := 0x1c0 }⟩,
   ⟨0x40038, [(0x1000, 16)], { rc := true }⟩,
   ⟨0x4003c, [(0x1000, 16)], { rc := true }⟩,
   ⟨0x40040, [(0x1000, 16)], { rc := true }⟩,
   ⟨0x40044, [(0x1000, 16)], { rc := true }⟩,
   ⟨0x60000, [(0x100, 8)], { rw := 0xff39, reset := 0x6208 }⟩,
   ⟨0x60004, [(0x100, 8)], { }⟩,
   ⟨0x60008, [(0x100, 8)], { rw := 0xffffffc0 }⟩,
   ⟨0x6000c, [(0x100, 8)], { rw := 0x7f, reset := 0x8 }⟩,
   ⟨0x60010, [(0x100, 8)], { }⟩,
   ⟨0x60014, [(0x100, 8)], { rw := 0x1ff, reset := 0x64 }⟩,
   ⟨0x60018, [(0x100, 8)], { rc := true }⟩,
   ⟨0x6001c, [(0x100, 8)], { rc := true }⟩,
   ⟨0x60020, [(0x100, 8), (0x4, 6)], { }⟩,
   ⟨0x60038, [(0x100, 8), (0x4, 6)], { }⟩,
   ⟨0x61000, [(0x100, 4)], { rw := 0xf00f, reset := 0x2002 }⟩,
   ⟨0x61004, [(0x100, 4)], { w1c := 0x4 }⟩]
  ++ [⟨0x61008, [(0x100, 4)], { rw := 0xffffffff }⟩,
   ⟨0x6100c, [(0x100, 4)], { rw := 0x7f, reset := 0x8 }⟩,
   ⟨0x61010, [(0x100, 4)], { rw := 0x1, wo := true }⟩,
   ⟨0x61014, [(0x100, 4)], { rc := true }⟩,
   ⟨0x61020, [(0x100, 4), (0x4, 6)], { rw := 0xffffffff }⟩,
   ⟨0x61038, [(0x100, 4), (0x4, 6)], { rw := 0xffffffff }⟩,
   ⟨0x70000, [(0x100, 4)], { rw := 0xf1, reset := 0x50 }⟩,
   ⟨0x70004, [(0x100, 4)], { rw := 0xff }⟩,
   ⟨0x70008, [(0x100, 4)], { rw := 0xffffffc0 }⟩,
   ⟨0x7000c, [(0x100, 4)], { rw := 0x7f, reset := 0x8 }⟩,
   ⟨0x70010, [(0x100, 4)], { }⟩,
   ⟨0x70014, [(0x100, 4)], { }⟩,
   ⟨0x70018, [(0x100, 4)], { rw := 0x1ff, reset := 0x64 }⟩]

/-- The rows of 04_packet_audio_voting.md R162. -/
def regs04 : List RegSpec :=
  [⟨0x80000, [(0x400, 2)], { rw := 0xb17, reset := 0x14 }⟩,
   ⟨0x80004, [(0x400, 2)], { }⟩,
   ⟨0x80008, [(0x400, 2)], { rw := 0xffffffff }⟩,
   ⟨0x8000c, [(0x400, 2)], { rw := 0xffff }⟩,
   ⟨0x80010, [(0x400, 2)], { rw := 0xffffffff }⟩,
   ⟨0x80014, [(0x400, 2)], { rw := 0xffffffff }⟩,
   ⟨0x80018, [(0x400, 2)], { rw := 0xffffffff }⟩,
   ⟨0x8001c, [(0x400, 2)], { rc := true }⟩,
   ⟨0x80020, [(0x400, 2)], { rc := true }⟩,
   ⟨0x80024, [(0x400, 2)], { rc := true }⟩,
   ⟨0x80028, [(0x400, 2)], { rc := true }⟩,
   ⟨0x8002c, [(0x400, 2)], { rc := true }⟩,
   ⟨0x80800, [], { }⟩,
   ⟨0x80804, [], { }⟩,
   ⟨0x80808, [], { rw := 0x7ff }⟩,
   ⟨0x80810, [(0x4, 6)], { }⟩,
   ⟨0x80828, [(0x4, 6)], { }⟩,
   ⟨0x81000, [(0x10, 256)], { reset := 0x300 }⟩,
   ⟨0x81004, [(0x10, 256)], { }⟩,
   ⟨0x81008, [(0x10, 256)], { rc := true }⟩,
   ⟨0x8100c, [(0x10, 256)], { rc := true }⟩,
   ⟨0x84000, [(0x10, 512)], { }⟩,
   ⟨0x84004, [(0x10, 512)], { rc := true }⟩,
   ⟨0x84008, [(0x10, 512)], { rc := true }⟩,
   ⟨0x8400c, [(0x10, 512)], { rc := true }⟩,
   ⟨0x90000, [(0x20, 2048)], { }⟩,
   ⟨0x90004, [(0x20, 2048)], { rc := true }⟩,
   ⟨0x90008, [(0x20, 2048)], { rc := true }⟩,
   ⟨0x9000c, [(0x20, 2048)], { rc := true }⟩,
   ⟨0x90010, [(0x20, 2048)], { rc := true }⟩]
  ++ [⟨0x90014, [(0x20, 2048)], { rc := true }⟩,
   ⟨0x90018, [(0x20, 2048)], { rc := true }⟩,
   ⟨0x9001c, [(0x20, 2048)], { rc := true, reset := 0xffffffff }⟩]

/-- The rows of 05_zones_layers.md R200. -/
def regs05 : List RegSpec :=
  [⟨0xa0000, [], { rw := 0x1ff0001, reset := 0x640000 }⟩,
   ⟨0xa0004, [], { }⟩,
   ⟨0xa0008, [], { rw := 0xffffffc0 }⟩,
   ⟨0xa000c, [], { rw := 0xffffffc0 }⟩,
   ⟨0xa0010, [], { }⟩,
   ⟨0xa0014, [], { }⟩,
   ⟨0xa0018, [], { rc := true }⟩,
   ⟨0xa001c, [], { rc := true }⟩,
   ⟨0xa0020, [], { rc := true }⟩,
   ⟨0xa0024, [], { rc := true }⟩,
   ⟨0xa0028, [], { rc := true }⟩,
   ⟨0xa1000, [(0x10, 256)], { }⟩,
   ⟨0xa1004, [(0x10, 256)], { }⟩,
   ⟨0xa1008, [(0x10, 256)], { reset := 0x8000 }⟩,
   ⟨0xa2000, [(0x4, 128)], { reset := 0xffff }⟩,
   ⟨0xa3000, [(0x80, 16), (0x4, 32)], { reset := 0xffff }⟩,
   ⟨0xa3800, [(0x8, 4), (0x4, 2)], { reset := 0xffff }⟩,
   ⟨0xa3900, [(0x4, 256)], { }⟩,
   ⟨0xa4000, [(0x80, 256), (0x10, 8)], { }⟩,
   ⟨0xa4004, [(0x80, 256), (0x10, 8)], { }⟩,
   ⟨0xa4008, [(0x80, 256), (0x10, 8)], { }⟩]

/-- The rows of 06_announcement_players.md R224. -/
def regs06 : List RegSpec :=
  [⟨0xc0000, [], { rw := 0x1 }⟩,
   ⟨0xc0004, [], { rw := 0xfffff000 }⟩,
   ⟨0xc0008, [], { rw := 0x7fff }⟩,
   ⟨0xc000c, [], { }⟩,
   ⟨0xc0010, [], { rw := 0xffff0000 }⟩,
   ⟨0xc0014, [], { rc := true }⟩,
   ⟨0xc0018, [], { rc := true }⟩,
   ⟨0xc1000, [(0x20, 64)], { }⟩,
   ⟨0xc1008, [(0x20, 64)], { }⟩,
   ⟨0xc100c, [(0x20, 64)], { }⟩,
   ⟨0xc1010, [(0x20, 64)], { }⟩,
   ⟨0xc1014, [(0x20, 64)], { rc := true }⟩,
   ⟨0xc2000, [(0x8, 1024)], { }⟩,
   ⟨0xc2004, [(0x8, 1024)], { }⟩]

/-- The rows of 07_lane_processor.md R262. -/
def regs07 : List RegSpec :=
  [⟨0xe0000, [(0x1000, 16)], { rw := 0xf1, reset := 0x40 }⟩,
   ⟨0xe0004, [(0x1000, 16)], { }⟩,
   ⟨0xe0008, [(0x1000, 16)], { }⟩,
   ⟨0xe000c, [(0x1000, 16)], { }⟩,
   ⟨0xe0010, [(0x1000, 16)], { }⟩,
   ⟨0xe0014, [(0x1000, 16)], { rc := true }⟩,
   ⟨0xe0018, [(0x1000, 16)], { }⟩,
   ⟨0xe001c, [(0x1000, 16)], { rc := true }⟩,
   ⟨0xe0020, [(0x1000, 16)], { }⟩,
   ⟨0xe0024, [(0x1000, 16)], { rw := 0x7ff000 }⟩,
   ⟨0xe0028, [(0x1000, 16)], { rw := 0x7ff000 }⟩,
   ⟨0xe002c, [(0x1000, 16)], { rw := 0x7fffc0 }⟩,
   ⟨0xe0030, [(0x1000, 16)], { }⟩,
   ⟨0xe0040, [(0x1000, 16), (0x8, 8)], { rw := 0x7fffc0 }⟩,
   ⟨0xe0044, [(0x1000, 16), (0x8, 8)], { rw := 0xffff }⟩,
   ⟨0xe0080, [(0x1000, 16), (0x4, 8)], { }⟩,
   ⟨0xf0000, [], { rw := 0x1, w1s := 0x80000000, lock := .lpSign }⟩,
   ⟨0xf0004, [], { }⟩,
   ⟨0xf0008, [], { rc := true }⟩]

/-- The rows of 08_loudspeaker_protection.md R293. -/
def regs08 : List RegSpec :=
  [⟨0x102000, [(0x4000, 16), (0x20, 8)], { rw := 0xffff, ssvw := true, reset := 0x5aa }⟩,
   ⟨0x102004, [(0x4000, 16), (0x20, 8)], { rw := 0xffff, ssvw := true, reset := 0x5dc }⟩,
   ⟨0x102008, [(0x4000, 16), (0x20, 8)], { rw := 0x3ff, ssvw := true, reset := 0x32 }⟩,
   ⟨0x10200c, [(0x4000, 16), (0x20, 8)], { rw := 0xfff, ssvw := true, reset := 0x190 }⟩,
   ⟨0x102010, [(0x4000, 16), (0x20, 8)], { reset := 0x2 }⟩,
   ⟨0x102014, [(0x4000, 16), (0x20, 8)], { rc := true }⟩,
   ⟨0x102100, [(0x4000, 16)], { rw := 0xff, ssvw := true, reset := 0x7d }⟩,
   ⟨0x102104, [(0x4000, 16)], { w1s := 0x80000000, ssvw := true }⟩,
   ⟨0x102108, [(0x4000, 16)], { rw := 0x3 }⟩,
   ⟨0x10210c, [(0x4000, 16)], { rw := 0xffffffff, reset := 0x42c80000 }⟩,
   ⟨0x102110, [(0x4000, 16)], { reset := 0x447a0000 }⟩,
   ⟨0xf0100, [], { }⟩,
   ⟨0xf0104, [], { }⟩,
   ⟨0xf0108, [], { }⟩,
   ⟨0xf010c, [], { rc := true }⟩,
   ⟨0xf1000, [(0x4, 256)], { }⟩]

/-- The rows of 09_modulation_power_tile.md R334. -/
def regs09 : List RegSpec :=
  [⟨0x100000, [(0x4000, 16)], { w1c := 0xc0 }⟩,
   ⟨0x100004, [(0x4000, 16)], { rc := true }⟩,
   ⟨0x100008, [(0x4000, 16)], { rc := true }⟩,
   ⟨0x10000c, [(0x4000, 16)], { rc := true }⟩,
   ⟨0x100010, [(0x4000, 16)], { }⟩,
   ⟨0x100014, [(0x4000, 16)], { w1c := 0x7ff }⟩,
   ⟨0x100018, [(0x4000, 16)], { }⟩,
   ⟨0x10001c, [(0x4000, 16)], { rw := 0x3f }⟩,
   ⟨0x100020, [(0x4000, 16)], { rw := 0xffffffff, reset := 0x43160000 }⟩,
   ⟨0x100024, [(0x4000, 16)], { rw := 0xffff, reset := 0x6b8 }⟩,
   ⟨0x100028, [(0x4000, 16)], { rw := 0xffff, reset := 0xc8 }⟩,
   ⟨0x10002c, [(0x4000, 16)], { }⟩,
   ⟨0x100030, [(0x4000, 16)], { }⟩,
   ⟨0x100034, [(0x4000, 16)], { }⟩,
   ⟨0x101000, [(0x4000, 16), (0x40, 8)], { rw := 0xfffffa, reset := 0x786232 }⟩,
   ⟨0x101004, [(0x4000, 16), (0x40, 8)], { rw := 0x3fffff, lock := .rind, reset := 0x70fa0 }⟩,
   ⟨0x101008, [(0x4000, 16), (0x40, 8)], { rw := 0xffff, reset := 0x28 }⟩,
   ⟨0x10100c, [(0x4000, 16), (0x40, 8)], { }⟩,
   ⟨0x101010, [(0x4000, 16), (0x40, 8)], { }⟩,
   ⟨0x101014, [(0x4000, 16), (0x40, 8)], { }⟩,
   ⟨0x101018, [(0x4000, 16), (0x40, 8)], { rc := true }⟩,
   ⟨0x10101c, [(0x4000, 16), (0x40, 8)], { }⟩,
   ⟨0x101020, [(0x4000, 16), (0x40, 8)], { }⟩,
   ⟨0x101024, [(0x4000, 16), (0x40, 8)], { rc := true }⟩,
   ⟨0x102018, [(0x4000, 16), (0x20, 8)], { rw := 0x1, ssvw := true }⟩,
   ⟨0x103000, [(0x4000, 16), (0x100, 8), (0x4, 64)], { }⟩]

/-- The rows of 10_line_diagnostics.md R368. -/
def regs10 : List RegSpec :=
  [⟨0xf2000, [], { rw := 0xff0001, w1c := 0x2, reset := 0x460000 }⟩,
   ⟨0xf2004, [], { rw := 0xffff }⟩,
   ⟨0xf2008, [], { }⟩,
   ⟨0xf200c, [], { rc := true }⟩,
   ⟨0xf2010, [], { rw := 0x3ff, reset := 0x57 }⟩,
   ⟨0xf2014, [], { rw := 0x3ff, reset := 0x5b }⟩,
   ⟨0xf2018, [], { rw := 0x3ff, reset := 0x6b }⟩,
   ⟨0xf201c, [], { rw := 0x3ff, reset := 0x47 }⟩,
   ⟨0xf2020, [], { rw := 0x3ff, reset := 0x157 }⟩,
   ⟨0xf2100, [(0x4, 128)], { }⟩,
   ⟨0x100040, [(0x4000, 16)], { }⟩,
   ⟨0x100044, [(0x4000, 16)], { }⟩,
   ⟨0x100048, [(0x4000, 16)], { }⟩]

/-- The rows of 11_twelve_modes.md R385. -/
def regs11 : List RegSpec :=
  [⟨0x600, [], { w1c := 0x80000 }⟩,
   ⟨0x604, [], { rw := 0xffffff03, reset := 0x3c550a02 }⟩,
   ⟨0x608, [], { rw := 0xffff }⟩,
   ⟨0x60c, [], { rw := 0xffff, reset := 0x12c }⟩,
   ⟨0x610, [], { rw := 0xffffffff, wo := true }⟩,
   ⟨0x614, [], { rw := 0xffffffff, wo := true }⟩,
   ⟨0x618, [], { rw := 0xffffffff }⟩,
   ⟨0x61c, [], { rc := true }⟩]

/-- The rows of 12_troxlink_pairing.md R407. -/
def regs12 : List RegSpec :=
  [⟨0x140000, [], { rw := 0x3fff01, reset := 0x500 }⟩,
   ⟨0x140004, [], { rw := 0xffffffff, reset := 0x258320f }⟩,
   ⟨0x140008, [], { rw := 0xffffff00, reset := 0x3c0a3200 }⟩,
   ⟨0x14000c, [], { }⟩,
   ⟨0x140010, [], { }⟩,
   ⟨0x140014, [], { rc := true }⟩,
   ⟨0x140018, [], { rc := true }⟩,
   ⟨0x14001c, [], { rc := true }⟩,
   ⟨0x140020, [], { rc := true }⟩,
   ⟨0x140030, [(0x4, 4)], { }⟩,
   ⟨0x140040, [(0x4, 4)], { }⟩,
   ⟨0x140050, [(0x4, 4)], { }⟩,
   ⟨0x140100, [(0x8, 128)], { }⟩,
   ⟨0x140104, [(0x8, 128)], { }⟩,
   ⟨0x140800, [(0x4, 8)], { }⟩,
   ⟨0x100058, [(0x4000, 16)], { reset := 0xa32 }⟩,
   ⟨0x100060, [(0x4000, 16), (0x8, 8)], { reset := 0x5dc0 }⟩,
   ⟨0x100064, [(0x4000, 16), (0x8, 8)], { }⟩]

/-- The rows of 13_host_ports_baton.md R433. -/
def regs13 : List RegSpec :=
  [⟨0x200, [], { rw := 0x3fff01ff, wo := true }⟩,
   ⟨0x204, [], { reset := 0x3030 }⟩,
   ⟨0x208, [], { rw := 0x7, reset := 0x3 }⟩,
   ⟨0x20c, [], { rw := 0x3fff, reset := 0x64 }⟩,
   ⟨0x210, [], { }⟩,
   ⟨0x214, [], { rw := 0x103, wo := true }⟩,
   ⟨0x218, [], { rw := 0x3fff0001, wo := true }⟩,
   ⟨0x21c, [], { }⟩,
   ⟨0x220, [(0x4, 3)], { }⟩,
   ⟨0x230, [], { rc := true }⟩,
   ⟨0x300, [], { rw := 0xff, w1s := 0x80000000, reset := 0x5 }⟩,
   ⟨0x304, [], { }⟩,
   ⟨0x308, [], { rc := true }⟩,
   ⟨0x30c, [], { rc := true }⟩,
   ⟨0x380, [(0x4, 72)], { }⟩,
   ⟨0x4a0, [], { rw := 0xff00, w1c := 0x10000, reset := 0x3200 }⟩,
   ⟨0x4a4, [], { rc := true }⟩,
   ⟨0x4a8, [], { }⟩,
   ⟨0x4b0, [(0x4, 2)], { }⟩,
   ⟨0x500, [(0x4, 64)], { rw := 0xffff7fff }⟩,
   ⟨0x7c0, [], { w1s := 0x1 }⟩,
   ⟨0x700, [(0x40, 3)], { w1c := 0xe00 }⟩,
   ⟨0x704, [(0x40, 3)], { rw := 0x3f07ff, reset := 0xa0000 }⟩,
   ⟨0x708, [(0x40, 3)], { rc := true }⟩,
   ⟨0x70c, [(0x40, 3)], { rc := true }⟩,
   ⟨0x710, [(0x40, 3), (0x4, 12)], { rw := 0xffff7fff, lock := .acl }⟩]

/-- The rows of 14_rings_descriptors.md R471. -/
def regs14 : List RegSpec :=
  [⟨0x200000, [(0x40, 32768)], { rw := 0xfffff000 }⟩,
   ⟨0x200004, [(0x40, 32768)], { rw := 0xffffffff }⟩,
   ⟨0x200008, [(0x40, 32768)], { rw := 0x8fff7fff }⟩,
   ⟨0x20000c, [(0x40, 32768)], { rw := 0xffff87ff }⟩,
   ⟨0x200010, [(0x40, 32768)], { }⟩,
   ⟨0x200014, [(0x40, 32768)], { }⟩,
   ⟨0x200018, [(0x40, 32768)], { }⟩,
   ⟨0x20001c, [(0x40, 32768)], { w1c := 0x62 }⟩,
   ⟨0x200020, [(0x40, 32768)], { rc := true }⟩,
   ⟨0x200024, [(0x40, 32768)], { rc := true }⟩,
   ⟨0x400000, [(0x8, 32768)], { rw := 0xffffffff, wo := true }⟩,
   ⟨0x900, [], { }⟩,
   ⟨0x904, [], { }⟩,
   ⟨0x908, [], { rc := true }⟩,
   ⟨0x90c, [], { rc := true }⟩,
   ⟨0x910, [], { rc := true }⟩]

/-- The rows of 15_fault_collection.md R498. -/
def regs15 : List RegSpec :=
  [⟨0x10000, [], { rw := 0x301, lock := .fc, reset := 0x300 }⟩,
   ⟨0x10004, [], { w1c := 0x70 }⟩,
   ⟨0x10008, [], { rw := 0x800000ff, wo := true }⟩,
   ⟨0x1000c, [], { rw := 0x1, wo := true }⟩,
   ⟨0x10010, [(0x4, 8)], { w1c := 0xffffffff }⟩,
   ⟨0x10030, [(0x4, 8)], { }⟩,
   ⟨0x10050, [(0x4, 8)], { rw := 0xffffffff, lock := .fc }⟩,
   ⟨0x10070, [(0x4, 8)], { }⟩,
   ⟨0x10090, [(0x4, 8)], { }⟩,
   ⟨0x100b0, [], { }⟩,
   ⟨0x100b4, [], { rc := true }⟩,
   ⟨0x100b8, [], { rc := true }⟩,
   ⟨0x100bc, [], { rc := true }⟩,
   ⟨0x100c0, [(0x4, 3)], { rw := 0x80037fff }⟩,
   ⟨0x100d0, [(0x4, 3)], { rw := 0x87ff }⟩,
   ⟨0x100e0, [], { rw := 0xf0f, lock := .fc }⟩,
   ⟨0x100e4, [], { }⟩,
   ⟨0x100e8, [], { w1s := 0x1 }⟩,
   ⟨0x100ec, [], { }⟩,
   ⟨0x11000, [(0x10, 256)], { rw := 0x3f3f3f, lock := .fc, reset := 0x3f3f3f }⟩,
   ⟨0x11004, [(0x10, 256)], { rw := 0x3f3f3f, lock := .fc }⟩,
   ⟨0x11008, [(0x10, 256)], { rw := 0xffffffff, lock := .fc, reset := 0xffffffff }⟩,
   ⟨0x1100c, [(0x10, 256)], { rc := true }⟩,
   ⟨0x12000, [(0x20, 32), (0x4, 8)], { }⟩,
   ⟨0x12400, [(0x4, 8)], { }⟩]

/-- The rows of 16_matrix_vat.md R519. -/
def regs16 : List RegSpec :=
  [⟨0x30000, [], { rw := 0xff01, reset := 0xa01 }⟩,
   ⟨0x30004, [], { }⟩,
   ⟨0x30008, [], { }⟩,
   ⟨0x3000c, [], { }⟩,
   ⟨0x30010, [], { rc := true }⟩,
   ⟨0x30014, [], { rc := true }⟩,
   ⟨0x30018, [], { rc := true }⟩,
   ⟨0x3001c, [], { w1s := 0x1 }⟩,
   ⟨0x30020, [], { rw := 0x1fffff, ssvw := true, reset := 0x40000 }⟩,
   ⟨0x30024, [], { rc := true }⟩,
   ⟨0x30028, [], { rc := true }⟩,
   ⟨0x30100, [(0x8, 32)], { rw := 0xc7ff07ff, lock := .mx }⟩,
   ⟨0x30104, [(0x8, 32)], { rw := 0x1ff, lock := .mx, reset := 0x1ff }⟩,
   ⟨0x31000, [(0x20, 16)], { rc := true }⟩,
   ⟨0x31004, [(0x20, 16)], { rc := true }⟩,
   ⟨0x31008, [(0x20, 16)], { }⟩,
   ⟨0x3100c, [(0x20, 16)], { }⟩,
   ⟨0x31010, [(0x20, 16)], { }⟩]

/-- The rows of 17_cores_boot_warmup.md R552. -/
def regs17 : List RegSpec :=
  [⟨0x150000, [], { reset := 0x300 }⟩,
   ⟨0x150004, [], { }⟩,
   ⟨0x150008, [], { rw := 0x87ffffc0 }⟩,
   ⟨0x15000c, [], { rw := 0x1fffff }⟩,
   ⟨0x150010, [], { w1s := 0x1 }⟩,
   ⟨0x150014, [], { }⟩,
   ⟨0x150018, [], { }⟩,
   ⟨0x150020, [], { }⟩,
   ⟨0x150040, [(0x20, 4)], { rw := 0x1, w1s := 0x2 }⟩,
   ⟨0x150044, [(0x20, 4)], { w1c := 0x100 }⟩,
   ⟨0x150048, [(0x20, 4)], { rw := 0xfffd, lock := .core }⟩,
   ⟨0x15004c, [(0x20, 4)], { rw := 0x1ff, lock := .core }⟩,
   ⟨0x150050, [(0x20, 4)], { rw := 0x1, wo := true }⟩,
   ⟨0x150054, [(0x20, 4)], { reset := 0x1000 }⟩,
   ⟨0x150058, [(0x20, 4)], { rw := 0x1, wo := true }⟩,
   ⟨0x150400, [(0x40, 4), (0x4, 16)], { rw := 0xffffffff }⟩,
   ⟨0x150500, [(0x20, 4), (0x4, 8)], { }⟩,
   ⟨0x150600, [(0x40, 5), (0x4, 8)], { rw := 0xffffffff }⟩,
   ⟨0x150620, [(0x40, 5), (0x4, 8)], { rw := 0xffffffff }⟩,
   ⟨0x150800, [(0x8, 5)], { rw := 0xffffffff, wo := true }⟩,
   ⟨0x150804, [(0x8, 5)], { rw := 0x87ff }⟩,
   ⟨0x150900, [(0x20, 5)], { w1c := 0x77 }⟩,
   ⟨0x150904, [(0x20, 5)], { rw := 0x7f }⟩,
   ⟨0x150908, [(0x20, 5)], { rw := 0xffffffff, reset := 0x10000000 }⟩,
   ⟨0x15090c, [(0x20, 5)], { rw := 0xffffffff, reset := 0xffffffff }⟩,
   ⟨0x150910, [(0x20, 5)], { rw := 0xffffffff, reset := 0xffffffff }⟩,
   ⟨0x150914, [(0x20, 4)], { rw := 0x8000ffff, reset := 0x3e8 }⟩,
   ⟨0x150994, [], { rw := 0x8000ffff, ssvw := true, reset := 0x3e8 }⟩,
   ⟨0x150918, [(0x20, 5)], { rw := 0xffffffff, wo := true }⟩,
   ⟨0x150a00, [], { rw := 0x1ffc, ssvw := true }⟩,
   ⟨0x150a04, [], { rw := 0xffffffff, ssvw := true }⟩]
  ++ [⟨0x150a08, [], { rw := 0x3, ssvw := true }⟩,
   ⟨0x150a0c, [], { }⟩,
   ⟨0x150b00, [], { rw := 0x80000003, ssvw := true }⟩,
   ⟨0x150b04, [], { rw := 0xffffffff, ssvw := true }⟩,
   ⟨0x150b08, [], { rw := 0xffffffff, ssvw := true }⟩,
   ⟨0x150b0c, [], { rw := 0xffffffff, ssvw := true }⟩,
   ⟨0x150b10, [], { }⟩,
   ⟨0x100200, [(0x4000, 16), (0x4, 64)], { rw := 0xffffffff, ssvw := true }⟩,
   ⟨0x100300, [(0x4000, 16)], { ssvw := true }⟩]

/-- The rows of 18_register_index.md R559. -/
def regs18 : List RegSpec :=
  [⟨0x0, [], { reset := 0x91281f3d }⟩,
   ⟨0x4, [], { reset := 0x1001 }⟩,
   ⟨0x8, [], { }⟩,
   ⟨0xc, [], { }⟩,
   ⟨0x10, [], { }⟩,
   ⟨0x14, [], { }⟩,
   ⟨0x18, [], { rw := 0x1, ssvw := true }⟩,
   ⟨0x1c, [], { rw := 0xffffffff, wo := true }⟩,
   ⟨0x20, [], { w1c := 0x100 }⟩,
   ⟨0x24, [], { reset := 0xf }⟩,
   ⟨0x28, [], { w1s := 0x1 }⟩,
   ⟨0x2c, [], { }⟩,
   ⟨0x30, [(0x4, 4)], { rw := 0xffffffff }⟩]

/-- Every row of the register tables. -/
def regSpecs : List RegSpec :=
  regs02 ++ regs03 ++ regs04 ++ regs05 ++ regs06 ++ regs07 ++ regs08 ++ regs09 ++ regs10 ++ regs11 ++ regs12 ++ regs13 ++ regs14 ++ regs15 ++ regs16 ++ regs17 ++ regs18

/-- The rows of the block an offset lies in (R556): the search of one block's table suffices. -/
def blockSpecs (off : Nat) : List RegSpec :=
  if off < 0x10000 then regs18 ++ regs13 ++ regs11 ++ regs14
  else if off < 0x20000 then regs15 else if off < 0x30000 then regs02 else if off < 0x40000 then regs16
  else if off < 0x80000 then regs03 else if off < 0xA0000 then regs04 else if off < 0xC0000 then regs05
  else if off < 0xE0000 then regs06 else if off < 0x100000 then regs07 ++ regs08 ++ regs10
  else if off < 0x140000 then regs09 ++ regs08 ++ regs10 ++ regs12 ++ regs17
  else if off < 0x150000 then regs12 else if off < 0x200000 then regs17 else regs14

/-- The row of the register at a 4-byte-aligned offset; none for a hole (R9, R554). -/
def regRow (off : Nat) : Option RegRow := ((blockSpecs off).find? (·.hit off)).map (·.row)

/-- The value an offset reads as until something changes it: the reset value of the tables, zero for a hole (R554). The
one index-dependent reset is `HPn_DBW0`, 0xFFFF_0000 (R433). -/
def resetWord (off : Nat) : Word :=
  if off = Reg.hpDbw 0 0 ∨ off = Reg.hpDbw 1 0 ∨ off = Reg.hpDbw 2 0 then 0xFFFF0000#32
  else match regRow off with
    | some r => BitVec.ofNat 32 r.reset
    | none => 0#32

end Sys2Proof.Machine
end

