-- ==== Sys2Proof/Machine/Ops.lean ====
section
/-! DEFINITION. The named operations over the state: registers and their fields, counters, the sparse tables, the time of the
pacer, free values, the vat, and presenting an event to the collector. -/

namespace Sys2Proof.Machine

/-! ### Registers -/

/-- The value of the register at an offset. -/
def State.reg (s : State) (off : Nat) : Word := Sparse.get (resetWord off) s.regs off

/-- The register at an offset set to a value: hardware's write, which no access type limits. -/
def State.setReg (s : State) (off : Nat) (v : Word) : State :=
  { s with regs := Sparse.set (resetWord off) s.regs off v }

/-- Bits `hi` to `lo` of a register. -/
def State.getF (s : State) (off hi lo : Nat) : Nat := fld (s.reg off) hi lo

def State.putF (s : State) (off hi lo v : Nat) : State := s.setReg off (setFld (s.reg off) hi lo v)

def State.bit (s : State) (off i : Nat) : Bool := bitAt (s.reg off) i

def State.setBit (s : State) (off i : Nat) (b : Bool) : State := s.setReg off (setBitAt (s.reg off) i b)

/-- The register at an offset back at its reset value. -/
def State.clearReg (s : State) (off : Nat) : State := { s with regs := Sparse.del s.regs off }

/-- A counter of `n` bits at bit 0 of a register goes up by `k`; past its largest value it shows a free value. -/
def State.bumpBy (s : State) (off n k : Nat) : State :=
  let v := s.getF off (n - 1) 0 + k
  s.putF off (n - 1) 0 (if v < 2 ^ n then v else Config.counterWrap off)

def State.bump (s : State) (off n : Nat) : State := s.bumpBy off n 1

/-- A bit of a 256-bit vector held in eight consecutive registers. -/
def State.bitVecGet (s : State) (base : Nat → Nat) (i : Nat) : Bool := s.bit (base (i / 32)) (i % 32)

def State.bitVecSet (s : State) (base : Nat → Nat) (i : Nat) (b : Bool) : State :=
  s.setBit (base (i / 32)) (i % 32) b

/-! ### The modes in force (R385) -/

def State.vaFlag (s : State) : Bool := s.bit Reg.gblMode 1
def State.batMode (s : State) : Bool := s.bit Reg.gblMode 5
def State.wup (s : State) : Bool := s.bit Reg.gblMode 6
def State.mnt (s : State) : Bool := s.bit Reg.gblMode 10
def State.ftm (s : State) : Bool := s.bit Reg.gblMode 11

/-! ### Free values -/

/-- The next free value. -/
def State.freeVal (s : State) : Word := Config.free s.freeCtr

/-- One free value has been taken. -/
def State.take (s : State) : State := { s with freeCtr := s.freeCtr + 1 }

/-! ### Sparse tables of hidden state -/

def State.hpAt (s : State) (p : Nat) : HpH := Sparse.get {} s.hp p
def State.setHp (s : State) (p : Nat) (h : HpH) : State := { s with hp := Sparse.set {} s.hp p h }
def State.ringAt (s : State) (r : Nat) : RingH := Sparse.get {} s.rings r
def State.setRing (s : State) (r : Nat) (h : RingH) : State := { s with rings := Sparse.set {} s.rings r h }
def State.coreAt (s : State) (c : Nat) : CoreH := Sparse.get {} s.cores c
def State.setCore (s : State) (c : Nat) (h : CoreH) : State := { s with cores := Sparse.set {} s.cores c h }
def State.pairAt (s : State) (k : Nat) : PairH := Sparse.get {} s.pairs k
def State.setPair (s : State) (k : Nat) (h : PairH) : State := { s with pairs := Sparse.set {} s.pairs k h }
def State.bankAt (s : State) (b : Nat) : BankH := Sparse.get {} s.banks b
def State.setBank (s : State) (b : Nat) (h : BankH) : State := { s with banks := Sparse.set {} s.banks b h }
def State.chanAt (s : State) (k : Nat) : ChanH := Sparse.get {} s.chans k
def State.setChan (s : State) (k : Nat) (h : ChanH) : State := { s with chans := Sparse.set {} s.chans k h }
def State.srcAt (s : State) (e : Nat) : SrcH := Sparse.get {} s.srcs e
def State.setSrc (s : State) (e : Nat) (h : SrcH) : State := { s with srcs := Sparse.set {} s.srcs e h }
def State.flowAt (s : State) (f : Nat) : FlowH := Sparse.get {} s.flows f
def State.setFlow (s : State) (f : Nat) (h : FlowH) : State := { s with flows := Sparse.set {} s.flows f h }
def State.txFlowAt (s : State) (f : Nat) : TxFlowH := Sparse.get {} s.txFlows f
def State.setTxFlow (s : State) (f : Nat) (h : TxFlowH) : State := { s with txFlows := Sparse.set {} s.txFlows f h }
def State.vsrcAt (s : State) (v : Nat) : VsH := Sparse.get {} s.vsrcs v
def State.setVsrc (s : State) (v : Nat) (h : VsH) : State := { s with vsrcs := Sparse.set {} s.vsrcs v h }
def State.zoneAt (s : State) (z : Nat) : ZoneH := Sparse.get {} s.zones z
def State.setZone (s : State) (z : Nat) (h : ZoneH) : State := { s with zones := Sparse.set {} s.zones z h }
def State.layerAt (s : State) (z l : Nat) : LayerH := Sparse.get {} s.layers (z * 8 + l)
def State.setLayer (s : State) (z l : Nat) (h : LayerH) : State :=
  { s with layers := Sparse.set {} s.layers (z * 8 + l) h }
def State.routeAt (s : State) (n : Nat) : RouteH := Sparse.get {} s.routes n
def State.setRoute (s : State) (n : Nat) (h : RouteH) : State := { s with routes := Sparse.set {} s.routes n h }
def State.playerAt (s : State) (p : Nat) : PlayerH := Sparse.get {} s.players p
def State.setPlayer (s : State) (p : Nat) (h : PlayerH) : State := { s with players := Sparse.set {} s.players p h }
def State.clipAt (s : State) (c : Nat) : ClipH := Sparse.get {} s.clips c
def State.setClip (s : State) (c : Nat) (h : ClipH) : State := { s with clips := Sparse.set {} s.clips c h }
def State.laneAt (s : State) (n : Nat) : LaneH := Sparse.get {} s.lanes n
def State.setLane (s : State) (n : Nat) (h : LaneH) : State := { s with lanes := Sparse.set {} s.lanes n h }
def State.tileAt (s : State) (t : Nat) : TileH := Sparse.get {} s.tiles t
def State.setTile (s : State) (t : Nat) (h : TileH) : State := { s with tiles := Sparse.set {} s.tiles t h }
def State.lpAt (s : State) (n : Nat) : LpH := Sparse.get {} s.lps n
def State.setLp (s : State) (n : Nat) (h : LpH) : State := { s with lps := Sparse.set {} s.lps n h }
def State.tdmRxAt (s : State) (n : Nat) : RxH := Sparse.get {} s.tdmRx n
def State.setTdmRx (s : State) (n : Nat) (h : RxH) : State := { s with tdmRx := Sparse.set {} s.tdmRx n h }
def State.aesRxAt (s : State) (n : Nat) : RxH := Sparse.get {} s.aesRx n
def State.setAesRx (s : State) (n : Nat) (h : RxH) : State := { s with aesRx := Sparse.set {} s.aesRx n h }
def State.pdmAt (s : State) (n : Nat) : RxH := Sparse.get {} s.pdm n
def State.setPdm (s : State) (n : Nat) (h : RxH) : State := { s with pdm := Sparse.set {} s.pdm n h }
def State.tdmTxAt (s : State) (n : Nat) : TxH := Sparse.get {} s.tdmTx n
def State.setTdmTx (s : State) (n : Nat) (h : TxH) : State := { s with tdmTx := Sparse.set {} s.tdmTx n h }
def State.aesTxAt (s : State) (n : Nat) : TxH := Sparse.get {} s.aesTx n
def State.setAesTx (s : State) (n : Nat) (h : TxH) : State := { s with aesTx := Sparse.set {} s.aesTx n h }
def State.micAt (s : State) (n : Nat) : MicH := Sparse.get {} s.mics n
def State.setMic (s : State) (n : Nat) (h : MicH) : State := { s with mics := Sparse.set {} s.mics n h }
def State.csAt (s : State) (n : Nat) : CsH := Sparse.get {} s.cs n
def State.setCs (s : State) (n : Nat) (h : CsH) : State := { s with cs := Sparse.set {} s.cs n h }

/-! ### Time (R44, R58, R59) -/

/-- The heat number: pacer nanoseconds divided by 1,000,000, truncated (R58). -/
def State.heat (s : State) : Nat := s.pacer.ns.toNat / 1000000

/-- The first sample of 48 in a heat whose nominal time is at or after `t` ns, as a heat and a sample (R59, R60): sample k of
heat h lies at h × 1,000,000 + k × 1,000,000 / 48 ns. -/
def sampleAt (t : Nat) : Nat × Nat :=
  let n := ceilDiv (t * 48) 1000000
  (n / 48, n % 48)

/-- A register whose offset holds the low word of a 64-bit value. -/
def State.set64 (s : State) (lo hi v : Nat) : State :=
  (s.setReg lo (BitVec.ofNat 32 v)).setReg hi (BitVec.ofNat 32 (v / 2 ^ 32))

def State.get64 (s : State) (lo hi : Nat) : Nat := (s.reg hi).toNat * 2 ^ 32 + (s.reg lo).toNat

/-! ### Latched words (R47, R111, R138, R483, R492, R524) -/

/-- The number `GBL_WHOAMI` reads for a master (R559). -/
def masterCode : Master → Nat
  | .host p => p.val
  | .ssv => 4
  | .ac n => 8 + n.val
  | .other => 15

def latchKey (m : Master) (off : Nat) : Nat := masterCode m * 2 ^ 25 + off

/-- The words at some offsets are frozen for a master as they stand. -/
def State.latchWords (s : State) (m : Master) (offs : List Nat) (f : Nat → Word) : State :=
  { s with latch := offs.foldl (fun t o => Sparse.set none t (latchKey m o) (some (f o))) s.latch }

/-- What a latched register reads as for a master: its frozen word, or the live one where none has been frozen. -/
def State.latched (s : State) (m : Master) (off : Nat) (live : Word) : Word :=
  (Sparse.get none s.latch (latchKey m off)).getD live

/-! ### Events (R472) -/

/-- A block presents an event: it waits in the block behind those before it, and is discarded behind eight, in which case the
next event of the source carries LOST. Reserved sources never raise (R474); nor do those of an absent tile (R21). -/
def State.emitEv (s : State) (e : Ev) : State :=
  if srcReserved e.src.val then s
  else if 128 ≤ e.src.val ∧ e.src.val < 144 ∧ !s.bit (Reg.tlLinkStatus (e.src.val - 128)) 0 then s
  else if e.src.val < 128 ∧ !s.bit (Reg.tlLinkStatus (e.src.val / 8)) 0 then s
  else if 8 ≤ (s.fc.queue.filter (fun q => q.src == e.src)).length then
    { s with fc := { s.fc with lostSrc := e.src.val :: s.fc.lostSrc.filter (· != e.src.val) } }
  else
    let e := { e with lost := e.lost || s.fc.lostSrc.contains e.src.val }
    { s with fc := { s.fc with queue := s.fc.queue ++ [e], lostSrc := s.fc.lostSrc.filter (· != e.src.val) } }

/-- Present the event `code` of the tables on source `src` with a syndrome. -/
def State.emit (s : State) (src code : Nat) (syn : Word) : State :=
  let r := evRow src code
  s.emitEv { src := Fin.ofNat 256 src, cls := r.1, react := r.2, syn := syn }

/-- `k` more of an event of source `src` within this heat, on a slot, channel, microphone or flow: how many there are now. -/
def State.countEv (s : State) (src code sub k : Nat) : State × Nat :=
  let key := src * 2 ^ 24 + code * 2 ^ 16 + sub
  let n := Sparse.get 0 s.evCounts key + k
  ({ s with evCounts := Sparse.set 0 s.evCounts key n }, n)

/-! ### MSI-X (R408, R409, R604) -/

/-- A port is usable while its link is up, no function-level reset is in progress and its bus master enable is set (R446). -/
def State.usable (s : State) (p : Nat) : Bool :=
  s.getF (Reg.hpStatus p) 1 0 != 0 && !(s.hpAt p).flr && s.bit (Reg.hpStatus p) 8

/-- A word of the MSI-X table as a reset leaves it: the mask bit of every vector set, as the PCIe specification gives. -/
def msixDefault (o : Nat) : Word := if o % 4 = 3 then 1#32 else 0#32

def HpH.tableWord (h : HpH) (o : Nat) : Word := Sparse.get (msixDefault o) h.table o

/-- Vector `v` is raised on port `p`: sent, or held pending in the PBA while the function or the vector is masked; nothing while
MSI-X is disabled or the port is not usable (R604). -/
def State.msix (s : State) (p v : Nat) : State :=
  let h := s.hpAt p
  if !h.msixEn || !s.usable p then s
  else if h.fmask || bitAt (h.tableWord (v * 4 + 3)) 0 then
    s.setHp p { h with pba := Sparse.set 0 h.pba (v / 32) (setBitAt (Sparse.get 0 h.pba (v / 32)) (v % 32) true) }
  else s.setHp p { h with sent := h.sent + 1, lastVec := some v }

/-! ### The vat (R510, R511, R515) -/

/-- The size of the vat in bytes. -/
abbrev vatSize : Nat := 0x8000000

/-- A byte of the vat; a memory with check bits is written with zero at power-on (R536). -/
def State.vatByte (s : State) (a : Nat) : Byte := Sparse.get 0 s.vat a

/-- The writers' groups of `MX_VREGk_WR`; a private port and the SSV are not checked (R515). -/
inductive VatWriter where
  | host (p : Nat) | ring | ingress | egress | eth | player | ac (n : Nat) | lp (n : Nat) | collector | ssv
  | privateLp (n : Nat)
deriving DecidableEq, Repr

/-- The bit of `MX_VREGk_WR` that admits a writer; none for one the table never refuses. -/
def VatWriter.bit : VatWriter → Option Nat
  | .host _ => some 0
  | .ring => some 1
  | .ingress => some 2
  | .egress => some 3
  | .eth => some 4
  | .player => some 5
  | .ac _ => some 6
  | .lp _ => some 7
  | .collector => some 8
  | .ssv => none
  | .privateLp _ => none

/-- Matrix master numbers (R499). -/
def VatWriter.master : VatWriter → Nat
  | .host p => p
  | .ring => 3
  | .ingress => 4
  | .egress => 5
  | .eth => 6
  | .player => 7
  | .ssv => 8
  | .ac n => 9 + n
  | .collector => 13
  | .lp n => 16 + n
  | .privateLp n => 16 + n

/-- The detector of an error in a syndrome (R518): 0 scrubber, 1 matrix port, 2 private port. -/
def VatWriter.detector : VatWriter → Nat
  | .privateLp _ => 2
  | _ => 1

/-- The 64 KiB unit of a byte offset lies in enabled region `k` (R515). -/
def State.inRegion (s : State) (k unit : Nat) : Bool :=
  let r := s.reg (Reg.mxVreg k)
  bitAt r 31 && fld r 10 0 ≤ unit && unit ≤ fld r 26 16

/-- A word of the vat is critical when one of its regions has CRIT set (R515). -/
def State.vatCritical (s : State) (a : Nat) : Bool :=
  (List.range 32).any fun k => s.inRegion k (a / 65536) && s.bit (Reg.mxVreg k) 30

/-- Every region that holds the offset permits the writer (R515). -/
def State.vatPermits (s : State) (w : VatWriter) (a : Nat) : Bool :=
  match w.bit with
  | none => true
  | some b => (List.range 32).all fun k => !s.inRegion k (a / 65536) || s.bit (Reg.mxVregWr k) b

/-- The syndrome of a vat event on word `word` of a bank (R518). -/
def vatSyn (code det word : Nat) : Word := BitVec.ofNat 32 (code * 2 ^ 24 + det % 16 * 2 ^ 20 + word % 2 ^ 20)

/-- The last error of a bank, as `MX_VBANKn_ERR` records it (R518, R519). -/
def State.vatErrInfo (s : State) (bank master det word : Nat) : State :=
  s.setReg (Reg.mxVbankErr bank) (BitVec.ofNat 32 (master % 32 * 2 ^ 24 + det % 16 * 2 ^ 20 + word % 2 ^ 20))

def BankH.find (b : BankH) (word : Nat) : Option BadWord := b.bad.find? (·.word == word)

def BankH.drop (b : BankH) (word : Nat) : BankH := { b with bad := b.bad.filter (·.word != word) }

/-- The count of listed words shown in `MX_VBANKn_BAD` (R514). -/
def State.setBankShown (s : State) (n : Nat) (b : BankH) : State :=
  (s.setBank n b).putF (Reg.mxVbankBad n) 4 0 (b.bad.filter (·.listed)).length

/-- A read of a 64-bit word of bank `n` finds the error `e` there (R511, R513, R514): a single-bit error is corrected and written
back with event 0x01; an uncorrectable one raises 0x02, or 0x03 in a critical region, unless the word is listed; it enters the
list, and a full list raises 0x05 once. -/
def State.vatFound (s : State) (n : Nat) (e : BadWord) (master det : Nat) : State :=
  let b := s.bankAt n
  if !e.double then
    let s := (s.setBankShown n (b.drop e.word)).bump (Reg.mxVbankCeCnt n) 32
    (s.vatErrInfo n master det e.word).emit (196 + n) 0x01 (vatSyn 0x01 det e.word)
  else if e.listed then s
  else
    let code := if s.vatCritical (n * 0x800000 + e.word * 8) then 0x03 else 0x02
    let s := ((s.bump (Reg.mxVbankUeCnt n) 32).vatErrInfo n master det e.word).emit (196 + n) code
      (vatSyn code det e.word)
    if (b.bad.filter (·.listed)).length < 16 then
      s.setBankShown n { (b.drop e.word) with bad := (b.drop e.word).bad ++ [{ e with listed := true }] }
    else if b.fullSeen then s.setBit Reg.mxStatus n true
    else ((s.setBank n { b with fullSeen := true }).setBit Reg.mxStatus n true).emit (196 + n) 0x05
      (vatSyn 0x05 det e.word)

/-- A write by `w` of the bytes of one 64-bit word, `bs` from byte `a` (R511, R512, R514, R515). -/
def State.vatWriteWord (s : State) (w : VatWriter) (a : Nat) (bs : List Byte) : State :=
  let n := a / 0x800000 % 16
  let word := a % 0x800000 / 8
  if !s.vatPermits w a then
    (s.vatErrInfo n w.master w.detector word).emit (196 + n) 0x04 (vatSyn 0x04 w.detector word)
  else
    let b := s.bankAt n
    let whole : Bool := a % 8 == 0 && bs.length == 8
    match b.find word with
    | some e =>
      if e.double && !whole then s.vatFound n e w.master w.detector
      else
        let s := s.setBankShown n (b.drop word)
        { s with vat := (bs.zipIdx).foldl (fun m p => Sparse.set 0 m (a + p.2) p.1) s.vat }
    | none =>
      let s := { s with vat := (bs.zipIdx).foldl (fun m p => Sparse.set 0 m (a + p.2) p.1) s.vat }
      if b.inject = 0 then s
      else s.setBank n { b with inject := 0, bad := b.bad ++ [{ word := word, double := b.inject == 2 }] }

/-- A write of bytes from offset `a`, split at 64-bit words; at most `n` words. -/
def State.vatWriteGo (w : VatWriter) : Nat → Nat → List Byte → State → State
  | 0, _, _, s => s
  | n + 1, a, bs, s =>
    if bs.isEmpty then s
    else
      let k := 8 - a % 8
      State.vatWriteGo w n (a + k) (bs.drop k) (s.vatWriteWord w a (bs.take k))

/-- `w` writes bytes into the vat from byte offset `a`; offsets wrap at the size of the vat. -/
def State.vatWrite (s : State) (w : VatWriter) (a : Nat) (bs : List Byte) : State :=
  State.vatWriteGo w (bs.length / 8 + 2) (a % vatSize) bs s

/-- `w` writes `n` zero bytes, at most 64 KiB of whole words: at once where every word is good and may be written. -/
def State.vatZero (s : State) (w : VatWriter) (a n : Nat) : State :=
  let a := a % vatSize
  let b := s.bankAt (a / 0x800000)
  if a / 0x800000 = (a + n - 1) / 0x800000 ∧ b.bad.isEmpty ∧ b.inject = 0 ∧ s.vatPermits w a ∧ s.vatPermits w (a + n - 1) then
    { s with vat := s.vat.filter fun p => p.1 < a || a + n ≤ p.1 }
  else s.vatWrite w a (List.replicate n 0#8)

/-- The bytes a reader gets: an uncorrectable word reads zero for every reader but a host port (R512). -/
def State.vatBytes (s : State) (a n : Nat) : List Byte :=
  (List.range n).map fun i =>
    let a := (a + i) % vatSize
    match (s.bankAt (a / 0x800000)).find (a % 0x800000 / 8) with
    | some e => if e.double then 0#8 else s.vatByte a
    | none => s.vatByte a

/-- A read by `w`: the events of every word with an error (R511). -/
def State.vatTouch (s : State) (w : VatWriter) (a n : Nat) : State :=
  forUpto ((a % 8 + n + 7) / 8) (fun i s =>
    let a := (a / 8 * 8 + i * 8) % vatSize
    let b := a / 0x800000
    match (s.bankAt b).find (a % 0x800000 / 8) with
    | some e => s.vatFound b e w.master w.detector
    | none => s) s

/-- The block of a source is in a block reset, or held in one (R478). -/
def State.inReset (s : State) (src : Nat) : Bool := s.fc.resets.contains src || s.fc.held.contains src

/-! ### The SSV and the OTP (R521, R534) -/

/-- The safety path is lost: the SSV is halted by a lockstep mismatch (R521), or its clock island is out of tolerance (R71). -/
def State.ssvHalted (s : State) : Bool := s.bit Reg.coreSsvStatus 1 || s.islOut.getLsbD 72

/-- A word of the OTP as it reads: an uncorrectable one reads zero. -/
def State.otpWord (s : State) (w : Nat) : Word :=
  if s.otpBad.any fun e => e.word == w && e.double then 0#32 else Sparse.get 0 s.otp w

def State.otpBytes (s : State) (w n : Nat) : List Byte := bytesOfWords ((List.range n).map fun i => s.otpWord (w + i))

/-- Words `w` to `w + n - 1` are read: 0x01 for a word with one wrong bit, 0x02 for one with more. -/
def State.otpTouch (s : State) (w n : Nat) : State :=
  (s.otpBad.filter fun e => w ≤ e.word && e.word < w + n).foldl (fun s e =>
    let code := if e.double then 0x02 else 0x01
    s.emit 230 code (syn16 code 0 e.word)) s

end Sys2Proof.Machine
end

