-- ==== Sys2Proof/Machine/RingOps.lean ====
section
/-! DEFINITION. Writing an entry into an engine-produced ring with its phase, its interrupts and its drops (R442, R443, R446,
R460), and writing the completion of a descriptor (R457 to R459). -/

namespace Sys2Proof.Machine

/-! ### Completion status codes (R457) -/

abbrev stOk : Nat := 0x00
abbrev stDeferred : Nat := 0x01
abbrev stSplit : Nat := 0x02
abbrev stMode : Nat := 0x10
abbrev stBaton : Nat := 0x11
abbrev stVoteTo : Nat := 0x12
abbrev stBad : Nat := 0x20
abbrev stShort : Nat := 0x21
abbrev stTooLarge : Nat := 0x22
abbrev stNotReady : Nat := 0x30
abbrev stSilent : Nat := 0x31
abbrev stFaulted : Nat := 0x40

/-- A status that refuses or drops a descriptor, as R453 uses the word. -/
def refusedStatus (st : Nat) : Bool := st != stOk && st != stDeferred && st != stSplit && st != stSilent

/-! ### The fields of a ring context (R471) -/

def State.ringEn (s : State) (r : Nat) : Bool := s.bit (Reg.ringCfg r) 31
def State.ringType (s : State) (r : Nat) : Nat := s.getF (Reg.ringCfg r) 27 24
def State.ringPort (s : State) (r : Nat) : Nat := s.getF (Reg.ringCfg r) 23 22
def State.ringSize (s : State) (r : Nat) : Nat := 2 ^ s.getF (Reg.ringCfg r) 20 16
def State.ringLink (s : State) (r : Nat) : Nat := s.getF (Reg.ringCfg r) 14 0
/-- PROD − CONS modulo 2^32 (R439). -/
def State.ringOcc (s : State) (r : Nat) : Nat := (s.reg (Reg.ringProd r) - s.reg (Reg.ringCons r)).toNat
/-- The ring has stopped on an error (R446). -/
def State.ringErr (s : State) (r : Nat) : Bool := s.bit (Reg.ringStatus r) 4

/-- The syndrome of a ring engine event (R470). -/
def ringSyn (code port ring : Nat) : Word :=
  BitVec.ofNat 32 (code * 2 ^ 24 + port % 4 * 2 ^ 22 + ring % 2 ^ 15)

/-! ### Entries the engine writes -/

/-- The ring's vector is raised, and nothing is left to signal (R460). -/
def State.ringRaise (s : State) (r : Nat) : State :=
  let s := s.setRing r { s.ringAt r with unsig := 0, coRun := false }
  s.msix (s.ringPort r) (s.getF (Reg.ringIrq r) 10 0)

/-- After an entry: the vector at once, after `CO_CNT` entries, or when the coalescing timer, which the first entry not yet
signalled starts, expires (R460). -/
def State.ringSignal (s : State) (r : Nat) (atOnce : Bool) : State :=
  let h := s.ringAt r
  let irq := s.reg (Reg.ringIrq r)
  if !bitAt irq 15 then s.setRing r { h with unsig := h.unsig + 1 }
  else if atOnce || fld irq 23 16 ≤ h.unsig + 1 then s.ringRaise r
  else s.setRing r { h with unsig := h.unsig + 1, coRun := h.coRun || fld irq 31 24 != 0,
                            coFrom := if h.coRun then h.coFrom else s.pacer.ns.toNat }

/-- An entry due to a full, disabled, stopped or unusable ring is dropped: counted, with event 0x13 on the first of a run (R443). -/
def State.ringDrop (s : State) (r : Nat) : State :=
  let h := s.ringAt r
  let s := ((s.setRing r { h with dropRun := true, dropped := h.dropped + 1 }).bump (Reg.ringDropCnt r) 32).setBit
    (Reg.ringStatus r) 1 true
  if h.dropRun then s else s.emit 218 0x13 (ringSyn 0x13 (s.ringPort r) r)

/-- The ring can take one more entry (R443, R446). -/
def State.ringRoom (s : State) (r : Nat) : Bool :=
  s.ringEn r && !s.ringErr r && s.usable (s.ringPort r) && s.ringOcc r < s.ringSize r

/-- The phase bit of the entry of index i: 1 − (i / SIZE mod 2) (R442). -/
def phaseBit (i : Nat) (size : Nat) : Nat := 1 - i / size % 2

/-- Write one entry of an engine-produced ring: `mk phase lost seq dropped` gives its bytes. -/
def State.ringWrite (s : State) (r : Nat) (atOnce : Bool) (mk : Nat → Nat → Nat → Nat → List Byte) : State :=
  if !s.ringRoom r then s.ringDrop r
  else
    let h := s.ringAt r
    let i := (s.reg (Reg.ringProd r)).toNat
    let bs := mk (phaseBit i (s.ringSize r)) (if h.dropRun then 1 else 0) h.seq h.dropped
    let s := s.setRing r { h with ents := h.ents ++ [bs], seq := (h.seq + 1) % 2 ^ 32, dropRun := false, dropped := 0 }
    let s := (s.setReg (Reg.ringProd r) (BitVec.ofNat 32 (i + 1))).bump (Reg.ringDoneCnt r) 32
    s.ringSignal r atOnce

/-- Several entries that are written together or dropped together (R443). -/
def State.ringWriteAll (s : State) (r : Nat) (mks : List (Nat → Nat → Nat → Nat → List Byte)) : State :=
  if s.ringEn r && !s.ringErr r && s.usable (s.ringPort r) && s.ringOcc r + mks.length ≤ s.ringSize r then
    mks.foldl (fun s mk => s.ringWrite r false mk) s
  else mks.foldl (fun s _ => s.ringDrop r) s

/-! ### Completions -/

/-- What the completion of one descriptor or entry carries (R458). -/
structure Cpl where
  status : Nat
  opcode : BitVec 16 := 0xFFFF#16
  tag : BitVec 64 := 0
  time : Nat := 0
  value : Nat := 0
  irq : Bool := false
  late : Bool := false
  /-- The member index and the member that settled the group, 0xFFFF for none; none outside groups. -/
  group : Option (Nat × Nat) := none

def Cpl.bytes (c : Cpl) (ringField index : Nat) (phase : Nat) : List Byte :=
  let fl := (if c.irq then 8 else 0) + (if c.late then 4 else 0) + (if c.group.isSome then 2 else 0) + phase
  let g := match c.group with
    | some (i, j) => i % 65536 * 65536 + j % 65536
    | none => 0
  leBytes 1 c.status ++ leBytes 1 fl ++ leBytes 2 c.opcode.toNat ++ leBytes 2 ringField ++ leBytes 2 (index % 65536) ++
    leBytes 8 c.tag.toNat ++ leBytes 8 c.time ++ leBytes 4 c.value ++ leBytes 4 g

/-- An entry of a completion ring `l`, through the port that owns it; on an unusable port the completion is discarded and counted
in `HPn_CPL_DROP_CNT` (R421, R446). -/
def State.cplWrite (s : State) (l : Nat) (ringField index : Nat) (c : Cpl) : State :=
  let h := s.ringAt l
  let s := s.setRing l { h with resv := h.resv - 1 }
  if !s.usable (s.ringPort l) then s.bump (Reg.hpCplDropCnt (s.ringPort l)) 32
  else s.ringWrite l c.irq fun ph _ _ _ => c.bytes ringField index ph

/-- The free entries of a core's descriptor queue and its waiting completions, as `DQ_STAT` and `CORE_IRQc_PEND` bit 3 show them
(R523, R527). -/
def State.showQueues (s : State) (n : Nat) : State :=
  let h := s.coreAt n
  let s := s.setReg (Reg.coreAcDqStat n) (BitVec.ofNat 32 (h.cq.length % 64 * 2 ^ 16 + (16 - h.dq.length) * 2 ^ 8))
  let s := s.setBit (Reg.coreIrqPend n) 3 (!h.cq.isEmpty)
  forUpto 8 (fun j s => s.setReg (Reg.coreAcCqWin n j) (BitVec.ofNat 32 (leAt (h.cq.headD []) (j * 4) 4))) s

/-- The completion of a descriptor that came from `org` (R459, R527). -/
def State.completeAt (s : State) (org : Origin) (c : Cpl) : State :=
  match org with
  | .ring r i =>
    let s := s.putF (Reg.ringInflight r.val) 8 0 (s.getF (Reg.ringInflight r.val) 8 0 - 1)
    let s := s.putF Reg.rngStatus 16 0 (s.getF Reg.rngStatus 16 0 - 1)
    s.cplWrite (s.ringLink r.val) r.val (i.toNat % 65536) c
  | .core n i =>
    let h := s.coreAt n.val
    let s := s.putF Reg.rngStatus 16 0 (s.getF Reg.rngStatus 16 0 - 1)
    (s.setCore n.val { h with resv := h.resv - 1, cq := h.cq ++ [c.bytes (0x8000 + n.val) (i.toNat % 65536) 1] }).showQueues n.val

/-- The vote record of an update learns the status of its execution; it stays while its window is open (R425). -/
def State.voteSettled (s : State) (id st v : Nat) : State :=
  let vs := s.votes.map (fun w => if w.id = id then { w with status := some (st, v) } else w)
  { s with votes := vs.filter (fun w => !(decide (w.id = id) && w.left == 0)) }

/-- A descriptor completes with `st` and `v`, reporting the heat `time`; every copy of a voted one completes alike (R425). A split
member that would complete OK completes SPLIT with the heats its group spans (R456). -/
def State.completeWith (s : State) (e : Sched) (time st v : Nat) (settler : Nat := 0xFFFF) : State :=
  let sp := e.split.isSome && st == stOk
  let c : Cpl := { status := if sp then stSplit else st, opcode := e.desc.opcode, tag := e.desc.body.tag, time := time
                   value := if sp then e.split.getD 0 else v, irq := e.desc.body.irq, late := e.late
                   group := e.group.map fun _ => (e.gidx, settler) }
  let s := if e.late && !refusedStatus st then s.bump Reg.rngLateCnt 32 else s
  if e.vote = .none then s.completeAt e.org c
  else (e.copies.foldl (fun s k => s.completeAt k.org { c with tag := k.tag, irq := k.irq }) s).voteSettled e.id st v

/-- A descriptor completes reporting the heat of its commit. -/
def State.complete (s : State) (e : Sched) (st : Nat) (v : Nat := 0) : State := s.completeWith e e.heat st v

end Sys2Proof.Machine
end

