-- ==== Sys2Proof/Machine/LpReset.lean ====
section
/-! DEFINITION. The state of a lane processor (07_lane_processor.md R251) and its block reset (R252). -/

namespace Sys2Proof.Machine

abbrev lpOff : Nat := 0
abbrev lpStandby : Nat := 1
abbrev lpRunning : Nat := 2
abbrev lpSwitching : Nat := 3
abbrev lpReset : Nat := 4
abbrev lpFaulted : Nat := 5

def State.lpSt (s : State) (n : Nat) : Nat := s.getF (Reg.lpnStatus n) 2 0

/-- A new state, shown in `LPn_STATUS` and `LP_GSTATUS` (R262). -/
def State.setLpSt (s : State) (n st : Nat) : State :=
  (s.putF (Reg.lpnStatus n) 2 0 st).setBit Reg.lpGstatus n (st == lpRunning)

/-- The program of LP `n` runs heats: not yet or no longer while an image change has it halted. -/
def State.lpRuns (s : State) (n : Nat) : Bool := s.lpSt n == lpRunning || (s.lpSt n == lpSwitching && !(s.lpAt n).first)

/-- LP `n` is OFF, in STANDBY, RESET or FAULT: its lanes' outputs are zero (R253). -/
def State.lpSilent (s : State) (n : Nat) : Bool := s.lpSt n != lpRunning && s.lpSt n != lpSwitching

/-- The program has not yet issued HEND in this heat. -/
def State.inHeat (s : State) (n : Nat) : Bool := s.bit (Reg.lpnStatus n) 8

/-- The LP leaves the heat: nothing of its program is under way. -/
def LpH.idle (h : LpH) : LpH :=
  { h with wb := [], stack := [], loops := [], xfers := [], f0 := false, f1 := false, m := false, mFree := 0 }

/-- The Tile Link controller mutes the eight lanes of LP `n` until its first complete heat after a reset (R71, R252, R313). -/
def State.lpMuteLanes (s : State) (n : Nat) : State :=
  forUpto 8 (fun l s => s.setLane (n * 8 + l) { s.laneAt (n * 8 + l) with lpMute := true }) s

/-- The stop of LP `n` is done; an LP_RUN completes OK with the last of its LPs. -/
def State.lpStopped (s : State) (n : Nat) : State :=
  match s.lpStops.find? (·.left.getLsbD n) with
  | none => s
  | some y =>
    let left := y.left &&& ~~~(1#16 <<< n)
    if left = 0#16 then ({ s with lpStops := s.lpStops.filter (·.upd.id != y.upd.id) }).complete y.upd stOk
    else { s with lpStops := s.lpStops.map fun z => if z.upd.id = y.upd.id then { z with left := left } else z }

/-- A block reset of an LP (R251, R252): its lanes are muted, and it awaits its reload. An LP that is OFF, in FAULT or already in RESET is
as it was. A stop under way is over with it: the LP counts as one that was in STANDBY, and the stop completes (log 139). -/
def State.lpBlockReset (s : State) (n : Nat) : State :=
  let st := s.lpSt n
  if st = lpOff ∨ st = lpReset ∨ st = lpFaulted then s
  else
    let h := s.lpAt n
    let s := s.setLp n { h.idle with was := if h.stopping then lpStandby else st, odone := 0, send := 0, stopping := false, startDue := false, rampDue := false,
                                     replaced := 0xFF#8 }
    let s := (s.setLpSt n lpReset).setBit (Reg.lpnStatus n) 8 false
    let s := s.lpMuteLanes n
    if h.stopping then s.lpStopped n else s

end Sys2Proof.Machine
end

