-- ==== Sys2Proof/Machine/Blocks.lean ====
section
/-! DEFINITION. What a block reset does to the block of a source when it starts, where that shows in the block's own registers (R478):
lane processors and application cores. A port in reset takes and finishes no frame (`State.inReset`). -/

namespace Sys2Proof.Machine

/-- An application core enters its reset. -/
def State.coreBlockReset (s : State) (n : Nat) : State :=
  (s.setBit (Reg.coreAcStatus n) 0 false).setBit (Reg.coreAcStatus n) 1 true

/-- The effect of a block reset on the block itself, by the table of R478. -/
def State.blockReset (s : State) (src : Nat) : State :=
  if 144 ≤ src ∧ src < 160 then s.lpBlockReset (src - 144)
  else if 223 ≤ src ∧ src < 227 then s.coreBlockReset (src - 223)
  else s

end Sys2Proof.Machine
end

