-- ==== Sys2Proof/Machine/Collector.lean ====
section
/-! DEFINITION. The fault collector (15_fault_collection.md): latching events into the history, merging and shadowing them,
dispatching reactions, the status word, the error pins, and the frame in which every command of the table acts. -/

namespace Sys2Proof.Machine

/-! ### Masks and classes -/

/-- The effective mask of an event (R476). -/
def State.effMask (s : State) (src : Nat) (cls : Cls) (dflt : BitVec 6) : BitVec 6 :=
  let lo := 8 * clsRank cls
  let m := BitVec.ofNat 6 (s.getF (Reg.fcSrcMask src) (lo + 5) lo)
  let a := BitVec.ofNat 6 (s.getF (Reg.fcSrcAdd src) (lo + 5) lo)
  let e := (dflt &&& m) ||| a
  if srcResettable src then e else e &&& 0x3B#6

def State.inVaClass (s : State) (src : Nat) : Bool := s.bitVecGet Reg.fcVasel src

/-- PIN_VA and PIN_GEN set the source's hold bits (R479). -/
def State.holdBits (s : State) (src : Nat) (m : BitVec 6) : State :=
  let s := if m.getLsbD 4 || (m.getLsbD 5 && s.inVaClass src) then s.bitVecSet Reg.fcHoldva src true else s
  if m.getLsbD 5 then s.bitVecSet Reg.fcHoldgen src true else s

/-! ### Interrupts and traps (R477, R523, R525) -/

/-- INT on one host port: at most one MSI-X per port in 10 µs, later ones combined (R477). -/
def State.intPort (s : State) (p : Nat) : State :=
  if !s.bit (Reg.fcIrq p) 15 || !s.bit (Reg.hpStatus p) 8 then s
  else if s.fc.irqBusy.contains p then
    { s with fc := { s.fc with irqWait := p :: s.fc.irqWait.filter (· != p) } }
  else
    let s := s.msix p (s.getF (Reg.fcIrq p) 10 0)
    { s with fc := { s.fc with irqBusy := p :: s.fc.irqBusy } }

def State.intPorts (s : State) : State := forUpto 3 (fun p s => s.intPort p) s

/-- A core's pending bit (R523). -/
def State.corePend (s : State) (c b : Nat) : State := s.setBit (Reg.coreIrqPend c) b true

/-- The application cores whose bit from `lo` of `FC_CORE_IRQ` is set. -/
def State.coresOf (s : State) (lo : Nat) : List Nat := (List.range 4).filter fun n => s.bit Reg.fcCoreIrq (lo + n)

/-- An NMI reaches a core: `mepc` takes the interrupted pc, `mcause` 0x8000_001F, and the core jumps to its NMI vector; a second
one is held, one deep (R525). -/
def State.nmiCore (s : State) (c : Nat) : State :=
  let h := s.coreAt c
  if h.nmi then s.setCore c { h with nmiHeld := true }
  else (s.setCore c { h with nmi := true, mepc := s.freeVal, mcause := 0x8000001F#32, pc := s.reg (Reg.coreNmivec c) }).take

/-! ### Reaction shadows (R489, R490) -/

/-- The consequence set of a resettable source: its set from the table of R478 and up to four more from `FC_SRCs_CSET`. -/
def State.inConseq (s : State) (src e : Nat) : Bool :=
  let own : Bool := if 144 ≤ src ∧ src < 160 then
      e == src || e == src - 16 || (8 * (src - 144) ≤ e && e < 8 * (src - 144) + 8)
    else e == src
  let c := s.reg (Reg.fcSrcCset src)
  own || (List.range 4).any fun i => fld c (8 * i + 7) (8 * i) == e && fld c (8 * i + 7) (8 * i) != 0xFF

/-- BLOCK_RESET of the block of `src`, for the entry `seq` in `slot` (R478): nothing while one is in progress; the request after
`RESET_MAX` resets of the window holds the block in reset and raises 0x03 on source 231. -/
def State.startReset (s : State) (src slot : Nat) (seq : Word) : State :=
  let cfg := s.getF Reg.fcCtrl 9 8
  let max := if cfg = 0 then 1 else cfg
  let n := Sparse.get 0 s.fc.rstCnt src
  if s.fc.resets.contains src || s.fc.held.contains src then s
  else if max ≤ n then
    (State.blockReset { s with fc := { s.fc with held := src :: s.fc.held } } src).emit 231 0x03 (syn16 0x03 src n)
  else
    let sh : ShadowFc := { src := src, slot := slot, seq := seq }
    let fc := { s.fc with rstCnt := Sparse.set 0 s.fc.rstCnt src (n + 1), resets := src :: s.fc.resets,
                          shadows := s.fc.shadows ++ [sh] }
    State.blockReset { s with fc := fc } src

/-! ### Engine reset request (R480, R563) -/

/-- A collector ENGINE_RESET: TILE_SAFE_n on every tile, the cause recorded, and the reset due 10 µs after the latch. -/
def State.askEngineReset (s : State) (src : Nat) (cls : Cls) : State :=
  let s := s.setReg Reg.fcResetCause (BitVec.ofNat 32 (2 ^ 31 + src % 256 * 2 ^ 8 + clsRank cls))
  let s := { s with pins := { s.pins with tileSafe := 0xFFFF#16 } }
  let s := s.putF Reg.gblResetInfo 2 0 1
  if s.fc.engReset then s
  else ({ s with fc := { s.fc with engReset := true } }).putF Reg.gblResetInfo 31 16 (satInc 16 (s.getF Reg.gblResetInfo 31 16))

/-! ### History entries (R482 to R487) -/

/-- Apply `f` to the words of the entry with this SEQ, in its slot while it stands there, and in the photo-finish record. -/
def State.entryUpd (s : State) (slot : Nat) (seq : Word) (f : Nat → Word → Word) : State :=
  let s := if s.bit (Reg.fcHist slot 3) 7 && s.reg (Reg.fcHist slot 7) == seq then
      forUpto 7 (fun j s => s.setReg (Reg.fcHist slot j) (f j (s.reg (Reg.fcHist slot j)))) s
    else s
  if s.bit Reg.fcStatus 7 && s.reg (Reg.fcPf 7) == seq then
    forUpto 7 (fun j s => s.setReg (Reg.fcPf j) (f j (s.reg (Reg.fcPf j)))) s
  else s

/-- The slot of the source's entry whose window is open and which is still in the history (R485). -/
def State.openEntry (s : State) (src : Nat) : Option Nat :=
  if !s.bitVecGet Reg.fcOpen src then none
  else (List.range 32).find? fun k =>
    let i := s.reg (Reg.fcHist k 3)
    bitAt i 7 && !bitAt i 6 && fld i 15 8 == src

/-- Dispatch the reactions `m` for the entry `seq` in `slot` (R477, R480); the entry records them. -/
def State.dispatch (s : State) (src : Nat) (cls : Cls) (slot : Nat) (seq : Word) (m : BitVec 6) : State :=
  let s := s.entryUpd slot seq fun j w => if j = 6 then w ||| (BitVec.ofNat 32 m.toNat <<< 8) else w
  let s := if m.getLsbD 0 then (s.coresOf 0).foldl (fun s n => s.corePend n 0) (s.corePend 4 0) else s
  let s := if m.getLsbD 1 then (s.coresOf 8).foldl (fun s n => s.nmiCore n) (s.nmiCore 4) else s
  let s := if m.getLsbD 0 || m.getLsbD 1 then s.intPorts else s
  if m.getLsbD 3 then s.askEngineReset src cls
  else if m.getLsbD 2 then s.startReset src slot seq else s

/-- An event entry for every event ring whose `MIN_CLASS` the class reaches (R461, R462, R495). -/
def State.eventEntries (s : State) (slot : Nat) (e : Ev) (conseq : Bool) : State :=
  forUpto 3 (fun p s =>
    let c := s.reg (Reg.fcEvring p)
    if !bitAt c 31 || clsRank e.cls < fld c 17 16 then s
    else
      let w (j : Nat) := (s.reg (Reg.fcHist slot j)).toNat
      let info := s.reg (Reg.fcHist slot 3)
      let ef := (if bitAt info 5 then 4 else 0) + (if conseq then 2 else 0) + (if s.inVaClass e.src.val then 1 else 0)
      let conc := w 5 % 256
      let cs := (List.range 4).flatMap fun i =>
        leBytes 2 (if i < conc then w 4 / 2 ^ (8 * i) % 256 else 0xFFFF)
      s.ringWrite (fld c 14 0) false fun ph lost seq _ =>
        leBytes 1 1 ++ leBytes 1 (2 * lost + ph) ++ leBytes 2 0 ++ leBytes 4 seq ++ leBytes 8 s.pacer.ns.toNat ++
          leBytes 8 s.heat ++ leBytes 2 e.src.val ++ leBytes 1 (clsRank e.cls) ++ leBytes 1 ef ++ leBytes 4 e.syn.toNat ++
          leBytes 2 (fld info 31 16) ++ leBytes 1 conc ++ leBytes 1 slot ++ cs ++ leBytes 20 0) s

/-- The source's reaction window closes: ACKED is set, the block reset count of the window ends, and a block held in reset
restarts once (R478, R486). -/
def State.ackSource (s : State) (src : Nat) : State :=
  let s := match s.openEntry src with
    | some k => s.entryUpd k (s.reg (Reg.fcHist k 7)) fun j w => if j = 3 then setBitAt w 6 true else w
    | none => s
  let held := s.fc.held.contains src
  let s := (s.bitVecSet Reg.fcOpen src false)
  let s := { s with fc := { s.fc with rstCnt := Sparse.del s.fc.rstCnt src, held := s.fc.held.filter (· != src) } }
  if held then ({ s with fc := { s.fc with resets := src :: s.fc.resets } }).blockReset src else s

/-- A new history entry for an event, with the other sources of its cycle (R482 to R484, R487). -/
def State.createEntry (s : State) (e : Ev) (others : List Nat) : State :=
  let src := e.src.val
  let m := s.effMask src e.cls e.react
  let valid := s.getF Reg.fcHistHead 5 0
  let slot := if valid = 0 then 0 else (s.getF Reg.fcHistHead 20 16 + 1) % 32
  let old := s.reg (Reg.fcHist slot 3)
  let s := if valid = 32 && bitAt old 7 && !bitAt old 6 then
      (s.setBit Reg.fcStatus 6 true).bump Reg.fcHistLost 32 else s
  let seq := s.fc.seq + 1
  let pf := !s.bit Reg.fcStatus 7
  let info := BitVec.ofNat 32 (src * 2 ^ 8 + 2 ^ 7 + (if pf then 2 ^ 5 else 0) + (if e.lost then 2 ^ 4 else 0) +
    (if s.inVaClass src then 2 ^ 3 else 0) + clsRank e.cls)
  let conc := (List.range 4).foldl (fun a i => a + (others.getD i 0xFF) % 256 * 2 ^ (8 * i)) 0
  let word (j : Nat) : Word := match j with
    | 0 => BitVec.ofNat 32 s.pacer.ns.toNat
    | 1 => BitVec.ofNat 32 (s.pacer.ns.toNat / 2 ^ 32)
    | 2 => e.syn
    | 3 => info
    | 4 => BitVec.ofNat 32 conc
    | 5 => BitVec.ofNat 32 (others.length % 256)
    | 6 => BitVec.ofNat 32 m.toNat
    | _ => seq
  let s := { s with fc := { s.fc with seq := seq } }
  let s := forUpto 8 (fun j s => s.setReg (Reg.fcHist slot j) (word j)) s
  let s := if pf then (forUpto 8 (fun j s => s.setReg (Reg.fcPf j) (word j)) s).setBit Reg.fcStatus 7 true else s
  let s := s.setReg Reg.fcHistHead (BitVec.ofNat 32 (slot * 2 ^ 16 + min 32 (valid + 1)))
  let s := (s.bitVecSet Reg.fcFsw src true).bitVecSet Reg.fcOpen src true
  let s := (s.holdBits src m).dispatch src e.cls slot seq m
  let s := s.eventEntries slot e false
  if e.cls == .c && s.bit Reg.fcCtrl 0 then s.ackSource src else s

/-- An event merges into the entry of its source whose window is open (R485). -/
def State.mergeEntry (s : State) (e : Ev) (slot : Nat) : State :=
  let src := e.src.val
  let m := s.effMask src e.cls e.react
  let seq := s.reg (Reg.fcHist slot 7)
  let up := fld (s.reg (Reg.fcHist slot 3)) 1 0 < clsRank e.cls
  let sent := BitVec.ofNat 6 (fld (s.reg (Reg.fcHist slot 6)) 13 8)
  let s := s.entryUpd slot seq fun j w =>
    if j = 3 then
      let w := setFld w 31 16 (satInc 16 (fld w 31 16))
      if up then setBitAt (setFld w 1 0 (clsRank e.cls)) 2 true else w
    else w
  let s := (s.bump Reg.fcMergeCnt 32).bitVecSet Reg.fcFsw src true
  let s := (s.holdBits src m).dispatch src e.cls slot seq (m &&& (~~~sent ||| 0x04#6))
  if up then s.eventEntries slot e false else s

/-- A consequential event raises only CONSEQ of its shadow's entry; from the 1,024th on, 0x01 on source 231 once (R489, R491). -/
def State.conseqEvent (s : State) (e : Ev) (sh : ShadowFc) : State :=
  let s := s.entryUpd sh.slot sh.seq fun j w =>
    if j = 5 then setFld (setFld w 31 16 (satInc 16 (fld w 31 16))) 15 8 e.src.val else w
  let n := sh.conseq + 1
  let isOver := 1024 < n && !sh.isOver
  let put (x : ShadowFc) : ShadowFc :=
    if x.src = sh.src ∧ x.seq = sh.seq then { x with conseq := n, isOver := x.isOver || isOver } else x
  let s := { s with fc := { s.fc with shadows := s.fc.shadows.map put } }
  let s := if n ≤ 1024 then s.eventEntries sh.slot e true else s
  if isOver then s.emit 231 0x01 (syn16 0x01 sh.src n) else s

/-- The open shadow an event belongs to, the one that opened first (R489, R490). -/
def State.shadowOf (s : State) (e : Ev) : Option ShadowFc :=
  if e.cls == .f then none else s.fc.shadows.find? fun sh => s.inConseq sh.src e.src.val

/-- Which of two events of one collector cycle is written first: highest class, then lowest source (R482). -/
def evBefore (a b : Ev) : Bool :=
  clsRank b.cls < clsRank a.cls || (clsRank a.cls == clsRank b.cls && a.src.val ≤ b.src.val)

def evInsert (e : Ev) : List Ev → List Ev
  | [] => [e]
  | x :: xs => if evBefore e x then e :: x :: xs else x :: evInsert e xs

/-- The events latched in one collector cycle (R472, R473, R482, R485, R489). -/
def State.latchCycle (s : State) (es : List Ev) : State :=
  let es := es.foldl (fun a e => evInsert e a) []
  let s := es.foldl (fun s e => (s.bump Reg.fcEvtCnt 32).bump (Reg.fcSrcCnt e.src.val) 32) s
  let cons := es.filterMap fun e => (s.shadowOf e).map fun sh => (e, sh)
  let rest := es.filter fun e => (s.shadowOf e).isNone
  let merg := rest.filterMap fun e => (s.openEntry e.src.val).map fun k => (e, k)
  let make := rest.filter fun e => (s.openEntry e.src.val).isNone
  let s := make.foldl (fun s e => s.createEntry e ((make.filter (·.src != e.src)).map (·.src.val))) s
  let s := merg.foldl (fun s p => s.mergeEntry p.1 p.2) s
  cons.foldl (fun s p => s.conseqEvent p.1 ((s.fc.shadows.find? fun x => x.src = p.2.src ∧ x.seq = p.2.seq).getD p.2)) s

/-- The collector latches the waiting events, one a cycle in the order presented, those they cause included. -/
def State.drain : Nat → State → State
  | 0, s => s
  | n + 1, s =>
    match s.fc.queue with
    | [] => s
    | e :: es =>
      if s.fc.oscStopped then s
      else State.drain n (({ s with fc := { s.fc with queue := es } }).latchCycle [e])

/-! ### The error pins and what the registers show of them -/

/-- A source holds VA_ALIVE, or factory test does (R382, R493). -/
def State.vaHeld (s : State) : Bool :=
  (List.range 8).any (fun w => s.reg (Reg.fcHoldva w) != 0#32) || s.ftm

/-- A source holds GEN_FAULT_n, or warm-up, maintenance with MNT_GEN, or factory test does (R382, R493). -/
def State.genHeld (s : State) : Bool :=
  (List.range 8).any (fun w => s.reg (Reg.fcHoldgen w) != 0#32) || s.wup ||
    (s.mnt && s.bit Reg.gblModeCfg 1) || s.ftm

/-- The level the rules of R493 and R494 give VA_ALIVE. -/
def State.vaLevel (s : State) : VaPin :=
  if !s.fc.running then .notDriven else if s.fc.oscStopped then .static else if s.vaHeld then .low else .toggling

/-- What follows the state with no command of its own: the pins (R493, R494), `FC_STATUS` [3:0] and `FC_SHADOW` (R498). -/
def State.settle (s : State) : State :=
  let va := s.vaLevel
  let gen := !s.fc.running || s.genHeld
  let s := { s with pins := { s.pins with va := va, genLow := gen } }
  let st := s.reg Reg.fcStatus
  let st := setBitAt (setBitAt st 0 gen) 1 (va == .low)
  let st := setBitAt (setBitAt st 2 (!s.fc.shadows.isEmpty)) 3 (s.bitVecGet Reg.fcFsw 255)
  let s := s.setReg Reg.fcStatus st
  s.setReg Reg.fcShadow (BitVec.ofNat 32 (s.fc.shadows.length * 2 ^ 16 + (s.fc.shadows.head?.map (·.src)).getD 0))

/-- How many events one command can lead the collector to latch before it ends; those beyond wait for the next command. -/
abbrev drainFuel : Nat := 512

/-- The end of every command: the collector latches what was presented, the outputs follow, and the queue of commands is as the
command found it. -/
def finish (s0 s : State) : Host.Outcome State Fault Refusal :=
  .next { (State.drain drainFuel s).settle with pending := s0.pending }

/-- A command of the controller: it does nothing while the controller is held in power-on reset or thermal shutdown (R586, R599). -/
def act (s : State) (f : State → State) : Host.Outcome State Fault Refusal :=
  finish s (if s.hold = .run then f s else s)

/-- A command that acts whatever holds the controller: on the collector, on the tiles, on the power pins. -/
def actAlways (s : State) (f : State → State) : Host.Outcome State Fault Refusal := finish s (f s)

end Sys2Proof.Machine
end

