-- ==== Sys2Proof/Machine/Access.lean ====
section
/-! DEFINITION. Who may write a register (R411, R488, R522), the effect of each access type (R12 to R14), and the locks (R564). -/

namespace Sys2Proof.Machine

/-! ### The baton (R411, R433) -/

/-- STATE of `GBL_BATON_STATE`: 0 FREE, 1 ELECTING, 2 HELD, 3 PASSING, 4 HANDOVER (R417). -/
def State.batonSt (s : State) : Nat := s.getF Reg.gblBatonState 2 0
def State.owner (s : State) : Nat := s.getF Reg.gblBatonState 5 4

/-- A port holds the baton: it is the owner, and no handover is under way (R420). -/
def State.held (s : State) : Bool := s.batonSt == 2 || s.batonSt == 3
def State.owns (s : State) (p : Nat) : Bool := s.held && s.owner == p

/-- The syndrome of a baton or port event (R432). -/
def batonSyn (code port v : Nat) : Word := syn16 code port v

/-- A write of a port that may not write is dropped: counted, with event 0x23 once a heat (R411). -/
def State.dropWrite (s : State) (p : Nat) : State :=
  let s := s.bump Reg.gblBatonDropCnt 32
  if s.baton.dropSeen then s
  else ({ s with baton := { s.baton with dropSeen := true } }).emit 217 0x23 (batonSyn 0x23 p 1)

/-- The block of a BAR0 offset, in the order of `CORE_ACn_WMASK` (R552); none between blocks. -/
def wmaskBlock (off : Nat) : Option Nat :=
  if off < 0x10000 then some 0 else if off < 0x20000 then some 1 else if off < 0x30000 then some 2
  else if off < 0x40000 then some 3 else if off < 0x60000 then some 4 else if off < 0x70000 then some 5
  else if off < 0x80000 then some 6 else if off < 0xA0000 then some 7 else if off < 0xC0000 then some 8
  else if off < 0xE0000 then some 9 else if off < 0x100000 then some 10 else if off < 0x140000 then some 11
  else if off < 0x150000 then some 12 else if off < 0x160000 then some 13
  else if 0x200000 ≤ off ∧ off < 0x400000 then some 14 else if 0x400000 ≤ off ∧ off < 0x440000 then some 15 else none

/-- An application core may write the block: its bit in `CORE_ACn_WMASK`, never the collector's (R488, R522). -/
def State.coreMay (s : State) (n off : Nat) : Bool :=
  match wmaskBlock off with
  | some k => k != 1 && s.bit (Reg.coreAcWmask n) k
  | none => false

/-- A master may write registers of the block at `off` (R411, R488, R522). -/
def State.may (s : State) (m : Master) (off : Nat) : Bool :=
  match m with
  | .ssv => true
  | .host p => s.owns p.val
  | .ac n => s.coreMay n.val off
  | .other => false

/-- What a refused write leaves: a host's is counted and reported (R411), a core's raises event 0x02 (R522). -/
def State.refuseWrite (s : State) (m : Master) : State :=
  match m with
  | .host p => s.dropWrite p.val
  | .ac n => s.emit (223 + n.val) 0x02 (syn16 0x02 0 0)
  | _ => s

/-- A write of a master to a register, with the effect `f` if the master may write. -/
def State.gated (s : State) (m : Master) (off : Nat) (f : State → State) : State :=
  if s.may m off then f s else s.refuseWrite m

/-- A write only the SSV may make; any other master's is discarded (R12). -/
def State.ssvOnly (s : State) (m : Master) (f : State → State) : State := if m = .ssv then f s else s

/-! ### Locks (R12, R564) -/

def State.locked (s : State) (off : Nat) : Lock → Bool
  | .none => false
  | .fc => s.bit Reg.fcLock 0
  | .mx => s.bit Reg.mxLock 0
  | .core => s.bit Reg.coreLock 0
  | .acl => s.bit Reg.gblHpLock 0
  | .vote => s.bit Reg.gblVoteCfg 31
  | .lpSign => s.bit Reg.lpGctrl 31
  | .rind => s.bit (Reg.tlRindCtrl ((off - 0x100000) / 0x4000)) 31

/-- A write of `v` by the access types of a register's row (R12): writable bits take `v` unless locked, W1C bits clear where
`v` is 1, W1S bits set. -/
def State.applyRow (s : State) (off : Nat) (r : RegRow) (v : Word) : State :=
  let old := s.reg off
  let rw := if s.locked off r.lock then 0#32 else BitVec.ofNat 32 r.rw
  let x := (old &&& ~~~rw) ||| (v &&& rw)
  let x := (x &&& ~~~(v &&& BitVec.ofNat 32 r.w1c)) ||| (v &&& BitVec.ofNat 32 r.w1s)
  s.setReg off x

/-- A plain write under the register's row: a hole discards it (R554), a write-only register keeps nothing. -/
def State.rawWrite (s : State) (off : Nat) (v : Word) : State :=
  match regRow off with
  | none => s
  | some r => if r.wo then s else s.applyRow off r v

end Sys2Proof.Machine
end

