-- ==== Sys2Proof/Machine/Rings.lean ====
section
/-! DEFINITION. Fetching, validating, accepting and scheduling descriptors; groups, votes and shadow comparison; and committing
(13_host_ports_baton.md R423 to R429, 14_rings_descriptors.md R444 to R459, R605). What is particular to an opcode is its
`Row`: the checks of its own chapter and its effect at commit. -/

namespace Sys2Proof.Machine

/-! ### What an opcode gives -/

/-- The outcome of the checks an opcode makes at acceptance, in the order of R605: bad at a payload byte, a target that cannot
take it (R24), refused in the modes in force, no room. -/
inductive Chk where
  | ok
  | bad (off : Nat)
  | target
  | mode
  | short
deriving DecidableEq, Repr

/-- The outcome of a commit: settled with a status and VALUE, carried out later by the block, or to be tried again. -/
inductive Res where
  | done (status : Nat) (value : Nat)
  | wait
  | retry (e : Sched)

/-- How many heats after its commit heat a block carries a descriptor out: the zone mixer builds heat h in heat h + 1 (R176), a
lane processor runs it in heat h + 2 (R238). -/
def Blk.lag : Blk → Nat
  | .zone => 1
  | .lane => 2
  | _ => 0

/-- An opcode: the block that carries it out, whether it may be grouped (R452), its checks at acceptance, what it starts then, and
its effect. -/
structure Row where
  blk : Blk
  group : Bool := true
  lag : Nat := blk.lag
  check : State → Body → Chk
  onAccept : Sched → State → State := fun _ s => s
  commit : Sched → State → State × Res

/-- OK with VALUE 0. -/
abbrev resOk : Res := .done stOk 0

/-- The first failing check decides. -/
def firstBad : List (Bool × Nat) → Chk
  | [] => .ok
  | (good, off) :: cs => if good then firstBad cs else .bad off

/-- A later check applies when the earlier ones pass. -/
def Chk.andThen : Chk → Chk → Chk
  | .ok, c => c
  | c, _ => c

/-- The reserved payload bytes from `off` to the end of the 40 are zero. -/
def restZero (d : Body) (off : Nat) : Bool := d.pl off (40 - off) == 0

/-! ### Targets (R21, R24) -/

/-- The tile of a number is present (R20). -/
def State.present (s : State) (n : Nat) : Bool := s.bit (Reg.tlLinkStatus n) 0

/-- Bit k of PAIR bonds lanes 2k and 2k + 1, bit k of FOUR lanes 4k to 4k + 3 of the tile (R306): the lane's group's lowest member. -/
def State.bondLow (s : State) (lane : Nat) : Nat :=
  let t := lane / 8
  let l := lane % 8
  if s.bit (Reg.tlBond t) (4 + l / 4) then t * 8 + l / 4 * 4
  else if s.bit (Reg.tlBond t) (l / 2) then t * 8 + l / 2 * 2 else lane

/-- The lanes of the group a lane belongs to. -/
def State.bondLanes (s : State) (lane : Nat) : List Nat :=
  (List.range 8).filterMap fun l =>
    let n := lane / 8 * 8 + l
    if s.bondLow n = s.bondLow lane then some n else none

/-- A descriptor's lane: out of range or of an absent tile is bad (R21), a member other than the lowest of its bonded group is
REFUSED_MODE (R24). -/
def State.laneTarget (s : State) (lane off : Nat) : Chk :=
  if 128 ≤ lane ∨ !s.present (lane / 8) then .bad off
  else if s.bondLow lane = lane then .ok else .target

/-- The checks of a descriptor whose lane stands in its first bytes: a bad lane, then the other fields in order, then R24. -/
def State.laneFields (s : State) (lane : Nat) (fields : List (Bool × Nat)) : Chk :=
  match s.laneTarget lane 0 with
  | .bad o => .bad o
  | t => (firstBad fields).andThen t

/-! ### Voted-eligible opcodes (R423) -/

/-- VOTE_MARK has marked the opcode. -/
def State.marked (s : State) (op : Nat) : Bool := op < 0x900 && s.bit (Reg.gblVoteMark (op / 32)) (op % 32)

/-- The layer's active set, or an update to it that still waits, carries the VA flag (R423). -/
def State.layerVa (s : State) (z l : Nat) : Bool :=
  (s.layerAt z l).va || s.sched.any fun e =>
    e.desc.opcode.toNat == 0x0101 && e.desc.body.pl 0 2 == z && e.desc.body.byte 2 == l &&
      e.desc.body.byte 3 / 16 % 2 == 1 && e.desc.body.byte 23 / 2 % 2 == 1

def State.votedEligible (s : State) (op : Nat) (d : Body) : Bool :=
  s.marked op || op == 0x0230 || op == 0x0231 || op == 0x0221 || op == 0x0041 ||
    (op == 0x0500 && d.byte 0 == 2) ||
    (op == 0x0102 && d.byte 3 == 1 && s.layerVa (d.pl 0 2) (d.byte 2)) ||
    (op == 0x0303 && d.byte 2 == 0 && s.bit (Reg.plyClipInfo (d.pl 0 2 % 1024)) 27) ||
    (op == 0x0304 && s.bit (Reg.plyClipInfo (d.pl 0 2 % 1024)) 27)

/-- How many payload bytes name the target, for the comparison of R425 (event 0x27). -/
def targetBytes (op : Nat) : Nat :=
  if op ∈ [0x0101, 0x0102, 0x0104] then 3
  else if op ∈ [0x0200, 0x0201, 0x0202, 0x0220, 0x0221, 0x0222, 0x0230, 0x0231, 0x0300, 0x0301, 0x0400, 0x0401, 0x0402,
    0x0500, 0x0612, 0x0703, 0x0800, 0x0801, 0x0802] then 1 else 2

/-- Two descriptors are identical when every byte other than the TAG is equal (R424). -/
def sameBut (a b : Desc) : Bool :=
  a.opcode == b.opcode && a.body.flags == b.body.flags && a.body.rsv == b.body.rsv && a.body.commit == b.body.commit &&
    (List.range 40).all fun i => a.body.byte i == b.body.byte i

/-! ### Commit heats (R60, R176, R241, R242, R449, R450) -/

/-- The scheduled heat and sample of a descriptor and the heat and sample at which it can commit, with whether it is late. -/
structure When where
  asked : Nat
  askedSample : Nat
  heat : Nat
  sample : Nat
  late : Bool

/-- The first zone bus heat c with the present before 500 µs into heat c + 1 (R242). -/
def State.laneFirst (s : State) : Nat := if s.pacer.ns.toNat % 1000000 < 500000 then s.heat - 1 else s.heat

def State.whenOf (s : State) (b : Blk) (whenF : Nat) (commit : Nat) : When :=
  let h := s.heat
  match b with
  | .zone =>
    let (a, k) := if whenF = 0 then (h, 0) else if whenF = 1 then (commit, 0) else sampleAt commit
    if a < h then ⟨a, k, h, 0, true⟩ else ⟨a, k, a, k, false⟩
  | .lane =>
    let f := s.laneFirst
    let a := if whenF = 0 then f else if whenF = 1 then commit else ceilDiv commit 1000000
    if a < f then ⟨a, 0, f, 0, true⟩ else ⟨a, 0, a, 0, false⟩
  | .port =>
    let (a, k) := if whenF = 0 then (h + 1, 0) else if whenF = 1 then (commit, 0) else sampleAt commit
    if a < h ∨ (a = h ∧ k * 1000000 < s.pacer.ns.toNat % 1000000 * 48) ∨ (a = h ∧ whenF = 1) then ⟨a, k, h + 1, 0, true⟩
    else ⟨a, k, a, k, false⟩
  | .other =>
    let a := if whenF = 0 then h + 1 else if whenF = 1 then commit else ceilDiv commit 1000000
    if a ≤ h then ⟨a, 0, h + 1, 0, true⟩ else ⟨a, 0, a, 0, false⟩
  | .now => ⟨h, 0, h, 0, false⟩

/-! ### Fetching (R444, R445) -/

/-- Ring `r` is the shadow ring of an enabled pair (R427): the pair. -/
def State.shadowPair (s : State) (r : Nat) : Option Nat :=
  (List.range 64).find? fun k => s.bit (Reg.gblShadow k) 31 && s.getF (Reg.gblShadow k) 30 16 == r

/-- The pairs that mirror ring `r`. -/
def State.mirrorPairs (s : State) (r : Nat) : List Nat :=
  (List.range 64).filter fun k => s.bit (Reg.gblShadow k) 31 && s.getF (Reg.gblShadow k) 14 0 == r

/-- Why fetching from a ring pauses with STALL set (R445, R446). -/
def State.stalls (s : State) (r : Nat) : Bool :=
  let l := s.ringLink r
  256 ≤ s.getF (Reg.ringInflight r) 8 0 || 65536 ≤ s.getF Reg.rngStatus 16 0 || !s.usable (s.ringPort r) ||
    !s.ringEn l || s.ringErr l || s.ringSize l ≤ s.ringOcc l + (s.ringAt l).resv

/-- The ring engine may fetch from the ring: a vote or shadow ring at all times, a command ring while its port holds the baton
and it is not frozen (R416, R421, R444). -/
def State.mayFetch (s : State) (r : Nat) : Bool :=
  s.ringEn r && !s.ringErr r && (s.ringAt r).barrier.isNone && 0 < s.ringOcc r &&
    (s.ringType r == 1 || (s.ringType r == 0 && ((s.shadowPair r).isSome ||
      (s.owns (s.ringPort r) && !s.bit (Reg.ringStatus r) 3))))

/-- One entry of ring `r` is consumed, in flight, with a slot reserved for its completion. -/
def State.fetchOne (s : State) (r : Nat) : State :=
  let l := s.ringLink r
  let s := (s.setReg (Reg.ringCons r) (s.reg (Reg.ringCons r) + 1)).bump (Reg.ringDoneCnt r) 32
  let s := s.putF (Reg.ringInflight r) 8 0 (s.getF (Reg.ringInflight r) 8 0 + 1)
  let s := s.putF Reg.rngStatus 16 0 (s.getF Reg.rngStatus 16 0 + 1)
  s.setRing l { s.ringAt l with resv := (s.ringAt l).resv + 1 }

/-! ### Validation (R448, R605) -/

/-- The checks of the header, in order of offset: the offset of the first field found bad. -/
def State.headerBad (s : State) (row : Option Row) (d : Desc) : Option Nat :=
  match row with
  | none => some 0
  | some row =>
    let w := d.body.whenF
    if d.body.flags.toNat / 64 ≠ 0 ∨ w = 3 ∨ d.body.policy = 3 then some 2
    else if row.blk = .now ∧ w ≠ 0 then some 2
    else if d.body.rsv ≠ 0 then some 4
    else if w = 0 ∧ d.body.commit ≠ 0 then some 16
    else if s.heat + 86400000 < (s.whenOf row.blk w d.body.commit.toNat).asked then some 16 else none

/-- Where a descriptor came from: a command ring, a vote ring or an application core's queue. -/
inductive Came where
  | command | vote | core (n : Nat)
deriving DecidableEq, Repr

/-- The status and VALUE with which a descriptor is refused at acceptance, none if it is accepted (R448, R605). -/
def State.refusal (s : State) (row : Option Row) (came : Came) (d : Desc) : Option (Nat × Nat) :=
  match s.headerBad row d, row with
  | some off, _ => some (stBad, off)
  | none, none => some (stBad, 0)
  | none, some row =>
    let op := d.opcode.toNat
    let el := s.votedEligible op d.body
    if came = .vote ∧ !el then some (stBad, 0)
    else if (el || came ≠ .command) && d.body.chain then some (stBad, 2)
    else
      match row.check s d.body with
      | .bad off => some (stBad, 24 + off)
      | .target => some (stMode, 0)
      | c =>
        let baton : Bool := match came with
          | .command => false
          | .vote => !s.bit Reg.gblVoteCfg 7
          | .core n => !s.bit (Reg.coreAcOpmask n) (op / 256 % 16) || el
        if baton then some (stBaton, 0)
        else
          match c with
          | .mode => some (stMode, 0)
          | .short => some (stShort, 0)
          | _ => if row.blk = .zone ∧ 8192 ≤ s.getF Reg.zmSchedUsed 13 0 then some (stShort, 0) else none

/-! ### Scheduling and committing -/

/-- `ZM_SCHED_USED` shows the zone mixer updates waiting (R175, R200). -/
def State.showSched (s : State) : State :=
  s.putF Reg.zmSchedUsed 13 0
    ((s.sched.filter (·.blk = .zone)).length + (s.groups.flatMap (·.members.filter (·.blk = .zone))).length)

/-- A new update for a descriptor, numbered and timed. -/
def State.newSched (s : State) (row : Row) (org : Origin) (d : Desc) (rd : ReadResult) : Sched :=
  let w := s.whenOf row.blk d.body.whenF d.body.commit.toNat
  { id := s.nextId, org := org, desc := d, blk := row.blk, heat := w.heat, sample := w.sample, late := w.late,
    asked := w.asked, askedSample := w.askedSample, fetched := rd }

/-- An update waits for its commit. -/
def State.schedule (s : State) (e : Sched) : State :=
  ({ s with sched := s.sched ++ [e], nextId := s.nextId + 1 }).showSched

/-- A member of a group that commits as a whole, not split (R454, R456). -/
def Sched.whole (e : Sched) : Bool := e.group.isSome && e.split.isNone

/-- An update leaves the schedule. -/
def State.unschedule (s : State) (id : Nat) : State :=
  ({ s with sched := s.sched.filter (·.id != id) }).showSched

/-- An update commits: what its opcode does, and its completion unless the block carries on with it. -/
def State.commitUpd (s : State) (row : Row) (e : Sched) : State :=
  match row.commit e s with
  | (s, .done st v) => s.complete e st v
  | (s, .wait) => s
  | (s, .retry e) => ({ s with sched := s.sched ++ [e] }).showSched

/-- The heat from which a completed vote lets its update commit (R425, R606): the zone mixer's next heat, the next boundary of
another block. -/
def State.afterVote (s : State) (b : Blk) : Nat :=
  match b with
  | .zone => s.heat
  | .lane => s.laneFirst
  | .port => s.heat + 1
  | .other => s.heat + 1
  | .now => s.heat

/-- The vote of update `e` has completed and a port holds the baton: it commits at the later of its commit time and the first
heat it can take; an opcode that acts at acceptance acts at once (R425, R606). One that has started silent keeps its deadline heat (R181). -/
def State.voteReady (s : State) (row : Row) (e : Sched) : State :=
  let h := s.afterVote e.blk
  let e' := if e.silent then { e with vote := .done h } else { e with vote := .done h, heat := max e.heat h, sample := if e.heat < h then 0 else e.sample }
  if e.blk = .now then (s.unschedule e.id).commitUpd row { e' with heat := s.heat }
  else { s with sched := s.sched.map fun x => if x.id = e.id then e' else x }

/-! ### Votes (R423 to R426) -/

/-- The number of open votes (`GBL_VOTE_STATE`). -/
def State.showVotes (s : State) : State :=
  s.putF Reg.gblVoteState 6 0 (s.votes.filter (!·.complete)).length

def clampWindow (w : Nat) : Nat := if w = 0 then 1 else if 64 < w then 64 else w

/-- A copy joins the update it votes for. -/
def State.addCopy (s : State) (id : Nat) (k : Copy) : State :=
  { s with sched := s.sched.map fun e => if e.id = id then { e with copies := e.copies ++ [k] } else e }

/-- A voted descriptor is accepted from a port (R425). -/
def State.voteCopy (s : State) (row : Row) (org : Origin) (port : Nat) (d : Desc) (rd : ReadResult) : State :=
  let k : Copy := { org := org, port := port, tag := d.body.tag, irq := d.body.irq }
  match s.votes.find? fun v => 0 < v.left && sameBut v.desc d with
  | some v =>
    match v.status with
    | some (st, val) =>
      s.completeAt org { status := st, opcode := d.opcode, tag := k.tag, time := s.heat, value := val, irq := k.irq }
    | none =>
      let s := s.addCopy v.id k
      if v.complete || v.ports.contains port then s
      else
        let v' := { v with complete := true, ports := v.ports ++ [port] }
        let s := { s with votes := s.votes.map (fun (x : VoteH) => if x.id = v.id then v' else x) }
        let s := (s.bump Reg.gblVoteOkCnt 32).showVotes
        match s.sched.find? (fun (x : Sched) => x.id == v.id) with
        | none => s
        | some e =>
          if s.held then s.voteReady row e
          else { s with sched := s.sched.map (fun (x : Sched) => if x.id = v.id then { x with vote := .waits } else x) }
  | none =>
    let open_ := s.votes.filter (!·.complete)
    if 64 ≤ open_.length then
      (s.completeAt org { status := stShort, opcode := d.opcode, tag := k.tag, time := s.heat, irq := k.irq }).emit 217 0x28
        (batonSyn 0x28 port s.heat)
    else
      let n := targetBytes d.opcode.toNat
      let clash := open_.any fun v => v.desc.opcode == d.opcode && v.desc.body.pl 0 n == d.body.pl 0 n
      let e := { s.newSched row org d rd with vote := .open_, copies := [k] }
      let v : VoteH := { id := e.id, left := clampWindow (s.getF Reg.gblVoteCfg 6 0), heat := s.heat, desc := d, ports := [port] }
      let s := row.onAccept e ((s.schedule e).bump Reg.rngAcceptCnt 32)
      let s := ({ s with votes := s.votes ++ [v] }).showVotes
      if clash then s.emit 217 0x27 (batonSyn 0x27 port s.heat) else s

/-! ### Groups (R452, R453) -/

/-- A group is removed and each member completes with the status of the member that settled it (R453). -/
def State.failGroup (s : State) (g : GroupH) (st v idx : Nat) : State :=
  let s := ({ s with groups := s.groups.filter (·.id != g.id) }).showSched
  g.members.foldl (fun s e => s.completeWith e (max e.heat s.heat) st (if e.gidx = idx then v else 0) idx) s

/-- A descriptor of a command ring that chains, or closes the chain before it. -/
def State.groupMember (s : State) (row : Option Row) (org : Origin) (r : Nat) (d : Desc) (rd : ReadResult) : State :=
  let (s, g) := match (s.ringAt r).group.bind fun id => s.groups.find? (·.id == id) with
    | some g => (s, g)
    | none =>
      let g : GroupH := { id := s.nextId, ring := r, policy := d.body.policy }
      ({ (s.setRing r { s.ringAt r with group := some g.id }) with nextId := s.nextId + 1, groups := s.groups ++ [g] }, g)
  let i := g.members.length
  let rowX : Row := row.getD { blk := .other, check := fun _ _ => .ok, commit := fun _ s => (s, resOk) }
  let e0 := s.newSched rowX org d rd
  let e := match g.members.head? with
    | some f =>
      if d.body.whenF = 0 then
        let w := s.whenOf rowX.blk 1 f.asked
        let k := if rowX.blk = Blk.zone ∨ rowX.blk = Blk.port then f.askedSample else 0
        { e0 with heat := w.heat, sample := if w.late then 0 else k, late := w.late && f.desc.body.whenF != 0, asked := f.asked, askedSample := k }
      else e0
    | none => e0
  let e := { e with group := some g.id, gidx := i }
  let first := g.members.head?.getD e
  let bad : Option (Nat × Nat) := match s.refusal row .command d with
    | some x => some x
    | none =>
      if i = 0 ∧ d.body.policy = 0 then some (stBad, 2)
      else if 0 < i ∧ d.body.policy ≠ 0 then some (stBad, 2)
      else if 256 ≤ i then some (stBad, 0)
      else if e.asked ≠ first.asked then some (stBad, 16)
      else if !rowX.group ∨ s.votedEligible d.opcode.toNat d.body then some (stBad, 0) else none
  let g := { g with members := g.members ++ [e], closed := !d.body.chain,
                    bad := g.bad.orElse (fun _ => bad.map (fun b => (b.1, b.2, i))) }
  let put (s : State) (g : GroupH) : State :=
    { s with groups := s.groups.map (fun (x : GroupH) => if x.id = g.id then g else x) }
  let s := put { s with nextId := s.nextId + 1 } g
  let s := rowX.onAccept e (s.bump Reg.rngAcceptCnt 32).showSched
  if d.body.chain then s
  else
    let s := s.setRing r { s.ringAt r with group := none }
    match g.bad with
    | some (st, v, idx) => s.failGroup g st v idx
    | none =>
      let lateG := g.members.any (·.late)
      put s (if lateG then { g with members := g.members.map (fun e => { e with late := true }) } else g)

/-! ### Shadow comparison (R428, R429) -/

/-- Compare as many waiting descriptors of a pair as both sides hold (R428). -/
def State.shadowMatch : Nat → Nat → State → State
  | 0, _, s => s
  | n + 1, k, s =>
    let p := s.pairAt k
    match p.mirror, p.shadow with
    | m :: ms, e :: es =>
      let s := s.setPair k { p with mirror := ms, shadow := es, pos := p.pos + 1 }
      let c : Cpl := { status := stOk, opcode := e.desc.opcode, tag := e.desc.body.tag, time := s.heat, irq := e.desc.body.irq }
      let s := if e.settled then s else if sameBut m e.desc then s.completeAt e.org c
        else
          let s := (s.completeAt e.org { c with status := stFaulted }).bump Reg.gblShadowMisCnt 32
          let s := s.setReg Reg.gblShadowLast (BitVec.ofNat 32 (k * 2 ^ 26 + p.pos % 65536))
          s.emit 217 0x29 (batonSyn 0x29 0xFF k)
      State.shadowMatch n k s
    | _, _ => s

/-- A descriptor fetched from a shadow ring of pair `k` (R428, R429). -/
def State.shadowAccept (s : State) (row : Option Row) (k : Nat) (org : Origin) (d : Desc) : State :=
  let p := s.pairAt k
  let c : Cpl := { status := stNotReady, opcode := d.opcode, tag := d.body.tag, time := s.heat, irq := d.body.irq }
  if !p.active && !p.frozen then s.completeAt org c
  else
    match s.refusal row .command d with
    | some (st, v) =>
      let s := s.completeAt org { c with status := st, value := v }
      State.shadowMatch 257 k (s.setPair k { p with shadow := p.shadow ++ [{ org := org, desc := d, settled := true }] })
    | none => State.shadowMatch 257 k (s.setPair k { p with shadow := p.shadow ++ [{ org := org, desc := d }] })

/-- A descriptor fetched from a mirrored command ring is noted in each active pair (R428). -/
def State.mirrorNote (s : State) (r : Nat) (d : Desc) : State :=
  (s.mirrorPairs r).foldl (fun s k =>
    let p := s.pairAt k
    if p.active then State.shadowMatch 257 k (s.setPair k { p with mirror := p.mirror ++ [d] }) else s) s

/-! ### Acceptance (R444, R449, R450) -/

/-- A descriptor is validated and accepted: refused with its status, taken as a copy of a vote, as a member of a group, acted on at
once, or scheduled. -/
def State.accept (s : State) (row : Option Row) (came : Came) (org : Origin) (d : Desc) (rd : ReadResult) : State :=
  let port := match org with
    | .ring r _ => s.ringPort r.val
    | .core _ _ => 3
  let grouped : Bool := match org with
    | .ring r _ => came == .command && (d.body.chain || (s.ringAt r.val).group.isSome)
    | .core _ _ => false
  match org, grouped with
  | .ring r _, true => s.groupMember row org r.val d rd
  | _, _ =>
    let ref := match s.refusal row came d with
      | some x => some x
      | none => if d.body.policy ≠ 0 then some (stBad, 2) else none
    match ref, row with
    | some (st, v), _ =>
      s.completeAt org { status := st, opcode := d.opcode, tag := d.body.tag, time := s.heat, value := v, irq := d.body.irq }
    | none, none => s
    | none, some row =>
      if s.bit Reg.gblVoteCfg 7 && s.votedEligible d.opcode.toNat d.body then s.voteCopy row org port d rd
      else
        let e := s.newSched row org d rd
        let s := s.bump Reg.rngAcceptCnt 32
        if row.blk = .now then ({ s with nextId := s.nextId + 1 }).commitUpd row e else row.onAccept e (s.schedule e)

/-- The engine fetches the next entry of ring `r`, which holds `d`, and accepts it; nothing happens while the ring is not fetched,
but a ring that stalls shows STALL (R444 to R446). -/
def State.takeRing (s : State) (row : Option Row) (r : Fin 32768) (d : Desc) (rd : ReadResult) : State :=
  if !s.mayFetch r.val then s
  else if s.stalls r.val then s.setBit (Reg.ringStatus r.val) 2 true
  else
    let org := Origin.ring r (s.reg (Reg.ringCons r.val))
    let s := (s.fetchOne r.val).setBit (Reg.ringStatus r.val) 2 false
    match s.ringType r.val, s.shadowPair r.val with
    | 1, _ => s.accept row .vote org d rd
    | _, some k => s.shadowAccept row k org d
    | _, none => (s.accept row .command org d rd).mirrorNote r.val d

/-- An application core's descriptor may be taken while command rings are fetched and its completion queue has a free entry (R527). -/
def State.mayTakeCore (s : State) (n : Nat) : Bool :=
  let h := s.coreAt n
  s.held && h.cq.length + h.resv < 32 && s.getF Reg.rngStatus 16 0 < 65536

/-- A descriptor of an application core is taken and accepted (R527). -/
def State.takeCore (s : State) (row : Option Row) (n : Fin 4) (d : Desc) (rd : ReadResult) : State :=
  let h := s.coreAt n.val
  let s := s.setCore n.val { h with resv := h.resv + 1, dqTaken := h.dqTaken + 1 }
  let s := s.putF Reg.rngStatus 16 0 (s.getF Reg.rngStatus 16 0 + 1)
  s.accept row (.core n.val) (.core n (BitVec.ofNat 32 h.dqTaken)) d rd

/-- An update can be carried out: its vote, if it has one, is complete and an owner is there, and its block has come to its commit
heat. A commit inside a heat is left to the build of that heat (R176). -/
def State.canCommit (s : State) (row : Row) (e : Sched) : Bool :=
  (match e.vote with
    | .open_ => false
    | .waits => false
    | _ => true) && decide (e.heat + row.lag ≤ s.heat) && (e.blk != .zone || e.sample == 0)

/-! ### The commands of one opcode -/

/-- A descriptor of an opcode comes to the front of a ring, or of a core's empty queue, and is accepted; or the commit heat of one
accepted earlier has come, and its block carries it out. An entry that stands nowhere changes nothing. -/
def State.descRow (s : State) (row : Row) (op : Nat) (ph : Phase) (o : Origin) (d : Body) (rd : ReadResult) : State :=
  let x : Desc := { opcode := BitVec.ofNat 16 op, body := d }
  match ph with
  | .accept =>
    match o with
    | .ring r _ => s.takeRing (some row) r x rd
    | .core n _ => if s.mayTakeCore n.val && (s.coreAt n.val).dq.isEmpty then s.takeCore (some row) n x rd else s
  | .commit =>
    match s.sched.find? fun e => decide (e.org = o) && decide (e.desc = x) && s.canCommit row e with
    | some e => (s.unschedule e.id).commitUpd row e
    | none => s

/-- The command of an opcode that commits at a heat. -/
def descCmd (row : Row) (op : Nat) (ph : Phase) (o : Origin) (d : Body) (s : State) : Host.Outcome State Fault Refusal :=
  act s fun s => s.descRow row op ph o d .error

/-- The command of an opcode that acts at acceptance. -/
def nowCmd (row : Row) (op : Nat) (o : Origin) (d : Body) (s : State) : Host.Outcome State Fault Refusal :=
  act s fun s => s.descRow row op .accept o d .error

end Sys2Proof.Machine
end

