-- ==== Sys2Proof/Machine/Baton.lean ====
section
/-! DEFINITION. The baton, the host ports and the shadow pairs (13_host_ports_baton.md): claims, elections, leases, passes and
handovers, function-level reset and link changes, VOTE_MARK and the shadow pair registers. -/

namespace Sys2Proof.Machine

/-! ### Rings by what they are -/

/-- The enabled rings, in rising order. -/
def State.enabledRings (s : State) : List Nat :=
  s.regs.filterMap fun p =>
    if 0x200000 ≤ p.1 ∧ p.1 < 0x400000 ∧ p.1 % 0x40 = 8 ∧ bitAt p.2 31 then some ((p.1 - 0x200000) / 0x40) else none

/-- The command rings of a port: TYPE 0, and not a shadow ring (R421, R422). -/
def State.commandRings (s : State) (p : Nat) : List Nat :=
  s.enabledRings.filter fun r => s.ringType r == 0 && s.ringPort r == p && (s.shadowPair r).isNone

/-! ### Shadow pairs (R427, R429) -/

def State.pairShadow (s : State) (k : Nat) : Nat := s.getF (Reg.gblShadow k) 30 16
def State.pairMirror (s : State) (k : Nat) : Nat := s.getF (Reg.gblShadow k) 14 0

/-- Both rings of an enabled pair are enabled. -/
def State.pairOn (s : State) (k : Nat) : Bool :=
  s.bit (Reg.gblShadow k) 31 && s.ringEn (s.pairShadow k) && s.ringEn (s.pairMirror k)

/-- The conditions of R427 for an active pair. -/
def State.pairShould (s : State) (k : Nat) : Bool :=
  s.pairOn k && s.owns (s.ringPort (s.pairMirror k)) && !s.owns (s.ringPort (s.pairShadow k))

/-- The pair's unmatched shadow descriptors complete NOT_READY_ABANDONED, and it is neither active nor frozen. -/
def State.pairDrop (s : State) (k : Nat) : State :=
  let p := s.pairAt k
  let s := s.setPair k {}
  p.shadow.foldl (fun s e =>
    if e.settled then s
    else s.completeAt e.org { status := stNotReady, opcode := e.desc.opcode, tag := e.desc.body.tag, time := s.heat,
                              irq := e.desc.body.irq }) s

/-- One pair follows the baton and its rings (R427, R429). -/
def State.pairFollow (s : State) (k : Nat) : State :=
  let p := s.pairAt k
  let s :=
    if s.pairShould k then
      if p.active then s else if p.frozen then s.setPair k { p with active := true, frozen := false }
      else s.setPair k { active := true }
    else if p.active || p.frozen then
      if s.pairOn k then s.setPair k { p with active := false, frozen := true } else s.pairDrop k
    else s
  s.setBit (Reg.gblShadowAct (k / 32)) (k % 32) (s.pairAt k).active

def State.pairsFollow (s : State) : State := forUpto 64 (fun k s => s.pairFollow k) s

/-- GBL_SHADOW_WRITE (R427): pairs a shadow ring with a mirrored ring, or is discarded with PAIR_BAD. -/
def execGblShadowWrite (m : Master) (k : Fin 64) (v : Word) (s : State) : Host.Outcome State Fault Refusal :=
  act s fun s => s.gated m (Reg.gblShadow k.val) fun s =>
    let a := fld v 30 16
    let b := fld v 14 0
    if bitAt v 31 && (s.ringPort a == s.ringPort b || s.ringType a != 0 || s.ringType b != 0) then
      s.setBit Reg.gblShadowCfg 16 true
    else if s.reg (Reg.gblShadow k.val) = v &&& 0xFFFF7FFF#32 then s
    else ((s.pairDrop k.val).setReg (Reg.gblShadow k.val) (v &&& 0xFFFF7FFF#32)).pairsFollow

/-- SHADOW_LAG (R428): a shadow descriptor of the pair has waited LAG_HEATS heats; 0x2B is raised once for it. -/
def execShadowLag (k : Fin 64) (s : State) : Host.Outcome State Fault Refusal :=
  act s fun s =>
    let p := s.pairAt k.val
    let lag := max 1 (s.getF Reg.gblShadowCfg 15 8)
    match p.shadow.findIdx? fun e => !e.lagged && !e.settled && lag ≤ e.heats with
    | none => s
    | some i =>
      (s.setPair k.val { p with shadow := p.shadow.modify i fun e => { e with lagged := true } }).emit 217 0x2B
        (batonSyn 0x2B (s.ringPort (s.pairShadow k.val)) k.val)

/-! ### Claims, leases and release (R413 to R418) -/

/-- A lease in the range of R413, R415 and R418. -/
def leaseOk (v : Nat) : Bool := 10 ≤ v && v ≤ 10000

def State.claimValid (s : State) (p : Nat) : Bool := s.bit (Reg.gblBatonClaimOf p) 31

/-- The standing claim of a port is set or cleared, and CLAIMS shows it. -/
def State.setClaim (s : State) (p : Nat) (v : Word) : State :=
  (s.setReg (Reg.gblBatonClaimOf p) v).setBit Reg.gblBatonState (8 + p) (bitAt v 31)

/-- While no port holds the baton, a standing claim opens the election window (R414). -/
def State.openElection (s : State) : State :=
  if s.batonSt = 0 ∧ s.getF Reg.gblBatonState 10 8 ≠ 0 then s.putF Reg.gblBatonState 2 0 1 else s

/-- The owner loses the baton: its claim is cleared, and the baton is electing if a claim stands, else free (R415, R417). -/
def State.release (s : State) (code cause : Nat) : State :=
  let p := s.owner
  let s := (s.setClaim p 0).setReg Reg.gblBatonLeft 0
  let s := ((s.putF Reg.gblBatonState 5 4 3).putF Reg.gblBatonState 7 6 0).putF Reg.gblBatonState 2 0 0
  (s.openElection.pairsFollow).emit 217 code (batonSyn code p cause)

/-- A claim with WITHDRAW: the claim is cleared, and the baton released at once if the port holds it. -/
def State.withdraw (s : State) (p : Nat) : State := if s.owns p then s.release 0x22 0 else s.setClaim p 0

/-- A claim without WITHDRAW; a lease out of range discards it (R413). -/
def State.claim (s : State) (p : Nat) (v : Word) : State :=
  if leaseOk (fld v 29 16) then (s.setClaim p (0x80000000#32 ||| (v &&& 0x3FFF00FF#32))).openElection else s

/-- An event on a port's HPn_STATUS: the bit is set, and its vector raised (R604). -/
def State.portEvent (s : State) (p b : Nat) : State :=
  (s.setBit (Reg.hpStatus p) b true).msix p (s.getF (Reg.hpCtrl p) 10 0)

/-- A pending pass is void: event 0x25, and the owner holds on (R417). -/
def State.passFails (s : State) : State :=
  if s.batonSt = 3 then
    let t := s.getF Reg.gblBatonState 7 6
    ((s.putF Reg.gblBatonState 7 6 0).putF Reg.gblBatonState 2 0 2).emit 217 0x25 (batonSyn 0x25 t 0)
  else s

/-- The baton is offered to another port (R417, R418); the offer fails at once where that port's link is down. -/
def State.passTo (s : State) (v : Word) : State :=
  let t := fld v 1 0
  if !bitAt v 8 || t = 3 || t = s.owner || s.batonSt != 2 then s
  else
    let s := ((s.putF Reg.gblBatonState 7 6 t).putF Reg.gblBatonState 2 0 3).portEvent t 11
    if s.getF (Reg.hpStatus t) 1 0 = 0 then s.passFails else s

/-- A handover starts: the old owner's writes are dropped from here (R420). -/
def State.handover (s : State) (dest lease : Nat) (revert : Bool) : State :=
  let s := { s with baton := { s.baton with next := dest, nextLease := lease, revert := revert } }
  ((s.putF Reg.gblBatonState 2 0 4).putF Reg.gblBatonState 7 6 0).pairsFollow

/-- A write made during HANDOVER waits until the state reaches HELD (R418). -/
def State.batonLater (s : State) (o : BatonOp) : State :=
  { s with baton := { s.baton with pendOps := s.baton.pendOps ++ [o] } }

/-- GBL_BATON_CLAIM_WRITE (R413): any port claims; a write with WITHDRAW withdraws. -/
def execGblBatonClaimWrite (p : Fin 3) (v : Word) (s : State) : Host.Outcome State Fault Refusal :=
  act s fun s =>
    if s.batonSt = 4 then s.batonLater (if bitAt v 8 then .withdraw p else .claim p v)
    else if bitAt v 8 then s.withdraw p.val else s.claim p.val v

/-- BATON_WITHDRAW (R413, R415): a claim with WITHDRAW set. -/
def execBatonWithdraw (p : Fin 3) (s : State) : Host.Outcome State Fault Refusal :=
  act s fun s => if s.batonSt = 4 then s.batonLater (.withdraw p) else s.withdraw p.val

/-- GBL_BATON_LEASE_WRITE (R415): a value in range sets the lease period and restarts the lease. -/
def execGblBatonLeaseWrite (m : Master) (v : Word) (s : State) : Host.Outcome State Fault Refusal :=
  act s fun s => s.gated m Reg.gblBatonLease fun s =>
    let l := fld v 13 0
    if leaseOk l then
      let s := s.setReg Reg.gblBatonLease (BitVec.ofNat 32 l)
      if s.held then s.setReg Reg.gblBatonLeft (BitVec.ofNat 32 l) else s
    else s

/-- GBL_BATON_PASS_WRITE (R417): the owner offers the baton to another port. -/
def execGblBatonPassWrite (m : Master) (v : Word) (s : State) : Host.Outcome State Fault Refusal :=
  act s fun s =>
    match m with
    | .host p =>
      if s.batonSt = 4 ∧ (s.baton.next = p.val ∨ s.owner = p.val) then s.batonLater (.pass p v)
      else if s.owns p.val then s.passTo v else s.dropWrite p.val
    | m => s.gated m Reg.gblBatonPass fun s => s.passTo v

/-- GBL_BATON_ACCEPT_WRITE (R417, R418): the port named in a pending pass accepts it; any other port's write is dropped. -/
def execGblBatonAcceptWrite (p : Fin 3) (v : Word) (s : State) : Host.Outcome State Fault Refusal :=
  act s fun s =>
    if s.batonSt = 3 ∧ s.getF Reg.gblBatonState 7 6 = p.val then
      if bitAt v 0 && leaseOk (fld v 29 16) then s.handover p.val (fld v 29 16) false else s
    else if s.owns p.val then s else s.dropWrite p.val

/-- The standing claim that wins an election: the lowest PRIO, then the lowest port (R414). -/
def State.winner (s : State) : Option Nat :=
  (List.range 3).foldl (fun (w : Option Nat) p =>
    if !s.claimValid p then w
    else match w with
      | none => some p
      | some q => if s.getF (Reg.gblBatonClaimOf p) 7 0 < s.getF (Reg.gblBatonClaimOf q) 7 0 then some p else w) none

/-- ELECTION_WINDOW_CLOSE (R414): the winner's handover starts; with no claim left the baton is free. -/
def execElectionWindowClose (s : State) : Host.Outcome State Fault Refusal :=
  act s fun s =>
    if s.batonSt ≠ 1 then s
    else match s.winner with
      | some p => s.handover p (s.getF (Reg.gblBatonClaimOf p) 29 16) false
      | none => s.putF Reg.gblBatonState 2 0 0

/-- LEASE_EXPIRY (R415): the owner's lease has reached zero. -/
def execLeaseExpiry (s : State) : Host.Outcome State Fault Refusal :=
  act s fun s => if s.held && s.reg Reg.gblBatonLeft == 0 then s.release 0x21 0 else s

/-- PASS_TIMEOUT (R417): 100 µs pass without acceptance. -/
def execPassTimeout (s : State) : Host.Outcome State Fault Refusal := act s fun s => s.passFails

/-! ### Resets and links of the host ports (R410, R430, R71) -/

/-- A held burst of a reset master is finished by its port (R507). -/
def State.orphan (s : State) (master : Nat) : State :=
  (s.bump Reg.mxOrphanCnt 32).emit 213 0x02 (syn16 0x02 master 0)

/-- The players whose playlist ring lies at a port that was reset note it (R216). -/
def State.playersFlr (s : State) (n : Nat) : State :=
  s.players.foldl (fun s x => if s.ringPort x.2.ring = n then s.setPlayer x.1 { s.playerAt x.1 with flr := true } else s) s

/-- FUNCTION_LEVEL_RESET of a port (R430); `burst`: one of its bursts held a path (R507). -/
def execFunctionLevelReset (p : Fin 3) (burst : Bool) (s : State) : Host.Outcome State Fault Refusal :=
  act s fun s =>
    let n := p.val
    let s := if s.owns n then s.release 0x22 1 else s.setClaim n 0
    let s := if s.batonSt = 3 ∧ s.getF Reg.gblBatonState 7 6 = n then s.passFails else s
    let s := ((s.clearReg (Reg.hpCtrl n)).setHp n {}).playersFlr n
    let s := (s.setBit (Reg.hpStatus n) 8 false).setBit (Reg.hpStatus n) 9 true
    let s := s.emit (214 + n) 0x03 (batonSyn 0x03 n 0)
    if burst then s.orphan n else s

/-- A host port's link goes down: its standing claim is cleared at once; a baton held is kept until its lease expires (R71, R430). -/
def State.pcieDown (s : State) (n : Nat) : State :=
  let s := (s.putF (Reg.hpStatus n) 1 0 0).putF (Reg.hpStatus n) 7 4 0
  let s := s.setClaim n 0
  let s := if s.batonSt = 3 ∧ s.getF Reg.gblBatonState 7 6 = n then s.passFails else s
  s.emit (214 + n) 0x01 (batonSyn 0x01 n 0)

def execPcieLinkDown (p : Fin 3) (s : State) : Host.Outcome State Fault Refusal := act s fun s => s.pcieDown p.val

/-- PCIE_LINK_UP (R408, R432): the link trains at a speed and width, and the host configures the port: bus master enable, MSI-X
enable and function mask. -/
def execPcieLinkUp (p : Fin 3) (speed : Fin 3) (width : Fin 3) (bme msixEn fmask : Bool) (s : State) :
    Host.Outcome State Fault Refusal :=
  act s fun s =>
    let n := p.val
    let s := (s.putF (Reg.hpStatus n) 1 0 (speed.val + 1)).putF (Reg.hpStatus n) 7 4 (2 ^ width.val)
    let s := (s.setBit (Reg.hpStatus n) 8 bme).setHp n { s.hpAt n with msixEn := msixEn, fmask := fmask }
    let s := s.emit (214 + n) 0x02 (batonSyn 0x02 n 0)
    if speed.val = 2 ∧ width.val = 2 then s else s.emit (214 + n) 0x06 (batonSyn 0x06 n 0)

/-! ### VOTE_MARK (R423, R431) -/

def voteMarkRow : Row where
  blk := .other
  group := false
  check _ d := firstBad [(d.pl 0 2 < 0x900, 0), (d.byte 2 < 2, 2),
    (!(d.byte 2 == 0 && (d.pl 0 2 == 0x0230 || d.pl 0 2 == 0x0231 || d.pl 0 2 == 0x0221 || d.pl 0 2 == 0x0041)), 2),
    (restZero d 3, 3)]
  commit e s :=
    let op := e.desc.body.pl 0 2
    (s.setBit (Reg.gblVoteMark (op / 32)) (op % 32) (e.desc.body.byte 2 == 1), resOk)

/-- VOTE_MARK (R423): marks or unmarks an opcode as voted-eligible. -/
def execVoteMark (ph : Phase) (o : Origin) (d : Body) (s : State) : Host.Outcome State Fault Refusal :=
  descCmd voteMarkRow 0x0041 ph o d s

end Sys2Proof.Machine
end

