-- ==== Sys2Proof/Machine/Streams.lean ====
section
/-! DEFINITION. What the serial ports and packet flows share: port channels (03_serial_ports.md R104, R105), source entries
(R467) and their blocks, streams with a clock of their own and their converters (02_pacer_heats_clocks.md R72 to R78). -/

namespace Sys2Proof.Machine

/-! ### Rates (R73, R75) -/

/-- Samples in ten heats at a nominal rate code. -/
def rate10 (code : Nat) : Nat := [320, 441, 480, 882, 960, 1764, 1920].getD code 480

/-- ceil(N × 1.125). -/
def frames112 (code : Nat) : Nat := ceilDiv (rate10 code * 9) 80

/-- L of a FILTER code. -/
def filterTaps (f : Nat) : Nat := 16 * 2 ^ (f % 4)

/-- H = L + 2 × ceil(N × 1.125). -/
def historyNeed (filter rate : Nat) : Nat := filterTaps filter + 2 * frames112 rate

/-! ### Port channels (R104, R105) -/

def chanKey : Chan → Nat
  | .tdmRx n k => n.val * 32 + k.val
  | .aesRx n c => 512 + n.val * 2 + c.val
  | .tdmTx n k => 1024 + n.val * 32 + k.val
  | .mic m => 1536 + m.val

/-- The linear factor of a gain and mute. -/
def gainFactor (g : Int) (mute : Bool) : Rat := if mute then 0 else dbLinear (g : Rat)

/-- A sample times a factor: itself at 1. -/
def scaled (x : Word) (f : Rat) : Word := if f = 1 then x else mixOf (sampleVal x * f)

/-- A channel's factor for its next sample, and the channel after it: in the ramp of a timed-out change the factor runs from the old
to the new over 64 samples. -/
def ChanH.next (h : ChanH) : ChanH × Rat :=
  let f := gainFactor h.gain h.mute
  match h.ramp with
  | none => (h, f)
  | some (g, m, i) =>
    let f0 := gainFactor g m
    if 64 ≤ i + 1 then ({ h with ramp := none }, f) else ({ h with ramp := some (g, m, i + 1) }, f0 + (f - f0) * rcos (i + 1) 64)

/-- The changes whose commit time `t` has reached wait from then on: a later target replaces the one that waits (R60, R105). -/
def ChanH.ready (h : ChanH) (t : Nat) : ChanH :=
  match (h.due.filter fun w => w.start ≤ t).getLast? with
  | none => h
  | some w => { h with due := h.due.filter (fun w => t < w.start),
                       wait := some { w with start := (h.wait.map (·.start)).getD w.start } }

/-- The change that waits is applied at a zero crossing. -/
def ChanH.applyWait (h : ChanH) : ChanH :=
  match h.wait with
  | some w => { h with gain := w.gain, mute := w.mute, wait := none, ramp := none }
  | none => h

/-- The timeout applies it over a ramp. -/
def ChanH.timeout (h : ChanH) : ChanH :=
  match h.wait with
  | some w => { h with gain := w.gain, mute := w.mute, wait := none, ramp := some (h.gain, h.mute, 0) }
  | none => h

/-- A zero-crossing timeout reads as the value taken (R104). -/
def zcTaken (v : Nat) : Nat := clampNat 5 500 v

/-- A zero crossing: a sample that is exactly zero, or a change of sign from the sample before it (R104). -/
def crossing (last x : Word) : Bool := f32IsZero x || f32Neg x != f32Neg last

/-- A sample comes to the channel at pacer time `t`: the change that waits is applied at a crossing. -/
def ChanH.arrive (h : ChanH) (t : Nat) (x : Word) : ChanH :=
  let h := { h.ready t with last := x, cross := crossing h.last x }
  if h.cross then h.applyWait else h

/-- A sample through its port channel at pacer time `t`. -/
def State.throughChan (s : State) (key t : Nat) (x : Word) : State × Word :=
  let (h, f) := ((s.chanAt key).arrive t x).next
  (s.setChan key h, scaled x f)

/-- CHANNEL_ZERO_CROSSING: the channel stands at a zero crossing, and the change that waits there is applied. -/
def execChannelZeroCrossing (c : Chan) (s : State) : Host.Outcome State Fault Refusal :=
  act s fun s =>
    let h := (s.chanAt (chanKey c)).ready s.pacer.ns.toNat
    s.setChan (chanKey c) (if h.cross then h.applyWait else h)

def execZcTimeoutExpiry (c : Chan) (s : State) : Host.Outcome State Fault Refusal :=
  act s fun s => s.setChan (chanKey c) ((s.chanAt (chanKey c)).ready s.pacer.ns.toNat).timeout

/-- The channel of a CH_GAIN payload. -/
def chanOf (kind port ch : Nat) : Nat :=
  if kind = 1 then port * 32 + ch else if kind = 2 then 512 + port * 2 + ch
  else if kind = 3 then 1024 + port * 32 + ch else 1536 + ch

def chGainRow : Row where
  blk := .port
  check := fun _ d =>
    let k := d.byte 0
    firstBad [(1 ≤ k && k ≤ 4, 0), (if k = 2 then d.byte 1 < 8 else if k = 4 then d.byte 1 == 0 else d.byte 1 < 16, 1),
      (if k = 2 then d.byte 2 < 2 else d.byte 2 < 32, 2), (d.byte 3 ≤ 1, 3), (-12000 ≤ d.pls 4 && d.pls 4 ≤ 2400, 4), (restZero d 6, 6)]
  commit := fun e s =>
    let d := e.desc.body
    let k := chanOf (d.byte 0) (d.byte 1) (d.byte 2)
    let h := s.chanAt k
    let w : GainWait := { gain := d.pls 4, mute := d.byte 3 == 1, start := e.heat * 1000000 + ceilDiv (e.sample * 1000000) 48 }
    (s.setChan k ({ h with due := h.due ++ [w] }.ready s.pacer.ns.toNat), resOk)

def execChGain (ph : Phase) (o : Origin) (d : Body) (s : State) : Host.Outcome State Fault Refusal :=
  descCmd chGainRow 0x0603 ph o d s

/-! ### Source entries (R77, R98, R467) -/

/-- The entries whose binding `p` accepts, with `f` applied. -/
def State.mapSrcs (s : State) (p : Bind → Bool) (f : SrcH → SrcH) : State :=
  (s.srcs.filter fun x => p x.2.bind).foldl (fun s x => s.setSrc x.1 (f x.2)) s

/-- The input is lost: it leaves at once, and the fallback is to join at its own zero crossing. -/
def SrcH.lose (h : SrcH) : SrcH :=
  { h with lost := true, own := .off, fb := if h.fallback.isSome && h.fb == .off then .joinWait else h.fb }

/-- The input goes, and what it played fades out over 64 samples (R136). -/
def SrcH.fadeAway (h : SrcH) : SrcH := { h with lost := true, fb := if h.fallback.isSome && h.fb == .off then .joinWait else h.fb }

/-- The entry is bound to nothing any more: what it played fades out. -/
def SrcH.unbind (h : SrcH) : SrcH := { h with bind := .none, fb := .off, lost := false, fallback := none }

/-- The input returns with a 64-sample fade-in from the block of `heat` on (R77, R78); an entry on its fallback stays there. -/
def SrcH.regain (heat : Nat) (h : SrcH) : SrcH :=
  let h := { h with lost := false, since := heat }
  if h.fb = .off then { h with own := .on, fadeIn := 64 } else h

/-- The entry switches back to its own input as a step. -/
def SrcH.goHome (h : SrcH) : SrcH :=
  if h.fb = .off then h else { h with fb := .leaveWait, own := if h.lost then .off else .joinWait }

/-- One sample of an entry: faded in while a fade-in runs; where nothing is received, the falling ramp of the last sample. -/
def SrcH.step (h : SrcH) (x : Option Word) : SrcH × Word :=
  match x with
  | some w =>
    if h.fadeIn = 0 then ({ h with fadeOut := 64, last := w }, w)
    else
      let y := scaled w (rcos (65 - h.fadeIn) 65)
      ({ h with fadeIn := h.fadeIn - 1, fadeOut := 64, last := y }, y)
  | none =>
    if h.fadeOut = 0 then ({ h with fadeIn := 64 }, 0#32)
    else ({ h with fadeIn := 64, fadeOut := h.fadeOut - 1 }, scaled h.last (1 - rcos (65 - h.fadeOut) 65))

def SrcH.steps (h : SrcH) : List (Option Word) → SrcH × List Word
  | [] => (h, [])
  | x :: xs =>
    let (h, y) := h.step x
    let (h, ys) := h.steps xs
    (h, y :: ys)

/-- How many blocks an entry keeps: the largest alignment of a voted source reaches 64 blocks back (R153, R155). -/
abbrev srcKeep : Nat := 67

/-- The entry's block for a heat: the samples received, silence before the heat it returns in; and what a voter compares, none where a
sample is absent or fades in. -/
def SrcH.feed (h : SrcH) (heat : Nat) (base : Int) (xs : List (Option Word)) (raw : List (Option Word)) : SrcH :=
  let xs := if heat < h.since then xs.map (fun _ => none) else xs
  let raw := raw.zipIdx.map fun p => if p.2 < h.fadeIn || (xs.getD p.2 (some 0)).isNone then none else p.1
  let (h, ys) := h.steps xs
  { h with blks := ({ heat := heat, base := base, out := ys, raw := raw } :: h.blks.filter (·.heat != heat)).take srcKeep }

/-- A block of silence (R77). -/
def SrcH.feedNone (h : SrcH) (heat : Nat) : SrcH :=
  let h := h.feed heat (heat * 48 : Nat) (List.replicate 48 none) []
  { h with blks := h.blks.map fun b => if b.heat = heat then { b with made := true } else b }

/-- The number since the epoch of the 48 kHz sample whose nominal time lies nearest `t` ns (R59, R155). -/
def gridAt (t : Nat) : Nat := (t * 48 + 500000) / 1000000

/-- 48 samples: the first 48, or zeros for those missing (R100). -/
def to48 {α : Type} (z : α) (xs : List α) : List α := (xs ++ List.replicate 48 z).take 48

/-! ### Streams and their converters (R72 to R77) -/

def streamCode : Stream → Nat
  | .tdm n => n.val
  | .aes n => 16 + n.val
  | .pdm g => 24 + g.val
  | .flow f => 4096 + f.val

def bindStream : Bind → Option Nat
  | .tdm n _ => some n
  | .aes n _ => some (16 + n)
  | .mic m => some (24 + m / 8)
  | .flow f _ => some (4096 + f)
  | _ => none

def State.convAt (s : State) (code : Nat) : ConvH := Sparse.get {} s.convs code
def State.setConv (s : State) (code : Nat) (h : ConvH) : State := { s with convs := Sparse.set {} s.convs code h }

def State.asrcOf (s : State) (code : Nat) : Option Nat :=
  (s.asrc.find? fun p => (p.2.map (·.stream)) == some code).map (·.1)

def State.asrcChans (s : State) : Nat := (s.asrc.map fun p => (p.2.map (·.chans)).getD 0).sum

/-- The lowest converter not in use. -/
def State.asrcFree (s : State) : Option Nat := (List.range 64).find? fun i => (Sparse.get none s.asrc i).isNone

/-- Give a stream a converter with `chans` channels, or change the one it has; none where R72 refuses it. -/
def State.asrcTake (s : State) (code chans cls filter rate alloc : Nat) : Option State :=
  let (i, old) := match s.asrcOf code with
    | some i => (some i, ((Sparse.get none s.asrc i).map (·.chans)).getD 0)
    | none => (s.asrcFree, 0)
  match i with
  | none => none
  | some i =>
    if 2048 < s.asrcChans - old + chans ∨ 64 < chans then none
    else
      let s := { s with asrc := Sparse.set none s.asrc i (some { stream := code, chans := chans }) }
      let st := cls * 2 ^ 16 + chans % 256 * 2 ^ 8 + filter % 4 * 2 ^ 6 + rate % 8 * 2 ^ 3 + s.getF (Reg.pcrAsrcStatus i) 2 0
      some ((s.setReg (Reg.pcrAsrcStatus i) (BitVec.ofNat 32 st)).setReg (Reg.pcrAsrcAlloc i) (BitVec.ofNat 32 (alloc % 65536)))

def State.asrcDrop (s : State) (code : Nat) : State :=
  match s.asrcOf code with
  | none => s
  | some i =>
    let s := { s with asrc := Sparse.set none s.asrc i none }
    (((s.setReg (Reg.pcrAsrcStatus i) 0).setReg (Reg.pcrAsrcAlloc i) 0).setReg (Reg.pcrAsrcRatio i) 0).setConv code {}

/-- A status bit of a stream's converter: 0 LOCKED, 1 LOST, 2 RELOCKING. -/
def State.asrcBit (s : State) (code b : Nat) (v : Bool) : State :=
  match s.asrcOf code with
  | some i => s.setBit (Reg.pcrAsrcStatus i) b v
  | none => s

def State.relocking (s : State) (code : Nat) : Bool :=
  match s.asrcOf code with
  | some i => s.bit (Reg.pcrAsrcStatus i) 2
  | none => false

/-- LOCKED, LOST and RELOCKING of a stream, in its port's status register where it has them. -/
def State.streamBits (s : State) (st : Stream) (locked lost relock : Bool) : State :=
  let c := streamCode st
  let s := ((s.asrcBit c 0 locked).asrcBit c 1 lost).asrcBit c 2 relock
  match st with
  | .tdm n => ((s.setBit (Reg.tdmStatus n.val) 2 locked).setBit (Reg.tdmStatus n.val) 3 lost).setBit (Reg.tdmStatus n.val) 4 relock
  | .aes n => (s.setBit (Reg.aesRxStatus n.val) 0 locked).setBit (Reg.aesRxStatus n.val) 1 lost
  | .pdm _ => s
  | .flow f => ((s.setBit (Reg.pktRxfState f.val) 1 locked).setBit (Reg.pktRxfState f.val) 2 lost).setBit (Reg.pktRxfState f.val) 6 relock

def State.streamLost (s : State) : Stream → Bool
  | .tdm n => s.bit (Reg.tdmStatus n.val) 3
  | .aes n => s.bit (Reg.aesRxStatus n.val) 1
  | .pdm g => (s.pdmAt g.val).lost
  | .flow f => s.bit (Reg.pktRxfState f.val) 2

/-- The port a flow's events go to: that of its lower-numbered enabled leg (R161). -/
def flowPort (entry : List Byte) : Nat := if leAt entry 33 1 % 2 = 1 then 0 else 1

/-- An event of a serial port (R126): the slot, channel or microphone, 0xFF for the whole port, and the count within the heat, to which `k`
are added. -/
def State.serialEvent (s : State) (src code sub k : Nat) : State :=
  let (s, n) := s.countEv src code sub k
  s.emit src code (syn16 code sub (min n 65535))

/-- An event of flow `f`, or of the whole port for 0xFFF, with the count within the heat (R161). While the link is down a flow raises none. -/
def State.packetEvent (s : State) (p code f : Nat) : State :=
  if f ≠ 0xFFF ∧ !s.bit (Reg.pktPStatus p) 0 then s
  else
    let (s, n) := s.countEv (192 + p) code f 1
    s.emit (192 + p) code (syn12 code f (min n 4095))

/-- An event of a stream: the code of a serial port, or that of a packet flow. -/
def State.streamEvent (s : State) (st : Stream) (serial packet : Nat) : State :=
  match st with
  | .tdm n => s.serialEvent (160 + n.val) serial 0xFF 1
  | .aes n => s.serialEvent (176 + n.val) serial 0xFF 1
  | .pdm g => s.serialEvent (188 + g.val) serial 0xFF 1
  | .flow f => s.packetEvent (flowPort (s.flowAt f.val).entry) packet f.val

/-- The stream's entries. -/
def State.mapStream (s : State) (st : Stream) (f : SrcH → SrcH) : State :=
  s.mapSrcs (fun b => bindStream b == some (streamCode st)) f

/-- Flags for the next block of a stream's receiver. -/
def State.nextFlag (s : State) (st : Stream) (bit : Nat) : State :=
  let put (h : RxH) : RxH := { h with nextFlags := h.nextFlags ||| 2 ^ bit }
  match st with
  | .tdm n => s.setTdmRx n.val (put (s.tdmRxAt n.val))
  | .aes n => s.setAesRx n.val (put (s.aesRxAt n.val))
  | .pdm g => s.setPdm g.val (put (s.pdmAt g.val))
  | .flow f => let h := s.flowAt f.val; s.setFlow f.val { h with nextFlags := h.nextFlags ||| 2 ^ bit }

/-- The converter re-locks: the stream fades out and is silent until the re-lock is done (R77); it measures its ratio anew. -/
def State.relock (s : State) (st : Stream) : State :=
  match s.asrcOf (streamCode st) with
  | none => s
  | some i =>
    let c := streamCode st
    (((s.streamBits st false (s.streamLost st) true).bump (Reg.pcrAsrcRelock i) 32).nextFlag st 3).setConv c
      { s.convAt c with hist := [], last := none, prev := 0 }

/-- The stream is declared lost: its entries switch to their fallbacks or fall silent (R77). -/
def State.loseStream (s : State) (st : Stream) : State :=
  let s := (s.streamBits st false true false).nextFlag st 4
  let s := match st with
    | .pdm g => s.setPdm g.val { s.pdmAt g.val with lost := true }
    | .flow f => s.setFlow f.val { s.flowAt f.val with acquired := false, shift := 0, arrived := none, mark := none }
    | _ => s
  s.mapStream st SrcH.lose

/-- The nominal ratio of a rate code, unsigned 8.24. -/
def nominalRatio (code : Nat) : Nat := rate10 code * 2 ^ 24 / 480

/-- The last two measured ratios differ by more than 2 %. -/
def ConvH.jumped (h : ConvH) : Bool :=
  let d := (h.ratio.toNat : Int) - (h.prev.toNat : Int)
  h.prev != 0 && h.prev.toNat < 50 * d.natAbs

/-- The measured ratio lies outside ±12.5 % of nominal. -/
def ConvH.outOfRange (h : ConvH) (code : Nat) : Bool :=
  let d := (h.ratio.toNat : Int) - (nominalRatio code : Int)
  h.ratio != 0 && nominalRatio code < 8 * d.natAbs

/-- A stream's converter shows a new measurement of its ratio. -/
def State.measured (s : State) (code ratio : Nat) : State :=
  match s.asrcOf code with
  | none => s
  | some i =>
    let h := s.convAt code
    let r := BitVec.ofNat 32 (min ratio (2 ^ 32 - 1))
    (s.setConv code { h with prev := h.ratio, ratio := r }).setReg (Reg.pcrAsrcRatio i) r

/-- The nominal rate code of a stream's converter, as its status shows it. -/
def State.convRate (s : State) (code : Nat) : Nat :=
  match s.asrcOf code with
  | some i => s.getF (Reg.pcrAsrcStatus i) 5 3
  | none => 2

/-- RATE_JUMP: the stream's converter has measured two ratios more than 2 % apart, and re-locks. -/
def execRateJump (st : Stream) (s : State) : Host.Outcome State Fault Refusal :=
  act s fun s =>
    let c := streamCode st
    if (s.asrcOf c).isSome && (s.convAt c).jumped && !s.relocking c then (s.relock st).streamEvent st 0x04 0x37 else s

/-- The converter has locked again, and the stream fades in over 64 samples. -/
def execConverterRelockDone (st : Stream) (s : State) : Host.Outcome State Fault Refusal :=
  act s fun s =>
    if !s.relocking (streamCode st) then s
    else (s.streamBits st true (s.streamLost st) false).mapStream st fun h => { h with fadeIn := 64 }

/-- RATIO_OUT_OF_RANGE: the ratio the stream's converter has measured lies outside ±12.5 % of nominal. -/
def execRatioOutOfRange (st : Stream) (s : State) : Host.Outcome State Fault Refusal :=
  act s fun s =>
    let c := streamCode st
    if s.streamLost st || (s.asrcOf c).isNone || !(s.convAt c).outOfRange (s.convRate c) then s
    else (s.loseStream st).streamEvent st 0x05 0x38

def execPortClockLoss (st : Stream) (s : State) : Host.Outcome State Fault Refusal :=
  act s fun s => if s.streamLost st then s else (s.loseStream st).streamEvent st 0x06 0x35

/-- 16 consecutive good frames: those a TDM port or AES3 receiver has counted, the usable packets of a leg of a flow (R77, R143). The clock of
a PDM group is the engine's own. -/
def State.streamGood (s : State) : Stream → Bool
  | .tdm n => 16 ≤ (s.tdmRxAt n.val).good
  | .aes n => 16 ≤ (s.aesRxAt n.val).good
  | .pdm _ => true
  | .flow f => (s.flowAt f.val).leg0.up || (s.flowAt f.val).leg1.up

/-- The two channels of AES3 receiver `n` among the channel-status assemblies. -/
def aesCs (n ch : Nat) : Nat := n * 2 + ch

/-- A lost stream is back: its converter re-locks, and each source returns with a 64-sample fade-in at the next block boundary
(R77, R78); an AES3 or AM824 channel plays from its first good channel-status block since (R112). -/
def State.streamBack (s : State) (st : Stream) : State :=
  let s := (s.streamBits st (s.asrcOf (streamCode st)).isNone false false).relock st |>.nextFlag st 5
  let s := match st with
    | .pdm g => s.setPdm g.val { s.pdmAt g.val with lost := false }
    | .aes n => (s.setCs (aesCs n.val 0) {}).setCs (aesCs n.val 1) {}
    | .flow f => s.setFlow f.val { s.flowAt f.val with csA := {}, csB := {} }
    | .tdm _ => s
  (s.mapStream st (SrcH.regain (s.heat + 1))).streamEvent st 0x07 0x36

/-- PORT_CLOCK_RETURN: 16 good frames after a loss. -/
def execPortClockReturn (st : Stream) (s : State) : Host.Outcome State Fault Refusal :=
  act s fun s => if s.streamLost st && s.streamGood st then s.streamBack st else s

/-- The nominal rate of AES3 receiver `n`: the one detected under AUTO_RATE, else the one set (R107, R128). -/
def State.aesRate (s : State) (n : Nat) : Nat :=
  if s.bit (Reg.aesRxCfg n) 3 then s.getF (Reg.aesRxStatus n) 9 6 else s.getF (Reg.aesRxCfg n) 11 8

/-- STREAM_SET (R72, R75, R106, R468): the rate is the port's, or the receiver's highest. -/
def streamSetRow : Row where
  blk := .other
  check := fun s d =>
    let p := d.byte 1
    let sync := s.bit (Reg.tdmCtrl p) 3 || s.bit (Reg.tdmCtrl p) 7
    firstBad [(d.byte 0 == 1 || d.byte 0 == 2, 0), (if d.byte 0 = 1 then p < 16 && !sync else p < 8, 1), (d.byte 2 < 4, 2),
      (d.byte 3 == 0, 3), (restZero d 6, 6)]
  commit := fun e s =>
    let d := e.desc.body
    let p := d.byte 1
    let tdm := d.byte 0 == 1
    let rate := if tdm then s.getF (Reg.tdmCtrl p) 11 8 else s.getF (Reg.aesRxCfg p) 15 12
    let chans := if tdm then s.getF (Reg.tdmChMax p) 5 0 else 2
    let code := if tdm then p else 16 + p
    let sync := tdm && (s.bit (Reg.tdmCtrl p) 3 || s.bit (Reg.tdmCtrl p) 7)
    if sync then (s, .done stBad 25)
    else if d.pl 4 2 < historyNeed (d.byte 2) rate then (s, .done stShort 0)
    else
      match s.asrcTake code chans (if tdm then 1 else 2) (d.byte 2) (if tdm then rate else s.aesRate p) (d.pl 4 2) with
      | none => (s, .done stShort 0)
      | some s' =>
        let st : Stream := if tdm then .tdm (Fin.ofNat 16 p) else .aes (Fin.ofNat 8 p)
        let old := if tdm then (s.tdmRxAt p).conv else (s.aesRxAt p).conv
        let path := s.wupPath && code == (if s.straps.wupSrc then 16 else 0)
        let s' := if path then { s' with wupPath := false } else s'
        let s' := if tdm then s'.setTdmRx p { s'.tdmRxAt p with conv := some (d.byte 2, d.pl 4 2) }
          else s'.setAesRx p { s'.aesRxAt p with conv := some (d.byte 2, d.pl 4 2) }
        let en := if tdm then s.bit (Reg.tdmCtrl p) 0 else s.bit (Reg.aesRxCfg p) 0
        if old = some (d.byte 2, d.pl 4 2) then (s', resOk)
        else if (old.isSome || path) && en then ((s'.relock st).streamEvent st 0x04 0x37, resOk)
        else if en && !s.streamLost st then (s'.mapStream st (SrcH.regain (s.heat + 1)), resOk)
        else (s', resOk)

def execStreamSet (ph : Phase) (o : Origin) (d : Body) (s : State) : Host.Outcome State Fault Refusal :=
  descCmd streamSetRow 0x0602 ph o d s

/-! ### SRC_BIND and SRC_FALLBACK (R466, R467) -/

/-- The input of a SRC_BIND payload. -/
def bindOf (d : Body) : Bind :=
  match d.byte 2 with
  | 1 => .tdm (d.byte 3) (d.byte 4)
  | 2 => .aes (d.byte 3) (d.byte 4)
  | 3 => .mic (d.byte 4)
  | _ => .none

/-- The port of a binding receives, and has the converter it needs (R89, R468). -/
def State.inputLive (s : State) : Bind → Bool
  | .tdm n _ =>
    let c := s.reg (Reg.tdmCtrl n)
    bitAt c 0 && !s.bit (Reg.tdmStatus n) 3 && (bitAt c 3 || bitAt c 7 || (s.asrcOf n).isSome)
  | .aes n _ => s.bit (Reg.aesRxCfg n) 0 && !s.bit (Reg.aesRxStatus n) 1 && (s.asrcOf (16 + n)).isSome
  | .mic m => s.bit (Reg.pdmGrpCfg (m / 8)) 0
  | .flow f _ => !s.bit (Reg.pktRxfState f) 2
  | .voted _ => true
  | .none => false

def fallbackOf (v : Nat) : Option Nat := if v = 0xFFFF then none else some v

def srcBindRow : Row where
  blk := .other
  check := fun _ d =>
    let k := d.byte 2
    firstBad [(d.pl 0 2 < 8192, 0), (k < 4, 2), (if k = 1 then d.byte 3 < 16 else if k = 2 then d.byte 3 < 8 else if k = 3 then d.byte 3 == 0 else true, 3),
      (if k = 2 then d.byte 4 < 2 else if k = 0 then true else d.byte 4 < 32, 4), (d.byte 5 == 0, 5),
      (d.pl 6 2 == 0xFFFF || (d.pl 6 2 < 8192 && d.pl 6 2 != d.pl 0 2), 6), (restZero d 8, 8)]
  commit := fun e s =>
    let d := e.desc.body
    let x := d.pl 0 2
    let h := s.srcAt x
    let b := bindOf d
    if b = .none then
      match h.bind with
      | .flow _ _ => (s, .done stBad 24)
      | .voted _ => (s, .done stBad 24)
      | _ => (s.setSrc x h.unbind, resOk)
    else if h.bind ≠ .none then (s, .done stBad 24)
    else
      let live := s.inputLive b
      let h' : SrcH := { h with bind := b, fallback := fallbackOf (d.pl 6 2), lost := !live, fb := .off,
                                own := if live then .on else .off, fadeIn := 64 }
      (s.setSrc x (if live then h' else h'.lose), resOk)

def execSrcBind (ph : Phase) (o : Origin) (d : Body) (s : State) : Host.Outcome State Fault Refusal :=
  descCmd srcBindRow 0x0600 ph o d s

/-- SRC_FALLBACK: the new fallback; an entry on its fallback switches back to its own input, if that is present. -/
def srcFallbackRow : Row where
  blk := .other
  check := fun _ d =>
    firstBad [(d.pl 0 2 < 8192, 0), (d.pl 2 2 == 0xFFFF || (d.pl 2 2 < 8192 && d.pl 2 2 != d.pl 0 2), 2), (restZero d 4, 4)]
  commit := fun e s =>
    let d := e.desc.body
    let x := d.pl 0 2
    let h := (s.srcAt x).goHome
    let h := { h with fallback := fallbackOf (d.pl 2 2) }
    (s.setSrc x (if h.lost && h.fb == .off && h.fallback.isSome then { h with fb := .joinWait } else h), resOk)

def execSrcFallback (ph : Phase) (o : Origin) (d : Body) (s : State) : Host.Outcome State Fault Refusal :=
  descCmd srcFallbackRow 0x0601 ph o d s

end Sys2Proof.Machine
end

