-- ==== Sys2Proof/Machine/Lanes.lean ====
section
/-! DEFINITION. A lane of a tile (09_modulation_power_tile.md): its state machine, its hold causes, bonded groups, the system gain
ramps, and the events a tile holds until an upstream frame carries them. -/

namespace Sys2Proof.Machine


/-- `TLn_LANEl_STATE` of a lane. -/
abbrev laneReg (n : Nat) : Nat := Reg.tlLaneState (n / 8) (n % 8)

/-! ### Lane defaults (R540, R607) -/

/-- Bytes 16 to 31 of a delivered image, the same for every lane: MODE 1, ILIM 4,000 mA, ZMIN 40, VPK 1,450, IRMS 1,500, DC 50,
VS 400. -/
def deliveredLane : List Byte :=
  leBytes 2 2 ++ leBytes 2 0 ++ leBytes 2 4000 ++ leBytes 2 40 ++ leBytes 2 1450 ++ leBytes 2 1500 ++ leBytes 2 50 ++ leBytes 2 400

/-- Bytes 0 to 251 of the image a tile is delivered with (R607). -/
def deliveredBody : List Byte :=
  leBytes 2 0x4C44 ++ leBytes 1 1 ++ leBytes 1 0 ++ leBytes 2 1500 ++ leBytes 1 125 ++ List.replicate 9 0#8 ++
    (List.range 8).flatMap (fun _ => deliveredLane) ++ List.replicate 108 0#8

def deliveredImage : List Byte := deliveredBody ++ leBytes 4 (crc32 deliveredBody).toNat

/-- The lane-defaults image in use in a tile. -/
def State.defImage (s : State) (t : Nat) : List Byte :=
  let d := (s.tileAt t).defsUse
  if d.isEmpty then deliveredImage else d

/-- A little-endian field of the image in use. -/
def State.defField (s : State) (t off n : Nat) : Nat := leAt (s.defImage t) off n

/-- The tile runs in warm-up, on its lane-defaults memory (R308). -/
def State.tileWarm (s : State) (t : Nat) : Bool := s.bit (Reg.tlLinkStatus t) 5

/-! ### State codes and hold causes (R309, R310) -/

abbrev lsOff : Nat := 0
abbrev lsSafeLow : Nat := 1
abbrev lsRunning : Nat := 2
abbrev lsSafeOff : Nat := 3
abbrev lsProbe : Nat := 4
abbrev lsLockout : Nat := 5

abbrev hcMute : Nat := 0
abbrev hcLink : Nat := 1
abbrev hcClk : Nat := 2
abbrev hcRind : Nat := 3
abbrev hcTdie : Nat := 4
abbrev hcUv : Nat := 5
abbrev hcTsafe : Nat := 6
abbrev hcHk : Nat := 7
abbrev hcOc : Nat := 8
abbrev hcOv : Nat := 9
abbrev hcGate : Nat := 10

def State.laneSt (s : State) (n : Nat) : Nat := s.getF (laneReg n) 2 0
def State.laneHold (s : State) (n : Nat) : BitVec 11 := BitVec.ofNat 11 (s.getF (laneReg n) 26 16)
def State.laneRun (s : State) (n : Nat) : Bool := s.bit (laneReg n) 7

/-- A lane runs in warm-up until the crossover has passed it (R308, R547). -/
def State.laneWarm (s : State) (n : Nat) : Bool :=
  s.tileWarm (n / 8) && !s.xover.lanes.any fun x => x.1 == n && (x.2 == .rampIn || x.2 == .passed)

/-- PAIR and FOUR of the tile, as the lane has them: the lane-defaults image in warm-up (result 28 of R378), else `TLn_BOND`. -/
def State.bondBits (s : State) (n : Nat) : Nat :=
  if s.laneWarm n then s.defField (n / 8) 3 1 else (s.reg (Reg.tlBond (n / 8))).toNat

/-- The lowest lane of the group a lane's terminals are bonded in (R306). -/
def State.groupLow (s : State) (n : Nat) : Nat :=
  let b := s.bondBits n
  let l := n % 8
  if b.testBit (4 + l / 4) then n / 8 * 8 + l / 4 * 4 else if b.testBit (l / 2) then n / 8 * 8 + l / 2 * 2 else n

def State.groupLanes (s : State) (n : Nat) : List Nat :=
  (List.range 8).filterMap fun l =>
    let k := n / 8 * 8 + l
    if s.groupLow k = s.groupLow n then some k else none

/-- The causes that hold a lane: those of any member of its bonded group (R307). -/
def State.groupHold (s : State) (n : Nat) : BitVec 11 :=
  (s.groupLanes n).foldl (fun h k => h ||| s.laneHold k) 0#11

/-- The SAFE-OFF causes of a lane: OC, OV, GATE, and TSAFE where `TLn_RINDl_TSAFE.OFF` is set (R310, R316). While AUX12 is low
the tile's switches are off, as if a gate supply were low (R587). -/
def State.offCauses (s : State) (n : Nat) (h : BitVec 11) : BitVec 11 :=
  (h &&& (if s.bit (Reg.tlRindTsafe (n / 8) (n % 8)) 0 then 0x740#11 else 0x700#11)) |||
    (if (s.tileAt (n / 8)).aux12 then 0#11 else 0x400#11)

/-- The next state code of a lane under the table of R309; release and probes are commands of their own. -/
def laneNext (st : Nat) (run : Bool) (hold off : BitVec 11) (othersThanOc : Bool) : Nat :=
  if st = lsLockout then lsLockout
  else if st = lsProbe then (if othersThanOc then (if off ≠ 0#11 then lsSafeOff else lsSafeLow) else lsProbe)
  else if off ≠ 0#11 then lsSafeOff
  else if st = lsSafeOff then lsSafeLow
  else if st = lsRunning then (if hold ≠ 0#11 then lsSafeLow else if run then lsRunning else lsOff)
  else if st = lsSafeLow then (if hold = 0#11 ∧ !run then lsOff else lsSafeLow)
  else if run then lsSafeLow else lsOff

/-- A safe state is SAFE_LOW, SAFE_OFF or LOCKOUT. -/
def safeCode (st : Nat) : Bool := st == lsSafeLow || st == lsSafeOff || st == lsLockout

/-- A lane that stops playing has no system gain; a LANE_RUN start, stop, mute or unmute under way that a safe state cuts completes
FAULTED (R312). -/
def State.laneCut (s : State) (n : Nat) : State :=
  let h := s.laneAt n
  let s := s.setLane n { h with gain := .zero, cmd := none }
  match h.cmd with
  | some e => s.completeWith e e.heat stFaulted 0
  | none => s

/-- One lane follows its causes and its RUN bit (R309); `code` is the event that made it safe. -/
def State.laneStep (s : State) (code : Nat) (n : Nat) : State :=
  let st := s.laneSt n
  let hold := s.groupHold n
  let nx := laneNext st (s.laneRun n) hold (s.offCauses n hold) (hold &&& 0x6FF#11 ≠ 0#11)
  if nx = st then s
  else
    let s := s.putF (laneReg n) 2 0 nx
    let s := if safeCode nx && !safeCode st && st != lsOff then
        (s.bump (Reg.tlLaneSafeCnt (n / 8) (n % 8)) 32).putF (laneReg n) 15 8 code else s
    if st = lsRunning then
      if nx = lsOff then s.setLane n { s.laneAt n with gain := .zero } else s.laneCut n
    else s

/-- Every member of the lane's group follows. -/
def State.laneEval (s : State) (n code : Nat) : State := (s.groupLanes n).foldl (fun s k => s.laneStep code k) s

/-- A hold cause arises on, or clears from, a lane. -/
def State.setHold (s : State) (n c : Nat) (b : Bool) (code : Nat) : State :=
  (s.setBit (laneReg n) (16 + c) b).laneEval n code

/-- The same on every lane of a tile. -/
def State.holdTile (s : State) (t c : Nat) (b : Bool) (code : Nat) : State :=
  forUpto 8 (fun l s => s.setHold (t * 8 + l) c b code) s

/-! ### FAULT_n (R317) -/

/-- FAULT_n is low while a lane of the tile holds a cause other than MUTE, or an island or relay fault stands. -/
def State.showFault (s : State) (t : Nat) : State :=
  let held := (List.range 8).any fun l => s.laneHold (t * 8 + l) &&& 0x7FE#11 != 0#11
  s.setBit (Reg.tlLinkStatus t) 3 (held || s.getF (Reg.tlRelay t) 27 16 != 0 || (s.tileAt t).islOut != 0#11)

/-! ### Events of a tile (R333, R473) -/

/-- The syndrome of a tile or lane event: the local lane or 0xFF, and a value (R333). -/
def tileSyn (code lane v : Nat) : Word := syn16 code lane v

/-- The tile raises an event on a lane: the next upstream frame carries it. -/
def State.laneEvent (s : State) (n code v : Nat) : State :=
  let h := s.tileAt (n / 8)
  s.setTile (n / 8) { h with evs := h.evs ++ [(n, code, tileSyn code (n % 8) v)] }

/-- The tile raises an event for the whole tile. -/
def State.tileEvent (s : State) (t code v : Nat) : State :=
  let h := s.tileAt t
  s.setTile t { h with evs := h.evs ++ [(128 + t, code, tileSyn code 0xFF v)] }

/-! ### Control words and ramps (R311 to R313, R326) -/

/-- The tile takes a lane's control word: RUN, and MUTE from any of its mutes; the MUTE cause follows (R310, R326). -/
def State.takeCtrl (s : State) (n : Nat) : State :=
  let h := s.laneAt n
  let mute := h.mute || h.lpMute || h.pairMute || h.muteReq
  let s := (s.setBit (laneReg n) 7 h.run).setBit (laneReg n) 6 mute
  s.setHold n hcMute mute 0

/-- The lane plays: it is RUNNING with its system gain up or coming up. -/
def State.plays (s : State) (n : Nat) : Bool :=
  s.laneSt n == lsRunning && ((s.laneAt n).gain == .full || (s.laneAt n).gain == .rampIn)

/-- Samples in the 8 ms ramp. -/
abbrev rampLen : Nat := 3072

/-- Where the system gain stands: 0 at zero, 3,072 at full. -/
def LaneH.pos (h : LaneH) : Nat :=
  match h.gain with
  | .zero => 0
  | .full => rampLen
  | _ => h.rampPos

/-- A lane's system gain starts to ramp out, or in, from where it stands, at the rate of the 8 ms ramp. -/
def State.ramp (s : State) (n : Nat) (g : GainSt) : State :=
  let h := s.laneAt n
  s.setLane n { h with rampPos := h.pos, gain := g }

/-- The lanes the pipeline feeds: those of tiles that do not run in warm-up (R308). -/
def State.pipelineLanes (s : State) : List Nat :=
  (List.range 128).filter fun n => s.present (n / 8) && !s.bit (Reg.tlLinkStatus (n / 8)) 5 && s.laneSt n == lsRunning

/-- The lanes the pipeline feeds are kept at zero: the synthesiser is out of lock (R64), or a step is between its steps 2 and 5 (R55). -/
def State.silenced (s : State) : Bool :=
  s.pacer.synthLost || match s.pacer.step with
    | none => false
    | some x => !x.warm && (x.phase == .rampOut || x.phase == .jumped || (x.phase == .rampIn && decide (s.heat < x.h0 + 3)))

/-- A lane's system gain starts to ramp in; that of a lane the pipeline feeds waits while those are kept at zero. -/
def State.rampUp (s : State) (n : Nat) : State :=
  if s.silenced && !s.bit (Reg.tlLinkStatus (n / 8)) 5 then s else s.ramp n .rampIn

/-- The lane is on its way to a stop or a mute (R312, R330, R398). -/
def LaneH.leaving (h : LaneH) : Bool :=
  h.pairOwn || h.pairTake || h.mreq || match h.cmd with
    | some e => e.desc.body.byte 1 % 2 == 0
    | none => false

/-- Every playing lane ramps out (R55, R64). -/
def State.lanesOut (s : State) : State :=
  s.pipelineLanes.foldl (fun s n => if s.plays n then s.ramp n .rampOut else s) s

/-- Every lane that runs, and is not on its way to a stop or a mute, ramps back in, once nothing keeps the lanes at zero. -/
def State.lanesIn (s : State) : State :=
  if s.silenced then s
  else (s.pipelineLanes.filter fun n => !(s.laneAt n).leaving && (s.laneAt n).gain != .full).foldl (fun s n => s.ramp n .rampIn) s

/-- Half-bridges are released at 50 % duty with the noise shaper at zero, and the system gain ramps in (R297, R309, R311). -/
def State.releaseLane (s : State) (n : Nat) : State :=
  let h := s.laneAt n
  let s := (s.setLane n { h with edges := { h.edges with shaper := [] } }).putF (laneReg n) 2 0 lsRunning
  s.rampUp n

/-! ### LANE_RUN (R304, R312, R332) -/

/-- A later LANE_RUN takes over from one that is ramping, which completes OK and reports the later commit heat (R312). -/
def State.supersede (s : State) (n : Nat) (e : Sched) : State :=
  let h := s.laneAt n
  let s := s.setLane n { h with cmd := none }
  match h.cmd with
  | some old => s.completeWith old e.heat stOk 0
  | none => s

/-- 60.0 as a binary32. -/
abbrev f32Sixty : Word := 0x42700000#32

/-- A filterless lane does not start while V_NOM exceeds 60.0 V (R304). -/
def State.railForbids (s : State) (n : Nat) : Bool :=
  !s.bit (Reg.tlLaneCfg (n / 8) (n % 8)) 1 && f32ToRat f32Sixty < f32ToRat (s.reg (Reg.tlRailNom (n / 8)))

/-- LANE_RUN is refused while WUP is in force (R375). -/
def laneRunCheck (action : Nat) (s : State) (d : Body) : Chk :=
  (s.laneFields (d.byte 0) [(d.byte 1 == action, 1), (restZero d 2, 2)]).andThen
    (if s.wup then .mode else .ok)

/-- The ramp of a LANE_RUN under way in lane `n` belongs to `e` from now on. -/
def State.rampFor (s : State) (n : Nat) (g : GainSt) (e : Sched) : State × Res :=
  let s := if g = .rampIn then s.rampUp n else s.ramp n g
  (s.setLane n { s.laneAt n with cmd := some e }, .wait)

def State.setRun (s : State) (n : Nat) (b : Bool) : State :=
  (s.groupLanes n).foldl (fun s k => s.setLane k { s.laneAt k with run := b }) s

def State.setMute (s : State) (n : Nat) (b : Bool) : State :=
  (s.groupLanes n).foldl (fun s k => s.setLane k { s.laneAt k with mute := b }) s

/-- Start: RUN is set in the control words, and the lane enters SAFE_LOW, is released and ramps in (R311). -/
def laneStart (e : Sched) (s : State) : State × Res :=
  let n := e.desc.body.byte 0
  if s.railForbids n || s.laneSt n == lsLockout then (s, .done stMode 0)
  else if s.laneSt n = lsRunning ∧ (s.laneAt n).cmd = none then (s, resOk)
  else
    let s := (s.supersede n e).setRun n true
    let s := s.setLane n { s.laneAt n with stopped := false }
    if s.laneSt n = lsRunning then s.rampFor n .rampIn e
    else (s.setLane n { s.laneAt n with cmd := some e }, .wait)

/-- Stop: the system gain ramps out, then RUN is cleared (R312). -/
def laneStop (e : Sched) (s : State) : State × Res :=
  let n := e.desc.body.byte 0
  let s := s.supersede n e
  let s := s.setLane n { s.laneAt n with stopped := true }
  if s.laneSt n = lsRunning then s.rampFor n .rampOut e else (s.setRun n false, resOk)

/-- Mute: the same ramp, then MUTE is set; a lane that is not RUNNING takes MUTE in its control word (R312). -/
def laneMute (e : Sched) (s : State) : State × Res :=
  let n := e.desc.body.byte 0
  let s := s.supersede n e
  if s.laneSt n = lsRunning then s.rampFor n .rampOut e else (s.setMute n true, resOk)

/-- Unmute: MUTE is cleared, and the lane is released and ramps in (R312). -/
def laneUnmute (e : Sched) (s : State) : State × Res :=
  let n := e.desc.body.byte 0
  if s.laneSt n = lsRunning ∧ (s.laneAt n).cmd = none then (s, resOk)
  else
    let s := s.supersede n e
    if s.laneSt n = lsRunning then s.rampFor n .rampIn e
    else if !(s.laneAt n).mute then (s, resOk)
    else
      let s := s.setMute n false
      if s.laneSt n = lsOff then (s, resOk) else (s.setLane n { s.laneAt n with cmd := some e }, .wait)

/-- The frames that carry zone bus heat c leave in heat c + 3 (R239, R311). -/
def laneRunRow (action : Nat) (commit : Sched → State → State × Res) : Row where
  blk := .other
  lag := 3
  check := laneRunCheck action
  commit := commit

/-! ### The end of warm-up (R378 result 30, R542 to R547) -/

/-- The stream of the emergency port: TDM0, or AES3 receiver 0. -/
def State.wupStream (s : State) : Nat := if s.straps.wupSrc then 16 else 0

/-- WUP clears; converter 0 is released, unless a STREAM_SET has made it the host's (R543). -/
def State.wupOver (s : State) : State :=
  let s := if s.wupPath then s.asrcDrop s.wupStream else s
  let s := { s with wupPath := false, xover := {} }
  (forUpto 16 (fun t s => s.setBit (Reg.tlLinkStatus t) 5 false) s).setBit Reg.gblMode 6 false

/-- A lane that factory test takes out of warm-up goes OFF; with the last, WUP clears. -/
def State.wupLaneOff (s : State) (n : Nat) : State :=
  let s := ({ s with modes := { s.modes with quit := s.modes.quit.filter (· != n) } }).setLane n { s.laneAt n with run := false }
  let s := s.takeCtrl n
  if s.modes.quit.isEmpty then s.wupOver else s

/-! ### Pairing mutes (R398, R400, R404) -/

def State.setPairMute (s : State) (n : Nat) (b : Bool) : State :=
  (s.groupLanes n).foldl (fun s k => s.setLane k { s.laneAt k with pairMute := b }) s

/-- The pairing mute follows what asks for it: a lane that plays ramps out first; one whose ramp the mute's end interrupts comes back. -/
def State.pairMuteEval (s : State) (n : Nat) : State :=
  let h := s.laneAt n
  if h.pairOwn || h.pairTake then
    if s.laneSt n = lsRunning ∧ h.gain ≠ .zero then s.ramp n .rampOut else s.setPairMute n true
  else if h.pairMute then s.setPairMute n false
  else if s.laneSt n = lsRunning ∧ h.gain = .rampOut ∧ h.cmd = none then s.rampUp n
  else s

/-- The mute MUTE_REQ asks for, under R312: a lane that plays ramps out first (R330). -/
def State.muteReqEval (s : State) (n : Nat) : State :=
  let h := s.laneAt n
  if h.mreq then
    if s.laneSt n = lsRunning ∧ h.gain ≠ .zero then s.ramp n .rampOut else s.setLane n { h with muteReq := true }
  else if h.muteReq then s.setLane n { h with muteReq := false }
  else if s.laneSt n = lsRunning ∧ h.gain = .rampOut ∧ h.cmd = none ∧ !(h.pairOwn || h.pairTake) then s.rampUp n
  else s

/-- The ramp of a lane has run through its samples. -/
def LaneH.rampOver (h : LaneH) : Bool := match h.gain with
  | .rampIn => h.rampPos == rampLen
  | .rampOut => h.rampPos == 0
  | _ => false

/-- A ramp of lane `n` ends: what was coming up is full, and its LANE_RUN completes OK; what was going out is zero, and a stop
clears RUN, a mute sets MUTE (R312), a pairing mute takes hold. A lane that factory test ramps out of warm-up goes OFF. -/
def State.rampDone (s : State) (n : Nat) : State :=
  let h := s.laneAt n
  match h.gain with
  | .rampIn =>
    let s := s.setLane n { h with gain := .full, cmd := none }
    match h.cmd with
    | some e => s.completeWith e e.heat stOk 0
    | none => s
  | .rampOut =>
    let s := s.setLane n { h with gain := .zero }
    let act := (h.cmd.map fun e => e.desc.body.byte 1).getD 1
    let s := match h.cmd with
      | none => if s.modes.quit.contains n then s.wupLaneOff n else s
      | some e =>
        if act % 2 = 1 then s
        else
          let s := s.setLane n { s.laneAt n with cmd := none }
          let s := if act = 2 then s.setMute n true else s.setRun n false
          s.completeWith e e.heat stOk 0
    let s := if h.pairOwn || h.pairTake then s.setPairMute n true else s
    let s := if h.mreq then s.setLane n { s.laneAt n with muteReq := true } else s
    (s.groupLanes n).foldl (fun s k => s.takeCtrl k) s
  | _ => s

/-! ### Automatic battery mode (R371) -/

/-- The rail of a tile against `pct` % of its nominal: -1 below, 1 above, 0 at it. -/
def State.railSide (s : State) (t pct : Nat) : Int :=
  let now := sampleVal (s.reg (Reg.tlRailNow t)) * 100
  let lim := sampleVal (s.reg (Reg.tlRailNom t)) * (pct : Rat)
  if now < lim then -1 else if lim < now then 1 else 0

/-- `BAT_FRAC`, 50 to 95 %. -/
def State.batFrac (s : State) : Nat := clampNat 50 95 (s.getF Reg.gblModeCfg 23 16)

def State.presentTiles (s : State) : List Nat := (List.range 16).filter s.present

/-- The runs of heats with a tile's rail low, and with every rail high. -/
def State.railsHeat (s : State) : State :=
  let s := s.presentTiles.foldl (fun s t =>
    let h := s.tileAt t
    s.setTile t { h with railLow := if s.railSide t s.batFrac < 0 then h.railLow + 1 else 0 }) s
  let high := s.presentTiles.all fun t => decide (0 < s.railSide t (s.batFrac + 5))
  { s with modes := { s.modes with batHigh := if high then s.modes.batHigh + 1 else 0 } }

end Sys2Proof.Machine
end

