-- ==== Sys2Proof/Machine/Tile.lean ====
section
/-! DEFINITION. The events of a tile and its lanes (09_modulation_power_tile.md) that no frame carries: power-up, releases, ramps,
overcurrent and probes, clocks, TILE_SAFE_n, rail, gate and auxiliary supplies, relays, bonding and calibration; and the
descriptors LANE_RUN, SC_CLEAR and RELAY_SET. -/

namespace Sys2Proof.Machine

/-! ### Protection of a lane in force (R306, R308) -/

/-- ILIM in mA, N and ZMIN of a lane: those of its group's lowest member (R306), or of the defaults in warm-up (R308, R540); ILIM at most 2 A
in a probe (R321). -/
def State.laneIlim (s : State) (n : Nat) : Nat :=
  let k := s.groupLow n
  let i := if s.laneWarm n then s.defField (n / 8) (20 + k % 8 * 16) 2 else s.getF (Reg.tlLaneIlim (k / 8) (k % 8)) 15 0
  if s.laneSt n = lsProbe then min i 2000 else i

def State.laneN (s : State) (n : Nat) : Nat :=
  let k := s.groupLow n
  if s.laneWarm n then 8 else s.getF (Reg.tlLaneIlim (k / 8) (k % 8)) 21 16 + 1

def State.laneZmin (s : State) (n : Nat) : Nat :=
  let k := s.groupLow n
  if s.laneWarm n then s.defField (n / 8) (22 + k % 8 * 16) 2 else s.getF (Reg.tlLaneZmin (k / 8) (k % 8)) 15 0

/-! ### Power-up and relays (R303, R309, R323) -/

/-- A tile event on a tile: `f`, then FAULT_n as R317 gives it. -/
def onTile (s : State) (t : Nat) (f : State → State) : Host.Outcome State Fault Refusal :=
  actAlways s fun s => (f s).showFault t

/-- All twelve drivers de-energise and wait for a fresh command. -/
def State.relaysOff (s : State) (t : Nat) : State :=
  (s.setTile t { s.tileAt t with fresh := 0xFFF#12 }).putF (Reg.tlRelay t) 11 0 0

/-- A safe state in which a takeover relay may change (R323). -/
def State.laneQuiet (s : State) (n : Nat) : Bool :=
  let st := s.laneSt n
  st == lsOff || safeCode st

/-- Driver `r` follows its command, a takeover relay only while its lane is quiet (R323). -/
def State.relayFollow (s : State) (t r : Nat) : State :=
  let h := s.tileAt t
  let want := if r < 8 then (s.laneAt (t * 8 + r)).relay else h.relayCmd.getLsbD r
  let want := want && !h.fresh.getLsbD r && h.aux12
  if s.bit (Reg.tlRelay t) r = want then s
  else if r < 8 ∧ !s.laneQuiet (t * 8 + r) then s.setLane (t * 8 + r) { s.laneAt (t * 8 + r) with relayHeld := true }
  else
    let s := s.setBit (Reg.tlRelay t) r want
    if r < 8 then s.setLane (t * 8 + r) { s.laneAt (t * 8 + r) with relayHeld := false } else s

def State.relaysFollow (s : State) (t : Nat) : State := forUpto 12 (fun r s => s.relayFollow t r) s

/-- Every lane of a tile judges its state again. -/
def State.tileEval (s : State) (t code : Nat) : State := forUpto 8 (fun l s => s.laneStep code (t * 8 + l)) s

/-- The image a tile's lane-defaults memory holds. -/
def TileH.image (h : TileH) : List Byte := if h.defs.isEmpty then deliveredImage else h.defs

/-- MAGIC, VERSION and CRC of an image are good (R538, R540). -/
def defsSound (bs : List Byte) : Bool :=
  bs.length == 256 && leAt bs 0 2 == 0x4C44 && leAt bs 2 1 == 1 && leAt bs 252 4 == (crc32 (bs.take 252)).toNat

/-- The SSV loads a tile's rind from its defaults: TSAFE.OFF, and, while the tile has acknowledged no values, the ceilings (R280, R316). -/
def State.rindDefaults (s : State) (t : Nat) (img : List Byte) : State :=
  let w (off n : Nat) : Word := BitVec.ofNat 32 (leAt img off n)
  forUpto 8 (fun l s =>
    let o := 16 + l * 16
    let s := s.setReg (Reg.tlRindTsafe t l) (if bitAt (w o 1) 2 then 1 else 0)
    if !s.bit (Reg.tlRindStat t l) 1 then s
    else
      let s := (s.setReg (Reg.tlRindVpk t l) (w (o + 8) 2)).setReg (Reg.tlRindIrms t l) (w (o + 10) 2)
      let s := (s.setReg (Reg.tlRindDc t l) (w (o + 12) 2)).setReg (Reg.tlRindVs t l) (w (o + 14) 2)
      s.setReg (Reg.tlRindTdie t) (w 6 1)) s

/-- Tile power-up: every lane OFF with no cause, its correction table loaded from the factory defaults, relays off, the stored
defaults image in use, its rind at the defaults (R280, R303, R309, R541). -/
def State.tilePowerUp (s : State) (t : Nat) : State :=
  let h := s.tileAt t
  let s := s.setTile t { defs := h.defs, defsUse := h.defs, batt := h.batt }
  let s := (s.relaysOff t).setReg (Reg.tlClkmon t) 0
  let s := forUpto 8 (fun l s =>
    let n := t * 8 + l
    let s := (s.laneCut n).setLane n {}
    let s := ((s.setReg (laneReg n) 0).setReg (Reg.tlLaneSc t l) 0).setReg (Reg.tlLaneSeed t l) 0
    let s := s.clearReg (Reg.tlRindStat t l)
    forUpto 64 (fun j s => s.setReg (Reg.tlCorr t l j) (Config.corrDefault (Reg.tlCorr t l j))) s) s
  let s := if defsSound h.image then s.rindDefaults t h.image else s
  s.putF (Reg.tlLinkStatus t) 15 8 0

def execTilePowerUp (t : Fin 16) (s : State) : Host.Outcome State Fault Refusal :=
  onTile s t.val fun s => s.tilePowerUp t.val

/-! ### Links (R22, R23, R315, R333) -/

def execLinkTrainedOnAbsentPort (t : Fin 16) (s : State) : Host.Outcome State Fault Refusal :=
  act s fun s => if s.present t.val then s else s.setBit (Reg.tlLinkStatus t.val) 2 true

/-- The controller declares a link lost: 0xC0 on the tile's source, and no more downstream frames (R23, R27). -/
def State.linkLost (s : State) (t : Nat) : State :=
  if !s.bit (Reg.tlLinkStatus t) 1 then s
  else
    let s := ((s.setBit (Reg.tlLinkStatus t) 1 false).setBit (Reg.tlLinkStatus t) 2 false).bump (Reg.tlLinkLossCnt t) 32
    s.emit (128 + t) 0xC0 (tileSyn 0xC0 0xFF (s.tileAt t).upMiss)

def execTileLinkLost (t : Fin 16) (s : State) : Host.Outcome State Fault Refusal := act s fun s => s.linkLost t.val

def execTileLinkReturn (t : Fin 16) (s : State) : Host.Outcome State Fault Refusal :=
  act s fun s =>
    let t := t.val
    if !s.present t || s.bit (Reg.tlLinkStatus t) 1 then s
    else
      let s := (s.setBit (Reg.tlLinkStatus t) 1 true).setBit (Reg.tlLinkStatus t) 2 true
      (s.setTile t { s.tileAt t with upMiss := 0 }).emit (128 + t) 0xC2 (tileSyn 0xC2 0xFF 0)

/-- The controller sees FAULT_n low while the link is not up: the tile's source, as for a lost link (R317, R23). -/
def execTileFaultNLow (t : Fin 16) (s : State) : Host.Outcome State Fault Refusal :=
  act s fun s =>
    let t := t.val
    if s.bit (Reg.tlLinkStatus t) 1 then s
    else (s.setBit (Reg.tlLinkStatus t) 3 true).emit (128 + t) 0xC0 (tileSyn 0xC0 0xFF 0)

/-! ### Release and ramps (R309, R311, R312) -/

/-- 50 µs have passed in SAFE_LOW with RUN set and no cause: the gate supplies are checked, and the half-bridges of the lane's
group are released, or the lane goes SAFE_OFF with cause GATE and event 0xB7. -/
def execLaneRelease (n : Fin 128) (gateOk : Bool) (s : State) : Host.Outcome State Fault Refusal :=
  onTile s (n.val / 8) fun s =>
    let n := n.val
    if s.laneSt n ≠ lsSafeLow ∨ !s.laneRun n ∨ s.groupHold n ≠ 0#11 ∨ !(s.tileAt (n / 8)).aux12 then s
    else if gateOk then (s.groupLanes n).foldl (fun s k => s.releaseLane k) s
    else (s.setHold n hcGate true 0xB7).laneEvent n 0xB7 0

/-- LANE_RAMP_DONE: the ramp of the lane's system gain has run through its samples. -/
def execLaneRampDone (n : Fin 128) (s : State) : Host.Outcome State Fault Refusal :=
  onTile s (n.val / 8) fun s => if (s.laneAt n.val).rampOver then s.rampDone n.val else s

def execLaneRunStart (ph : Phase) (o : Origin) (d : Body) (s : State) : Host.Outcome State Fault Refusal :=
  descCmd (laneRunRow 1 laneStart) 0x0220 ph o d s

def execLaneRunStop (ph : Phase) (o : Origin) (d : Body) (s : State) : Host.Outcome State Fault Refusal :=
  descCmd (laneRunRow 0 laneStop) 0x0220 ph o d s

def execLaneRunMute (ph : Phase) (o : Origin) (d : Body) (s : State) : Host.Outcome State Fault Refusal :=
  descCmd (laneRunRow 2 laneMute) 0x0220 ph o d s

def execLaneRunUnmute (ph : Phase) (o : Origin) (d : Body) (s : State) : Host.Outcome State Fault Refusal :=
  descCmd (laneRunRow 3 laneUnmute) 0x0220 ph o d s

/-! ### Overcurrent, probes and the lockout (R319 to R322) -/

/-- The heats of the last 60 s among `hs`. -/
def State.lastMinute (s : State) (hs : List Nat) : List Nat := hs.filter fun h => s.heat < h + 60000

/-- The trip to SAFE-OFF with cause OC, and event 0xB1 with the peak current (R320). -/
def State.ocTrip (s : State) (n mA : Nat) : State :=
  let s := s.setLane n { s.laneAt n with ilimRun := 0 }
  (s.setHold n hcOc true 0xB1).laneEvent n 0xB1 mA

/-- A pulse of the lane reaches ILIM with a peak of `mA`, which is at least ILIM; `consecutive` says that the period before reached it too (R319, R320). A
hit during a probe confirms its short (R321). -/
def State.ilimHit (s : State) (n mA : Nat) (consecutive : Bool) : State :=
  let st := s.laneSt n
  if (st ≠ lsRunning ∧ st ≠ lsProbe) ∨ mA < s.laneIlim n then s
  else
    let h := s.laneAt n
    let run := if consecutive then h.ilimRun + 1 else 1
    let s := s.bump (Reg.tlLaneIlimCnt (n / 8) (n % 8)) 32
    let s := s.setLane n { h with ilimRun := run, ilimHeat := true, ilimFrame := h.ilimFrame + 1, edges := { h.edges with ilim := h.edges.ilim + 1 }, probeHit := h.probeHit || st == lsProbe }
    let s := if h.ilimHeat || h.ilimPrev then s else s.laneEvent n 0xB0 mA
    if st = lsProbe then s
    else if s.laneN n ≤ run ∨ min (s.laneIlim n * 3) 48000 < mA * 2 then s.ocTrip n mA else s

def execIlimHit (n : Fin 128) (mA : BitVec 16) (consecutive : Bool) (s : State) : Host.Outcome State Fault Refusal :=
  onTile s (n.val / 8) fun s => s.ilimHit n.val mA.toNat consecutive

/-- 500 ms after a trip or the last probe, with OC the only cause, the probe starts (R309, R321). -/
def execProbeStart (n : Fin 128) (s : State) : Host.Outcome State Fault Refusal :=
  onTile s (n.val / 8) fun s =>
    let n := n.val
    if s.laneSt n ≠ lsSafeOff ∨ s.groupHold n ≠ 0x100#11 ∨ !(s.tileAt (n / 8)).aux12 then s
    else
      let s := (s.groupLanes n).foldl (fun s k => s.putF (laneReg k) 2 0 lsProbe) s
      (s.setBit (Reg.tlLaneSc (n / 8) (n % 8)) 6 true).setLane n { s.laneAt n with probeHit := false, probe := {} }

/-- A confirmed short: counted in a sliding 60 s window; the third puts the lane into LOCKOUT (R321, R322). -/
def State.shortConfirmed (s : State) (n ohm10 : Nat) : State :=
  let h := s.laneAt n
  let hs := s.heat :: s.lastMinute h.shorts
  let s := (s.setLane n { h with shorts := hs, probeHit := false }).laneEvent n 0xB2 ohm10
  let s := s.putF (Reg.tlLaneSc (n / 8) (n % 8)) 1 0 (min 3 hs.length)
  let out := 3 ≤ hs.length
  let s := (s.groupLanes n).foldl (fun s k => s.putF (laneReg k) 2 0 (if out then lsLockout else lsSafeOff)) s
  let s := (s.bump (Reg.tlLaneSafeCnt (n / 8) (n % 8)) 32).putF (laneReg n) 15 8 (if out then 0xB4 else 0xB2)
  if out then (s.setBit (Reg.tlLaneSc (n / 8) (n % 8)) 7 true).laneEvent n 0xB4 hs.length else s

/-- A short that is not confirmed: OC is cleared and switching goes on (R309, R321). -/
def State.shortCleared (s : State) (n ohm10 : Nat) : State :=
  let s := (s.groupLanes n).foldl (fun s k => s.setBit (laneReg k) (16 + hcOc) false) s
  let s := (s.setLane n { s.laneAt n with probeHit := false }).laneEvent n 0xB3 ohm10
  (s.groupLanes n).foldl (fun s k =>
    if s.laneRun k && s.groupHold k == 0#11 then s.releaseLane k else (s.putF (laneReg k) 2 0 lsSafeLow).laneStep 0 k) s

/-- SC_CLEAR: OC and the retry count are cleared, and the lane leaves LOCKOUT through SAFE_OFF (R309, R322). -/
def scClearRow : Row where
  blk := .other
  check := fun s d => s.laneFields (d.byte 0) [(restZero d 1, 1)]
  commit := fun e s =>
    let n := e.desc.body.byte 0
    if s.laneSt n ≠ lsLockout then (s, resOk)
    else
      let s := (s.groupLanes n).foldl (fun s k =>
        let s := (s.setBit (laneReg k) (16 + hcOc) false).putF (laneReg k) 2 0 lsSafeOff
        s.setLane k { s.laneAt k with shorts := [] }) s
      let s := s.setReg (Reg.tlLaneSc (n / 8) (n % 8)) 0
      ((s.laneEval n 0).showFault (n / 8), resOk)

def execScClear (ph : Phase) (o : Origin) (d : Body) (s : State) : Host.Outcome State Fault Refusal :=
  descCmd scClearRow 0x0221 ph o d s

/-- RELAY_SET: the commands of RLY8 to RLY11, carried by the next downstream frame (R323, R332). -/
def relaySetRow : Row where
  blk := .other
  check := fun s d =>
    firstBad [(d.byte 0 < 16 && s.present (d.byte 0), 0), (d.byte 1 < 16, 1), (d.byte 2 < 16, 2), (restZero d 3, 3)]
  commit := fun e s =>
    let d := e.desc.body
    let t := d.byte 0
    let h := s.tileAt t
    let m := BitVec.ofNat 12 (d.byte 1 * 256)
    let v := BitVec.ofNat 12 (d.byte 2 * 256)
    (s.setTile t { h with relayCmd := (h.relayCmd &&& ~~~m) ||| (v &&& m), fresh := h.fresh &&& ~~~m }, resOk)

def execRelaySet (ph : Phase) (o : Origin) (d : Body) (s : State) : Host.Outcome State Fault Refusal :=
  descCmd relaySetRow 0x0222 ph o d s

/-! ### Lane clocks (R300) -/

def execLaneClockFault (n : Fin 128) (s : State) : Host.Outcome State Fault Refusal :=
  onTile s (n.val / 8) fun s =>
    let n := n.val
    let h := s.tileAt (n / 8)
    let s := (s.setBit (Reg.tlClkmon (n / 8)) (n % 8) true).setTile (n / 8) { h with islOut := h.islOut ||| (1#11 <<< (n % 8)) }
    ((s.setHold n hcClk true 0xB5).showFault (n / 8)).laneEvent n 0xB5 0

def execLaneClockRecovered (n : Fin 128) (s : State) : Host.Outcome State Fault Refusal :=
  onTile s (n.val / 8) fun s =>
    let h := s.tileAt (n.val / 8)
    let s := s.setTile (n.val / 8) { h with islOut := h.islOut &&& ~~~(1#11 <<< (n.val % 8)) }
    (s.setHold n.val hcClk false 0).showFault (n.val / 8)

/-! ### TILE_SAFE_n (R316) -/

/-- TILE_SAFE_n of a tile goes low: every lane holds TSAFE, and all relays de-energise. -/
def State.tileSafeOn (s : State) (t : Nat) : State :=
  let s := { s with pins := { s.pins with tileSafe := s.pins.tileSafe ||| (1#16 <<< t) } }
  let was := s.bit (Reg.tlLinkStatus t) 4
  let s := (s.setBit (Reg.tlLinkStatus t) 4 true).holdTile t hcTsafe true 0xC5
  let s := s.relaysOff t
  (if was then s else s.tileEvent t 0xC5 0).showFault t

def State.tileSafeOff (s : State) (t : Nat) : State :=
  let s := { s with pins := { s.pins with tileSafe := s.pins.tileSafe &&& ~~~(1#16 <<< t) } }
  ((s.setBit (Reg.tlLinkStatus t) 4 false).holdTile t hcTsafe false 0).showFault t

/-- TILE_SAFE_n on every tile (R480, R561, R599). -/
def State.tilesSafe (s : State) : State := forUpto 16 (fun t s => s.tileSafeOn t) s

def execTileSafeAssert (t : Fin 16) (s : State) : Host.Outcome State Fault Refusal :=
  onTile s t.val fun s => s.tileSafeOn t.val

def execTileSafeRelease (t : Fin 16) (s : State) : Host.Outcome State Fault Refusal :=
  onTile s t.val fun s => s.tileSafeOff t.val

/-! ### Rail (R314, R318) -/

/-- A rail cause arises on every lane of a tile, with its event once per occurrence. -/
def State.railCause (s : State) (t c code v : Nat) : State :=
  let was := s.bit (laneReg (t * 8)) (16 + c)
  let s := s.holdTile t c true code
  if was then s else s.tileEvent t code v

/-- RAIL_OVERVOLTAGE: two ADC samples in a row lie above `TLn_RAIL_OV`, the lower of them at `decivolts`. -/
def execRailOvervoltage (t : Fin 16) (decivolts : BitVec 16) (s : State) : Host.Outcome State Fault Refusal :=
  onTile s t.val fun s => if decivolts.toNat ≤ s.getF (Reg.tlRailOv t.val) 15 0 then s else s.railCause t.val hcOv 0xC3 decivolts.toNat

/-- RAIL_OV_CLEAR: the highest the rail has been for 10 ms lies below `TLn_RAIL_OV` - 5.0 V. -/
def execRailOvClear (x : TileReading) (s : State) : Host.Outcome State Fault Refusal :=
  onTile s x.tile.val fun s =>
    if s.getF (Reg.tlRailOv x.tile.val) 15 0 ≤ x.value.toNat + 50 then s else s.holdTile x.tile.val hcOv false 0

/-- RAIL_UNDERVOLTAGE: the highest the rail has been for 10 µs lies below `TLn_RAIL_UV`. -/
def execRailUndervoltage (t : Fin 16) (decivolts : BitVec 16) (s : State) : Host.Outcome State Fault Refusal :=
  onTile s t.val fun s => if s.getF (Reg.tlRailUv t.val) 15 0 ≤ decivolts.toNat then s else s.railCause t.val hcUv 0xC4 decivolts.toNat

/-- RAIL_UV_CLEAR: the lowest the rail has been for 10 ms lies above `TLn_RAIL_UV` + 2.0 V. -/
def execRailUvClear (x : TileReading) (s : State) : Host.Outcome State Fault Refusal :=
  onTile s x.tile.val fun s =>
    if x.value.toNat ≤ s.getF (Reg.tlRailUv x.tile.val) 15 0 + 20 then s else s.holdTile x.tile.val hcUv false 0

def execRailAdcFault (t : Fin 16) (decivolts : BitVec 16) (s : State) : Host.Outcome State Fault Refusal :=
  onTile s t.val fun s => s.railCause t.val hcHk 0xC8 decivolts.toNat

def execHkFaultClear (t : Fin 16) (s : State) : Host.Outcome State Fault Refusal :=
  onTile s t.val fun s => if (s.tileAt t.val).islOut &&& 0x600#11 = 0#11 then (s.holdTile t.val hcHk false 0).showFault t.val else s

/-! ### Gate and auxiliary supplies (R310, R314, R323, R587) -/

def execGateSupplyLow (n : Fin 128) (s : State) : Host.Outcome State Fault Refusal :=
  onTile s (n.val / 8) fun s =>
    let was := s.bit (laneReg n.val) (16 + hcGate)
    let s := s.setHold n.val hcGate true 0xB7
    if was then s else s.laneEvent n.val 0xB7 0

def execGateSupplyRecovered (n : Fin 128) (s : State) : Host.Outcome State Fault Refusal :=
  onTile s (n.val / 8) fun s => s.setHold n.val hcGate false 0

def execAux12Low (t : Fin 16) (s : State) : Host.Outcome State Fault Refusal :=
  onTile s t.val fun s =>
    let t := t.val
    ((s.setTile t { s.tileAt t with aux12 := false }).relaysOff t).tileEval t 0

def execAux12Restored (t : Fin 16) (s : State) : Host.Outcome State Fault Refusal :=
  onTile s t.val fun s => (s.setTile t.val { s.tileAt t.val with aux12 := true }).tileEval t.val 0

/-! ### Calibration (R303) -/

/-- The TDC of a tile is calibrated against its internal delay reference. -/
def execTdcCalibration (t : Fin 16) (s : State) : Host.Outcome State Fault Refusal :=
  onTile s t.val fun s => s.setTile t.val { s.tileAt t.val with tdcCals := (s.tileAt t.val).tdcCals + 1 }

end Sys2Proof.Machine
end

