-- ==== Sys2Proof/Machine/Protect.lean ====
section
/-! DEFINITION. Loudspeaker protection outside the lane program (08_loudspeaker_protection.md): the rind, its trips, lockouts and values;
the die temperature; the battery value; the fast path; and the power pool. -/

namespace Sys2Proof.Machine

/-! ### The rind (R279 to R283, R291) -/

abbrev rindReg (n : Nat) : Nat := Reg.tlRindStat (n / 8) (n % 8)

/-- The SSV writes a tile register over its private path: a mailbox write of OP 3 (R280, R335). A halted SSV sends nothing (R521). -/
def State.ssvTileWrite (s : State) (t off : Nat) (v : Word) : State :=
  let h := s.tileAt t
  let x : MboxOp := { op := 3, off := off, data := v }
  if s.ssvHalted then s.setTile t { h with unsent := h.unsent ++ [x] } else s.setTile t { h with mbox := h.mbox ++ [x] }

/-- Offset of a register within its tile. -/
def tileOff (off : Nat) : Nat := (off - 0x100000) % 0x4000

def rindSetRow : Row where
  blk := .other
  check := fun s d =>
    let m := d.byte 1
    let on (i : Nat) : Bool := m / 2 ^ i % 2 == 1
    s.laneFields (d.byte 0) [(m != 0 && !on 5 && !on 6, 1), (!on 0 || (100 ≤ d.pl 2 2 && d.pl 2 2 ≤ 1700), 2),
      (!on 1 || (100 ≤ d.pl 4 2 && d.pl 4 2 ≤ 12000), 4), (!on 2 || (10 ≤ d.pl 6 2 && d.pl 6 2 ≤ 500), 6),
      (!on 3 || (10 ≤ d.pl 8 2 && d.pl 8 2 ≤ 2000), 8), (!on 4 || (90 ≤ d.byte 10 && d.byte 10 ≤ 150), 10),
      (restZero d 11, 11)]
  commit := fun e s =>
    let d := e.desc.body
    let t := d.byte 0 / 8
    let l := d.byte 0 % 8
    let on (i : Nat) : Bool := d.byte 1 / 2 ^ i % 2 == 1
    if s.bit (Reg.tlRindCtrl t) 31 then (s, .done stMode 0)
    else
      let put (s : State) (b : Bool) (off v : Nat) : State :=
        if b then s.ssvTileWrite t (tileOff off) (BitVec.ofNat 32 v) else s
      let s := put s (on 0) (Reg.tlRindVpk t l) (d.pl 2 2)
      let s := put s (on 1) (Reg.tlRindIrms t l) (d.pl 4 2)
      let s := put s (on 2) (Reg.tlRindDc t l) (d.pl 6 2)
      let s := put s (on 3) (Reg.tlRindVs t l) (d.pl 8 2)
      let s := put s (on 4) (Reg.tlRindTdie t) (d.byte 10)
      let s := if d.byte 1 % 128 = 0 then s else s.setBit (rindReg (d.byte 0)) 0 false
      (if on 7 && !s.ssvHalted then s.setBit (Reg.tlRindCtrl t) 31 true else s, resOk)

/-- RIND_SET: the SSV sends the values MASK selects to the lane's tile, and locks the tile's rind where LOCK is set. -/
def execRindSet (ph : Phase) (o : Origin) (d : Body) (s : State) : Host.Outcome State Fault Refusal :=
  descCmd rindSetRow 0x0230 ph o d s

/-- TRIPS_60S follows the trips of the last 60 s. -/
def State.showTrips (s : State) (n : Nat) : State :=
  s.putF (rindReg n) 9 8 (min 3 (s.lastMinute (s.laneAt n).trips).length)

/-- The lane is no longer held by its rind; HOLD clears. -/
def State.rindFree (s : State) (n : Nat) : State := (s.setBit (rindReg n) 2 false).setHold n hcRind false 0

def rindClearRow : Row where
  blk := .other
  check := fun s d => s.laneFields (d.byte 0) [(restZero d 1, 1)]
  commit := fun e s =>
    let n := e.desc.body.byte 0
    if !(s.laneAt n).rindLocked then (s, resOk)
    else
      let s := (s.setLane n { s.laneAt n with rindLocked := false, trips := [] }).setBit (rindReg n) 7 false
      (((s.rindFree n).showTrips n).showFault (n / 8), resOk)

/-- RIND_CLEAR: ends a rind lockout, clears the count and restarts the lane. -/
def execRindClear (ph : Phase) (o : Origin) (d : Body) (s : State) : Host.Outcome State Fault Refusal :=
  descCmd rindClearRow 0x0231 ph o d s

/-- A rind trip of cause 1 IRMS, 2 DC or 3 VS with the value concerned: SAFE-LOW with hold cause RIND; the third within 60 s is a
lockout with event 0x94. -/
def State.rindTrip (s : State) (n cause v : Nat) : State :=
  let code := 0x90 + cause
  let hs := s.heat :: s.lastMinute (s.laneAt n).trips
  let out := 3 ≤ hs.length
  let s := s.setLane n { s.laneAt n with trips := hs, rindLocked := out }
  let s := ((s.putF (rindReg n) 6 4 cause).setBit (rindReg n) 2 true).bump (Reg.tlRindTripCnt (n / 8) (n % 8)) 32
  let s := ((s.showTrips n).setHold n hcRind true code).laneEvent n code v
  if out then (s.setBit (rindReg n) 7 true).laneEvent n 0x94 hs.length else s

/-- RIND_RESTART: 1 s after a trip, a lane that is not in rind lockout restarts. -/
def execRindRestart (n : Fin 128) (s : State) : Host.Outcome State Fault Refusal :=
  onTile s (n.val / 8) fun s =>
    if (s.laneAt n.val).rindLocked || !s.bit (rindReg n.val) 2 then s else s.rindFree n.val

/-- RIND_ACK_TIMEOUT: 1 ms after the SSV sent values, the tile has not acknowledged them (R280). -/
def execRindAckTimeout (t : Fin 16) (s : State) : Host.Outcome State Fault Refusal :=
  act s fun s =>
    let h := s.tileAt t.val
    let ops := (h.mbox ++ h.resp.toList ++ h.unsent).filter (·.op == 3)
    if ops.isEmpty then s else s.emit (128 + t.val) 0xA2 (tileSyn 0xA2 0xFF (ops.headD {}).data.toNat)

/-! ### Die temperature (R279) -/

/-- TDIE of a tile, in °C. -/
def State.tdie (s : State) (t : Nat) : Nat := s.getF (Reg.tlRindTdie t) 7 0

/-- TDIE_WARNING: the die, at `celsius` in two's complement, reaches TDIE − 10 °C. -/
def execTdieWarning (t : Fin 16) (celsius : BitVec 16) (s : State) : Host.Outcome State Fault Refusal :=
  onTile s t.val fun s => if celsius.toInt + 10 < (s.tdie t.val : Int) then s else s.tileEvent t.val 0xA0 celsius.toNat

/-- TDIE_TRIP: the die reaches TDIE, and every lane of the tile goes SAFE-LOW. -/
def execTdieTrip (t : Fin 16) (celsius : BitVec 16) (s : State) : Host.Outcome State Fault Refusal :=
  onTile s t.val fun s =>
    if celsius.toInt < (s.tdie t.val : Int) then s else
    let t := t.val
    let was := s.bit (laneReg (t * 8)) (16 + hcTdie)
    let s := forUpto 8 (fun l s => s.putF (rindReg (t * 8 + l)) 6 4 4) s
    let s := s.holdTile t hcTdie true 0xA1
    if was then s else s.tileEvent t 0xA1 celsius.toNat

/-- TDIE_RESTART: the die has fallen below TDIE − 15 °C. -/
def execTdieRestart (x : TileReading) (s : State) : Host.Outcome State Fault Refusal :=
  onTile s x.tile.val fun s =>
    if (s.tdie x.tile.val : Int) ≤ x.value.toInt + 15 then s else s.holdTile x.tile.val hcTdie false 0

/-! ### Battery (R285) -/

/-- `BATT` in force: no source, the host's value, or the averaged pin voltage times the scale. -/
def State.battNow (s : State) (t : Nat) : Word :=
  match s.getF (Reg.tlBattCfg t) 1 0 with
  | 1 => match (s.tileAt t).batt with
    | some v => if v = 0 then 0x447A0000#32 else f32OfRat ((v : Rat) / 10)
    | none => 0x447A0000#32
  | 2 => f32OfRat ((s.lpAt t).battAvg / 10000 * sampleVal (s.reg (Reg.tlBattScale t)))
  | _ => 0x447A0000#32

def State.showBatt (s : State) (t : Nat) : State := s.setReg (Reg.tlBattVal t) (s.battNow t)

/-- The tiles of a mask that are absent make it bad (R21). -/
def State.tilesPresent (s : State) (m : Nat) : Bool := (List.range 16).all fun t => m / 2 ^ t % 2 == 0 || s.present t

def battSetRow : Row where
  blk := .other
  check := fun s d => firstBad [(s.tilesPresent (d.pl 0 2), 0), (d.pl 2 2 ≤ 1800, 2), (restZero d 4, 4)]
  commit := fun e s =>
    let d := e.desc.body
    (forUpto 16 (fun t s =>
      if d.pl 0 2 / 2 ^ t % 2 = 1 then (s.setTile t { s.tileAt t with batt := some (d.pl 2 2) }).showBatt t else s) s, resOk)

/-- BATT_SET: the host battery value of the masked tiles. -/
def execBattSet (ph : Phase) (o : Origin) (d : Body) (s : State) : Host.Outcome State Fault Refusal :=
  descCmd battSetRow 0x0232 ph o d s

/-! ### The fast path (R286, R292) -/

/-- FAST_FRAC in units of 1/65,536 and REL_MS as the tile uses them (R326). -/
def LaneH.fastFracUsed (h : LaneH) : Nat := if 32768 ≤ h.fastFrac ∧ h.fastFrac ≤ 64880 then h.fastFrac else 64881
def LaneH.relMsUsed (h : LaneH) : Nat := if 10 ≤ h.relMs ∧ h.relMs ≤ 5000 then h.relMs else 500

/-- V_NOM in volts: the register's, or in warm-up the defaults' (R295, R540). -/
def State.vNom (s : State) (t : Nat) : Rat :=
  if s.tileWarm t then (s.defField t 4 2 : Rat) / 10 else sampleVal (s.reg (Reg.tlRailNom t))

/-- A rail ADC code in volts (R295). -/
def railVolts (code : Nat) : Rat := (code : Rat) * 200 / 65536

/-- The most g_F may be for a sample of `volts` at a rail of `rail` volts (R286). -/
def LaneH.fastMost (h : LaneH) (volts rail : Rat) : Rat :=
  let top := (h.fastFracUsed : Rat) / 65536 * rail
  if absRat volts ≤ top then 1 else cut (top / absRat volts)

/-- g_F at the next sample of 384 kHz: it rises towards 1 with the time constant REL_MS, and drops to fit the sample. From 65,535 / 65,536 on it
is 1.0 (R328). -/
def LaneH.fastStep (h : LaneH) (volts rail g : Rat) : Rat :=
  let up := if g = 1 then 1 else expAverage ((h.relMsUsed * 384 : Nat) : Rat) g 1
  min (if 65535 / 65536 ≤ up then 1 else up) (h.fastMost volts rail)

/-- g_F has been at `low` in the heat: the first heat of a run below 1 raises event 0x98. -/
def State.fastShow (s : State) (n : Nat) (low : Rat) : State :=
  let h := s.laneAt n
  let s := s.setLane n { h with fastAct := h.fastAct || decide (low < 1), fastLow := min h.fastLow low }
  if low < 1 ∧ !h.fastAct ∧ !h.fastPrev then s.laneEvent n 0x98 (low * 65536).floor.toNat else s

/-- FAST_PATH_LIMIT: sample `x` of lane `n`'s last link frame would exceed FAST_FRAC of the rail; g_F drops within it to
fit, with event 0x98 on the first heat of a run. -/
def execFastPathLimit (n : Fin 128) (x : RailSample) (s : State) : Host.Outcome State Fault Refusal :=
  onTile s (n.val / 8) fun s =>
    let n := n.val
    let h := s.laneAt n
    let most := h.fastMost (((h.samples.getD x.sample.val 0#32).toInt : Rat) / 2147483648 * s.vNom (n / 8)) (railVolts x.rail.toNat)
    if s.laneSt n ≠ lsRunning ∨ h.fast ≤ most then s
    else (s.setLane n { h with fast := most }).fastShow n most

/-! ### The pool (R288 to R290, R372) -/

def poolSetRow : Row where
  blk := .other
  check := fun _ d =>
    firstBad [(d.pl 0 4 ≤ 24000, 0), (-12000 ≤ d.pls 4 && d.pls 4 ≤ 0, 4), (-1200 ≤ d.pls 6 && d.pls 6 ≤ 0, 6),
      (10 ≤ d.pl 8 2 && d.pl 8 2 ≤ 10000, 8), (d.byte 10 ≤ 1, 10), (restZero d 11, 11)]
  commit := fun e s =>
    let d := e.desc.body
    ({ s with pool := { s.pool with watts := d.pl 0 4, floor := d.pls 4, vaFloor := d.pls 6, tau := d.pl 8 2,
                                    en := d.byte 10 == 1 } }, resOk)

/-- POOL_SET: budget, floors, time constant and enable of the pool from the next boundary. -/
def execPoolSet (ph : Phase) (o : Origin) (d : Body) (s : State) : Host.Outcome State Fault Refusal :=
  descCmd poolSetRow 0x0233 ph o d s

/-- The budget in force (R372). -/
def State.poolBudget (s : State) : Nat :=
  let b := (s.reg Reg.gblModeBatPool).toNat
  if s.batMode && b != 0 then min s.pool.watts b else s.pool.watts

/-- DEMAND of a lane as copied to the vat at the end of the last heat, in W (R288). -/
def State.laneDemand (s : State) (n : Nat) : Rat :=
  let a := (n / 8) * 0x800000 + s.getF (Reg.lpnTlmBase (n / 8)) 22 0 + n % 8 * 256 + 76
  let x := sampleVal (BitVec.ofNat 32 (leAt (s.vatBytes a 4) 0 4))
  if x < 0 then 0 else x

/-- The zone a lane takes: its route, or the zone of its partner's bus it plays. -/
def State.laneZone (s : State) (n : Nat) : Option Nat :=
  if s.present (n / 8) && s.bondLow n == n then (s.routeAt n).zone.map (· % 256) else none

/-- Demand, VA, and rank keys of a zone with demand. -/
structure PoolZone where
  z : Nat
  demand : Rat
  va : Bool
  prio : Int

/-- Which of two zones ranks lower (R289). -/
def poolBelow (a b : PoolZone) : Bool :=
  if a.va != b.va then b.va
  else if a.prio ≠ b.prio then a.prio < b.prio else b.z < a.z

def poolInsert (x : PoolZone) : List PoolZone → List PoolZone
  | [] => [x]
  | y :: ys => if poolBelow x y then x :: y :: ys else y :: poolInsert x ys

/-- Working upwards from the lowest rank: the squared gains of the zones, and the excess that remains. -/
def poolShed (floor va : Rat) : List PoolZone → Rat → List (PoolZone × Rat) × Rat
  | [], r => ([], r)
  | x :: xs, r =>
    if r ≤ 0 ∨ x.demand ≤ 0 then
      let (ys, r) := poolShed floor va xs r
      ((x, 1) :: ys, r)
    else
      let f := if x.va then va else floor
      let room := x.demand * (1 - f)
      if r ≤ room then
        let (ys, r') := poolShed floor va xs 0
        ((x, (x.demand - r) / x.demand) :: ys, r')
      else
        let (ys, r') := poolShed floor va xs (r - room)
        ((x, f) :: ys, r')

/-- The squared linear factor of a level in 0.01 dB. -/
def squared (c : Int) : Rat := dbLinear (c : Rat) * dbLinear (c : Rat)

/-- The target gains in force, by zone: linear, and in 0.01 dB. -/
def poolGain (q : Rat) (floor : Int) (f : Rat) : Rat × Int :=
  if q = 1 then (1, 0) else if q = f then (dbLinear (floor : Rat), floor) else (near 23 (sqrtOf q), roundFree 5 (near 9 (100 * powerDb q)))

/-- The pool's work at a heat boundary (R289, R290); `prio z` gives whether a zone has an active VA layer or plays a partner's line, and
the highest PRIO of its active layers. -/
def State.poolEval (s : State) (rank : Nat → Bool × Int) : State :=
  let lanes := (List.range 128).filterMap fun n => (s.laneZone n).map fun z => (n, z)
  let zs := (List.range 256).filter fun z => lanes.any (·.2 == z)
  let dem (z : Nat) : Rat := ((lanes.filter (·.2 == z)).map fun p => s.laneDemand p.1).sum
  let total : Rat := (zs.map dem).sum
  let budget := s.poolBudget
  let order := zs.foldl (fun a z => poolInsert { z := z, demand := dem z, va := (rank z).1, prio := (rank z).2 } a) []
  let excess : Rat := if s.pool.en then total - (budget : Rat) else 0
  let (res, left) := poolShed (squared s.pool.floor) (squared s.pool.vaFloor) order excess
  let isOver := decide (0 < left)
  let shed := res.filter fun p => p.2 != 1
  let vaShed := shed.any (·.1.va)
  let hold := isOver && s.pool.isOver
  let gain (z : Nat) : Rat × Int :=
    match res.find? fun p => p.1.z == z with
    | some p => if p.1.va then poolGain p.2 s.pool.vaFloor (squared s.pool.vaFloor) else poolGain p.2 s.pool.floor (squared s.pool.floor)
    | none => (1, 0)
  let h := s.pool
  let s := { s with pool := { h with shed := !shed.isEmpty, vaShed := vaShed, isOver := isOver } }
  let s := (s.setReg Reg.lpPoolBudget (BitVec.ofNat 32 budget)).setReg Reg.lpPoolDemand (BitVec.ofNat 32 total.floor.toNat)
  let s := s.setReg Reg.lpPoolState (BitVec.ofNat 32 (shed.length % 256 * 2 ^ 16 + (if isOver then 4 else 0) + (if vaShed then 2 else 0) +
    (if shed.isEmpty then 0 else 1)))
  let s := if hold then s else
    forUpto 256 (fun z s => s.setReg (Reg.lpPoolZGain z) (BitVec.ofNat 32 (pattern 16 (gain z).2))) s
  let s := if shed.isEmpty then s else s.bump Reg.lpPoolShedCnt 32
  let zone := (shed.head?.map (·.1.z)).getD 0
  let vz := ((shed.find? (·.1.va)).map (·.1.z)).getD 0
  let s := if !shed.isEmpty && !h.shed then s.emit 219 0x5A (syn16 0x5A zone excess.floor.toNat) else s
  let s := if vaShed && !h.vaShed then s.emit 219 0x5B (syn16 0x5B vz excess.floor.toNat) else s
  let s := if isOver && !h.isOver then s.emit 219 0x5C (syn16 0x5C vz left.floor.toNat) else s
  let rec_ (n : Nat) (s : State) : State :=
    if !s.present n then s
    else
      let a := n * 0x800000 + s.getF (Reg.lpnTlmBase n) 22 0 + 0x800
      let gs := (List.range 8).flatMap fun l =>
        leBytes 4 (mixOf ((s.laneZone (n * 8 + l)).elim 1 fun z => (gain z).1)).toNat
      s.vatWrite .egress a (leBytes 8 s.heat ++ (if hold then (s.vatBytes a 64).drop 8 |>.take 32 else gs) ++ List.replicate 24 0#8)
  forUpto 16 rec_ s

end Sys2Proof.Machine
end

