-- ==== Sys2Proof/Machine/Edges.lean ====
section
/-! DEFINITION. What a tile finds out about its lanes by itself (09_modulation_power_tile.md R297, R301 to R303, R306, R307, R321, R331;
08_loudspeaker_protection.md R279): the placing and the correction of edges, what the rind measures, and the lock-in of a probe. -/

namespace Sys2Proof.Machine

/-! ### Edges commanded (R294, R297) -/

/-- A time goes through the noise shaper `ch` onto the grid of 62.5 ps. -/
def EdgesH.quantise (g : EdgesH) (ch : Nat) (t : Rat) : EdgesH × Int :=
  let es := g.shaper.getD ch []
  let v := cut (t + (es.zipIdx.map fun e => Config.shaperTap e.2 * e.1).sum)
  let y := (v + 1 / 2).floor
  let all := (g.shaper ++ List.replicate (4 - g.shaper.length) []).set ch (((v - (y : Rat)) :: es).take 5)
  ({ g with shaper := all }, y)

/-- One edge is commanded. -/
def EdgesH.command (g : EdgesH) (b fall : Bool) (t : Rat) : EdgesH :=
  let (g, y) := g.quantise ((if b then 2 else 0) + (if fall then 1 else 0)) t
  { g with due := g.due ++ [{ b := b, fall := fall, time := y }] }

/-- The four edges of the period of `len` units from `start` with index `m` and a common offset `c` of both duties: each half-bridge's pulse is
centred on the midpoint. -/
def EdgesH.period (g : EdgesH) (start : Rat) (len : Nat) (m c : Rat) : EdgesH :=
  let l : Rat := (len : Rat)
  let mid := start + l / 2
  let half (b : Bool) : Rat := ((if b then 1 - m else 1 + m) / 4 + c / 2) * l
  let wide := decide (m < 0)
  (((g.command wide false (mid - half wide)).command (!wide) false (mid - half !wide)).command (!wide) true (mid + half !wide)).command
    wide true (mid + half wide)

/-- The edges of the periods of a slot, the first of which starts at `start`; `cm` gives the common offset wanted at a start. It is reduced where
|m| + 2 |c| would exceed M_MAX (R358). -/
def EdgesH.slot (g : EdgesH) (cm : Rat → Rat) : List (Nat × Rat) → Rat → EdgesH
  | [], _ => g
  | p :: ps, start =>
    let room := max 0 ((1 - 640 / (max 1 p.1 : Nat) - absRat p.2) / 2)
    EdgesH.slot (g.period start p.1 p.2 (max (-room) (min room (cm start)))) cm ps (start + (p.1 : Rat))

/-! ### The injection of an EARTH (R358) -/

/-- Link frames of an EARTH: 4 s at 15 V, 12 s at 5 V. -/
def EarthH.frames (h : EarthH) : Nat := if h.volts = 5 then 576000 else 192000

/-- The offset of the duties at a start within the slot, in units of 62.5 ps, against a rail of `rail` volts. -/
def EarthH.offset (h : EarthH) (rail start : Rat) : Rat :=
  if rail = 0 ∨ h.frames ≤ h.played then 0
  else near 26 ((h.volts : Rat) / rail * sinTurn (17 * ((h.played : Rat) / 48000 + start / 16000000000)))

/-- One sample of the earth converter. -/
def EarthH.sample (h : EarthH) (v i : Rat) : EarthH :=
  if 2 * h.frames ≤ h.taken then h
  else
    let c := cosTurn (17 * (h.taken : Rat) / 96000)
    let d := sinTurn (17 * (h.taken : Rat) / 96000)
    { h with taken := h.taken + 1, v := (cut (h.v.1 + v * c), cut (h.v.2 + v * d)), i := (cut (h.i.1 + i * c), cut (h.i.2 + i * d)) }

/-! ### Edges issued and measured (R301 to R303) -/

/-- The bin of a current: 32 from -ILIM to +ILIM, the end bins taking what lies beyond. -/
def currentBin (ilim : Nat) (mA : Int) : Nat := (clampInt 0 31 (((mA + (ilim : Int)) * 16) / (max 1 ilim : Nat))).toNat

/-- Entry `e` of the correction table of lane `n`, in ps. -/
def State.corr (s : State) (n e : Nat) : Int := signed 16 ((s.reg (Reg.tlCorr (n / 8) (n % 8) (e / 2))).toNat / 2 ^ (16 * (e % 2)) % 65536)

def State.setCorr (s : State) (n e : Nat) (v : Int) : State :=
  let r := Reg.tlCorr (n / 8) (n % 8) (e / 2)
  s.putF r (16 * (e % 2) + 15) (16 * (e % 2)) (pattern 16 v)

/-- The current of a lane's last sense sample, in mA, by lane. -/
def State.lastMA (s : State) (n : Nat) : Int := ((s.tileAt (n / 8)).sense.getD (4 * (n % 8) + 3) 0#24).toInt * 25000 / 8388608

/-- The sharing trim of a bonded member, in ps (R306). -/
def State.trimOf (s : State) (n : Nat) : Int :=
  let ks := s.groupLanes n
  if ks.length ≤ 1 then 0 else clampInt (-2000) 2000 (Config.shareTrim (n % 8) (ks.map s.lastMA))

/-- DEADTIME of a lane, in ps: its group's. -/
def State.deadTime (s : State) (n : Nat) : Nat :=
  let k := s.groupLow n
  s.getF (Reg.tlLaneCfg (k / 8) (k % 8)) 7 3 * 1000

/-- The next edge of a lane is issued at t - D, from the bin of the current at the half-bridge's last edge, and its transition measured `x.late` after
t; the entry goes a 64th of the way to the delay found. -/
def State.edgeMeasured (s : State) (n : Nat) (x : EdgeMeasure) : State :=
  let h := s.laneAt n
  let g := h.edges
  match g.due with
  | [] => s
  | c :: cs =>
    let bin := currentBin (s.laneIlim n) (if c.b then g.mB else g.mA)
    let e := ((if c.b then 2 else 0) + (if c.fall then 1 else 0)) * 32 + bin
    let d := s.corr n e
    let trim := s.trimOf n
    let r := x.late.toInt - trim
    let new := clampInt (-32768) 32767 (roundFree 0 ((d : Rat) + (r : Rat) / 64))
    let off : Rat := (c.time : Rat) * 125 / 2 - (d : Rat) + (trim : Rat)
    let out : EdgeOut := { cmd := c, off := off, on := off + (s.deadTime n : Rat) }
    let g := { g with due := cs, out := g.out ++ [out], mA := if c.b then g.mA else x.mA.toInt, mB := if c.b then x.mA.toInt else g.mB,
                      upd := Sparse.set 0 g.upd e (min 64 (Sparse.get 0 g.upd e + 1)), count := g.count + 1,
                      sumSq := g.sumSq + r.natAbs * r.natAbs, top := max g.top r.natAbs }
    (s.setLane n { h with edges := g }).setCorr n e new

/-- The transitions of a tile since the last upstream frame. A lane that stopped has not made the edges that are left. -/
def State.edgesMeasured (s : State) (t : Nat) (xs : List EdgeMeasure) : State :=
  let each (f : EdgesH → EdgesH) (s : State) : State := forUpto 8 (fun l s =>
    s.setLane (t * 8 + l) { s.laneAt (t * 8 + l) with edges := f (s.laneAt (t * 8 + l)).edges }) s
  each (fun g => { g with due := [] }) (xs.foldl (fun s x => s.edgeMeasured (t * 8 + x.lane.val) x) (each (fun g => { g with out := [] }) s))

/-- The edge statistics of the heat that ends (R331). -/
def EdgesH.words (g : EdgesH) (dt : Nat) : List Word :=
  let rms := if g.count = 0 then 0 else (roundFree 1 (sqrtOf ((g.sumSq : Rat) / (g.count : Rat)))).toNat
  let bins := bitsOf (fun b => (List.range 4).all fun q => Sparse.get 0 g.upd (q * 32 + b) == 64) 32
  [BitVec.ofNat 32 g.count, BitVec.ofNat 32 (min 65535 g.top * 65536 + min 65535 rms), BitVec.ofNat 32 bins,
    BitVec.ofNat 32 (min 255 g.ilim * 2 ^ 24 + min 255 g.clips * 65536 + dt % 65536)]

/-- A heat of a lane's edges ends: its statistics, and event 0xB6 for a residual above 250 ps rms. -/
def State.edgesHeat (s : State) (n : Nat) : State :=
  let h := s.laneAt n
  let g := h.edges
  let ws := g.words (Config.dtEff n s.heat (s.deadTime n))
  let s := s.setLane n { h with edges := { g with count := 0, sumSq := 0, top := 0, clips := 0, ilim := 0, stat := ws } }
  if 62500 * g.count < g.sumSq then s.laneEvent n 0xB6 (fld (ws.getD 1 0) 15 0) else s

/-! ### What the rind measures (R279) -/

/-- One sense period, with the DC ceiling in mV. -/
def RindH.sample (r : RindH) (dc : Nat) (v i : Rat) : RindH :=
  let vs := (v :: r.v).take 960
  { ii := (i * i :: r.ii).take 9600, v := vs, flux := cut (r.flux * (1 - 1 / 19200) + v / 96000),
    dcRun := if (dc : Rat) < absRat vs.sum / 960 * 1000 then r.dcRun + 1 else 0 }

/-- The ceiling of a lane that is exceeded, the lower code first: 1 IRMS, 2 DC, 3 VS, 0 none; and the value concerned, in mA, mV or mV·s. -/
def State.rindOver (s : State) (n : Nat) : Nat × Nat :=
  let r := (s.laneAt n).rind
  let c (reg : Nat) (w : Nat) : Rat := ((s.getF reg (w - 1) 0 : Nat) : Rat)
  let irms := c (Reg.tlRindIrms (n / 8) (n % 8)) 16
  let mean := r.ii.sum / 9600
  if irms * irms < mean * 1000000 then (1, (roundFree 2 (1000 * sqrtOf mean)).toNat)
  else if 9600 ≤ r.dcRun then (2, (roundFree 3 (absRat r.v.sum / 960 * 1000)).toNat)
  else if c (Reg.tlRindVs (n / 8) (n % 8)) 12 < absRat r.flux * 1000 then (3, (roundFree 4 (absRat r.flux * 1000)).toNat)
  else (0, 0)

/-- RIND_TRIP: what lane `n`'s rind measures exceeds a ceiling. -/
def execRindTrip (n : Fin 128) (_irms _dc _vs _v : Measured) (s : State) : Host.Outcome State Fault Refusal :=
  onTile s (n.val / 8) fun s =>
    let n := n.val
    let (cause, v) := s.rindOver n
    if cause = 0 ∨ (s.laneSt n ≠ lsRunning ∧ s.laneSt n ≠ lsProbe) then s else s.rindTrip n cause (min 65535 v)

/-! ### The probe's lock-in (R321) -/

/-- Sense samples of the 50 µs before the release, and in all: the lock-in takes the middle 18 ms of 20. -/
abbrev probeWait : Nat := 5
abbrev probeLen : Nat := 1925

/-- One sense period of a probe. -/
def ProbeH.sample (p : ProbeH) (v i : Rat) : ProbeH :=
  let k := p.taken - probeWait
  let q := { p with taken := p.taken + 1 }
  if p.taken < probeWait + 96 ∨ probeWait + 1824 ≤ p.taken then q
  else
    let c := cosTurn ((k : Rat) / 96)
    let d := sinTurn ((k : Rat) / 96)
    { q with v := (cut (p.v.1 + v * c), cut (p.v.2 + v * d)), i := (cut (p.i.1 + i * c), cut (p.i.2 + i * d)) }

/-- |Z|, infinite where no current flows. -/
def ProbeH.z (p : ProbeH) : Word :=
  let sq (x : Rat × Rat) : Rat := x.1 * x.1 + x.2 * x.2
  if sq p.i = 0 then f32Inf false else f32OfRat (near 21 (sqrtOf (sq p.v / sq p.i)))

/-- The 384 kHz sample that a probe plays, `played` samples after it began: 20 ms of 1 kHz at -50 dBFS, with ramps of 1 ms (R321). -/
def ProbeH.wave (played : Nat) : Rat :=
  let k := played - 20
  if played < 20 ∨ 7680 ≤ k then 0
  else near 22 (dbLinear (-5000) * sinTurn ((k : Rat) / 384)) * min (rcos k 384) (rcos (7680 - k) 384)

/-! ### One sense period (R279, R307, R321) -/

/-- One sense period of a CAL: after 10 ms the codes are added up (R363). -/
def CalH.sample (c : CalH) (v i : Int) : CalH :=
  let q := { c with taken := c.taken + 1 }
  if c.taken < 960 ∨ 960 + c.len ≤ c.taken then q else { q with v := c.v + v, i := c.i + i }

/-- The sense codes of a frame with each lane's offsets taken off (R329), channel 2l voltage and 2l + 1 current. -/
def State.calibrated (s : State) (t : Nat) (codes : List (BitVec 24)) : List (BitVec 24) :=
  (List.range 32).map fun j =>
    let h := s.laneAt (t * 8 + j / 4)
    let x : Rat := ((codes.getD j 0#24).toInt : Rat) - (if j / 2 % 2 = 0 then h.offV else h.offI)
    BitVec.ofInt 24 (clampInt (-8388608) 8388607 (roundFree 6 x))

/-- A sense code in volts or amperes. -/
def senseVolts (c : BitVec 24) : Rat := (c.toInt : Rat) * 200 / 8388608
def senseAmps (c : BitVec 24) : Rat := (c.toInt : Rat) * 25 / 8388608

/-- A lane's current is more than 15 % from the mean of its group (R307). -/
def State.isUneven (s : State) (n : Nat) (amps : Nat → Rat) : Bool :=
  let ks := s.groupLanes n
  let mean := (ks.map amps).sum / (max 1 ks.length : Nat)
  1 < ks.length && decide (3 / 20 * absRat mean < absRat (amps n - mean))

/-- Sense sample `j` of a tile's frame, 0 or 1, at the tile: `raw` as the converters give it, and `codes` calibrated. -/
def State.senseTaken (s : State) (t : Nat) (raw codes : List (BitVec 24)) (j : Nat) : State :=
  let code (ch : Nat) : BitVec 24 := codes.getD (2 * ch + j) 0#24
  let rawAt (ch : Nat) : Int := (raw.getD (2 * ch + j) 0#24).toInt
  forUpto 8 (fun l s =>
    let n := t * 8 + l
    let h := s.laneAt n
    let v := senseVolts (code (2 * l))
    let i := senseAmps (code (2 * l + 1))
    let probe := if s.laneSt n = lsProbe then h.probe.sample v i else h.probe
    let un := if s.isUneven n (fun k => senseAmps (code (2 * (k % 8) + 1))) then h.uneven + 1 else 0
    s.setLane n { h with rind := h.rind.sample (s.getF (Reg.tlRindDc t l) 9 0) v i, probe := probe, uneven := un,
                         cal := h.cal.map fun c => c.sample (rawAt (2 * l)) (rawAt (2 * l + 1)) }) s

/-- BOND_IMBALANCE: a bonded member's current has been more than 15 % from the group mean for 100 ms. -/
def execBondImbalance (n : Fin 128) (_mA : Measured) (s : State) : Host.Outcome State Fault Refusal :=
  onTile s (n.val / 8) fun s =>
    if (s.laneAt n.val).uneven < 9600 then s else s.laneEvent (s.groupLow n.val) 0xB8 (s.lastMA n.val).natAbs

/-- The probe ends once its 20 ms have passed: |Z| is shown, and the short is confirmed or not (R321). -/
def execProbeDone (n : Fin 128) (_z : Measured) (s : State) : Host.Outcome State Fault Refusal :=
  onTile s (n.val / 8) fun s =>
    let n := n.val
    let h := s.laneAt n
    if s.laneSt n ≠ lsProbe ∨ h.probe.taken < probeLen then s
    else
      let z := h.probe.z
      let s := (s.setReg (Reg.tlLaneProbeZ (n / 8) (n % 8)) z).setBit (Reg.tlLaneSc (n / 8) (n % 8)) 6 false
      let ohm10 := if f32Finite z then min 65535 (f32ToRat z * 10).floor.toNat else 65535
      if h.probeHit || (f32Finite z && decide (f32ToRat z * 20 < (s.laneZmin n : Rat))) then s.shortConfirmed n ohm10
      else s.shortCleared n ohm10

/-- The samples of the earth converter go to the lane under test (R358). -/
def State.earthTaken (s : State) (t : Nat) (xs : List (Word × Word)) : State :=
  forUpto 8 (fun l s =>
    let h := s.laneAt (t * 8 + l)
    match h.earth with
    | none => s
    | some e => s.setLane (t * 8 + l) { h with earth := some (xs.foldl (fun e x => e.sample (sampleVal x.1) (sampleVal x.2)) e) }) s

/-- What a tile measures for an upstream frame stays with it, whether the frame arrives or not. -/
def State.tileMeasured (s : State) (t : Nat) (m : TileMeasure) : State :=
  let s := s.edgesMeasured t m.edges
  let codes := s.calibrated t m.sense
  let s := ((s.senseTaken t m.sense codes 0).senseTaken t m.sense codes 1).earthTaken t m.earth
  let s := forUpto 8 (fun l s =>
    let h := s.laneAt (t * 8 + l)
    s.setLane (t * 8 + l) { h with lev := ((m.lev.getD (2 * l + 1) 0).toInt :: (m.lev.getD (2 * l) 0).toInt :: h.lev).take 960 }) s
  s.setTile t { s.tileAt t with sense := codes, battPin := m.battPin.toNat, railMean := m.railMean.toNat }

end Sys2Proof.Machine
end

