-- ==== Sys2Proof/Machine/Operands.lean ====
section
/-! DEFINITION. The operand fields of the four slots of a lane processor's bundle (07_lane_processor.md R229, R232, R233, R235),
and which registers an operation of each shape reads. A register is numbered 0 to 63 for f0 to f63 and 64 to 79 for a0 to a15. -/

namespace Sys2Proof.Machine

/-- The number of an address register among the registers. -/
abbrev aReg (k : Nat) : Nat := 64 + k

/-- OP, bits [31:26] of every slot (R229). -/
def slotOp (w : Word) : Nat := fld w 31 26

/-- A C-slot operation that is a block primitive (R236). -/
def isPrimitive (op : Nat) : Bool := 0x20 ≤ op && op ≤ 0x28

/-! ### The F slots (R232): FD, FA, FB and FC -/

def fFD (w : Word) : Nat := fld w 25 20
def fFA (w : Word) : Nat := fld w 19 14
def fFB (w : Word) : Nat := fld w 13 8
def fFC (w : Word) : Nat := fld w 7 2

abbrev fSlot (f1 : Bool) : Nat := if f1 then 1 else 0

def noSrcs (_ : Word) : List Nat := []
def srcs1 (w : Word) : List Nat := [fFA w]
def srcs2 (w : Word) : List Nat := [fFA w, fFB w]
def srcs3 (w : Word) : List Nat := [fFA w, fFB w, fFC w]

/-! ### The M slot (R233): F, A, AB and IMM -/

def mF (w : Word) : Nat := fld w 25 20
def mA (w : Word) : Nat := aReg (fld w 23 20)
def mAB (w : Word) : Nat := aReg (fld w 19 16)
def mImm (w : Word) : Int := signed 16 (fld w 15 0)
def mImmU (w : Word) : Nat := fld w 15 0

/-- An address register plus a count of words. -/
def addrOf (base : Word) (words : Int) : Nat := (base + BitVec.ofInt 32 (words * 4)).toNat

/-! ### The C slot (R235): A, B, C, F and T -/

def cA (w : Word) : Nat := aReg (fld w 25 22)
def cB (w : Word) : Nat := aReg (fld w 21 18)
def cC (w : Word) : Nat := aReg (fld w 17 14)
def cF (w : Word) : Nat := fld w 21 16
def cT (w : Word) : Nat := fld w 11 0

end Sys2Proof.Machine
end

