-- ==== Sys2Proof/Machine/LpOps.lean ====
section
/-! DEFINITION. How a lane processor runs a bundle (07_lane_processor.md R225 to R231): its registers with their latencies and
interlocks, its data memory, the fields of its four slots, the faults of a program, and the issue of a slot. A command names an
LP and a slot; the operands stand in the bundle at the LP's program counter. The C slot's command ends the bundle. -/

namespace Sys2Proof.Machine

/-! ### Registers and latencies (R225, R230, R231) -/

/-- A register's value: a0 reads zero. -/
def LpH.reg (h : LpH) (r : Nat) : Word := if r = 64 then 0#32 else Sparse.get 0 h.regs r

/-- A register written at once: a0 discards. -/
def LpH.putReg (h : LpH) (r : Nat) (v : Word) : LpH := if r = 64 then h else { h with regs := Sparse.set 0 h.regs r v }

/-- Results due in order of cycle, and in one cycle F0 before F1 before M before C, so that the slot nearest C wins. -/
def wbInsert (w : WriteBack) : List WriteBack → List WriteBack
  | [] => [w]
  | x :: xs => if w.due < x.due || (w.due == x.due && w.slot < x.slot) then w :: x :: xs else x :: wbInsert w xs

/-- Write the results whose latency has elapsed. -/
def LpH.retire (h : LpH) : LpH :=
  let ready := h.wb.filter fun w => w.due ≤ h.cyc
  ready.foldl (fun h w => h.putReg w.reg w.val) { h with wb := h.wb.filter fun w => h.cyc < w.due }

/-- The bundle stalls until cycle `c`: the results of its slots already issued move with it. -/
def LpH.stallTo (h : LpH) (c : Nat) : LpH :=
  if c ≤ h.cyc then h
  else
    LpH.retire { h with cyc := c, wb := h.wb.map fun w => if w.cur then { w with due := w.due + (c - h.cyc) } else w }

/-- Wait until the results of earlier bundles for a register have been written. -/
def LpH.wait (h : LpH) (r : Nat) : LpH :=
  h.stallTo ((h.wb.filter fun w => !w.cur && w.reg == r).foldl (fun c w => max c w.due) h.cyc)

def LpH.waitAll (h : LpH) (rs : List Nat) : LpH := rs.foldl (fun h r => h.wait r) h

/-- A slot's result, written when its latency has elapsed. -/
def LpH.result (h : LpH) (slot reg lat : Nat) (v : Word) : LpH :=
  { h with wb := wbInsert { due := h.cyc + lat, slot := slot, reg := reg, val := v, cur := true } h.wb }

/-! ### Data memory (R225, R227) -/

abbrev dmemSize : Nat := 0x40000

/-- The word of DMEM at a byte address. -/
def LpH.word (h : LpH) (a : Nat) : Word := Sparse.get 0 h.dmem (a / 4)
def LpH.putWord (h : LpH) (a : Nat) (v : Word) : LpH := { h with dmem := Sparse.set 0 h.dmem (a / 4) v }
def LpH.words (h : LpH) (a n : Nat) : List Word := (List.range n).map fun i => h.word (a + 4 * i)
def LpH.putWords (h : LpH) (a : Nat) (ws : List Word) : LpH :=
  (ws.zipIdx).foldl (fun h p => h.putWord (a + 4 * p.2) p.1) h
def LpH.bytes (h : LpH) (a n : Nat) : List Byte := bytesOfWords (h.words a (n / 4))
def LpH.putBytes (h : LpH) (a : Nat) (bs : List Byte) : LpH := h.putWords a (wordsOf (bs.length / 4) bs)

/-! ### Program faults (R226, R233 to R236, R261) -/

abbrev pfIllegal : Nat := 1
abbrev pfRange : Nat := 2
abbrev pfAlign : Nat := 3
abbrev pfStack : Nat := 4
abbrev pfLoop : Nat := 5
abbrev pfBundle : Nat := 6
abbrev pfVat : Nat := 7
abbrev pfOperand : Nat := 8

/-- An event of LP `n` whose syndrome `LPn_FAULT` keeps, and the block reset that follows (R251, R261). -/
def State.lpFails (s : State) (n code v : Nat) : State :=
  let syn := syn12 code ((s.lpAt n).pc) v
  ((s.setReg (Reg.lpnFault n) syn).lpBlockReset n).emit (144 + n) code syn

/-- Event 0x72 with its cause. -/
def State.lpFault (s : State) (n cause : Nat) : State := s.lpFails n 0x72 cause

/-! ### The bundle at the program counter (R229, R232, R233, R235, R236) -/

/-- The word of slot 0 F0, 1 F1, 2 M or 3 C. -/
def LpH.slotWord (h : LpH) (slot : Nat) : Word := Sparse.get 0 h.imem (h.pc * 4 + slot)

/-- What is wrong with the bundle at the program counter: an OP the tables do not give, a primitive beside another operation, or a
program counter beyond the instruction memory. -/
def LpH.bundleBad (h : LpH) : Option Nat :=
  let op (k : Nat) := slotOp (h.slotWord k)
  if 4096 ≤ h.pc then some pfIllegal
  else if 0x12 < op 0 ∨ 0x12 < op 1 ∨ 0x09 < op 2 ∨ !(op 3 ≤ 0x10 || isPrimitive (op 3)) then some pfIllegal
  else if isPrimitive (op 3) ∧ ¬(op 0 = 0 ∧ op 1 = 0 ∧ op 2 = 0) then some pfBundle else none

/-- The bundle at the program counter is fetched: a bad one is a program fault. -/
def State.lpFetch (s : State) (n : Nat) : State :=
  match (s.lpAt n).bundleBad with
  | some c => s.lpFault n c
  | none => s

/-- A slot of the current bundle has issued, or needs no command because its word is a no-operation. -/
def LpH.slotDone (h : LpH) (slot : Nat) : Bool :=
  slotOp (h.slotWord slot) == 0 || (if slot = 0 then h.f0 else if slot = 1 then h.f1 else h.m)

def LpH.mark (h : LpH) (slot : Nat) : LpH :=
  if slot = 0 then { h with f0 := true } else if slot = 1 then { h with f1 := true } else { h with m := true }

def LpH.issued (h : LpH) (slot : Nat) : Bool := if slot = 0 then h.f0 else if slot = 1 then h.f1 else h.m

/-- Slot `slot` of LP `n` can issue an operation: the LP is in a heat, the slot has not issued, and the bundle holds that OP there. -/
def State.canIssue (s : State) (n slot op : Nat) : Bool :=
  let h := s.lpAt n
  s.inHeat n && !h.issued slot && slotOp (h.slotWord slot) == op && (h.bundleBad).isNone

/-- The loops that end at the bundle just done: a loop with runs left goes back, another is left. -/
def loopNext (pc : Nat) : List HwLoop → List HwLoop × Nat
  | [] => ([], pc + 1)
  | l :: ls =>
    if l.last ≠ pc then (l :: ls, pc + 1)
    else if 1 < l.left then ({ l with left := l.left - 1 } :: ls, l.first) else loopNext pc ls

/-- The bundle ends: one cycle and `extra` more, two cycles of bubble where a branch was taken; its results are on their way, and
the program counter moves. -/
def LpH.endBundle (h : LpH) (target : Option Nat) (extra : Nat) : LpH :=
  let (loops, nx) := match target with
    | some t => (h.loops, t)
    | none => loopNext h.pc h.loops
  let cost := if target.isSome then 3 else 1
  LpH.retire { h with cyc := h.cyc + cost + extra, loops := loops, pc := nx, f0 := false, f1 := false, m := false,
                      wb := h.wb.map fun w => { w with cur := false } }

/-- A C-slot operation can issue: as any slot, and the bundle's other slots have issued. -/
def State.canClose (s : State) (n op : Nat) : Bool :=
  let h := s.lpAt n
  s.inHeat n && slotOp (h.slotWord 3) == op && (h.bundleBad).isNone && h.slotDone 0 && h.slotDone 1 && h.slotDone 2

/-- The bundle of LP `n` ends with the state `h` of its processor, and the next one is fetched. -/
def State.lpClose (s : State) (n : Nat) (h : LpH) (target : Option Nat) (extra : Nat) : State :=
  (s.setLp n (h.endBundle target extra)).lpFetch n

/-- A DMEM access of `len` bytes at `a`, word-aligned: the fault it makes, if any (R233). -/
def dmemBad (a len : Nat) : Option Nat :=
  if dmemSize < a + len then some pfRange else if a % 4 ≠ 0 then some pfAlign else none

/-- The range overlaps that of an incomplete transfer (R234). -/
def LpH.busyRange (h : LpH) (a len : Nat) : Bool := h.xfers.any fun t => t.dmem < a + len && a < t.dmem + t.len

/-- Vat byte offset of an offset in the LP's bank. -/
def bankByte (n off : Nat) : Nat := n * 0x800000 + off

/-- Hardware writes bytes at an offset of an LP's bank: what would lie beyond the bank's end is not written. -/
def State.bankWrite (s : State) (n off : Nat) (bs : List Byte) : State :=
  s.vatWrite (.privateLp n) (bankByte n off) (bs.take (0x800000 - off))

/-- A range leaves the LP's bank (R226). -/
def bankBad (off len : Nat) : Bool := 0x800000 < off + len

end Sys2Proof.Machine
end

