-- ==== Sys2Proof/Machine/Players.lean ====
section
/-! DEFINITION. The announcement players and the clip cache (06_announcement_players.md): playlist entries, playing sample by sample
with crossfades, starvation and bad clips, and the descriptors and events of the players. -/

namespace Sys2Proof.Machine

/-! ### Entries and clips (R201 to R205, R218) -/

def PEntry.kind (e : PEntry) : Nat := leAt e.bytes 0 1
def PEntry.fmt (e : PEntry) : Nat := leAt e.bytes 1 1
def PEntry.release (e : PEntry) : Bool := leAt e.bytes 2 1 / 8 % 2 == 1
def PEntry.end_ (e : PEntry) : Bool := leAt e.bytes 2 1 / 4 % 2 == 1
def PEntry.verify (e : PEntry) : Bool := leAt e.bytes 2 1 / 16 % 2 == 1
def PEntry.xfade (e : PEntry) : Nat := leAt e.bytes 3 1
def PEntry.gain (e : PEntry) : Int := signed 16 (leAt e.bytes 4 2)
def PEntry.clip (e : PEntry) : Nat := leAt e.bytes 6 2
def PEntry.len (e : PEntry) : Nat := leAt e.bytes 16 4
def PEntry.start (e : PEntry) : Nat := leAt e.bytes 20 4
def PEntry.repeats (e : PEntry) : Nat := leAt e.bytes 28 1
def PEntry.tag (e : PEntry) : BitVec 64 := BitVec.ofNat 64 (leAt e.bytes 32 8)

/-- Bytes of a clip word, and 48 kHz samples for so many clip samples, of a FORMAT (R201, R202). -/
def clipWordBytes (fmt : Nat) : Nat := if fmt % 4 = 1 then 3 else 2
def clipRateCode (fmt : Nat) : Nat := fmt / 4 % 4
def clipNum (fmt : Nat) : Nat := [3, 2, 3, 1].getD (clipRateCode fmt) 1
def clipDen (fmt : Nat) : Nat := if clipRateCode fmt = 2 then 2 else 1

def State.clipValid (s : State) (c : Nat) : Bool := c < 1024 && s.bit (Reg.plyClipInfo c) 31 && !s.bit (Reg.plyClipInfo c) 28

/-- FORMAT and length of what an entry plays. -/
def State.entryFmt (s : State) (e : PEntry) : Nat :=
  if e.kind = 1 then (match e.held with
    | some o => o.fmt
    | none => s.getF (Reg.plyClipInfo e.clip) 19 16) else e.fmt

def State.entryLen (s : State) (e : PEntry) : Nat :=
  if e.kind = 1 then
    let n := match e.held with
      | some o => o.len
      | none => (s.reg (Reg.plyClipLen e.clip)).toNat
    if e.len = 0 then n else min e.len n
  else e.len

/-- 48 kHz samples of one play of an entry. -/
def State.entryPlay (s : State) (e : PEntry) : Nat :=
  match e.kind with
  | 2 => e.len
  | 3 => 0
  | _ => ceilDiv ((s.entryLen e - e.start) * clipNum (s.entryFmt e)) (clipDen (s.entryFmt e))

/-- An entry out of range, with a reserved field set, or of a clip that is not valid (R205). -/
def State.entryBad (s : State) (e : PEntry) : Bool :=
  let k := e.kind
  3 < k || 16 ≤ e.fmt || (k != 0 && e.fmt != 0) || 1 < e.fmt % 4 || leAt e.bytes 2 1 % 4 != 0 || 32 ≤ leAt e.bytes 2 1 ||
    10 < e.xfade || e.gain < -12000 || 1200 < e.gain || (if k = 1 then e.held.isNone && !s.clipValid e.clip else e.clip != 0) ||
    (if k = 0 then leAt e.bytes 8 8 % 64 != 0 else leAt e.bytes 8 8 != 0) ||
    (match k with
      | 0 => e.len == 0 || 268435455 < e.len || e.len ≤ e.start
      | 1 => s.entryLen e ≤ e.start || s.entryLen e < e.len
      | 2 => e.start != 0
      | _ => e.len != 0 || e.start != 0) ||
    (k != 0 && leAt e.bytes 24 4 != 0) || !zerosAt e.bytes 29 3 || !zerosAt e.bytes 40 24

/-! ### Registers and events (R223, R224) -/

abbrev plyDisabled : Nat := 0
abbrev plyIdle : Nat := 1
abbrev plyPlaying : Nat := 2
abbrev plyStarved : Nat := 3

def State.plySt (s : State) (p : Nat) : Nat := s.getF (Reg.plyPState p) 2 0
def State.setPlySt (s : State) (p st : Nat) : State := s.putF (Reg.plyPState p) 2 0 st
def State.plyLost (s : State) (p : Nat) : Bool := s.bit (Reg.plyPState p) 5

/-- The layer that takes a player as its source (R209). -/
def State.plyLayer (s : State) (p : Nat) : Option (Nat × Nat) :=
  (s.layers.find? fun x => x.2.srcType == 2 && x.2.srcId == p).map fun x => (x.1 / 8, x.1 % 8)

/-- An event of a player, with another code on a VA layer. -/
def State.plyEvent (s : State) (p code vaCode clip : Nat) : State :=
  let va := match s.plyLayer p with
    | some (z, l) => (s.layerAt z l).va
    | none => false
  let c := if va then vaCode else code
  s.emit 220 c (syn16 c p clip)

def PEntry.clipNo (e : PEntry) : Nat := if e.kind = 1 then e.clip else 0xFFFF

/-- A playlist entry completes on the player's completion ring with the 48 kHz samples played (R203, R458). -/
def State.plyComplete (s : State) (p : Nat) (e : PEntry) (st : Nat) : State :=
  if e.own then s
  else
    let h := s.playerAt p
    s.cplWrite h.cpl h.ring (e.index % 65536) { status := st, tag := e.tag, time := s.heat, value := min e.played 0xFFFFFFFF }

/-! ### The samples of a clip (R201, R202, R221) -/

/-- Vat byte offset of byte `b` of a clip in a list of pages. -/
def State.clipByte (s : State) (pages : List Nat) (b : Nat) : Nat :=
  (s.reg Reg.plyCacheBase).toNat + pages.getD (b / 4096) 0 * 4096 + b % 4096

/-- The `n` bytes of a clip from `b` in some pages, none where a word has an uncorrectable error. -/
def State.clipRead (s : State) (pages : List Nat) (b n : Nat) : Option (List Byte) :=
  let as := (List.range n).map fun i => s.clipByte pages (b + i) % vatSize
  if as.any fun a => match (s.bankAt (a / 0x800000)).find (a % 0x800000 / 8) with
    | some e => e.double
    | none => false
  then none else some (as.map s.vatByte)

/-- What a player finds for its next sample. -/
inductive Got where
  | sample (x : Word)
  | starve
  | bad

/-- The value of a clip word (R85, R201). -/
def pcmVal (fmt v : Nat) : Rat :=
  let bits := 8 * clipWordBytes fmt
  (signed bits (v % 2 ^ bits) : Rat) / ((2 ^ (bits - 1) : Nat) : Rat)

/-- Words of a clip on either side of a sample that the interpolator of a lower rate takes: their number is not given. -/
abbrev clipReach : Nat := 32

/-- A sample of the interpolator (R202): linear in the clip's words about it, oldest first, with a level within ±0.05 dB; the coefficients of
each phase of a ratio are not given. -/
def interpolate (rate phase : Nat) (xs : List Rat) : Rat :=
  let cs := (List.range xs.length).map fun k => Config.clipTap rate phase k
  let sum := cs.sum
  let cs := if sum = 0 then (List.range xs.length).map fun k => if k = clipReach then (1 : Rat) else 0 else cs.map (· / sum)
  dbLinear ((clampInt (-5) 5 (Config.clipRipple rate phase) : Int) : Rat) * ((xs.zip cs).map fun p => p.1 * p.2).sum

/-- Where the word of sample `i` of a play stands in the clip. -/
def wordAt (fmt start i : Nat) : Nat := start + i * clipDen fmt / clipNum fmt

/-- The words sample `i` of a play takes: the one word at 48 kHz, else those within reach, from START to the end. -/
def wordsFor (fmt start len i : Nat) : Nat × Nat :=
  let n := wordAt fmt start i
  if clipRateCode fmt = 3 then (n, n) else (max start (n - clipReach), min (len - 1) (n + clipReach))

/-- Sample `i` of a play from the words `ws` taken, the first being word `lo`: a word outside counts as zero. -/
def clipSample (fmt start i lo : Nat) (ws : List Nat) : Word :=
  let n := wordAt fmt start i
  if clipRateCode fmt = 3 then f32OfRat (pcmVal fmt (ws.getD 0 0))
  else
    mixOf (interpolate (clipRateCode fmt) (i * clipDen fmt % clipNum fmt) ((List.range (2 * clipReach + 1)).map fun k =>
      if n + k < lo + clipReach then 0 else (ws[n + k - clipReach - lo]?.map (pcmVal fmt)).getD 0))

/-- The fetch buffer of a player, and where byte `b` of an entry's clip stands in the stream fetched (R224). -/
def State.plyBuf (s : State) (p : Nat) : Nat := (s.reg Reg.plyBufBase).toNat + p * 65536
def PEntry.place (e : PEntry) (b : Nat) : Nat := ((e.reads.filter fun r => r.1 ≤ b).getLast?.map fun r => r.2 + (b - r.1)).getD 0

/-- The words `lo` to `hi` of a host clip: from the fetch buffer while it holds them, else as fetched. -/
def State.hostWords (s : State) (p : Nat) (e : PEntry) (lo hi : Nat) : List Nat :=
  let wb := clipWordBytes e.fmt
  let fed := (s.playerAt p).fed
  let byte (b : Nat) : Byte :=
    let k := e.place b
    if fed ≤ k + 65536 then (s.vatBytes (s.plyBuf p + k % 65536) 1).headD 0 else e.data.getD b 0
  (List.range (hi + 1 - lo)).map fun j => leAt ((List.range wb).map fun i => byte ((lo + j) * wb + i)) 0 wb

/-- Sample `i` of one play of an entry, before its gain. -/
def State.entryGet (s : State) (p : Nat) (e : PEntry) (i : Nat) : State × Got :=
  let fmt := s.entryFmt e
  let wb := clipWordBytes fmt
  let (lo, hi) := wordsFor fmt e.start (s.entryLen e) i
  let give (s : State) (bs : List Byte) : State × Got :=
    (s, .sample (clipSample fmt e.start i lo ((List.range (hi + 1 - lo)).map fun j => leAt bs (j * wb) wb)))
  match e.kind with
  | 0 =>
    if e.data.length < (hi + 1) * wb then (s, .starve) else (s, .sample (clipSample fmt e.start i lo (s.hostWords p e lo hi)))
  | 1 =>
    let c := s.clipAt e.clip
    let p1 := (e.held.map (·.pages)).getD c.pages
    let p2 := (e.held.map (·.pages2)).getD c.pages2
    let b := lo * wb
    let n := (hi + 1 - lo) * wb
    match s.clipRead p1 b n, if p2.isEmpty then none else s.clipRead p2 b n with
    | some bs, _ => give s bs
    | none, some bs =>
      let s := forUpto n (fun k s => s.vatTouch .player (s.clipByte p1 (b + k)) 1) s
      let s := s.emit 220 0x65 (syn16 0x65 0xFF e.clip)
      let s := ((List.range n).map fun k => (b + k) / 4096).eraseDups.foldl (fun s page =>
        match s.clipRead p2 (page * 4096) 4096 with
        | some whole => s.vatWrite .player (s.clipByte p1 (page * 4096)) whole
        | none => s) s
      give s bs
    | none, none =>
      let s := forUpto n (fun k s => s.vatTouch .player (s.clipByte p1 (b + k)) 1) s
      ((s.setBit (Reg.plyClipInfo e.clip) 28 true).emit 220 0x66 (syn16 0x66 p e.clip), .bad)
  | _ => (s, .sample 0#32)

/-- An entry's gain on a sample. -/
def entryGain (e : PEntry) (x : Word) : Word := if e.gain = 0 then x else mixOf (sampleVal x * dbLinear (e.gain : Rat))

/-! ### Readiness (R208) -/

/-- The player holds the first heat of samples of an entry. -/
def State.entryReady (s : State) (e : PEntry) : Bool :=
  match e.kind with
  | 0 =>
    let need := min (s.entryPlay e) 48
    !e.bad && (if e.verify then e.fetched else
      ((wordsFor e.fmt e.start e.len (need - 1)).2 + 1) * clipWordBytes e.fmt ≤ e.data.length)
  | 1 => e.held.isSome || s.clipValid e.clip
  | _ => true

/-- The head entry is ready: a marker, which plays nothing, is passed over. -/
def State.plyReady (s : State) (p : Nat) : Bool :=
  s.bit Reg.plyCtrl 0 && s.plySt p != plyDisabled &&
    match (s.playerAt p).queue.find? fun e => e.kind != 3 with
    | some e => s.entryReady e
    | none => false

/-- The registers of a player follow it. -/
def State.showPlayer (s : State) (p : Nat) : State :=
  let s := s.setBit (Reg.plyPState p) 3 (s.plyReady p)
  let s := match s.plyLayer p with
    | some (z, l) => (s.putF (Reg.plyPState p) 23 8 (l * 2 ^ 13 + z)).setBit (Reg.plyPState p) 7 true
    | none => (s.putF (Reg.plyPState p) 23 8 0).setBit (Reg.plyPState p) 7 false
  let q := (s.playerAt p).queue.headD {}
  let playing := s.plySt p == plyPlaying || s.plySt p == plyStarved
  let s := s.setBit (Reg.plyPState p) 6 (playing && q.own)
  let t := if playing then q.tag.toNat else 0
  let s := s.set64 (Reg.plyPTagLo p) (Reg.plyPTagHi p) t
  s.setReg (Reg.plyPPos p) (BitVec.ofNat 32 (if playing then
    q.start + q.at_ * clipDen (s.entryFmt q) / clipNum (s.entryFmt q) else 0))

/-! ### The queue as it plays (R205, R206, R210 to R213, R216) -/

/-- The player plays or is starved. -/
def State.plyBusy (s : State) (p : Nat) : Bool := s.plySt p == plyPlaying || s.plySt p == plyStarved

/-- A sample of an entry has been played. -/
def PEntry.started (e : PEntry) : Bool := e.at_ != 0 || e.rep != 0 || e.played != 0

/-- The player releases its layer, whose output is then zero (R173, R212): an ASSERTED layer is no longer heard, and the player stops; a layer
of another activity is heard on. -/
def State.plyRelease (s : State) (p : Nat) : State :=
  match s.plyLayer p with
  | some (z, l) =>
    let h := s.layerAt z l
    let s := s.setLayer z l { h with asserted := false, gate := false, wait := h.wait.map fun w => (w.1, w.2.1, false) }
    if h.act ≠ 1 then s
    else (s.setPlayer p { s.playerAt p with tail := none, fadeOut := 0, fadeIn := none, hold := false }).setPlySt p plyIdle
  | none => s

/-- The head entry is done with, with a status: it leaves the queue; with END its message is over, and with RELEASE too the layer is released
(R203, R212). -/
def State.plyFinish (s : State) (p : Nat) (e : PEntry) (st : Nat) : State :=
  let h := s.playerAt p
  let s := (s.setPlayer p { h with queue := h.queue.drop 1, ended := e.end_ }).plyComplete p e st
  if e.end_ && e.release && s.plyBusy p then s.plyRelease p else s

/-- Entries at the head that take no time: a bad one completes and is passed over (R205); one whose clip is bad too, and a playing player joins
the next at the next heat boundary (R215); while the player plays, so are markers and what has no samples (R206, R210). -/
def State.plyHead : Nat → Nat → State → State
  | 0, _, s => s
  | n + 1, p, s =>
    match (s.playerAt p).queue with
    | [] => s
    | e :: _ =>
      let on (t : State) : State := if s.plyBusy p && !t.plyBusy p then t else State.plyHead n p t
      if e.started || e.own then s
      else if s.entryBad e then on (s.plyFinish p e stBad)
      else if e.bad then
        if s.plySt p = plyPlaying then
          let t := s.plyFinish p e stFaulted
          if t.plyBusy p then t.setPlayer p { t.playerAt p with hold := true } else t
        else on (s.plyFinish p e stFaulted)
      else if (e.kind == 3 || s.entryPlay e == 0) && s.plyBusy p then on (s.plyFinish p e stOk)
      else s

/-- The fallback clip as an entry: it repeats, joined with a 10 ms crossfade (R216). -/
def fallbackEntry (c : Nat) : PEntry :=
  { bytes := leBytes 1 1 ++ leBytes 2 0 ++ leBytes 1 10 ++ leBytes 2 0 ++ leBytes 2 c ++ leBytes 20 0 ++ leBytes 1 255 ++ leBytes 35 0,
    own := true }

/-- A lost player with nothing further to play takes its fallback clip. -/
def State.plyFallback (s : State) (p : Nat) : State :=
  let h := s.playerAt p
  match h.queue, h.fallback with
  | [], some c => if s.plyLost p && s.clipValid c then s.setPlayer p { h with queue := [fallbackEntry c] } else s
  | _, _ => s

/-- The player starts: the head entry's sample START plays next (R207). -/
def State.plyStart (s : State) (p : Nat) : State :=
  if s.plySt p ≠ plyIdle then s
  else
    let h := s.playerAt p
    let s := s.setPlayer p { h with tail := none, fadeOut := 0, fadeIn := none, gap := 0, hold := false, ended := false }
    (State.plyHead 16 p (s.setPlySt p plyPlaying)).plyFallback p

/-- Entries complete with the samples played, up to the next with END; where none of those read carries it, those still to be read are dropped
too (R213). -/
def State.plyDrop : Nat → Nat → State → State
  | 0, _, s => s
  | n + 1, p, s =>
    match (s.playerAt p).queue with
    | [] => s.setPlayer p { s.playerAt p with dropping := true }
    | e :: es =>
      let s := (s.setPlayer p { s.playerAt p with queue := es }).plyComplete p e stOk
      if e.end_ then s else State.plyDrop n p s

/-- The entry that ends under a crossfade is the entry playing, one play earlier: one completion stands for both (R203). -/
def PlayerH.sameTail (h : PlayerH) (t : PTail) : Bool :=
  match h.queue with
  | e :: _ => e.own == t.ent.own && e.index == t.ent.index && t.ent.rep < e.rep
  | [] => false

/-- The crossfade is over: the entry that ended under it completes. -/
def State.plyTailEnd (s : State) (p st : Nat) : State :=
  match (s.playerAt p).tail with
  | none => s
  | some t =>
    let s := if (s.playerAt p).sameTail t then s else s.plyComplete p t.ent st
    s.setPlayer p { s.playerAt p with tail := none }

/-- The player stops at this sample (R213): what plays completes; unless its message is over, so does the rest of it. -/
def State.plyStop (s : State) (p : Nat) : State :=
  if !s.plyBusy p then s
  else
    let s := s.plyTailEnd p stOk
    let s := (s.setPlayer p { s.playerAt p with fadeOut := 0, fadeIn := none, gap := 0, hold := false }).setPlySt p plyIdle
    let h := s.playerAt p
    match h.queue with
    | e :: es =>
      if e.own then
        let s := s.setPlayer p { h with queue := es }
        if h.ended then s else State.plyDrop 16 p s
      else if h.ended && !e.started then s else State.plyDrop 16 p s
    | [] => if h.ended then s else State.plyDrop 1 p s

/-- The overlap of an entry with the play before it, clamped to half the shorter (R210). -/
def State.overlap (s : State) (out inc : PEntry) : Nat :=
  min (48 * inc.xfade) (min (s.entryPlay out / 2) (s.entryPlay inc / 2))

/-- The fallback clip ends its play when the host is back (R217). -/
def lastPlay (lost : Bool) (e : PEntry) : Bool :=
  if e.own then !lost else e.repeats != 255 && e.repeats ≤ e.rep

/-- The first entry that plays of those after one: markers take no part, bad entries are passed over, and none joins across a release or a bad
clip (R210, R212, R215). -/
def State.joiner (s : State) : List PEntry → Option PEntry
  | [] => none
  | e :: es =>
    if s.entryBad e || e.kind == 3 then (if e.end_ && e.release then none else s.joiner es)
    else if e.bad then none else some e

/-- What follows a play of the head entry: itself again, or the next entry that plays. -/
def State.following (s : State) (p : Nat) : Option PEntry :=
  match (s.playerAt p).queue with
  | [] => none
  | e :: es => if lastPlay (s.plyLost p) e then (if e.end_ && e.release then none else s.joiner es) else some { e with at_ := 0 }

/-- The head entry's play is over: it repeats, or it is done with and the next begins. `mixed` when its last samples still sound under
a crossfade, in which case it completes when they end. -/
def State.entryOver (s : State) (p : Nat) (mixed : Bool) : State :=
  let h := s.playerAt p
  match h.queue with
  | [] => s
  | e :: es =>
    if !lastPlay (s.plyLost p) e then s.setPlayer p { h with queue := { e with at_ := 0, rep := e.rep + 1 } :: es }
    else
      let s := if mixed then s.setPlayer p { h with queue := es, ended := e.end_ } else s.plyFinish p e stOk
      if s.plyBusy p then (State.plyHead 16 p s).plyFallback p else s

/-- The player starves (R214): it fades out, and is silent. -/
def State.plyStarve (s : State) (p : Nat) : State :=
  if s.plySt p ≠ plyPlaying then s
  else
    let h := s.playerAt p
    let s := s.setPlayer p { h with fadeOut := 64, gap := 0, fadeIn := none }
    ((s.setPlySt p plyStarved).bump (Reg.plyPStarveCnt p) 32).plyEvent p 0x60 0x61 ((h.queue.headD {}).clipNo)

/-- The head entry is bad: it completes FAULTED; a playing player fades out, and joins the next entry at the next heat boundary (R215). -/
def State.plyCut (s : State) (p : Nat) : State :=
  match (s.playerAt p).queue with
  | [] => s
  | e :: _ =>
    let s := (s.plyTailEnd p stOk).plyFinish p e stFaulted
    if s.plySt p = plyPlaying then s.setPlayer p { s.playerAt p with fadeOut := 64, fadeIn := none, hold := true } else s

/-! ### One sample (R207, R210, R214) -/

/-- The fade-out of a player that has nothing to play. -/
def State.plyFade (s : State) (p : Nat) : State × Word :=
  let h := s.playerAt p
  if h.fadeOut = 0 then (s, 0#32)
  else (s.setPlayer p { h with fadeOut := h.fadeOut - 1 }, scaled' h.last (1 - rcos (65 - h.fadeOut) 65))
where
  scaled' (x : Word) (f : Rat) : Word := mixOf (sampleVal x * f)

/-- The sample at which the player starves: its timeline counts it (R214). -/
def State.plyDry (s : State) (p : Nat) : State × Word :=
  let s := s.plyStarve p
  (s.setPlayer p { s.playerAt p with gap := 1 }).plyFade p

/-- A cached clip has been played in this heat (R220). -/
def State.clipPlayed (s : State) (e : PEntry) : State :=
  if e.kind = 1 ∧ e.held.isNone then s.setClip e.clip { s.clipAt e.clip with used := s.heat } else s

/-- The sample of the entry that ends under a crossfade, mixed into `x`; none where that sample is not held. -/
def State.plyMix (s : State) (p : Nat) (x : Word) : Option (State × Word) :=
  match (s.playerAt p).tail with
  | none => some (s, x)
  | some t =>
    match s.entryGet p t.ent t.ent.at_ with
    | (_, .starve) => none
    | (s, .bad) => some (s.plyTailEnd p stFaulted, x)
    | (s, .sample y) =>
      let w := rcos (t.done + 1) (t.len + 1)
      let z := mixOf (sampleVal x * w + sampleVal (entryGain t.ent y) * (1 - w))
      let t := { t with done := t.done + 1, ent := { t.ent with at_ := t.ent.at_ + 1, played := t.ent.played + 1 } }
      let s := (s.setPlayer p { s.playerAt p with tail := some t }).clipPlayed t.ent
      some (if t.len ≤ t.done then s.plyTailEnd p stOk else s, z)

/-- The head entry goes on by the sample `x`; at its end, or where the next one's crossfade begins, the next comes to the head. -/
def State.plyTook (s : State) (p : Nat) (x : Word) : State × Word :=
  let h := s.playerAt p
  match h.queue with
  | [] => (s, x)
  | e :: es =>
    let (x, fin) := match h.fadeIn with
      | some k => (mixOf (sampleVal x * rcos (k + 1) 65), if 64 ≤ k + 1 then none else some (k + 1))
      | none => (x, none)
    let e := { e with at_ := e.at_ + 1, played := e.played + 1 }
    let s := (s.setPlayer p { h with queue := e :: es, last := x, fadeIn := fin }).clipPlayed e
    let left := s.entryPlay e - e.at_
    let k := if h.tail.isSome then 0 else ((s.following p).map fun nx => s.overlap e nx).getD 0
    if k ≠ 0 ∧ left = k then
      let s := s.entryOver p true
      (s.setPlayer p { s.playerAt p with tail := some { ent := e, len := k } }, x)
    else (if left = 0 then s.entryOver p false else s, x)

/-- The next sample of a playing player: the head entry's, mixed with the end of the entry before it under a crossfade. Of a lost host's clip
what has been fetched plays, and then the next entry (R216). -/
def State.plyNext : Nat → Nat → State → State × Word
  | 0, _, s => (s, 0#32)
  | n + 1, p, s =>
    let s := (State.plyHead 16 p s).plyFallback p
    if s.plySt p ≠ plyPlaying then (s, 0#32)
    else if (s.playerAt p).hold then s.plyFade p
    else
      match (s.playerAt p).queue with
      | [] => if (s.playerAt p).ended then (s, 0#32) else s.plyDry p
      | e :: _ =>
        match s.entryGet p e e.at_ with
        | (_, .starve) =>
          if s.plyLost p then State.plyNext n p ((s.plyTailEnd p stOk).plyFinish p e stOk) else s.plyDry p
        | (s, .bad) => (s.plyCut p).plyFade p
        | (t, .sample x) =>
          match t.plyMix p (entryGain e x) with
          | none => s.plyDry p
          | some (t, x) => t.plyTook p x

/-- One sample of player `p` for the layer that plays it. -/
def State.playerSample (s : State) (p : Nat) : State × Word :=
  if s.plySt p = plyPlaying then
    if (s.playerAt p).hold then s.plyFade p else State.plyNext 16 p s
  else if s.plySt p = plyStarved then
    let h := s.playerAt p
    (s.setPlayer p { h with gap := h.gap + 1 }).plyFade p
  else (s, 0#32)

/-! ### Walking on (R211, R214) -/

/-- The entry under a crossfade goes on by `n` samples, which count as played when `count`. -/
def State.walkTail (s : State) (p n : Nat) (count : Bool) : State :=
  match (s.playerAt p).tail with
  | none => s
  | some t =>
    let k := min n (t.len - t.done)
    let t := { t with done := t.done + k, ent := { t.ent with at_ := t.ent.at_ + k, played := t.ent.played + if count then k else 0 } }
    let s := s.setPlayer p { s.playerAt p with tail := some t }
    if t.len ≤ t.done then s.plyTailEnd p stOk else s

/-- The timeline goes on by `n` samples without being played: entries passed over complete OK with the samples they would have played
when `count` (R211), else with those they played (R214); the player then stands at the position reached, within a crossfade too. -/
def State.plyWalk : Nat → Bool → Nat → Nat → State → State
  | 0, _, _, _, s => s
  | f + 1, count, p, n, s =>
    let s := (State.plyHead 16 p s).plyFallback p
    let h := s.playerAt p
    if !s.plyBusy p then s
    else if h.hold then State.plyWalk f count p n (s.setPlayer p { h with hold := false })
    else
      match h.queue with
      | [] => s
      | e :: es =>
        let len := s.entryPlay e
        let self := s.overlap e e
        let step := max 1 (len - self)
        let ends : Bool := if e.own then !s.plyLost p else e.repeats != 255
        let more := if e.own then 0 else e.repeats - e.rep
        let j := if ends then min more ((e.at_ + n) / step) else (e.at_ + n) / step
        let pos := e.at_ + n - j * step
        let lastOne := ends && j == more
        let k := if !lastOne || (e.end_ && e.release) then 0 else ((s.joiner es).map fun nx => s.overlap e nx).getD 0
        let add (m : Nat) : Nat := if count then m else 0
        if !lastOne || pos + k < len then
          let s := s.walkTail p n count
          let t : Option PTail := if 1 ≤ j ∧ pos < self then
              some { ent := { e with at_ := pos + step, rep := e.rep + j - 1, played := e.played + add n }, done := pos, len := self }
            else if 1 ≤ j then none else (s.playerAt p).tail
          s.setPlayer p { s.playerAt p with queue := { e with at_ := pos, rep := e.rep + j, played := e.played + add n } :: es, tail := t }
        else
          let used := more * step + len - e.at_ - k
          let s := (s.walkTail p used count).plyTailEnd p stOk
          let e := { e with at_ := len - k, rep := e.rep + more, played := e.played + add used }
          let s := s.setPlayer p { s.playerAt p with queue := e :: es }
          let s := if k = 0 then s.plyFinish p e stOk
            else s.setPlayer p { s.playerAt p with queue := es, ended := e.end_, tail := some { ent := e, len := k } }
          State.plyWalk f count p (n - used) s

/-- A starved player for which data has arrived resumes at a heat boundary, where it stopped or where the timeline stands, with a
fade-in; a player whose clip was cut joins its next entry (R214, R215). -/
def State.plyResume (s : State) (p : Nat) : State :=
  let h := s.playerAt p
  if s.plySt p = plyStarved then
    let late := s.bit (Reg.plyPState p) 4
    let s := if late then State.plyWalk 32 true p 0 s else (State.plyHead 16 p s).plyFallback p
    let s := if late then State.plyWalk 32 false p h.gap s else s
    if s.plySt p ≠ plyStarved then s
    else
      let s := s.setPlayer p { s.playerAt p with gap := if late then 0 else h.gap }
      let go (s : State) : State := (s.setPlayer p { s.playerAt p with fadeIn := some 0, fadeOut := 0, gap := 0 }).setPlySt p plyPlaying
      match (s.playerAt p).queue with
      | [] => if (s.playerAt p).ended then go s else s
      | e :: _ =>
        match s.entryGet p e e.at_ with
        | (_, .sample _) => go s
        | (s, .bad) => s.plyCut p
        | (_, .starve) => if s.plyLost p then go s else s
  else if s.plySt p = plyPlaying ∧ h.hold then
    (State.plyHead 16 p (s.setPlayer p { h with hold := false })).plyFallback p
  else s

/-! ### PLAYER_SET and PLAYER_FLUSH (R222) -/

/-- Every queued entry not playing completes NOT_READY_ABANDONED. -/
def State.plyFlush (s : State) (p : Nat) : State :=
  let h := s.playerAt p
  let keep := if s.plyBusy p then h.queue.take 1 else []
  let drop := if s.plyBusy p then h.queue.drop 1 else h.queue
  (drop.foldl (fun s e => s.plyComplete p e stNotReady) s).setPlayer p { h with queue := keep }

def playerSetRow : Row where
  blk := .other
  check := fun _ d =>
    firstBad [(d.byte 0 < 64, 0), (d.byte 1 < 4, 1), (d.pl 2 2 < 32768, 2), (d.pl 4 2 < 32768, 4),
      (d.pl 6 2 == 0xFFFF || d.pl 6 2 < 1024, 6), (restZero d 8, 8)]
  commit := fun e s =>
    let d := e.desc.body
    let p := d.byte 0
    let h := s.playerAt p
    let was := s.plySt p != plyDisabled
    let en := d.byte 1 % 2 == 1
    let moved := h.ring != d.pl 2 2 || h.cpl != d.pl 4 2
    let s := if was && (moved || !en) then (s.plyStop p).plyFlush p else s
    let s := s.setPlayer p { s.playerAt p with ring := d.pl 2 2, cpl := d.pl 4 2,
                                               fallback := if d.pl 6 2 = 0xFFFF then none else some (d.pl 6 2) }
    let s := s.setBit (Reg.plyPState p) 4 (d.byte 1 / 2 % 2 == 1)
    let s := if !en then (s.setPlySt p plyDisabled).setBit (Reg.plyPState p) 5 false
      else if was && !moved then s else (s.setPlySt p plyIdle).setBit (Reg.plyPState p) 5 false
    (s.showPlayer p, resOk)

def execPlayerSet (ph : Phase) (o : Origin) (d : Body) (s : State) : Host.Outcome State Fault Refusal :=
  descCmd playerSetRow 0x0300 ph o d s

def playerFlushRow : Row where
  blk := .now
  group := false
  check := fun _ d => firstBad [(d.byte 0 < 64, 0), (restZero d 1, 1)]
  commit := fun e s => (((s.plyFlush (e.desc.body.byte 0))).showPlayer (e.desc.body.byte 0), resOk)

def execPlayerFlush (o : Origin) (d : Body) (s : State) : Host.Outcome State Fault Refusal := nowCmd playerFlushRow 0x0301 o d s

/-! ### The cache (R218 to R222) -/

/-- The entries of a player: the one that ends under a crossfade, and the queue. -/
def PlayerH.entries (h : PlayerH) : List PEntry := (h.tail.map (·.ent)).toList ++ h.queue

/-- Pages in use, by clips, by the contents players still play, and by loads under way. -/
def State.usedPages (s : State) : List Nat :=
  (s.clips.flatMap fun x => x.2.pages ++ x.2.pages2) ++ (s.clipLoads.flatMap fun x => x.pages ++ x.pages2) ++
    (s.players.flatMap fun x => x.2.entries.filterMap (·.held)).eraseDups.flatMap fun o => o.pages ++ o.pages2

def State.cachePages (s : State) : Nat := s.getF Reg.plyCachePages 14 0

/-- The vat bank of a page. -/
def State.pageBank (s : State) (k : Nat) : Nat := ((s.reg Reg.plyCacheBase).toNat + k * 4096) / 0x800000

/-- A clip is playing, or named in an entry queued (R220). -/
def State.clipBusy (s : State) (c : Nat) : Bool :=
  s.players.any fun x => x.2.entries.any fun e => e.kind == 1 && e.clip == c

def State.showCache (s : State) : State :=
  let pinned := ((s.clips.filter fun x => s.bit (Reg.plyClipInfo x.1) 30).map fun x => x.2.pages.length + x.2.pages2.length).sum
  s.setReg Reg.plyCacheUsed (BitVec.ofNat 32 (pinned % 2 ^ 15 * 2 ^ 16 + s.usedPages.length % 2 ^ 15))

/-- A clip leaves the cache. -/
def State.dropClip (s : State) (c : Nat) : State :=
  (((s.setClip c {}).setReg (Reg.plyClipInfo c) 0).setReg (Reg.plyClipLen c) 0).showCache

/-- The clips that may be evicted, least recently played first. -/
def State.evictable (s : State) (c : Nat) : List Nat :=
  let ok := s.clips.filter fun x => x.1 != c && s.bit (Reg.plyClipInfo x.1) 31 && !s.bit (Reg.plyClipInfo x.1) 30 && !s.clipBusy x.1
  let rec ins (x : Nat × ClipH) : List (Nat × ClipH) → List (Nat × ClipH)
    | [] => [x]
    | y :: ys => if x.2.used < y.2.used then x :: y :: ys else y :: ins x ys
  (ok.foldl (fun a x => ins x a) []).map (·.1)

/-- Free pages for a clip: the lowest, the second copy's in other banks than the first's. Where the lowest leave none for it, the banks are
divided between the copies otherwise, if there is a way; none while there are too few. -/
def State.findPages (s : State) (n : Nat) (copy2 : Bool) : Option (List Nat × List Nat) :=
  let used := s.usedPages
  let free := (List.range s.cachePages).filter fun k => !used.contains k
  if free.length < n then none
  else if !copy2 then some (free.take n, [])
  else
    let b0 := s.pageBank 0
    let banks := (free.map s.pageBank).eraseDups
    let split (in1 : Nat → Bool) : Option (List Nat × List Nat) :=
      let a := (free.filter fun k => in1 (s.pageBank k)).take n
      let b := (free.filter fun k => !in1 (s.pageBank k)).take n
      if a.length < n || b.length < n then none else some (a, b)
    let first := (free.take n).map s.pageBank
    (split first.contains).orElse fun _ =>
      (List.range (2 ^ banks.length)).findSome? fun m => split fun b => m / 2 ^ (b - b0) % 2 == 1

/-- Evict clips until the pages are there. -/
def State.makeRoom (n : Nat) (copy2 : Bool) : List Nat → State → Option (State × List Nat × List Nat)
  | [], s => (s.findPages n copy2).map fun p => (s, p)
  | c :: cs, s =>
    match s.findPages n copy2 with
    | some p => some (s, p)
    | none => State.makeRoom n copy2 cs ((s.dropClip c).bump Reg.plyEvictCnt 32)

def loadBytes (d : Body) : Nat := d.pl 4 4 * clipWordBytes (d.byte 3)
def loadCopy2 (d : Body) : Bool := d.byte 2 / 2 % 2 == 1

def clipLoadRow : Row where
  blk := .now
  group := false
  check := fun s d =>
    (firstBad [(d.pl 0 2 < 1024, 0), (d.byte 2 < 8, 2), (d.byte 3 < 16 && d.byte 3 % 4 ≤ 1, 3),
      (1 ≤ d.pl 4 4 && d.pl 4 4 ≤ 268435455, 4), (restZero d 20, 20)]).andThen
      (if (State.makeRoom (ceilDiv (loadBytes d) 4096) (loadCopy2 d) (s.evictable (d.pl 0 2)) s).isSome then .ok else .short)
  commit := fun e s =>
    let d := e.desc.body
    match State.makeRoom (ceilDiv (loadBytes d) 4096) (loadCopy2 d) (s.evictable (d.pl 0 2)) s with
    | none => (s, .done stShort 0)
    | some (s, a, b) => (State.showCache { s with clipLoads := s.clipLoads ++ [{ upd := e, pages := a, pages2 := b }] }, .wait)

def execClipLoad (o : Origin) (d : Body) (s : State) : Host.Outcome State Fault Refusal := nowCmd clipLoadRow 0x0302 o d s

/-- The contents of a clip are written into its pages. -/
def State.fillPages (s : State) (pages : List Nat) (bs : List Byte) : State :=
  (pages.zipIdx).foldl (fun s k => s.vatWrite .player (s.clipByte pages (k.2 * 4096)) ((bs.drop (k.2 * 4096)).take 4096)) s

/-- CLIP_LOAD_DONE (R219): the read for the CLIP_LOAD at `o` ends. -/
def execClipLoadDone (o : Origin) (rd : ReadResult) (s : State) : Host.Outcome State Fault Refusal :=
  act s fun s =>
    match s.clipLoads.find? fun x => decide (x.upd.org = o) with
    | none => s
    | some x =>
      let d := x.upd.desc.body
      let c := d.pl 0 2
      let s := { s with clipLoads := s.clipLoads.filter fun y => y.upd.id != x.upd.id }
      let good := match rd with
        | .data bs => decide (bs.length = loadBytes d) && crc32 bs == BitVec.ofNat 32 (d.pl 16 4)
        | .error => false
      if !good then ((s.bump Reg.plyCrcErrCnt 32).showCache).complete x.upd stFaulted
      else
        let bs := match rd with
          | .data bs => bs
          | .error => []
        let h := s.clipAt c
        let old : ClipOld := { pages := h.pages, pages2 := h.pages2, len := (s.reg (Reg.plyClipLen c)).toNat, fmt := s.getF (Reg.plyClipInfo c) 19 16 }
        let keep (e : PEntry) : PEntry := if e.kind = 1 ∧ e.clip = c ∧ e.held.isNone then { e with held := some old } else e
        let s := if !s.clipBusy c then s else
          s.players.foldl (fun s y => s.setPlayer y.1 { y.2 with
            queue := if s.plyBusy y.1 then (y.2.queue.take 1).map keep ++ y.2.queue.drop 1 else y.2.queue,
            tail := y.2.tail.map fun t => { t with ent := keep t.ent } }) s
        let s := s.setClip c { pages := x.pages, pages2 := x.pages2, used := h.used }
        let fl := d.byte 2
        let info := 2 ^ 31 + fl % 2 * 2 ^ 30 + fl / 2 % 2 * 2 ^ 29 + fl / 4 % 2 * 2 ^ 27 + d.byte 3 % 16 * 2 ^ 16 + x.pages.length
        let s := (s.setReg (Reg.plyClipInfo c) (BitVec.ofNat 32 info)).setReg (Reg.plyClipLen c) (BitVec.ofNat 32 (d.pl 4 4))
        (((s.fillPages x.pages bs).fillPages x.pages2 bs).showCache).complete x.upd stOk

def clipPinRow : Row where
  blk := .now
  group := false
  check := fun s d => firstBad [(d.pl 0 2 < 1024 && s.bit (Reg.plyClipInfo (d.pl 0 2)) 31, 0), (d.byte 2 < 2, 2), (restZero d 3, 3)]
  commit := fun e s => ((s.setBit (Reg.plyClipInfo (e.desc.body.pl 0 2)) 30 (e.desc.body.byte 2 == 1)).showCache, resOk)

def execClipPin (o : Origin) (d : Body) (s : State) : Host.Outcome State Fault Refusal := nowCmd clipPinRow 0x0303 o d s

def clipDropRow : Row where
  blk := .now
  group := false
  check := fun s d =>
    (firstBad [(d.pl 0 2 < 1024 && s.bit (Reg.plyClipInfo (d.pl 0 2)) 31, 0), (restZero d 2, 2)]).andThen
      (if s.clipBusy (d.pl 0 2) then .short else .ok)
  commit := fun e s =>
    let c := e.desc.body.pl 0 2
    if s.clipBusy c then (s, .done stShort 0) else (s.dropClip c, resOk)

def execClipDrop (o : Origin) (d : Body) (s : State) : Host.Outcome State Fault Refusal := nowCmd clipDropRow 0x0304 o d s

/-! ### The events of a player -/

/-- PLAYLIST_FETCH_DONE (R203, R445): the read of the next entry of player `p`'s playlist ring ends. At most eight entries ahead of the
one playing are read, each with a completion slot reserved. What is left of a message cut off completes at once (R213). -/
def execPlaylistFetchDone (p : Fin 64) (rd : ReadResult) (s : State) : Host.Outcome State Fault Refusal :=
  act s fun s =>
    let p := p.val
    let h := s.playerAt p
    let r := h.ring
    let limit := if s.plyBusy p then 9 else 8
    if !s.bit Reg.plyCtrl 0 || s.plySt p == plyDisabled || !s.ringEn r || s.ringType r != 3 || s.ringOcc r == 0 ||
        limit ≤ h.queue.length || !s.usable (s.ringPort r) || s.ringSize h.cpl ≤ s.ringOcc h.cpl + (s.ringAt h.cpl).resv then s
    else
      match rd with
      | .error => (s.setPlayer p { h with failedReads := h.failedReads + 1 }).showPlayer p
      | .data bs =>
        let i := s.reg (Reg.ringCons r)
        let s := (s.setReg (Reg.ringCons r) (i + 1)).bump (Reg.ringDoneCnt r) 32
        let s := s.setRing h.cpl { s.ringAt h.cpl with resv := (s.ringAt h.cpl).resv + 1 }
        let e : PEntry := { bytes := bs, index := i.toNat }
        if h.dropping then
          ((s.setPlayer p { h with failedReads := 0, dropping := !e.end_ }).plyComplete p e stOk).showPlayer p
        else
          (State.plyHead 16 p (s.setPlayer p { h with queue := h.queue ++ [e], failedReads := 0 })).showPlayer p

/-- Bytes of a clip arrive in the player's fetch buffer, which holds the newest 64 KiB (R224); the entry knows where they stand. -/
def State.plyFeed (s : State) (p : Nat) (e : PEntry) (bs : List Byte) : State × PEntry :=
  let h := s.playerAt p
  let a := h.fed % 65536
  let bs' := bs.drop (bs.length - 65536)
  let a' := (a + (bs.length - bs'.length)) % 65536
  let head := bs'.take (65536 - a')
  let s := (s.vatWrite .player (s.plyBuf p + a') head).vatWrite .player (s.plyBuf p) (bs'.drop head.length)
  (s.setPlayer p { s.playerAt p with fed := h.fed + bs.length },
    { e with data := e.data ++ bs, reads := e.reads ++ [(e.data.length, h.fed)] })

/-- The entry `i` of a player, the one that ends under a crossfade first. -/
def State.setEntry (s : State) (p i : Nat) (e : PEntry) : State :=
  let h := s.playerAt p
  match h.tail with
  | none => s.setPlayer p { h with queue := h.queue.set i e }
  | some t => s.setPlayer p (if i = 0 then { h with tail := some { t with ent := e } } else { h with queue := h.queue.set (i - 1) e })

/-- CLIP_FETCH_DONE (R215): more of the clip of entry `i` of player `p` has been read; with the last of it the CRC is checked. A bad clip is
cut if it plays, else skipped when it comes to the head. -/
def execClipFetchDone (p : Fin 64) (i : Fin 10) (rd : ReadResult) (s : State) : Host.Outcome State Fault Refusal :=
  act s fun s =>
    let p := p.val
    let h := s.playerAt p
    match h.entries[i.val]? with
    | none => s
    | some e =>
      if e.kind ≠ 0 ∨ e.fetched ∨ e.bad then s
      else
        let total := e.len * clipWordBytes e.fmt
        let new := match rd with
          | .data bs => bs.take (total - e.data.length)
          | .error => []
        let (s, e) := s.plyFeed p e new
        let whole := decide (e.data.length = total)
        let bad := match rd with
          | .error => true
          | .data _ => whole && crc32 e.data != BitVec.ofNat 32 (leAt e.bytes 24 4)
        let reads := match rd with
          | .error => h.failedReads + 1
          | .data _ => 0
        let s := s.setEntry p i.val { e with fetched := whole, bad := bad }
        let s := s.setPlayer p { s.playerAt p with failedReads := reads }
        if !bad then s.showPlayer p
        else
          let s := (s.bump Reg.plyCrcErrCnt 32).plyEvent p 0x62 0x63 0xFFFF
          let ending := i.val == 0 && h.tail.isSome
          let playing := s.plyBusy p && e.started && (match h.tail with
            | none => i.val == 0
            | some _ => i.val == 1)
          let s := if ending then s.plyTailEnd p stFaulted else if playing then s.plyCut p else s
          (State.plyHead 16 p s).showPlayer p

/-- ENTRY_END (R210, R212): the head entry has no samples left. -/
def execEntryEnd (p : Fin 64) (s : State) : Host.Outcome State Fault Refusal :=
  act s fun s =>
    let p := p.val
    match (s.playerAt p).queue with
    | e :: _ => if s.plySt p = plyPlaying ∧ s.entryPlay e ≤ e.at_ then (s.entryOver p false).showPlayer p else s
    | [] => s

/-- The player needs a sample it does not hold (R214). -/
def State.plyNeeds (s : State) (p : Nat) : Bool :=
  match (s.playerAt p).queue with
  | [] => !(s.playerAt p).ended
  | e :: _ => !s.plyLost p && (match (s.entryGet p e e.at_).2 with
    | .starve => true
    | _ => false)

/-- PLAYER_STARVED (R214): the player needs a sample it does not hold. -/
def execPlayerStarved (p : Fin 64) (s : State) : Host.Outcome State Fault Refusal :=
  act s fun s => if s.plyNeeds p.val then (s.plyStarve p.val).showPlayer p.val else s

/-- PLAYER_RESUME (R214): data has arrived for a starved player. -/
def execPlayerResume (p : Fin 64) (s : State) : Host.Outcome State Fault Refusal :=
  act s fun s => (s.plyResume p.val).showPlayer p.val

/-- The host of a player's playlist ring is lost: its port's link is down or has had a function-level reset, or three reads in a row have
failed (R216). -/
def State.hostLost (s : State) (p : Nat) : Bool :=
  let h := s.playerAt p
  s.getF (Reg.hpStatus (s.ringPort h.ring)) 1 0 == 0 || (s.hpAt (s.ringPort h.ring)).flr || h.flr || 3 ≤ h.failedReads

/-- PLAYLIST_HOST_LOST (R216): the player goes on with what it holds, and then with its fallback clip. -/
def execPlaylistHostLost (p : Fin 64) (s : State) : Host.Outcome State Fault Refusal :=
  act s fun s =>
    let p := p.val
    if s.plySt p = plyDisabled || s.plyLost p || !s.hostLost p then s
    else
      let s := (s.setBit (Reg.plyPState p) 5 true).emit 220 0x64 (syn16 0x64 p 0xFFFF)
      let s := if s.plyBusy p then s.plyFallback p else s
      s.showPlayer p

end Sys2Proof.Machine
end

