-- ==== Sys2Proof/Machine/Ports.lean ====
section
/-! DEFINITION. The serial ports (03_serial_ports.md): receive blocks, TDM frames and masks, AES3 receivers and their channel status,
PDM microphones, and the enables of all of them. -/

namespace Sys2Proof.Machine

/-! ### Receive blocks (R90 to R95) -/

/-- A receive ring: its base, slots and write index registers, and the size of a slot. -/
structure RxRing where
  base : Nat
  cfg : Nat
  wr : Nat
  size : Nat

/-- 64 + FRAMES_MAX × CH_MAX × 4, rounded up to a multiple of 64 (R92). -/
def slotSize (fmax chmax : Nat) : Nat := ceilDiv (64 + fmax * chmax * 4) 64 * 64

/-- Bits of FLAGS (R95). -/
abbrev bfShort : Nat := 0x001
abbrev bfMask : Nat := 0x002
abbrev bfDisc : Nat := 0x004
abbrev bfRelock : Nat := 0x008
abbrev bfLost : Nat := 0x010
abbrev bfWarm : Nat := 0x100
abbrev bfSlip : Nat := 0x200
abbrev bfStep : Nat := 0x400

/-- The number of bits set in a mask. -/
def popCount (w : Word) : Nat := ((List.range 32).filter fun i => bitAt w i).length

/-- The header of a block (R95). -/
def blkHeader (b : OpenBlk) (port under seq : Nat) (ratio : Word) (stuck : Nat) : List Byte :=
  let ch := popCount b.mask
  leBytes 8 b.time.toNat ++ leBytes 8 b.heat ++ leBytes 4 b.mask.toNat ++ leBytes 2 b.frames.length ++ leBytes 1 ch ++
    leBytes 1 port ++ leBytes 2 b.overrun ++ leBytes 2 under ++ leBytes 2 b.glitch ++ leBytes 2 b.flags ++ leBytes 4 seq ++
    leBytes 4 ratio.toNat ++ leBytes 2 b.parity ++ leBytes 2 b.invalid ++ leBytes 4 (b.frames.length * ch * 4) ++
    leBytes 2 b.first ++ leBytes 1 b.inHeat ++ leBytes 1 stuck ++ leBytes 12 0

/-- A block is written into the next slot of its ring, and the write index advances (R92). A slot count outside 8 to 64 is used as written, 0 as
1: the spec gives the range and no effect of another value (log entry 129). -/
def State.writeBlk (s : State) (r : RxRing) (bytes : List Byte) : State :=
  let slots := max 1 (s.getF r.cfg 6 0)
  let i := s.getF r.wr 5 0
  (s.vatWrite .ingress ((s.reg r.base).toNat + i * r.size) bytes).putF r.wr 5 0 ((i + 1) % slots)

/-! ### Converters (R32, R73 to R75, R94) -/

/-- What a ratio of input frames over 48 kHz samples comes to: `n` frames from `t0` to `t1` ns, unsigned 8.24. -/
def ratioOf (n t0 t1 : Nat) : Nat := n * 1000000 * 2 ^ 24 / (48 * (t1 - t0))

/-- An input block of a stream closes with its TIME and frames: the ratio is measured from the TIME of the block before it, unless a frame
is missing in between. -/
def State.convMeasure (s : State) (code : Nat) (b : OpenBlk) : State :=
  if (s.asrcOf code).isNone then s
  else
    let h := s.convAt code
    let t := b.time.toNat
    let ok := b.flags &&& bfDisc == 0 && !b.frames.isEmpty
    let s := match h.last with
      | some (t0, n) => if ok && t0 < t then s.measured code (ratioOf n t0 t) else s
      | none => s
    s.setConv code { s.convAt code with last := if ok then some (t, b.frames.length) else none }

/-- A sample period of a rate code in ns. -/
def periodNs (code : Nat) : Rat := (10000000 : Rat) / (rate10 code : Rat)

/-- The group delay of a converter, L / 2 input sample periods, in ns (R74). -/
def groupDelay (filter rate : Nat) : Rat := (filterTaps filter : Rat) / 2 * periodNs rate

/-- The first converted sample of heat `c`: stamped with an input time stamp plus the group delay, and a whole number of 48 kHz sample
periods from there into the heat (R32). -/
def convFirst (t delay : Rat) (c : Nat) : Rat :=
  let t0 := t + delay
  let j : Int := (((c * 1000000 : Nat) : Rat) - t0) * 48 / 1000000 |>.ceil
  t0 + (j : Rat) * 1000000 / 48

/-- The converted sample of channel `k` stamped `t`: the filter's output over the newest L input frames at or before it, zero over zeros; none
while the channel is not received. -/
def ConvH.sampleAt (h : ConvH) (taps : Nat) (period : Rat) (k : Nat) (t : Rat) : Option Word :=
  let past := h.hist.dropWhile fun f => decide (t < f.1)
  match past.head? with
  | none => none
  | some f =>
    if (f.2.getD k none).isNone then none
    else
      let w := (past.take taps).map fun g => (g.2.getD k none).getD 0#32
      if w.all f32IsZero then some 0#32 else some (Config.filterOut taps ((t - f.1) / period) w)

/-- The filter code of a stream's converter. -/
def State.convFilter (s : State) (code : Nat) : Nat :=
  match s.asrcOf code with
  | some i => s.getF (Reg.pcrAsrcStatus i) 7 6
  | none => 0

/-- A stream's converter takes the input frames of heat `c`, the first of them stamped `t` (R94): the 48 samples of each of `n` channels
stamped within the heat, and the stamp of the first. It is locked once it has measured its ratio. -/
def State.convHeat (s : State) (code c n : Nat) (t : Option Rat) (frames : List (Rat × List (Option Word))) :
    State × Rat × List (List (Option Word)) :=
  let rate := s.convRate code
  let flt := s.convFilter code
  let h := s.convAt code
  let h := { h with hist := (frames.reverse ++ h.hist).take (historyNeed flt rate) }
  let d := groupDelay flt rate
  let t0 := convFirst (t.getD (((c * 1000000 : Nat) : Rat) - d)) d c
  let s := s.setConv code h
  let s := if h.ratio = 0 then s else s.asrcBit code 0 true
  (s, t0, (List.range n).map fun k => (List.range 48).map fun (j : Nat) =>
    h.sampleAt (filterTaps flt) (periodNs rate) k (t0 + (j : Rat) * 1000000 / 48))

/-- A converted block joins those of the stream's allocation, with the header layout of its input blocks. -/
def State.convFile (s : State) (code slots : Nat) (mk : Nat → Word → List Byte) : State :=
  let h := s.convAt code
  s.setConv code { h with seq := (h.seq + 1) % 2 ^ 32, ring := (mk h.seq h.ratio :: h.ring).take slots }

/-- Samples of `n` channels as the body of a block, frame by frame (R93). -/
def interleave (cols : List (List (Option Word))) : List Word :=
  (List.range 48).flatMap fun j => cols.map fun c => (c.getD j none).getD 0#32

/-! ### Feeding the source entries (R78, R98, R100, R156, R165) -/

/-- Nothing in the block keeps a voter from comparing it (R156). -/
def blkClean (b : OpenBlk) : Bool := b.flags &&& (bfDisc ||| bfRelock ||| bfLost ||| bfWarm) == 0

/-- The samples a slot received over the blocks of a heat, none where it stood outside the mask. -/
def slotSamples (pick : OpenBlk → List (List Word)) (parts : List OpenBlk) (k : Nat) : List (Option Word) :=
  parts.flatMap fun b =>
    if bitAt b.mask k then
      let pos := popCount (b.mask &&& BitVec.ofNat 32 (2 ^ k - 1))
      (pick b).map fun f => some (f.getD pos 0)
    else (pick b).map fun _ => none

/-- What a voter compares of a slot in a heat of a synchronous port: the samples received in clean blocks. -/
def slotRaw (parts : List OpenBlk) (k : Nat) : List (Option Word) :=
  parts.flatMap fun b => if blkClean b then slotSamples (·.raws) [b] k else b.raws.map fun _ => none

/-- The frames of the blocks of a heat as a converter takes them: each with its time and a sample of each of `n` channels. -/
def convFrames (period : Rat) (n : Nat) (parts : List OpenBlk) : List (Rat × List (Option Word)) :=
  parts.flatMap fun b => b.frames.zipIdx.map fun p =>
    (((b.time.toNat : Nat) : Rat) + (p.2 : Rat) * period, (List.range n).map fun k =>
      if bitAt b.mask k then some (p.1.getD (popCount (b.mask &&& BitVec.ofNat 32 (2 ^ k - 1))) 0#32) else none)

/-- Every entry whose binding `slotOf` accepts is fed what `f` gives for its slot. -/
def State.feedEntries (s : State) (slotOf : Bind → Option Nat) (f : SrcH → Nat → SrcH) : State :=
  (s.srcs.filter fun x => (slotOf x.2.bind).isSome).foldl (fun s x =>
    let h := s.srcAt x.1
    s.setSrc x.1 (f h ((slotOf h.bind).getD 0))) s

/-- The time of the first frame of a heat's blocks, none where they hold no frame. -/
def firstTime (parts : List OpenBlk) : Option Nat := (parts.find? fun b => !b.frames.isEmpty).map (·.time.toNat)

/-- The entries of a synchronous port are fed its own samples. -/
def State.feedSync (s : State) (heat : Nat) (parts : List OpenBlk) (slotOf : Bind → Option Nat) : State :=
  let base : Int := ((firstTime parts).map fun t => ((gridAt t : Nat) : Int)).getD ((heat * 48 : Nat) : Int)
  s.feedEntries slotOf fun h k =>
    if h.lost then h.feedNone heat else h.feed heat base (to48 (some 0#32) (slotSamples (·.frames) parts k)) (slotRaw parts k)

/-- The entries of a stream with a converter of its own are fed its converted block, silence while it has none, is lost or re-locks. -/
def State.feedConv (s : State) (code heat n slots port : Nat) (parts : List OpenBlk) (slotOf : Bind → Option Nat) : State :=
  if (s.asrcOf code).isNone then s.feedEntries slotOf fun h _ => h.feedNone heat
  else
    let (s, t0, cols) := s.convHeat code heat n ((firstTime parts).map fun t => (t : Rat))
      (if s.relocking code then [] else convFrames (periodNs (s.convRate code)) n parts)
    let b := parts.getLastD {}
    let ks := (List.range n).filter fun k => bitAt b.mask k
    let hb : OpenBlk := { b with time := BitVec.ofNat 64 t0.floor.toNat, heat := heat, frames := List.replicate 48 [], first := 0, inHeat := 0,
                                 flags := parts.foldl (fun a p => a ||| p.flags) 0, overrun := (parts.map (·.overrun)).sum,
                                 glitch := (parts.map (·.glitch)).sum, parity := (parts.map (·.parity)).sum,
                                 invalid := (parts.map (·.invalid)).sum }
    let s := s.convFile code slots fun seq ratio =>
      blkHeader hb port 0 seq ratio 0 ++ bytesOfWords (interleave (ks.map fun k => cols.getD k []))
    let quiet := s.relocking code
    s.feedEntries slotOf fun h k =>
      if h.lost || quiet then h.feedNone heat else h.feed heat (gridAt t0.floor.toNat : Nat) (cols.getD k []) []

/-! ### TDM (R83 to R105) -/

def tdmSync (c : Word) : Bool := bitAt c 3 || bitAt c 7
def tdmWordBits (f : Word) : Nat := [16, 20, 24, 32].getD (fld f 1 0) 32

/-- A WORD-bit two's complement word as a sample (R85). -/
def pcmSample (bits v : Nat) : Word := f32OfRat ((signed bits (v % 2 ^ bits) : Rat) / ((2 ^ (bits - 1) : Nat) : Rat))

def State.tdmRing (s : State) (n : Nat) : RxRing :=
  { base := Reg.tdmRxRingBase n, cfg := Reg.tdmRxRingCfg n, wr := Reg.tdmRxWrIdx n,
    size := slotSize (frames112 (s.getF (Reg.tdmCtrl n) 11 8)) (s.getF (Reg.tdmChMax n) 5 0) }

/-- Flags a new block of a stream begins with. -/
def State.openFlags (s : State) (st : Stream) (h : RxH) : Nat :=
  h.nextFlags ||| (if s.streamLost st then bfLost else 0) ||| (if s.relocking (streamCode st) then bfRelock else 0)

def State.tdmOpen (s : State) (n : Nat) (changed : Bool) : State :=
  let h := s.tdmRxAt n
  let b : OpenBlk := { time := s.pacer.ns, heat := s.heat, mask := s.reg (Reg.tdmRxMask n), first := h.frameIdx,
                       inHeat := h.parts.length,
                       flags := s.openFlags (.tdm (Fin.ofNat 16 n)) h ||| (if changed then bfMask else 0) }
  s.setTdmRx n { h with blk := some b, nextFlags := 0 }

/-- A block with no frames carries the heat boundary as its time stamp (R91). -/
def OpenBlk.stamped (b : OpenBlk) : OpenBlk :=
  if b.frames.isEmpty then { b with time := BitVec.ofNat 64 (b.heat * 1000000) } else b

/-- The open block is written; at the end of a heat the port's entries are fed. A port with no block open writes one with no frames
(R90, R91). FIRST_FRAME counts the frames kept, and SEQ starts from 0 at an enable (log entry 131). -/
def State.tdmClose (s : State) (n heat : Nat) (short : Bool) : State :=
  let h := s.tdmRxAt n
  let c := s.reg (Reg.tdmCtrl n)
  let b := h.blk.getD { time := BitVec.ofNat 64 (heat * 1000000), heat := heat, mask := s.reg (Reg.tdmRxMask n),
                        first := h.frameIdx, inHeat := h.parts.length,
                        flags := s.openFlags (.tdm (Fin.ofNat 16 n)) h }
  let total := b.first + b.frames.length
  let slip := !short && bitAt c 7 && total != 48
  let fl := b.flags ||| (if short then bfShort else 0) ||| (if slip then bfSlip else 0)
  let b := { b with flags := fl }.stamped
  let under := if slip then 48 - total else 0
  let s := s.convMeasure n b
  let s := s.writeBlk (s.tdmRing n) (blkHeader b n under h.seq (if tdmSync c then 0 else (s.convAt n).ratio) 0 ++ bytesOfWords b.frames.flatten)
  let s := if slip then (s.bump (Reg.tdmSlipCnt n) 32).serialEvent (160 + n) 0x09 0xFF 1 else s
  let h := { h with blk := none, seq := (h.seq + 1) % 2 ^ 32, frameIdx := total, parts := h.parts ++ [b],
                     closed := if short then h.closed else some b.heat }
  if short then s.setTdmRx n h
  else
    let slotOf : Bind → Option Nat := fun
      | .tdm p k => if p = n then some k else none
      | _ => none
    let s := if tdmSync c then s.feedSync b.heat h.parts slotOf
      else s.feedConv n b.heat 32 (s.getF (Reg.tdmRxRingCfg n) 6 0) n h.parts slotOf
    s.setTdmRx n { h with parts := [], frameIdx := 0 }

/-- The mask that waits takes effect at this frame sync, closing the open block; a change that would open a fifth block of the heat is
held (R96, R97). -/
def State.tdmMask (s : State) (n : Nat) : State :=
  let h := s.tdmRxAt n
  if !h.maskDue then s
  else
    match h.blk with
    | none => ((s.setReg (Reg.tdmRxMask n) (s.reg (Reg.tdmRxMaskNext n))).setTdmRx n { h with maskDue := false }).tdmOpen n true
    | some b =>
      if 3 ≤ b.inHeat then
        if h.maskHeld then s
        else ((s.setTdmRx n { h with maskHeld := true }).setBit (Reg.tdmStatus n) 8 true).serialEvent (160 + n) 0x08 0xFF 1
      else
        let s := s.tdmClose n b.heat true
        let s := s.setTdmRx n { s.tdmRxAt n with maskDue := false }
        (s.setReg (Reg.tdmRxMask n) (s.reg (Reg.tdmRxMaskNext n))).tdmOpen n true

/-- The data word of slot `k` in the bits of a frame, by bit clock: it begins at OFFSET + k × SLOT_W, MSB first; padding is ignored (R83). A slot
the frame does not have reads as zero. -/
def tdmWord (f : Word) (line : BitVec 1024) (k : Nat) : Nat :=
  if fld f 20 16 < k then 0
  else (List.range (tdmWordBits f)).foldl (fun a i =>
    2 * a + (if line.getLsbD (fld f 15 8 + k * (fld f 7 3 + 16) + i) then 1 else 0)) 0

/-- One frame into the open block: a glitch or a frame that finds no room is dropped whole and counted (R77, R99), another is converted
slot by slot and passes its channels' gains. -/
def State.tdmTake (s : State) (n len : Nat) (line : BitVec 1024) (glitch full : Bool) : State :=
  let h := s.tdmRxAt n
  let c := s.reg (Reg.tdmCtrl n)
  let f := s.reg (Reg.tdmFrame n)
  match h.blk with
  | none => s
  | some b =>
    if !bitAt c 3 && (glitch || len != fld f 31 21) then
      let b := { b with glitch := b.glitch + 1, overrun := b.overrun + 1, flags := b.flags ||| bfDisc }
      (((s.setTdmRx n { h with blk := some b, good := 0 }).bump (Reg.tdmGlitchCnt n) 32).bump (Reg.tdmOvrCnt n) 32).serialEvent
        (160 + n) 0x01 0xFF 1
    else if full || frames112 (fld c 11 8) ≤ b.frames.length then
      let b := { b with overrun := b.overrun + 1, flags := b.flags ||| bfDisc }
      ((s.setTdmRx n { h with blk := some b }).bump (Reg.tdmOvrCnt n) 32).serialEvent (160 + n) 0x02 0xFF 1
    else
      let slots := (List.range 32).filter fun k => bitAt b.mask k
      let raw := slots.map fun k => pcmSample (tdmWordBits f) (tdmWord f line k)
      let (s, out) := (slots.zip raw).foldl (fun (a : State × List Word) p =>
        let (s, y) := a.1.throughChan (n * 32 + p.1) s.pacer.ns.toNat p.2
        (s, a.2 ++ [y])) (s, [])
      let b := { b with time := if b.frames.isEmpty then s.pacer.ns else b.time,
                        frames := b.frames ++ [out], raws := b.raws ++ [raw] }
      let s := s.setTdmRx n { h with blk := some b, good := h.good + 1 }
      if s.bit (Reg.tdmStatus n) 3 then s else s.setBit (Reg.tdmStatus n) 2 true

/-- A frame sync edge of TDM port `n`, `len` bit clocks to the next, the lines from there, a glitch of the bit clock, a full FIFO. Only the leading edge, by FS_POL, marks a frame; RX_EDGE selects the edge on
which data is sampled (R86). -/
def execTdmRxFrame (n : Fin 16) (len : BitVec 11) (line : TdmLine) (glitch full : Bool) (s : State) :
    Host.Outcome State Fault Refusal :=
  act s fun s =>
    let n := n.val
    let c := s.reg (Reg.tdmCtrl n)
    if !bitAt c 0 || s.inReset (160 + n) || line.high == bitAt c 5 then s
    else
      let s := match (s.tdmRxAt n).blk with
        | some b => if b.heat = s.heat then s else s.tdmClose n b.heat false
        | none => s
      let s := if (s.tdmRxAt n).blk.isNone then s.setTdmRx n { s.tdmRxAt n with maskHeld := false } else s
      let s := s.tdmMask n
      let s := if (s.tdmRxAt n).blk.isNone then s.tdmOpen n false else s
      s.tdmTake n len.toNat (if bitAt c 4 then line.fall else line.rise) glitch full

/-- A `TDMn_FRAME` value is accepted (R84), its FRAME_LEN within the range of its field map, 32 to 1,024 (R127). R84 does not name the range; the
model refuses a value outside it in the same way (log entry 128). -/
def tdmFrameOk (v : Word) : Bool :=
  let slots := fld v 20 16 + 1
  let w := fld v 7 3 + 16
  fld v 7 3 ≤ 16 && tdmWordBits v ≤ w && fld v 15 8 + slots * w ≤ fld v 31 21 && 32 ≤ fld v 31 21 && fld v 31 21 ≤ 1024

def State.cfgBusy (s : State) (n : Nat) : State := s.setBit (Reg.tdmStatus n) 6 true

def execTdmFrameWrite (m : Master) (n : Fin 16) (v : Word) (s : State) : Host.Outcome State Fault Refusal :=
  act s fun s => s.gated m (Reg.tdmFrame n.val) fun s =>
    if s.getF (Reg.tdmCtrl n.val) 1 0 ≠ 0 ∨ !tdmFrameOk v then s.cfgBusy n.val else s.rawWrite (Reg.tdmFrame n.val) v

/-- A master-mode port may be enabled with these (R87). -/
def tdmMasterOk (c f : Word) : Bool :=
  [32, 64, 128, 256, 512, 1024].contains (fld f 31 21) && fld c 11 8 == 2 && (!bitAt c 6 || fld c 24 16 < fld f 31 21)

/-- A receiver starts: it counts its blocks from zero, and its entries come back if it has what it needs (R89, R95, R468). -/
def State.tdmRxOn (s : State) (n : Nat) : State :=
  let h := s.tdmRxAt n
  let s := (s.setTdmRx n { h with blk := none, parts := [], seq := 0, frameIdx := 0, good := 0 }).setBit (Reg.tdmStatus n) 0 true
  if tdmSync (s.reg (Reg.tdmCtrl n)) || (s.asrcOf n).isSome then
    (s.nextFlag (.tdm (Fin.ofNat 16 n)) 5).mapStream (.tdm (Fin.ofNat 16 n)) (SrcH.regain (s.heat + 1)) else s

/-- A receiver stops: its open block closes as a short block, and its entries are lost, with no event (R89). -/
def State.tdmRxOff (s : State) (n : Nat) : State :=
  let s := if (s.tdmRxAt n).blk.isSome then s.tdmClose n s.heat true else s
  let s := ((s.setBit (Reg.tdmStatus n) 0 false).setBit (Reg.tdmStatus n) 2 false).setTdmRx n
    { s.tdmRxAt n with parts := [], frameIdx := 0 }
  s.mapStream (.tdm (Fin.ofNat 16 n)) SrcH.lose

/-- The bit clock and frame sync a port drives: in master mode while a direction is enabled, FRAME_LEN bit clocks a frame at 48 frames a heat,
frame sync active for one bit clock or for FS_WIDTH of them (R86, R87). -/
def State.tdmDrive (s : State) (n : Nat) : State :=
  let c := s.reg (Reg.tdmCtrl n)
  let pins : TdmPins := if bitAt c 3 && fld c 1 0 != 0 then
      { drive := true, clocks := s.getF (Reg.tdmFrame n) 31 21, fsActive := if bitAt c 6 then fld c 24 16 else 1, fsLow := bitAt c 5 }
    else {}
  { s with tdmPins := Sparse.set {} s.tdmPins n pins }

/-- A write of `TDMn_CTRL` (R87, R89). -/
def State.tdmCtrlWrite (s : State) (n : Nat) (v : Word) : State :=
  let old := s.reg (Reg.tdmCtrl n)
  let on := fld old 1 0 ≠ 0
  let other := (v ^^^ old) &&& 0x01FF0FFC#32 ≠ 0#32
  if 7 ≤ fld v 11 8 then s.cfgBusy n
  else
    let s := if on ∧ other then s.cfgBusy n else s
    let v' := if on then setFld old 1 0 (fld v 1 0) else v
    if bitAt v' 3 && fld v' 1 0 != 0 && fld old 1 0 == 0 && !tdmMasterOk v' (s.reg (Reg.tdmFrame n)) then s.cfgBusy n
    else
      let s := s.rawWrite (Reg.tdmCtrl n) v'
      let s := if bitAt v' 0 && !bitAt old 0 then s.tdmRxOn n else if !bitAt v' 0 && bitAt old 0 then s.tdmRxOff n else s
      (s.setBit (Reg.tdmStatus n) 1 (bitAt v' 1)).tdmDrive n

/-- A write of `TDMn_CTRL` that enables a direction of the port. -/
def execTdmEnable (m : Master) (n : Fin 16) (v : Word) (s : State) : Host.Outcome State Fault Refusal :=
  act s fun s => s.gated m (Reg.tdmCtrl n.val) fun s => s.tdmCtrlWrite n.val v

/-- A write of `TDMn_CTRL` that disables one. -/
def execTdmDisable (m : Master) (n : Fin 16) (v : Word) (s : State) : Host.Outcome State Fault Refusal :=
  act s fun s => s.gated m (Reg.tdmCtrl n.val) fun s => s.tdmCtrlWrite n.val v

/-- A refused mask write (R98). -/
def State.maskRefused (s : State) (n : Nat) : State :=
  (s.setBit (Reg.tdmStatus n) 7 true).serialEvent (160 + n) 0x08 0xFF 1

/-- A next receive mask: taken at the next frame sync, at once while the direction is disabled (R96, R98). -/
def execRxMaskNextWrite (m : Master) (n : Fin 16) (v : Word) (s : State) : Host.Outcome State Fault Refusal :=
  act s fun s => s.gated m (Reg.tdmRxMaskNext n.val) fun s =>
    let n := n.val
    if s.getF (Reg.tdmChMax n) 5 0 < popCount v then s.maskRefused n
    else
      let s := s.setReg (Reg.tdmRxMaskNext n) v
      if s.bit (Reg.tdmCtrl n) 0 then s.setTdmRx n { s.tdmRxAt n with maskDue := true } else s.setReg (Reg.tdmRxMask n) v

def execTxMaskNextWrite (m : Master) (n : Fin 16) (v : Word) (s : State) : Host.Outcome State Fault Refusal :=
  act s fun s => s.gated m (Reg.tdmTxMaskNext n.val) fun s =>
    let n := n.val
    if s.getF (Reg.tdmChMax n) 13 8 < popCount v then s.maskRefused n
    else
      let s := s.setReg (Reg.tdmTxMaskNext n) v
      if s.bit (Reg.tdmCtrl n) 1 then s.setTdmTx n { s.tdmTxAt n with maskDue := true } else s.setReg (Reg.tdmTxMask n) v

/-! ### AES3 receivers (R106 to R114) -/

/-- One subframe of a channel under its validity policy and parity (R108, R113, R114): the channel, its output, and whether the sample is
as received. -/
def CsH.sample (h : CsH) (policy : Nat) (x : SubFrame) : CsH × Word × Bool :=
  let bits := if h.aux20 then x.bits &&& 0xFFFFF0#24 else x.bits
  let v := pcmSample 24 bits.toNat
  let (h, y, clean) : CsH × Word × Bool :=
    if !x.parityOk then (h, h.prev, false)
    else if !x.invalid then ({ h with lastValid := some v, heldRun := 0 }, v, true)
    else if policy = 0 then (h, v, true)
    else if policy = 1 then
      let k := h.heldRun + 1
      let f : Rat := if k ≤ 48 then 1 else 1 - rcos (k - 48) 64
      ({ h with heldRun := k }, scaled (h.lastValid.getD 0) f, false)
    else (h, 0#32, false)
  let h := { h with prev := y }
  if !h.open_ then (h, 0#32, false)
  else if h.fade < 64 then ({ h with fade := h.fade + 1 }, scaled y (rcos (h.fade + 1) 64), false) else (h, y, clean)

/-- The ring of an AES3 receiver. R92 names CH_MAX and FRAMES_MAX of a TDM port only; the model takes 2 channels at MAX_RATE here, and
54 frames of 8 microphones for a PDM group (log entry 130). -/
def State.aesRing (s : State) (n : Nat) : RxRing :=
  { base := Reg.aesRxRingBase n, cfg := Reg.aesRxRingCfg n, wr := Reg.aesRxWrIdx n,
    size := slotSize (frames112 (s.getF (Reg.aesRxCfg n) 15 12)) 2 }

/-- NONAUDIO_A and NONAUDIO_B of a receiver's next header. -/
def State.nonAudioFlags (s : State) (n : Nat) : Nat := s.getF (Reg.aesRxStatus n) 3 2 * 64

def State.aesOpen (s : State) (n : Nat) : State :=
  let h := s.aesRxAt n
  let b : OpenBlk := { time := s.pacer.ns, heat := s.heat, mask := 3, first := h.frameIdx, inHeat := h.parts.length,
                       flags := s.openFlags (.aes (Fin.ofNat 8 n)) h ||| s.nonAudioFlags n }
  s.setAesRx n { h with blk := some b, nextFlags := 0 }

/-- The open block is written: silence after more than 24 parity errors (R114); at the end of a heat the entries are fed from the
converter. -/
def State.aesClose (s : State) (n heat : Nat) (short : Bool) : State :=
  let h := s.aesRxAt n
  let b := h.blk.getD { time := BitVec.ofNat 64 (heat * 1000000), heat := heat, mask := 3, first := h.frameIdx,
                        inHeat := h.parts.length, flags := s.openFlags (.aes (Fin.ofNat 8 n)) h }
  let burst := 24 < b.parity
  let b := { b with flags := b.flags ||| s.nonAudioFlags n ||| (if short then bfShort else 0),
                    frames := if burst then b.frames.map (fun (f : List Word) => f.map fun _ => 0#32) else b.frames }
  let b := b.stamped
  let s := s.convMeasure (16 + n) b
  let s := s.writeBlk (s.aesRing n) (blkHeader b (0x40 + n) 0 h.seq (s.convAt (16 + n)).ratio 0 ++ bytesOfWords b.frames.flatten)
  let h := { h with blk := none, seq := (h.seq + 1) % 2 ^ 32, frameIdx := b.first + b.frames.length, parts := h.parts ++ [b],
                     closed := if short then h.closed else some b.heat }
  if short then s.setAesRx n h
  else
    let s := s.feedConv (16 + n) b.heat 2 (s.getF (Reg.aesRxRingCfg n) 6 0) (0x40 + n) h.parts fun
      | .aes p k => if p = n then some k else none
      | _ => none
    s.setAesRx n { h with parts := [], frameIdx := 0 }

/-- Parity errors of a frame's two subframes are counted, each with an event of its channel; the 25th of a heat raises the burst (R114). -/
def State.aesParity (s : State) (n before : Nat) (a b : Bool) : State :=
  let one (s : State) (ch : Nat) (bad : Bool) : State :=
    if bad then (s.bump (Reg.aesRxParityCnt n) 32).serialEvent (176 + n) 0x11 ch 1 else s
  let s := one (one s 0 a) 1 b
  let bad := (if a then 1 else 0) + (if b then 1 else 0)
  if before ≤ 24 ∧ 24 < before + bad then s.serialEvent (176 + n) 0x12 0xFF 1 else s

/-- A frame of AES3 receiver `n`: its two subframes; a glitch of its clock discards it. -/
def execAesRxFrame (n : Fin 8) (a b : SubFrame) (glitch : Bool) (s : State) : Host.Outcome State Fault Refusal :=
  act s fun s =>
    let n := n.val
    if !s.bit (Reg.aesRxCfg n) 0 || s.inReset (176 + n) then s
    else
      let s := match (s.aesRxAt n).blk with
        | some b => if b.heat = s.heat then s else s.aesClose n b.heat false
        | none => s
      let s := if (s.aesRxAt n).blk.isNone then s.aesOpen n else s
      let h := s.aesRxAt n
      let blk := h.blk.getD {}
      if glitch then
        let blk := { blk with glitch := blk.glitch + 1, overrun := blk.overrun + 1, flags := blk.flags ||| bfDisc }
        (s.setAesRx n { h with blk := some blk, good := 0 }).serialEvent (176 + n) 0x01 0xFF 1
      else
        let pol := s.getF (Reg.aesRxCfg n) 5 4
        let (ca, ya, _) := (s.csAt (aesCs n 0)).sample pol a
        let (cb, yb, _) := (s.csAt (aesCs n 1)).sample pol b
        let s := (s.setCs (aesCs n 0) ca).setCs (aesCs n 1) cb
        let (s, oa) := s.throughChan (512 + n * 2) s.pacer.ns.toNat ya
        let (s, ob) := s.throughChan (512 + n * 2 + 1) s.pacer.ns.toNat yb
        let bad := (if a.parityOk then 0 else 1) + (if b.parityOk then 0 else 1)
        let inv := (if a.invalid then 1 else 0) + (if b.invalid then 1 else 0)
        let s := s.aesParity n blk.parity (!a.parityOk) (!b.parityOk)
        let blk := { blk with time := if blk.frames.isEmpty then s.pacer.ns else blk.time, frames := blk.frames ++ [[oa, ob]], raws := blk.raws ++ [[ya, yb]], parity := blk.parity + bad,
                              invalid := blk.invalid + inv }
        let s := s.setAesRx n { h with blk := some blk, good := h.good + 1 }
        if s.bit (Reg.aesRxStatus n) 1 then s else s.setBit (Reg.aesRxStatus n) 0 true

/-- One bit of the CRCC: polynomial x^8 + x^4 + x^3 + x^2 + 1, bits in the order sent, least significant first (R110). -/
def crccBit (c : Nat) (bit : Bool) : Nat :=
  let x := c % 2 ^^^ (if bit then 1 else 0)
  if x = 1 then (c / 2) ^^^ 0xB8 else c / 2

/-- The CRCC of bytes 0 to 22, initial value 0xFF. -/
def crcc (bs : List Byte) : Nat :=
  (bs.take 23).foldl (fun c b => (List.range 8).foldl (fun c i => crccBit c (b.getLsbD i)) c) 0xFF

/-- A good channel-status block: what the channel plays follows it (R108, R112). -/
def CsH.good (h : CsH) (bs : List Byte) : CsH :=
  let non := (bs.getD 0 0).getLsbD 1
  let pro := (bs.getD 0 0).getLsbD 0
  let h := { h with aux20 := pro && leAt bs 2 1 % 8 == 2 }
  if non then { h with started := true, nonAudio := true, open_ := false, okRun := 0 }
  else if !h.started || h.open_ then { h with started := true, nonAudio := false, open_ := true, okRun := 0 }
  else if h.okRun + 1 < 2 then { h with nonAudio := false, okRun := h.okRun + 1 }
  else { h with nonAudio := false, okRun := 0, open_ := true, fade := 0 }

/-- The Z preamble that ends a channel-status block: `bytes` as gathered, `early` before 192 frames (R110 to R112). -/
def execAesCsBlock (n : Fin 8) (ch : Fin 2) (bytes : List Byte) (early : Bool) (s : State) : Host.Outcome State Fault Refusal :=
  act s fun s =>
    let n := n.val
    let c := ch.val
    let pro := (bytes.getD 0 0).getLsbD 0
    if !s.bit (Reg.aesRxCfg n) 0 then s
    else if early || (pro && crcc bytes != leAt bytes 23 1) then
      (s.bump (Reg.aesRxCsErr n) 32).serialEvent (176 + n) 0x13 c 1
    else
      let regs (i : Nat) := if c = 0 then Reg.aesRxCsA n i else Reg.aesRxCsB n i
      let s := forUpto 6 (fun i s => s.setReg (regs i) (BitVec.ofNat 32 (leAt bytes (4 * i) 4))) s
      let was := s.csAt (aesCs n c)
      let h := was.good bytes
      let s := (s.setCs (aesCs n c) h).setBit (Reg.aesRxStatus n) (4 + c) pro
      let s := s.setBit (Reg.aesRxStatus n) (2 + c) h.nonAudio
      if h.nonAudio && !was.nonAudio then
        let s := match (s.aesRxAt n).blk with
          | some b => s.setAesRx n { s.aesRxAt n with blk := some { b with flags := b.flags ||| 2 ^ (6 + c) } }
          | none => s
        s.serialEvent (176 + n) 0x14 c 1
      else s

/-- How far a measured rate in Hz lies from a nominal one. -/
def rateDist (hz code : Nat) : Nat := ((hz : Int) - ((rate10 code * 100 : Nat) : Int)).natAbs

/-- The rate of the R73 list nearest a measurement, the lower of two. -/
def nearestRate (hz : Nat) : Nat := (List.range 7).foldl (fun c k => if rateDist hz k < rateDist hz c then k else c) 0

/-- A measured rate lies above MAX_RATE: nearest a higher rate of the list, or more than 12.5 % above the highest (R77, R107). -/
def aboveMax (hz max : Nat) : Bool := max < nearestRate hz || (nearestRate hz == 6 && rate10 6 * 900 < hz * 8)

/-- AES_RATE_DETECT: the receiver measures a rate of `hz`, and whether it lies above MAX_RATE follows (R107). -/
def execAesRateDetect (n : Fin 8) (hz : Nat) (_above : Measured) (s : State) : Host.Outcome State Fault Refusal :=
  act s fun s =>
    let cfg := s.reg (Reg.aesRxCfg n.val)
    let code := nearestRate hz
    if !bitAt cfg 0 || !bitAt cfg 3 then s
    else if aboveMax hz (fld cfg 15 12) then
      if s.bit (Reg.aesRxStatus n.val) 1 then s else (s.loseStream (.aes n)).streamEvent (.aes n) 0x05 0x38
    else
      let old := s.getF (Reg.aesRxStatus n.val) 9 6
      let first := !s.bit (Reg.aesRxStatus n.val) 0 && (s.aesRxAt n.val).good == 0
      let s := s.putF (Reg.aesRxStatus n.val) 9 6 code
      let s := match s.asrcOf (16 + n.val) with
        | some i => s.putF (Reg.pcrAsrcStatus i) 5 3 code
        | none => s
      if old = code ∨ first then s
      else
        let s := (s.setCs (aesCs n.val 0) {}).setCs (aesCs n.val 1) {}
        (s.relock (.aes n)).streamEvent (.aes n) 0x04 0x37

/-- A read of word 0 of a channel's status latches words 1 to 5 for the master (R111). -/
def execAesRxCsRead (m : Master) (n : Fin 8) (ch : Fin 2) (s : State) : Host.Outcome State Fault Refusal :=
  act s fun s =>
    let r (i : Nat) := if ch.val = 0 then Reg.aesRxCsA n.val i else Reg.aesRxCsB n.val i
    let s := s.latchWords m ((List.range 5).map fun i => r (i + 1)) s.reg
    { s with rdata := s.reg (r 0) }

/-- A write of `AES_RXn_CFG`: fields other than EN only while EN is 0 (R128). -/
def State.aesRxCfgWrite (s : State) (n : Nat) (v : Word) : State :=
  let st : Stream := .aes (Fin.ofNat 8 n)
  let old := s.reg (Reg.aesRxCfg n)
  let s := s.rawWrite (Reg.aesRxCfg n) (if bitAt old 0 then setBitAt old 0 (bitAt v 0) else v)
  let s := match s.asrcOf (16 + n) with
    | some i => if bitAt old 0 then s else s.putF (Reg.pcrAsrcStatus i) 5 3 (s.aesRate n)
    | none => s
  if bitAt v 0 && !bitAt old 0 then
    let s := s.setAesRx n { s.aesRxAt n with blk := none, parts := [], seq := 0, frameIdx := 0, good := 0 }
    let s := (s.setCs (aesCs n 0) {}).setCs (aesCs n 1) {}
    if (s.asrcOf (16 + n)).isSome then (s.nextFlag st 5).mapStream st (SrcH.regain (s.heat + 1)) else s
  else if !bitAt v 0 && bitAt old 0 then
    let s := if (s.aesRxAt n).blk.isSome then s.aesClose n s.heat true else s
    let s := s.setAesRx n { s.aesRxAt n with parts := [], frameIdx := 0 }
    (s.putF (Reg.aesRxStatus n) 1 0 0).mapStream st SrcH.lose
  else s

/-- AES_RX_ENABLE: a write of `AES_RXn_CFG` that sets or clears EN. -/
def execAesRxEnable (m : Master) (n : Fin 8) (v : Word) (s : State) : Host.Outcome State Fault Refusal :=
  act s fun s => s.gated m (Reg.aesRxCfg n.val) fun s => s.aesRxCfgWrite n.val v

/-! ### AES3 transmitters (R115, R117) -/

/-- A write of `AES_TXn_CFG`: fields other than EN only while EN is 0 (R128); at 32, 44.1, 88.2 or 176.4 kHz EN takes a converter. -/
def State.aesTxCfgWrite (s : State) (n : Nat) (v : Word) : State :=
  let old := s.reg (Reg.aesTxCfg n)
  let v' := if bitAt old 0 then setBitAt old 0 (bitAt v 0) else v
  let rate := fld v' 15 12
  let needs := rate == 0 || rate == 1 || rate == 3 || rate == 5
  if bitAt v' 0 && !bitAt old 0 && needs then
    match s.asrcTake (48 + n) 2 2 2 rate 0 with
    | some s => (s.rawWrite (Reg.aesTxCfg n) v').setBit (Reg.aesTxStatus n) 0 true
    | none => (s.rawWrite (Reg.aesTxCfg n) (setBitAt v' 0 false)).setBit (Reg.aesTxStatus n) 2 true
  else
    let s := (s.rawWrite (Reg.aesTxCfg n) v').setBit (Reg.aesTxStatus n) 0 (bitAt v' 0)
    if !bitAt v' 0 then s.asrcDrop (48 + n) else s

/-- AES_TX_ENABLE: a write of `AES_TXn_CFG` that sets or clears EN. -/
def execAesTxEnable (m : Master) (n : Fin 4) (v : Word) (s : State) : Host.Outcome State Fault Refusal :=
  act s fun s => s.gated m (Reg.aesTxCfg n.val) fun s => s.aesTxCfgWrite n.val v

/-- A write of `AES_TXn_CS_COMMIT`: both templates are taken at the next Z preamble (R117). -/
def execAesTxCsCommit (m : Master) (n : Fin 4) (v : Word) (s : State) : Host.Outcome State Fault Refusal :=
  act s fun s => s.gated m (Reg.aesTxCsCommit n.val) fun s =>
    if bitAt v 0 then
      (s.setAesTx n.val { s.aesTxAt n.val with csDue := true }).setBit (Reg.aesTxStatus n.val) 1 true else s

/-! ### PDM (R119 to R125) -/

/-- The blocks that fall in the 10 ms after an enable: ten heats, and the rest of the one under way. -/
def State.warmBlocks (s : State) : Nat := if s.pacer.ns.toNat % 1000000 = 0 then 10 else 11

/-- D of a DIV code (R120, R129). -/
def pdmDivider (code : Nat) : Nat := [4, 6, 8, 12, 16, 24].getD code 24

/-- What clock output PDM_CLKg gives: the audio master divided by D while the group is enabled (R119, R120). -/
def State.pdmClock (s : State) (g : Nat) : Option Nat :=
  if s.bit (Reg.pdmGrpCfg g) 0 then some (pdmDivider (s.getF (Reg.pdmGrpCfg g) 7 4)) else none

/-- The bits of microphone `m` among the levels of its data line m / 2, sampled at rising and falling clock edges in turn: 2d at the rising, 2d + 1
at the falling ones (R119). -/
def micBits (lines : List (List Bool)) (m : Nat) : List Bool :=
  ((lines.getD (m / 2) []).zipIdx.filter fun p => p.2 % 2 == m % 2).map (·.1)

/-- The bit of a microphone is constant over a heat. -/
def bitsConstant (bits : List Bool) : Bool := bits.all (· == bits.headD false)

/-- A write of `PDM_GRPg_CFG`: DIV only while EN is 0, codes 6 to 15 discarded (R120, R124, R129). -/
def State.pdmCfgWrite (s : State) (g : Nat) (v : Word) : State :=
  let st : Stream := .pdm (Fin.ofNat 4 g)
  let old := s.reg (Reg.pdmGrpCfg g)
  let div := if bitAt old 0 || 6 ≤ fld v 7 4 then fld old 7 4 else fld v 7 4
  let s := s.rawWrite (Reg.pdmGrpCfg g) (setFld (setBitAt old 0 (bitAt v 0)) 7 4 div)
  if bitAt v 0 && !bitAt old 0 then
    let s := s.setPdm g { s.pdmAt g with seq := 0, warm := s.warmBlocks }
    let s := forUpto 8 (fun i s => s.setMic (g * 8 + i) { s.micAt (g * 8 + i) with warm := s.warmBlocks, bits := [] }) s
    s.mapStream st (SrcH.regain (s.heat + 1))
  else if !bitAt v 0 && bitAt old 0 then s.mapStream st SrcH.lose else s

/-- PDM_GROUP_ENABLE: a write of `PDM_GRPg_CFG` that sets or clears EN. -/
def execPdmGroupEnable (m : Master) (g : Fin 4) (v : Word) (s : State) : Host.Outcome State Fault Refusal :=
  act s fun s => s.gated m (Reg.pdmGrpCfg g.val) fun s => s.pdmCfgWrite g.val v

/-- A write of `PDM_GRPg_MIC_EN`: an added microphone warms for 10 ms (R124). -/
def State.micEnWrite (s : State) (g : Nat) (v : Word) : State :=
  let old := s.reg (Reg.pdmGrpMicEn g)
  let s := s.rawWrite (Reg.pdmGrpMicEn g) v
  forUpto 8 (fun i s =>
    if bitAt v i && !bitAt old i then
      s.setMic (g * 8 + i) { s.micAt (g * 8 + i) with warm := s.warmBlocks, stuckRun := 0, bits := [] } else s) s

/-- PDM_MIC_EN_WRITE: a write of `PDM_GRPg_MIC_EN`. -/
def execPdmMicEnWrite (m : Master) (g : Fin 4) (v : Word) (s : State) : Host.Outcome State Fault Refusal :=
  act s fun s => s.gated m (Reg.pdmGrpMicEn g.val) fun s => s.micEnWrite g.val v

/-- PDM_WARMING_END: a microphone's first 10 ms are over; its group's with those of the last of its microphones. -/
def execPdmWarmingEnd (k : Fin 32) (s : State) : Host.Outcome State Fault Refusal :=
  act s fun s =>
    let g := k.val / 8
    let s := s.setMic k.val { s.micAt k.val with warm := 0 }
    if (List.range 8).all fun i => (s.micAt (g * 8 + i)).warm == 0 then s.setPdm g { s.pdmAt g with warm := 0 } else s

/-- A microphone has been stuck for 64 consecutive heats (R125). -/
def execPdmMicStuckLong (k : Fin 32) (s : State) : Host.Outcome State Fault Refusal :=
  act s fun s => if 64 ≤ (s.micAt k.val).stuckHeats then s.serialEvent (188 + k.val / 8) 0x22 k.val 1 else s

/-- A heat of a microphone: whether its bit was constant (R125). -/
def MicH.heat (h : MicH) (const : Bool) : MicH :=
  let w := h.warm - 1
  if const then { h with warm := w, stuckRun := h.stuckRun + 1, okRun := 0, stuck := true, stuckHeats := h.stuckHeats + 1 }
  else
    let ok := h.okRun + 1
    let st := h.stuck && ok < 16
    { h with warm := w, stuckRun := 0, okRun := ok, stuck := st, stuckHeats := if st then h.stuckHeats + 1 else 0 }

/-- One microphone's heat, with its event on the first stuck one. -/
def State.micHeat (s : State) (k : Nat) (const : Bool) : State :=
  let h := s.micAt k
  let h' := h.heat const
  let s := (s.setMic k h').setBit (Reg.pdmGrpStuck (k / 8)) (k % 8) h'.stuck
  if h'.stuck && !h.stuck then s.serialEvent (188 + k / 8) 0x21 k 1 else s

/-- The 48 samples of a microphone in a heat, decimated from its bits to 24 bits; zero while it warms or is stuck (R121, R124, R125). -/
def MicH.samples (h : MicH) (div : Nat) (warming : Bool) (bits : List Bool) : List Word :=
  if warming || h.stuck then List.replicate 48 0#32
  else (List.range 48).map fun j => pcmSample 24 (Config.pdmDecimate div j (h.bits ++ bits)).toNat

/-- A group writes its block of heat `heat` with the flags `fl` (R122 to R125), from the levels of the data lines in it. The time stamp is the
boundary minus 250 µs; that of heat 0, which would be negative, is 0 (log entry 133). -/
def State.pdmBlock (s : State) (g heat fl : Nat) (lines : List (List Bool)) : State :=
  if !s.bit (Reg.pdmGrpCfg g) 0 then s
  else
    let mask := s.reg (Reg.pdmGrpMicEn g) &&& 0xFF#32
    let mics := (List.range 8).filter fun i => bitAt mask i
    let div := pdmDivider (s.getF (Reg.pdmGrpCfg g) 7 4)
    let cold := (s.pdmAt g).warm != 0
    let warm := cold || mics.any fun i => (s.micAt (g * 8 + i)).warm != 0
    let (s, cols) := mics.foldl (fun (a : State × List (List Word × Bool)) i =>
      let k := g * 8 + i
      let bits := micBits lines k
      let warming := cold || (a.1.micAt k).warm != 0
      let s := a.1.micHeat k (bitsConstant bits)
      let h := s.micAt k
      let raw := h.samples div warming bits
      (s.setMic k { h with bits := bits }, a.2 ++ [(raw, warming || h.stuck)])) (s, [])
    let (s, outs) := (mics.zip cols).foldl (fun (a : State × List (List Word)) p =>
      let (s, ys) := p.2.1.zipIdx.foldl (fun (b : State × List Word) x =>
        let (s, y) := b.1.throughChan (1536 + g * 8 + p.1) (heat * 1000000 + x.2 * 1000000 / 48) x.1
        (s, b.2 ++ [y])) (a.1, [])
      (s, a.2 ++ [ys])) (s, [])
    let frames := (List.range 48).map fun j => outs.map fun c => c.getD j 0
    let h := s.pdmAt g
    let b : OpenBlk := { time := BitVec.ofNat 64 (heat * 1000000 - 250000), heat := heat, mask := mask, frames := frames,
                         flags := h.nextFlags ||| fl ||| (if warm then bfWarm else 0) }
    let ring : RxRing := { base := Reg.pdmGrpRingBase g, cfg := Reg.pdmGrpRingCfg g, wr := Reg.pdmGrpWrIdx g, size := slotSize 54 8 }
    let s := s.writeBlk ring (blkHeader b (0x80 + g) 0 h.seq 0 (s.getF (Reg.pdmGrpStuck g) 7 0) ++ bytesOfWords frames.flatten)
    let s := s.setPdm g { h with seq := (h.seq + 1) % 2 ^ 32, nextFlags := 0, closed := some heat, warm := h.warm - 1 }
    let s := (mics.zip outs).foldl (fun s p =>
      let m := s.micAt (g * 8 + p.1)
      s.setMic (g * 8 + p.1) { m with blks := ((heat, p.2) :: m.blks).take 3 }) s
    let base : Int := ((heat * 48 : Nat) : Int) - 12
    let usable : Bool := (h.nextFlags ||| fl) &&& (bfDisc ||| bfLost) == 0
    (mics.zip (cols.zip outs)).foldl (fun s p =>
      s.feedEntries (fun x => if x = .mic (g * 8 + p.1) then some 0 else none) fun h _ =>
        let dead := p.2.1.2
        if h.lost then h.feedNone heat
        else { h with stuck := dead }.feed heat base (p.2.2.map some)
          (p.2.1.1.map fun x => if dead || !usable then none else some x)) s

end Sys2Proof.Machine
end

