-- ==== Sys2Proof/Machine/Packet.lean ====
section
/-! DEFINITION. The packet ports (04_packet_audio_voting.md R130 to R152): frames and their classification, receive flows with their
jitter buffers and legs, and the descriptors FLOW_RX_SET and FLOW_TX_SET. -/

namespace Sys2Proof.Machine

/-- The big-endian number in `n` bytes of `bs` from `off` (network byte order). -/
def beAt (bs : List Byte) (off : Nat) : Nat → Nat
  | 0 => 0
  | n + 1 => (bs.getD off 0#8).toNat * 256 ^ n + beAt bs (off + 1) n

/-- The `n` big-endian bytes of a number. -/
def beBytes (n v : Nat) : List Byte := (leBytes n v).reverse

/-! ### Flow entries (R133, R148) -/

/-- FORMAT of an entry: encoding, packet time code and rate code. -/
def fmtEnc (f : Nat) : Nat := f / 64 % 4
def fmtPtime (f : Nat) : Nat := f / 8 % 8
def fmtRate (f : Nat) : Nat := f % 8

/-- Samples per packet S at 48 kHz, and the packets in a second, by packet time code. -/
def ptimeSamples (p : Nat) : Nat := [6, 12, 16, 48, 192].getD p 48
def ptimePerSec (p : Nat) : Nat := [8000, 4000, 3000, 1000, 250].getD p 1000
/-- 1 at 48 kHz, 2 at 96 kHz. -/
def rateMul (r : Nat) : Nat := if r = 4 then 2 else 1
def encBytes (e : Nat) : Nat := [2, 3, 4].getD e 4

def rxFmt (en : List Byte) : Nat := leAt en 31 1
def rxChans (en : List Byte) : Nat := leAt en 30 1
def rxFlags (en : List Byte) : Nat := leAt en 33 1
def rxLeg (en : List Byte) (p : Nat) : Bool := rxFlags en / 2 ^ p % 2 == 1
def rxTwoLegs (en : List Byte) : Bool := rxFlags en % 4 == 3
def rxAsync (en : List Byte) : Bool := rxFlags en / 8 % 2 == 1
def rxMul (en : List Byte) : Nat := rateMul (fmtRate (rxFmt en))
def rxPlayout (en : List Byte) : Nat := leAt en 34 2
def rxS (en : List Byte) : Nat := ptimeSamples (fmtPtime (rxFmt en)) * rxMul en
def rxSrc (en : List Byte) (c : Nat) : Nat := leAt en 28 2 + c
/-- The flow passes through a converter (R140, R141). -/
def rxConv (en : List Byte) : Bool := rxAsync en || rxMul en == 2
def rxAm824 (en : List Byte) : Bool := fmtEnc (rxFmt en) == 2

/-! ### Frames (R131, R132, R146, R147, R464) -/

/-- A frame delivered to a port's receive frame ring (R132, R464); `rule` is the rule that delivered it. -/
def State.frameToRing (s : State) (p rule : Nat) (tagged : Bool) (bytes : List Byte) : State :=
  let rg := s.reg (Reg.pktPRings p)
  let r := fld rg 14 0
  if !bitAt rg 15 || !s.ringEn r || s.ringType r != 7 then s.bump (Reg.pktPRxDrop p) 32
  else
    let t := s.pacer.ns.toNat - s.getF (Reg.pktPTsLat p) 15 0
    let mk (ph lost seq _dropped : Nat) : List Byte :=
      leBytes 1 rule ++ leBytes 1 ((if tagged then 4 else 0) + lost * 2 + ph) ++ leBytes 2 bytes.length ++ leBytes 1 p ++
        leBytes 3 0 ++ leBytes 8 t ++ leBytes 4 seq ++ leBytes 44 0 ++ bytes ++ List.replicate (1984 - bytes.length) 0#8
    if s.ringRoom r then (s.ringWrite r false mk).bump (Reg.pktPRxFrames p) 32
    else ((s.ringWrite r false mk).bump (Reg.pktPRxDrop p) 32).packetEvent p 0x39 0xFFF

/-! ### Channel status of AM824 flows (R138) -/

/-- The window of `PKT_CS_SEL` shows the flow selected. -/
def State.showPktCs (s : State) : State :=
  let h := s.flowAt (s.getF Reg.pktCsSel 10 0)
  forUpto 6 (fun i s => (s.setReg (Reg.pktCsA i) (BitVec.ofNat 32 (leAt h.stA (4 * i) 4))).setReg (Reg.pktCsB i)
    (BitVec.ofNat 32 (leAt h.stB (4 * i) 4))) s

/-- The bits of a channel-status block as bytes, first bit least significant. -/
def bitBytes (bits : List Bool) : List Byte :=
  (List.range (bits.length / 8)).map fun i =>
    BitVec.ofNat 8 ((List.range 8).foldl (fun a j => a + if bits.getD (i * 8 + j) false then 2 ^ j else 0) 0)

/-- One AM824 word on a channel of flow `f`: B in bit 29, P in 27, C in 26, V in 24, the sample in 23 to 0. The block-start bit ends
the channel-status block gathered before it. -/
def State.am824 (s : State) (f ch port : Nat) (w : Word) : State × Word × Bool :=
  let fh := s.flowAt f
  let h := if ch = 0 then fh.csA else fh.csB
  let put (s : State) (h : CsH) : State :=
    let fh := s.flowAt f
    s.setFlow f (if ch = 0 then { fh with csA := h } else { fh with csB := h })
  let s := if !bitAt w 29 then put s { h with bits := h.bits ++ [bitAt w 26] }
    else
      let bs := bitBytes h.bits
      let early := h.bits.length != 192
      let h0 := { h with bits := [bitAt w 26] }
      if h.bits.isEmpty then put s h0
      else if early || ((bs.getD 0 0).getLsbD 0 && crcc bs != leAt bs 23 1) then
        (put s h0).packetEvent port 0x13 f
      else
        let h1 := h0.good bs
        let s := put s h1
        let fh := s.flowAt f
        let s := (s.setFlow f (if ch = 0 then { fh with stA := bs } else { fh with stB := bs })).showPktCs
        let fh := s.flowAt f
        let s := s.setBit (Reg.pktRxfState f) 5 (fh.csA.nonAudio || fh.csB.nonAudio)
        if h1.nonAudio && !h.nonAudio then
          (s.setFlow f { s.flowAt f with nextFlags := (s.flowAt f).nextFlags ||| 2 ^ (6 + ch) }).packetEvent port 0x14 f
        else s
  let par := (List.range 28).foldl (fun a i => a != bitAt w i) false
  let h := if ch = 0 then (s.flowAt f).csA else (s.flowAt f).csB
  let (h, y, clean) := h.sample (rxFlags fh.entry / 16 % 4)
    { bits := w.setWidth 24, invalid := bitAt w 24, parityOk := !par }
  let s := put s h
  let fh := s.flowAt f
  let before := fh.parity
  let fh := { fh with parity := fh.parity + (if par then 1 else 0), invalid := fh.invalid + (if bitAt w 24 then 1 else 0) }
  let s := s.setFlow f fh
  let s := if par then s.packetEvent port 0x11 f else s
  let s := if par && before = 24 then s.packetEvent port 0x12 f else s
  (s, y, clean)

/-! ### Placing a packet (R137 to R145) -/

/-- The value of n with n ≡ x (mod 2^32) nearest to `near`. -/
def nearestCount (x near : Nat) : Nat :=
  let d := signed 32 ((x + 2 ^ 32 - near % 2 ^ 32) % 2 ^ 32)
  ((near : Int) + d).toNat

/-- The stamped time of sample n of a flow, in ns (R140). -/
def rxStamp (en : List Byte) (shift : Int) (n : Nat) : Int :=
  (((n + rxPlayout en * rxMul en) * 1000000000 / (48000 * rxMul en) : Nat) : Int) + shift

/-- The heat of a sample, from its exact stamped time. -/
def rxHeat (en : List Byte) (shift : Int) (n : Nat) : Nat :=
  let r : Nat := rxMul en
  ((((n + rxPlayout en * r) * 1000000 : Nat) : Int) + shift * ((48 * r : Nat) : Int)).toNat / (48 * r * 1000000)

/-- The first sample of heat `c`. -/
def rxFirst (en : List Byte) (shift : Int) (c : Nat) : Nat :=
  let r : Nat := rxMul en
  let x : Int := ((c * 1000000 * (48 * r) : Nat) : Int) - shift * ((48 * r : Nat) : Int)
  ceilDiv x.toNat 1000000 - rxPlayout en * r

/-- Frames `is` of a media payload: a sample of each channel, and whether each is as received. -/
def State.decodeFrames (s : State) (f port chans enc : Nat) (pay : List Byte) (is : List Nat) : State × List (List Word × List Bool) :=
  let b := encBytes enc
  is.foldl (fun (a : State × List (List Word × List Bool)) i =>
    let (s, row) := (List.range chans).foldl (fun (a : State × List Word × List Bool) c =>
      let v := beAt pay ((i * chans + c) * b) b
      if enc = 2 then
        let (s, y, clean) := a.1.am824 f c port (BitVec.ofNat 32 v)
        (s, a.2.1 ++ [y], a.2.2 ++ [clean])
      else (a.1, a.2.1 ++ [pcmSample (8 * b) v], a.2.2 ++ [true])) (a.1, [], [])
    (s, a.2 ++ [row])) (s, [])

/-- A leg receives a usable packet: 16 in a row bring it up, and the first leg up brings the flow back (R77, R143). -/
def State.legGood (s : State) (f p : Nat) : State :=
  let h := s.flowAt f
  let l := if p = 0 then h.leg0 else h.leg1
  let l' : LegH := { up := l.up || 16 ≤ l.good + 1, good := l.good + 1 }
  let s := s.setFlow f (if p = 0 then { h with leg0 := l' } else { h with leg1 := l' })
  if l.up || !l'.up then s
  else
    let st : Stream := .flow (Fin.ofNat 2048 f)
    let s := s.setBit (Reg.pktRxfState f) (3 + p) true
    let port := flowPort h.entry
    let s := if rxTwoLegs h.entry then s.packetEvent port 0x34 f else s
    if s.streamLost st then
      let s := if h.fresh then (s.nextFlag st 2).setFlow f { (s.nextFlag st 2).flowAt f with fresh := false } else s
      s.streamBack st
    else s

/-- A packet that is not usable ends a leg's run of consecutive usable packets (R143). -/
def State.legBad (s : State) (f p : Nat) : State :=
  let h := s.flowAt f
  s.setFlow f (if p = 0 then { h with leg0 := { h.leg0 with good := 0 } } else { h with leg1 := { h.leg1 with good := 0 } })

/-- A usable packet is placed by its timestamp: late and early samples are dropped, a packet whose places are filled is a duplicate
(R142, R144). -/
def State.placePacket (s : State) (f p ts : Nat) (pay : List Byte) : State :=
  let h := s.flowAt f
  let en := h.entry
  let rate := 48000 * rxMul en
  let now := s.pacer.ns.toNat
  let k := rxS en
  let x := (ts + 2 ^ 32 - leAt en 24 4) % 2 ^ 32
  let n := nearestCount x ((now * rate + 500000000) / 1000000000)
  let shift : Int := if !rxAsync en then 0
    else if h.acquired then h.shift else (now : Int) - (((n + k) * 1000000000 / rate : Nat) : Int)
  let n := if rxAsync en && h.acquired then nearestCount x ((((now : Int) - shift).toNat * rate + 500000000) / 1000000000) else n
  let s := s.setFlow f { h with shift := shift, acquired := true, arrived := some (n + k, now) }
  let here := (List.range k).map fun i => n + i
  let isOpen (j : Nat) : Bool := decide (s.heat ≤ rxHeat en shift j)
  let cap := rxFirst en shift s.heat + leAt en 36 2
  let late := here.any fun j => !isOpen j
  let early := here.any fun j => isOpen j && decide (cap ≤ j)
  let good := here.filter fun j => isOpen j && decide (j < cap)
  let has (j : Nat) : Bool := h.buf.any fun q => q.1 == j
  let dup := !good.isEmpty && good.all has
  let new := good.filter fun j => !has j
  let (s, frames) := s.decodeFrames f (flowPort en) (rxChans en) (fmtEnc (rxFmt en)) pay (new.map fun j => j - n)
  let h := s.flowAt f
  let m : Int := (rxStamp en shift n - (now : Int)) / 1000
  let h := { h with buf := h.buf ++ (new.zip frames),
                    late := h.late + (if late then 1 else 0), early := h.early + (if early then 1 else 0),
                    dup := h.dup + (if dup then 1 else 0), legs := if new.isEmpty then h.legs else h.legs ||| 2 ^ p }
  let s := s.setFlow f h
  let s := if late then s.bump (Reg.pktRxfLateCnt f) 32 else s
  let s := if dup then s.bump (Reg.pktRxfDupCnt f) 32 else s
  if new.isEmpty || (s.reg (Reg.pktRxfMargin f)).toNat ≤ m.toNat then s
  else s.setReg (Reg.pktRxfMargin f) (BitVec.ofNat 32 m.toNat)

/-- The RTP packet in a UDP payload: its timestamp, payload type, SSRC and media payload; none for a version other than 2. -/
def rtpOf (udp : List Byte) : Option (Nat × Nat × Nat × List Byte) :=
  let b0 := beAt udp 0 1
  let hd := 12 + 4 * (b0 % 16)
  let hd := if b0 / 16 % 2 = 1 then hd + 4 + 4 * beAt udp (hd + 2) 2 else hd
  let pad := if b0 / 32 % 2 = 1 then (udp.getLastD 0#8).toNat else 0
  if b0 / 64 ≠ 2 ∨ udp.length < hd + pad then none
  else some (beAt udp 4 4, beAt udp 1 1 % 128, beAt udp 8 4, (udp.drop hd).take (udp.length - hd - pad))

/-- A packet of flow `f` on port `p`. -/
def State.flowPacket (s : State) (f p : Nat) (udp : List Byte) : State :=
  let en := (s.flowAt f).entry
  let s := s.bump (Reg.pktPFlowPkts p) 32
  match rtpOf udp with
  | some (ts, pt, ssrc, pay) =>
    if pt = leAt en 32 1 ∧ (rxFlags en / 4 % 2 = 0 ∨ ssrc = leAt en 20 4) ∧
        pay.length = rxChans en * rxS en * encBytes (fmtEnc (rxFmt en)) then
      let s := s.bump (if p = 0 then Reg.pktRxfP0Cnt f else Reg.pktRxfP1Cnt f) 32
      (s.legGood f p).placePacket f p ts pay
    else (s.legBad f p).bump (Reg.pktRxfErrCnt f) 32
  | none => (s.legBad f p).bump (Reg.pktRxfErrCnt f) 32

/-- The enabled flow with a leg on port `p` that an IPv4 UDP packet belongs to, the lowest. -/
def State.flowOf (s : State) (p src dst port : Nat) : Option Nat :=
  (s.flows.find? fun x =>
    let en := x.2.entry
    s.bit (Reg.pktRxfState x.1) 0 && rxLeg en p && leAt en (4 * p) 4 == dst && leAt en (16 + 2 * p) 2 == port &&
      (leAt en (8 + 4 * p) 4 == 0 || leAt en (8 + 4 * p) 4 == src)).map (·.1)

/-- A frame received on port `p`, without its FCS: the first rule of R132 that it meets decides. Of two 802.1Q tags the second is read as the
EtherType, so such a frame meets rules 3 to 6 only (log entry 135). -/
def State.rxFrame (s : State) (p : Nat) (fcsOk : Bool) (bs : List Byte) : State :=
  if !s.bit (Reg.pktPCtrl p) 0 || !s.bit (Reg.pktPStatus p) 0 then s
  else if !fcsOk then s.bump (Reg.pktPFcsErr p) 32
  else if 1518 < bs.length then s.bump (Reg.pktPRxDrop p) 32
  else
    let tagged : Bool := beAt bs 12 2 == 0x8100
    let l2 := if tagged then 18 else 14
    let ip := bs.drop l2
    let ihl := beAt ip 0 1 % 16 * 4
    let udp : Bool := beAt bs (l2 - 2) 2 == 0x0800 && beAt ip 0 1 / 16 == 4 && beAt ip 9 1 == 17
    let dport := beAt ip (ihl + 2) 2
    let pay := (ip.drop (ihl + 8)).take (beAt ip (ihl + 4) 2 - 8)
    let flow := if udp then s.flowOf p (beAt ip 12 4) (beAt ip 16 4) dport else none
    let own := leBytes 4 (s.reg (Reg.pktPMacLo p)).toNat ++ leBytes 2 (s.getF (Reg.pktPMacHi p) 15 0)
    let dst := bs.take 6
    match flow with
    | some f => s.flowPacket f p pay
    | none =>
      if dst = own ∨ dst = List.replicate 6 0xFF#8 then s.frameToRing p 3 tagged bs
      else if udp ∧ (dport = 319 ∨ dport = 320) then s.frameToRing p 4 tagged bs
      else if (bs.getD 0 0).getLsbD 0 ∧ s.bit (Reg.pktPCtrl p) 11 then s.frameToRing p 5 tagged bs
      else s.bump (Reg.pktPRxDrop p) 32

/-- PKT_RX_FRAME: a frame of port `p`, whether its FCS is good, and its bytes from the destination MAC, without the FCS. -/
def execPktRxFrame (p : Fin 2) (fcsOk : Bool) (bytes : List Byte) (s : State) : Host.Outcome State Fault Refusal :=
  act s fun s => if s.inReset (192 + p.val) then s else s.rxFrame p.val fcsOk bytes

/-! ### Legs and links (R71, R130, R143, R161) -/

/-- A leg goes down; with no leg left the flow is lost. `quiet` when its link is down. -/
def State.legDown (s : State) (f p : Nat) (quiet : Bool) : State :=
  let h := s.flowAt f
  let st : Stream := .flow (Fin.ofNat 2048 f)
  let wasUp := if p = 0 then h.leg0.up else h.leg1.up
  if !s.bit (Reg.pktRxfState f) 0 || !rxLeg h.entry p then s
  else
    let s := (s.setFlow f (if p = 0 then { h with leg0 := {} } else { h with leg1 := {} })).setBit (Reg.pktRxfState f) (3 + p) false
    let port := flowPort h.entry
    let s := if wasUp && rxTwoLegs h.entry && !quiet then s.packetEvent port 0x33 f else s
    let left := rxLeg h.entry (1 - p) && (if p = 0 then h.leg1.up else h.leg0.up)
    if left || s.streamLost st then s else (s.loseStream st).streamEvent st 0x06 0x35

/-- LEG_DOWN: a leg of a flow has had no usable packet for 4 packet times. -/
def execLegDown (f : Fin 2048) (p : Fin 2) (s : State) : Host.Outcome State Fault Refusal :=
  act s fun s => s.legDown f.val p.val false

/-- The enabled receive flows with a leg on port `p`. -/
def State.flowsOn (s : State) (p : Nat) : List Nat :=
  (s.flows.filter fun x => s.bit (Reg.pktRxfState x.1) 0 && rxLeg x.2.entry p).map (·.1)

/-- Leg `p` of a transmit flow is being sent: its port is enabled and transmits, and its link is up (R152, R162). -/
def State.portSends (s : State) (p : Nat) : Bool := s.bit (Reg.pktPStatus p) 0 && s.bit (Reg.pktPCtrl p) 0 && s.bit (Reg.pktPCtrl p) 1

/-- P0 and P1 sending of every transmit flow. -/
def State.showSending (s : State) : State :=
  (s.txFlows.map (·.1)).foldl (fun s f =>
    let en := (s.txFlowAt f).entry
    let on := s.bit (Reg.pktTxfState f) 0
    (s.setBit (Reg.pktTxfState f) 2 (on && leAt en 28 1 % 2 == 1 && s.portSends 0)).setBit (Reg.pktTxfState f) 3
      (on && leAt en 28 1 / 2 % 2 == 1 && s.portSends 1)) s

/-- A port's link drops: event 0x31, and its legs are down (R71, R161). -/
def State.pktLinkDown (s : State) (p : Nat) : State :=
  if !s.bit (Reg.pktPStatus p) 0 then s
  else
    let s := (s.setReg (Reg.pktPStatus p) 0).packetEvent p 0x31 0xFFF
    ((s.flowsOn p).foldl (fun s f => s.legDown f p true) s).showSending

def execPktLinkDown (p : Fin 2) (s : State) : Host.Outcome State Fault Refusal := act s fun s => s.pktLinkDown p.val

/-- PKT_LINK_UP: the link comes up, with no FEC where RS-FEC is configured or negotiated and the link runs at 10 Gb/s (log entry 134); with AN_EN at what was negotiated within the abilities advertised, else as configured. -/
def execPktLinkUp (p : Fin 2) (fast : Bool) (fec : Fin 3) (s : State) : Host.Outcome State Fault Refusal :=
  act s fun s =>
    let p := p.val
    let c := s.reg (Reg.pktPCtrl p)
    if !bitAt c 0 then s
    else
      let sp := if bitAt c 4 then fast && bitAt c 2 else bitAt c 2
      let fe := if bitAt c 4 then min fec.val (fld c 9 8) else fld c 9 8
      let fe := if fe = 2 ∧ !sp then 0 else fe
      ((s.setReg (Reg.pktPStatus p) (BitVec.ofNat 32 (fe * 64 + (if sp then 32 else 0) + 1))).packetEvent p 0x32 0xFFF).showSending

/-! ### Host frames (R147, R464) -/

/-- The FCS of a frame, and its padding to 60 bytes. -/
def withFcs (bs : List Byte) : List Byte :=
  let bs := bs ++ List.replicate (60 - bs.length) 0#8
  bs ++ leBytes 4 (crc32 bs).toNat

/-- PKT_HOST_FRAME_SEND: the next entry of port `p`'s transmit frame ring, as read from host memory, is sent and completed. -/
def execPktHostFrameSend (p : Fin 2) (entry : List Byte) (s : State) : Host.Outcome State Fault Refusal :=
  act s fun s =>
    let p := p.val
    let rg := s.reg (Reg.pktPRings p)
    let r := fld rg 30 16
    let c := s.reg (Reg.pktPCtrl p)
    if s.inReset (192 + p) || !bitAt rg 31 || !bitAt c 0 || !bitAt c 1 || !s.ringEn r || s.ringErr r || s.ringType r != 8 || s.ringOcc r == 0 then s
    else if s.stalls r then s.setBit (Reg.ringStatus r) 2 true
    else
      let org := Origin.ring (Fin.ofNat 32768 r) (s.reg (Reg.ringCons r))
      let s := (s.fetchOne r).setBit (Reg.ringStatus r) 2 false
      let len := leAt entry 0 2
      let ts := leAt entry 2 1 % 2 == 1
      let tag := BitVec.ofNat 64 (leAt entry 8 8)
      let bad : Option Nat := if len < 14 ∨ 1518 < len then some 0 else if 2 ≤ leAt entry 2 1 then some 2
        else (firstNonzero entry 3 5).orElse fun _ => firstNonzero entry 16 48
      match bad with
      | some off => s.completeAt org { status := stBad, tag := tag, time := s.heat, value := off }
      | none =>
        if !s.bit (Reg.pktPStatus p) 0 then s.completeAt org { status := stFaulted, tag := tag, time := s.heat }
        else
          let s := ({ s with frameTx := Sparse.set [] s.frameTx p (withFcs ((entry.drop 64).take len)) }).bump (Reg.pktPTxFrames p) 32
          let t := if ts then s.pacer.ns.toNat + s.getF (Reg.pktPTsLat p) 31 16 else s.heat
          s.completeAt org { status := stOk, tag := tag, time := t }

/-- PKT_CS_READ: a read of word 0 of a channel of the window, `PKT_CS_A0` or `PKT_CS_B0`, latches words 1 to 5 of that channel for the master
(R111, R138). -/
def execPktCsRead (x : CsRead) (s : State) : Host.Outcome State Fault Refusal :=
  act s fun s =>
    let r (i : Nat) := if x.ch.val = 0 then Reg.pktCsA i else Reg.pktCsB i
    let s := s.latchWords x.master ((List.range 5).map fun i => r (i + 1)) s.reg
    { s with rdata := s.reg (r 0) }

/-! ### Port capacity (R135, R149) -/

/-- Packets and bits a second of a flow whose packets carry `payload` bytes. -/
def flowBits (pps payload : Nat) : Nat := pps * (payload + 82) * 8

def rxPps (en : List Byte) : Nat := ptimePerSec (fmtPtime (rxFmt en))
def rxPayload (en : List Byte) : Nat := rxChans en * rxS en * encBytes (fmtEnc (rxFmt en))

def txFmt (en : List Byte) : Nat := leAt en 26 1
def txChans (en : List Byte) : Nat := leAt en 25 1
def txLeg (en : List Byte) (p : Nat) : Bool := leAt en 28 1 / 2 ^ p % 2 == 1
def txS (en : List Byte) : Nat := ptimeSamples (fmtPtime (txFmt en))
def txPps (en : List Byte) : Nat := ptimePerSec (fmtPtime (txFmt en))
def txPayload (en : List Byte) : Nat := txChans en * txS en * encBytes (fmtEnc (txFmt en))

/-- The line rate of a port in bits a second. -/
def State.lineRate (s : State) (p : Nat) : Nat :=
  let fast := if s.bit (Reg.pktPStatus p) 0 then s.bit (Reg.pktPStatus p) 5 else s.bit (Reg.pktPCtrl p) 2
  if fast then 25000000000 else 10000000000

/-- Receive traffic of a port with flow `f` set to `en`: packets and bits a second. -/
def State.rxTraffic (s : State) (p f : Nat) (en : List Byte) : Nat × Nat :=
  let es := ((s.flows.filter fun x => x.1 != f && s.bit (Reg.pktRxfState x.1) 0).map (·.2.entry) ++ [en]).filter fun e => rxLeg e p
  ((es.map rxPps).sum, (es.map fun e => flowBits (rxPps e) (rxPayload e)).sum)

def State.txTraffic (s : State) (p f : Nat) (en : List Byte) : Nat :=
  let es := ((s.txFlows.filter fun x => x.1 != f && s.bit (Reg.pktTxfState x.1) 0).map (·.2.entry) ++ [en]).filter fun e => txLeg e p
  (es.map fun e => flowBits (txPps e) (txPayload e)).sum

def State.rxPortsOk (s : State) (f : Nat) (en : List Byte) : Bool :=
  [0, 1].all fun p => !rxLeg en p ||
    ((s.rxTraffic p f en).1 ≤ 4000000 && (s.rxTraffic p f en).2 * 10 ≤ s.lineRate p * 9)

def State.txPortsOk (s : State) (f : Nat) (en : List Byte) : Bool :=
  [0, 1].all fun p => !txLeg en p || s.txTraffic p f en * 10 ≤ s.lineRate p * 9

/-- `PKT_SRC_USED` and `PKT_FLOWS_USED`. -/
def State.showFlows (s : State) : State :=
  let isFlow (b : Bind) : Bool := match b with
    | .flow _ _ => true
    | _ => false
  let src := (s.srcs.filter fun x => isFlow x.2.bind).length
  let rx := (s.flows.filter fun x => s.bit (Reg.pktRxfState x.1) 0).length
  let tx := (s.txFlows.filter fun x => s.bit (Reg.pktTxfState x.1) 0).length
  (s.setReg Reg.pktSrcUsed (BitVec.ofNat 32 (src % 8192))).setReg Reg.pktFlowsUsed (BitVec.ofNat 32 (tx * 2 ^ 16 + rx))

/-! ### FLOW_RX_SET (R133 to R136, R469) -/

/-- The first check of R134 an entry fails. -/
def State.rxEntryBad (s : State) (f : Nat) (en : List Byte) : Bool :=
  let fm := rxFmt en
  let src := leAt en 28 2
  let mine (b : Bind) : Bool := match b with
    | .none => true
    | .flow g _ => g == f
    | _ => false
  let rmul := rxMul en
  fmtEnc fm == 3 || 5 ≤ fmtPtime fm || !(fmtRate fm == 2 || fmtRate fm == 4) || (fmtEnc fm == 2 && rxChans en != 2) ||
    rxChans en == 0 || 64 < rxChans en || leAt en 32 1 < 96 || 127 < leAt en 32 1 || rxFlags en % 4 == 0 || 64 ≤ rxFlags en ||
    8191 < src + rxChans en - 1 || (List.range (rxChans en)).any (fun c => !mine (s.srcAt (src + c)).bind) ||
    1440 < rxPayload en || rxPlayout en * rmul < rxS en || 3840 < rxPlayout en || 3 < leAt en 40 1 ||
    leAt en 41 1 < 8 || 64 < leAt en 41 1 || !zerosAt en 42 6

/-- The check of R135, with the state in which the flow's converter is taken. -/
def State.rxResources (s : State) (f : Nat) (en : List Byte) : Option State :=
  let others := (s.srcs.filter fun x => match x.2.bind with
    | .flow g _ => g != f
    | _ => false).length
  let rate := fmtRate (rxFmt en)
  if 4096 < others + rxChans en || leAt en 36 2 < rxMul en * rxPlayout en + 2 * rxS en || !s.rxPortsOk f en ||
      !Config.vatSupplies (leAt en 36 2 * rxChans en * 4 + leAt en 41 1 * slotSize (frames112 rate) (rxChans en)) then none
  else if !rxConv en then some (s.asrcDrop (4096 + f))
  else if leAt en 38 2 < historyNeed (leAt en 40 1) rate then none
  else s.asrcTake (4096 + f) (rxChans en) 3 (leAt en 40 1) rate (leAt en 38 2)

/-- The entries of flow `f` are freed: what they play fades out. -/
def State.freeFlow (s : State) (f : Nat) : State :=
  s.mapSrcs (fun b => match b with
    | .flow g _ => g == f
    | _ => false) SrcH.unbind

/-- A commit changes what restarts the flow (R136). -/
def restartsFlow (old new : List Byte) : Bool :=
  let same (off n : Nat) : Bool := leAt old off n == leAt new off n
  !(same 0 8 && same 16 4 && same 30 2 && same 34 2 && same 24 4 && rxAsync old == rxAsync new && same 36 5 && same 41 1)

/-- The flow acquires as after a loss, with an empty buffer; what its sources play fades out. -/
def State.restartFlow (s : State) (f : Nat) : State :=
  let h := s.flowAt f
  let s := s.setFlow f { h with buf := [], leg0 := {}, leg1 := {}, acquired := false, shift := 0, arrived := none, mark := none, csA := {}, csB := {},
                                nextFlags := 0, fresh := true, legs := 0, late := 0, early := 0, dup := 0, parity := 0, invalid := 0 }
  let s := (s.putF (Reg.pktRxfState f) 5 1 2).setConv (4096 + f) {}
  s.mapStream (.flow (Fin.ofNat 2048 f)) SrcH.fadeAway

/-- The flow has no leg on port `p`: it is down, and the flow is lost if its other leg is down too (R136, R143). -/
def State.legCleared (s : State) (f p : Nat) : State :=
  let h := s.flowAt f
  let st : Stream := .flow (Fin.ofNat 2048 f)
  let s := (s.setFlow f (if p = 0 then { h with leg0 := {} } else { h with leg1 := {} })).setBit (Reg.pktRxfState f) (3 + p) false
  let left := if p = 0 then h.leg1.up else h.leg0.up
  if left || s.streamLost st then s else (s.loseStream st).streamEvent st 0x06 0x35

/-- A checked entry comes into force. -/
def State.setFlowEntry (s : State) (f : Nat) (en : List Byte) : State :=
  let h := s.flowAt f
  let was := s.bit (Reg.pktRxfState f) 0
  let bindAll (s : State) : State := (List.range (rxChans en)).foldl (fun s c =>
    let h := s.srcAt (rxSrc en c)
    if h.bind = .flow f c then s
    else s.setSrc (rxSrc en c) { h with bind := .flow f c, lost := true, fb := .off, fallback := none }) s
  let keep (k : Nat) : Bool := rxSrc en 0 ≤ k && k < rxSrc en 0 + rxChans en
  let drop (s : State) : State := (s.srcs.filter fun x => (match x.2.bind with
    | .flow g c => g == f && (!keep x.1 || rxSrc en c != x.1)
    | _ => false)).foldl (fun s x => s.setSrc x.1 x.2.unbind) s
  let s := bindAll (drop (s.setFlow f { h with entry := en, seq := if was then h.seq else 0 }))
  let conv := match s.asrcOf (4096 + f) with
    | some i => i
    | none => 0xFF
  let s := (s.putF (Reg.pktRxfState f) 23 16 conv).setBit (Reg.pktRxfState f) 7 (rxAsync en)
  let s := s.setBit (Reg.pktRxfState f) 0 true
  let s := if !was || restartsFlow h.entry en then s.restartFlow f else s
  [0, 1].foldl (fun s p => if rxLeg en p then s else s.legCleared f p) s

/-- A flow is disabled: its sources fade out and its entries are freed. -/
def State.dropFlow (s : State) (f : Nat) : State :=
  (((s.freeFlow f).asrcDrop (4096 + f)).setFlow f {}).setReg (Reg.pktRxfState f) 0

/-- The entry an update carries once it is fetched. -/
def fetchedEntry (e : Sched) : Option (List Byte) :=
  match e.fetched with
  | .data bs => if 48 ≤ bs.length ∧ crc32 (bs.take 48) = BitVec.ofNat 32 (e.desc.body.pl 16 4) then some (bs.take 48) else none
  | .error => none

def flowRxSetRow : Row where
  blk := .other
  check := fun _ d =>
    firstBad [(d.pl 0 2 < 2048, 0), (d.byte 2 < 2, 2), (d.pl 3 5 == 0, 3),
      (d.pl 8 8 % 8 == 0 && (d.byte 2 == 1 || d.pl 8 8 == 0), 8), (restZero d 20, 20)]
  onAccept := fun e s => if e.desc.body.byte 2 = 1 then { s with flowFetch := s.flowFetch ++ [e.id] } else s
  commit := fun e s =>
    let f := e.desc.body.pl 0 2
    if e.desc.body.byte 2 = 0 then ((s.dropFlow f).showFlows, resOk)
    else if s.flowFetch.contains e.id then (s, .retry { e with heat := e.heat + 1 })
    else match fetchedEntry e with
      | none => (s, .done stFaulted 0)
      | some en =>
        if s.rxEntryBad f en then (s, .done stBad 32)
        else match s.rxResources f en with
          | none => (s, .done stShort 0)
          | some s => ((s.setFlowEntry f en).showFlows, resOk)

/-- FLOW_RX_SET (R469): the fetch of the entry starts when the descriptor is accepted. -/
def execFlowRxSet (ph : Phase) (o : Origin) (d : Body) (s : State) : Host.Outcome State Fault Refusal :=
  descCmd flowRxSetRow 0x0610 ph o d s

/-- FLOW_ENTRY_FETCHED (R469): the read for the FLOW_RX_SET at `o` ends; a failed one, or one whose CRC does not match, completes the
descriptor FAULTED at once, with its group if it has one. -/
def execFlowEntryFetched (o : Origin) (rd : ReadResult) (s : State) : Host.Outcome State Fault Refusal :=
  act s fun s =>
    let due (e : Sched) : Bool := decide (e.org = o) && s.flowFetch.contains e.id
    let put (e : Sched) : Sched := if due e then { e with fetched := rd } else e
    match s.sched.find? due, s.groups.find? fun g => g.members.any due with
    | some e, _ =>
      let e' := put e
      let s := { s with flowFetch := s.flowFetch.filter (· != e.id) }
      if (fetchedEntry e').isNone then (s.unschedule e.id).completeWith e s.heat stFaulted 0
      else { s with sched := s.sched.map put }
    | none, some g =>
      match g.members.find? due with
      | none => s
      | some e =>
        let s := { s with flowFetch := s.flowFetch.filter (· != e.id) }
        let failed := (fetchedEntry (put e)).isNone
        let g' := { g with members := g.members.map put,
                           bad := if failed then g.bad.orElse (fun _ => some (stFaulted, 0, e.gidx)) else g.bad }
        if failed && g.closed then s.failGroup g' stFaulted 0 e.gidx
        else { s with groups := s.groups.map fun x => if x.id = g.id then g' else x }
    | none, none => s

/-! ### Receive blocks of flows (R140, R142, R143, R90) -/

/-- The ratio of a flow's converter: exactly its rate over 48 kHz for a synchronous flow (R140); for an asynchronous one tracked from the RTP
timestamps of its packets against their arrival, and its media times follow (R141). -/
def State.flowTrack (s : State) (f : Nat) : State :=
  let h := s.flowAt f
  let en := h.entry
  let rate := 48000 * rxMul en
  if !rxConv en then s
  else if !rxAsync en then
    let r := rxMul en * 2 ^ 24
    if (s.convAt (4096 + f)).ratio.toNat = r then s else s.measured (4096 + f) r
  else
    match h.arrived, h.mark with
    | some (n, t), some (n0, t0) =>
      if n0 < n ∧ t0 < t then
        let e : Int := (t : Int) - ((((n * 1000000000 / rate : Nat) : Int)) + h.shift)
        let part : Int := ((Config.asyncTrack e % 65536 : Nat) : Int)
        let s := s.setFlow f { h with mark := h.arrived, shift := h.shift + e * part / 65536 }
        s.measured (4096 + f) ((n - n0) * 1000000000 * 2 ^ 24 / (48000 * (t - t0)))
      else s
    | some _, none => s.setFlow f { h with mark := h.arrived }
    | none, _ => s

/-- The block of a flow for heat `c` closes, with the flags `extra` too: missing frames read as zero and are counted, more than 24 parity
errors silence it (R114, R138), the header and body go into the flow's ring, and its entries are fed, through the converter where it
has one. -/
def State.flowClose (s : State) (f c extra : Nat) : State :=
  let h := s.flowAt f
  let en := h.entry
  let code := 4096 + f
  let chans := rxChans en
  let lost := s.streamLost (.flow (Fin.ofNat 2048 f))
  let n0 := rxFirst en h.shift c
  let k := rxFirst en h.shift (c + 1) - n0
  let frames := (List.range k).map fun i => (h.buf.find? fun q => q.1 == n0 + i).map (·.2)
  let miss := (frames.filter Option.isNone).length
  let burst := 24 < h.parity
  let body := frames.map fun x => if burst then List.replicate chans (0#32 : Word) else (x.map (·.1)).getD (List.replicate chans 0#32)
  let fl := h.nextFlags ||| extra ||| (if lost then bfLost else 0) ||| (if s.relocking code then bfRelock else 0) |||
    (if h.csA.nonAudio then 64 else 0) ||| (if h.csB.nonAudio then 128 else 0)
  let hdr (time k miss seq bytes : Nat) (ratio : Word) : List Byte :=
    leBytes 8 time ++ leBytes 8 c ++ leBytes 2 f ++ leBytes 1 chans ++ leBytes 1 h.legs ++
      leBytes 2 k ++ leBytes 2 miss ++ leBytes 2 h.late ++ leBytes 2 h.early ++ leBytes 2 h.dup ++ leBytes 2 fl ++ leBytes 4 seq ++
      leBytes 4 ratio.toNat ++ leBytes 2 h.parity ++ leBytes 2 h.invalid ++ leBytes 4 bytes ++
      leBytes 4 (n0 + leAt en 24 4) ++ leBytes 12 0
  let s := if miss = 0 then s else s.bumpBy (Reg.pktRxfMissCnt f) 32 miss
  let s := s.flowTrack f
  let ratio : Word := if rxConv en then (s.convAt code).ratio else 0
  let time := (rxStamp en h.shift n0).toNat
  let s := s.setFlow f { s.flowAt f with
    buf := h.buf.filter (fun q => n0 + k ≤ q.1), closed := some c, legs := 0, late := 0, early := 0, dup := 0, parity := 0,
    invalid := 0, seq := (h.seq + 1) % 2 ^ 32, nextFlags := 0,
    ring := ((hdr time k miss h.seq (k * chans * 4) ratio ++ bytesOfWords body.flatten) :: h.ring).take (leAt en 41 1) }
  let quiet := lost || s.relocking code
  let slotOf : Bind → Option Nat := fun
    | .flow g ch => if g = f then some ch else none
    | _ => none
  if rxConv en then
    let per := periodNs (fmtRate (rxFmt en))
    let (s, t0, cols) := s.convHeat code c chans (some (rxStamp en h.shift n0 : Rat))
      (if quiet then [] else body.zipIdx.map fun p => ((rxStamp en h.shift n0 : Rat) + (p.2 : Rat) * per, p.1.map some))
    let s := s.convFile code (leAt en 41 1) fun seq ratio =>
      hdr t0.floor.toNat 48 0 seq (192 * chans) ratio ++ bytesOfWords (interleave cols)
    s.feedEntries slotOf fun e ch =>
      if quiet || e.lost then e.feedNone c else e.feed c (gridAt t0.floor.toNat : Nat) (cols.getD ch []) []
  else
    let usable : Bool := fl &&& (bfDisc ||| bfRelock ||| bfLost) == 0 && !burst
    s.feedEntries slotOf fun e ch =>
      if quiet || e.lost then e.feedNone c
      else e.feed c ((n0 + rxPlayout en : Nat) : Int) ((to48 0#32 (body.map fun r => r.getD ch 0)).map some)
        (frames.zip body |>.map fun p => match p.1 with
          | some x => if usable && x.2.getD ch false then some (p.2.getD ch 0) else none
          | none => none)

/-- RX_BLOCK_CLOSE (R90): the block of the heat that has ended closes for a stream, if it has not yet; `lines` are the levels of the PDM data
lines in it, for a PDM group (R119). -/
def execRxBlockClose (st : Stream) (lines : List (List Bool)) (s : State) : Host.Outcome State Fault Refusal :=
  act s fun s =>
    if s.heat = 0 then s
    else
      let c := s.heat - 1
      let due (x : Option Nat) : Bool := match x with
        | some d => decide (d < c)
        | none => true
      let portDue (h : RxH) : Bool := match h.blk with
        | some b => decide (b.heat < s.heat)
        | none => due h.closed
      match st with
      | .tdm n => if s.bit (Reg.tdmCtrl n.val) 0 && portDue (s.tdmRxAt n.val) then s.tdmClose n.val c false else s
      | .aes n => if s.bit (Reg.aesRxCfg n.val) 0 && portDue (s.aesRxAt n.val) then s.aesClose n.val c false else s
      | .pdm g => if due (s.pdmAt g.val).closed then s.pdmBlock g.val c 0 lines else s
      | .flow f => if s.bit (Reg.pktRxfState f.val) 0 && due (s.flowAt f.val).closed then s.flowClose f.val c 0 else s

/-! ### FLOW_TX_SET (R148, R149) -/

def txEntry (d : Body) : List Byte := (d.payload.drop 8).take 32

/-- The range checks of R148 and R149, each with its payload offset. -/
def txEntryChecks (en : List Byte) : List (Bool × Nat) :=
  [(leAt en 24 1 + txChans en ≤ 256, 32), (1 ≤ txChans en && txChans en ≤ 64, 33),
    (fmtEnc (txFmt en) ≤ 1 && fmtPtime (txFmt en) ≤ 4 && fmtRate (txFmt en) == 2 && txPayload en ≤ 1440, 34),
    (96 ≤ leAt en 27 1 && leAt en 27 1 ≤ 127, 35), (1 ≤ leAt en 28 1 && leAt en 28 1 ≤ 3, 36), (leAt en 29 1 < 64, 37),
    (1 ≤ leAt en 30 1, 38), (leAt en 31 1 == 0, 39)]

def flowTxSetRow : Row where
  blk := .other
  check := fun _ d =>
    firstBad (([(d.pl 0 2 < 512, 0), (d.byte 2 < 2, 2), (d.pl 3 5 == 0, 3)] : List (Bool × Nat)) ++
      (if d.byte 2 = 1 then txEntryChecks (txEntry d) else []))
  commit := fun e s =>
    let d := e.desc.body
    let f := d.pl 0 2
    if d.byte 2 = 0 then (((s.setTxFlow f {}).setReg (Reg.pktTxfState f) 0).showFlows, resOk)
    else
      let en := txEntry d
      if !s.txPortsOk f en then (s, .done stShort 0)
      else
        let h := s.txFlowAt f
        let s := s.setTxFlow f { h with entry := en, seq := if s.bit (Reg.pktTxfState f) 0 then h.seq else 0 }
        ((s.setReg (Reg.pktTxfState f) 3#32).showFlows.showSending, resOk)

def execFlowTxSet (ph : Phase) (o : Origin) (d : Body) (s : State) : Host.Outcome State Fault Refusal :=
  descCmd flowTxSetRow 0x0611 ph o d s

end Sys2Proof.Machine
end

