-- ==== Sys2Proof/Machine/Voter.lean ====
section
/-! DEFINITION. Tri-path voted sources (04_packet_audio_voting.md R153 to R160): VSRC_SET, and the voted block of a heat. -/

namespace Sys2Proof.Machine

/-! ### Entries (R153, R154) -/

def vsOut (en : List Byte) : Nat := leAt en 0 2
/-- The source entry of input i, none where it is unbound. -/
def vsIn (en : List Byte) (i : Nat) : Option Nat := let x := leAt en (2 + 2 * i) 2; if x = 0xFFFF then none else some x
/-- The alignment of input i in samples. -/
def vsD (en : List Byte) (i : Nat) : Nat := leAt en (8 + 2 * i) 2
def vsPrimary (en : List Byte) : Nat := leAt en 14 1
def vsEn (en : List Byte) : Bool := leAt en 15 1 % 2 == 1

/-- The bound inputs. -/
def vsBound (en : List Byte) : List Nat := (List.range 3).filter fun i => (vsIn en i).isSome

/-- A bound source that reaches the engine without a converter (R154). -/
def State.vsValid (s : State) (x : Nat) : Bool :=
  match (s.srcAt x).bind with
  | .tdm n _ => tdmSync (s.reg (Reg.tdmCtrl n))
  | .mic _ => true
  | .flow f _ => !rxConv (s.flowAt f).entry
  | _ => false

/-- The slots of the block ring of an input. -/
def State.vsSlots (s : State) (x : Nat) : Nat :=
  match (s.srcAt x).bind with
  | .tdm n _ => s.getF (Reg.tdmRxRingCfg n) 6 0
  | .mic m => s.getF (Reg.pdmGrpRingCfg (m / 8)) 6 0
  | .flow f _ => leAt (s.flowAt f).entry 41 1
  | _ => 0

/-! ### States of inputs (R158, R162) -/

abbrev vsUnbound : Nat := 0
abbrev vsAbsent : Nat := 1
abbrev vsJoining : Nat := 2
abbrev vsVoting : Nat := 3

def State.vsState (s : State) (v i : Nat) : Nat := s.getF (Reg.pktVsState v) (2 * i + 1) (2 * i)
def State.setVsState (s : State) (v i x : Nat) : State := s.putF (Reg.pktVsState v) (2 * i + 1) (2 * i) x

/-! ### VSRC_SET (R154, R466, R469) -/

def vsEntry (d : Body) : List Byte := (d.payload.drop 8).take 16

/-- A voted source is disabled, and its output entry freed. -/
def State.dropVsrc (s : State) (v : Nat) : State :=
  let s := s.mapSrcs (fun b => b == .voted v) SrcH.unbind
  ((s.setVsrc v {}).setReg (Reg.pktVsState v) 0x300#32).setReg (Reg.pktVsLag v) 0

def vsrcSetRow : Row where
  blk := .other
  check := fun _ d =>
    let en := vsEntry d
    firstBad [(d.pl 1 7 == 0, 1), (!vsEn en || vsOut en < 8192, 8), (!vsEn en || ((vsIn en 0).getD 0 < 8192), 10),
      (!vsEn en || ((vsIn en 1).getD 0 < 8192), 12), (!vsEn en || ((vsIn en 2).getD 0 < 8192), 14),
      (!vsEn en || vsD en 0 ≤ 3071, 16), (!vsEn en || vsD en 1 ≤ 3071, 18), (!vsEn en || vsD en 2 ≤ 3071, 20),
      (!vsEn en || vsPrimary en ≤ 2, 22), (leAt en 15 1 < 2, 23), (restZero d 24, 24)]
  commit := fun e s =>
    let d := e.desc.body
    let v := d.byte 0
    let en := vsEntry d
    if !vsEn en then (s.dropVsrc v, resOk)
    else
      let b := (s.srcAt (vsOut en)).bind
      let ins := vsBound en
      if ins.length < 2 then (s, .done stBad 34)
      else if (vsIn en (vsPrimary en)).isNone then (s, .done stBad 46)
      else if b ≠ .none ∧ b ≠ .voted v then (s, .done stBad 32)
      else if ins.any fun i => !s.vsValid ((vsIn en i).getD 0) then
        (s, .done stBad (34 + 2 * ((ins.find? fun i => !s.vsValid ((vsIn en i).getD 0)).getD 0)))
      else if ins.any fun i => 48 * (s.vsSlots ((vsIn en i).getD 0) - 2) < vsD en i then (s, .done stShort 0)
      else
        let s := if vsOut (s.vsrcAt v).entry = vsOut en then s else s.dropVsrc v
        let o := s.srcAt (vsOut en)
        let s := s.setVsrc v { entry := en }
        let s := if o.bind = .voted v then s
          else s.setSrc (vsOut en) { o with bind := .voted v, own := .on, fb := .off, lost := false, fallback := none, fadeIn := 64 }
        let st := ins.foldl (fun a i => a + vsVoting * 4 ^ i) (0x800 + 0x300)
        ((s.setReg (Reg.pktVsState v) (BitVec.ofNat 32 st)).setReg (Reg.pktVsLag v) 0, resOk)

def execVsrcSet (ph : Phase) (o : Origin) (d : Body) (s : State) : Host.Outcome State Fault Refusal :=
  descCmd vsrcSetRow 0x0612 ph o d s

/-! ### The voted block of a heat (R155 to R160) -/

/-- The sample of an entry whose ingress time lies nearest 48 kHz sample `n` since the epoch, as converted at the port, out of blocks of heat
`h` or before, those closed when voted heat `h` is built (R155); none where it is absent (R156). -/
def SrcH.ingress (x : SrcH) (h : Nat) (n : Int) : Option Word :=
  match x.blks.find? fun b => b.heat ≤ h && decide (b.base ≤ n) && decide (n < b.base + (b.raw.length : Int)) with
  | some b => b.raw.getD (n - b.base).toNat none
  | none => none

/-- The 48 samples of an entry that end up in voted heat `h` at alignment `d`; none when the input is absent. -/
def SrcH.aligned (x : SrcH) (h : Nat) (d : Int) : Option (List Word) :=
  let xs := (List.range 48).map fun k => x.ingress h ((h * 48 + k : Nat) - d)
  if xs.all Option.isSome then some (xs.map fun y => y.getD 0#32) else none

/-- The syndrome of a voter event (R161). -/
def voterSyn (code v input : Nat) : Word := syn8 code v input 0

/-- An outcome of R157: the input played, the inputs that agree with it, and the event of the run. -/
structure Ballot where
  out : Option Nat := none
  agree : List Nat := []
  event : Nat := 0

/-- The output of an electorate, each member with its samples. -/
def ballot (primary : Nat) (els : List (Nat × List Word)) : Ballot :=
  match els with
  | [] => { event := 0x45 }
  | [(i, _)] => { out := some i, event := 0x44 }
  | _ =>
    let ag := (els.filter fun p => els.any fun q => q.1 != p.1 && q.2 == p.2)
    let pick (l : List (Nat × List Word)) : Option Nat :=
      if l.any fun p => p.1 == primary then some primary else (l.head?).map (·.1)
    if ag.isEmpty then { out := pick els, event := 0x43 } else { out := pick ag, agree := ag.map (·.1) }

/-- The state machine of one input at the end of a heat (R158): `same` says that its samples equal the output. -/
def State.vsInput (s : State) (v i : Nat) (present : Bool) (b : Ballot) (same : Bool) : State :=
  let h := s.vsrcAt v
  let cnt (n : Nat) (s : State) : State := s.setVsrc v { s.vsrcAt v with join := h.join.set i n }
  let counts : Bool := (b.event == 0 || b.event == 0x44) && same
  let st := s.vsState v i
  if st = vsVoting then
    if !present then (cnt 0 (s.setVsState v i vsAbsent)).emit 219 0x41 (voterSyn 0x41 v i)
    else if b.event = 0 ∧ !b.agree.contains i then
      ((cnt 0 (s.setVsState v i vsJoining)).bump (Reg.pktVsOutvoteCnt v) 32).emit 219 0x40 (voterSyn 0x40 v i)
    else s
  else if st = vsAbsent then
    if present then cnt (if counts then 1 else 0) (s.setVsState v i vsJoining) else s
  else if st = vsJoining then
    if !present then cnt 0 (s.setVsState v i vsAbsent)
    else if !counts then cnt 0 s
    else
      let n := h.join.getD i 0 + 1
      if 16 ≤ n then (cnt 0 (s.setVsState v i vsVoting)).emit 219 0x42 (voterSyn 0x42 v i) else cnt n s
  else s

/-- The lags of R160 by magnitude: 0, 1, −1, 2, −2 … 48, −48. -/
def vsLags : List Int := 0 :: (List.range 48).flatMap fun i => [((i + 1 : Nat) : Int), -((i + 1 : Nat) : Int)]

/-- The field of `PKT_VSv_LAG` of a joining input. -/
def vsLag (x : SrcH) (h : Nat) (d : Nat) (out : List Word) : Nat :=
  match vsLags.find? fun l => x.aligned h ((d : Int) + l) == some out with
  | some l => pattern 8 l
  | none => 0x80

/-- Build the voted block of heat `h` of source `v` (R155 to R160), and write it to the output entry. -/
def State.voteBlock (s : State) (v h : Nat) : State :=
  let x := s.vsrcAt v
  let en := x.entry
  let src (i : Nat) : SrcH := s.srcAt ((vsIn en i).getD 0)
  let data (i : Nat) : Option (List Word) := if (vsIn en i).isNone then none else (src i).aligned h (vsD en i)
  let voters := (vsBound en).filter fun i => s.vsState v i == vsVoting
  let els := voters.filterMap fun i => (data i).map fun d => (i, d)
  let b := ballot (vsPrimary en) els
  let old := s.getF (Reg.pktVsState v) 9 8
  let out : Option (List Word) := b.out.bind data
  let moved : Bool := match b.out with
    | some o => old != 3 && old != o && decide ((data old).isSome ∧ data old ≠ data o)
    | none => false
  let fade : Option (Nat × Nat) := if moved then some (old, 0)
    else match x.fade with
      | some (i, k) => if (data i).isSome && b.out.isSome && b.out == some old then some (i, k) else none
      | none => none
  let mixed : List Word := match fade, out with
    | some (i, k), some o =>
      let p := (data i).getD []
      (List.range 48).map fun j =>
        let w := rcos (k + j + 1) 64
        if 64 ≤ k + j + 1 then o.getD j 0 else mixOf (sampleVal (p.getD j 0) * (1 - w) + sampleVal (o.getD j 0) * w)
    | _, some o => o
    | _, none => []
  let fade' := match fade with
    | some (i, k) => if 64 ≤ k + 48 then none else some (i, k + 48)
    | none => none
  let s := if b.event ≠ 0 ∧ x.run ≠ b.event then s.emit 219 b.event (voterSyn b.event v 0xFF) else s
  let s := if b.event = 0x43 then s.bump (Reg.pktVsNomajCnt v) 32 else s
  let s := s.setVsrc v { x with run := b.event, fade := fade' }
  let s := (List.range 3).foldl (fun s i =>
    if (vsIn en i).isNone then s else s.vsInput v i (data i).isSome b ((data i).isSome && data i == out)) s
  let s := (List.range 3).foldl (fun s i =>
    let f := if s.vsState v i = vsJoining then vsLag (src i) h (vsD en i) (out.getD []) else 0
    s.putF (Reg.pktVsLag v) (8 * i + 7) (8 * i) f) s
  let s := (s.putF (Reg.pktVsState v) 9 8 (b.out.getD 3)).setBit (Reg.pktVsState v) 10 (b.event == 0x43)
  let o := s.srcAt (vsOut en)
  match out with
  | none =>
    let o := if o.lost then o else o.lose
    s.setSrc (vsOut en) (o.feedNone h)
  | some _ =>
    let o := if o.lost then o.regain h else o
    s.setSrc (vsOut en) (o.feed h (h * 48 : Nat) (mixed.map some) [])

/-- The voted blocks of heat `h` of every enabled voted source. -/
def State.voteBlocks (s : State) (h : Nat) : State :=
  ((s.vsrcs.filter fun x => vsEn x.2.entry).map (·.1)).foldl (fun s v => s.voteBlock v h) s

end Sys2Proof.Machine
end

