-- ==== Sys2Proof/Machine/ZoneOps.lean ====
section
/-! DEFINITION. The parts of the zone mixer (05_zones_layers.md R163 to R183): gains and ramps, sides of a switch, layers and their
activity, sources and their readiness, and what the zone mixer's registers show. -/

namespace Sys2Proof.Machine

/-! ### Ramps and sides (R166, R167, R169) -/

/-- The level of a ramp, in 0.01 dB. -/
def RampH.level (r : RampH) : Rat := if r.len = 0 then r.goal else r.start + (r.goal - r.start) * (r.pos : Rat) / (r.len : Rat)

/-- One sample on; none at its end. -/
def stepRamp : Option RampH → Option RampH
  | none => none
  | some r => if r.len ≤ r.pos + 1 then none else some { r with pos := r.pos + 1 }

/-- A gain and a mute as a level. -/
def levelOf (gain : Int) (mute : Bool) : Int := if mute then -12000 else gain

/-- A ramp to a gain and mute over so many ms. -/
def rampTo (now : Rat) (gain : Int) (mute : Bool) (ms : Nat) : RampH := { start := now, goal := (levelOf gain mute : Rat), len := ms * 48 }

/-- A factor through a 64-sample raised-cosine ramp from the factor left. -/
def fadeFactor (fade : Option (Rat × Nat)) (f : Rat) : Rat :=
  match fade with
  | none => f
  | some (g, k) => g + (f - g) * rcos (k + 1) 64

def stepFade : Option (Rat × Nat) → Option (Rat × Nat)
  | none => none
  | some (g, k) => if 64 ≤ k + 1 then none else some (g, k + 1)

/-- One sample of a side: how it goes on, and its factor. -/
def Side.step : Side → Side × Rat
  | .off => (.off, 0)
  | .on => (.on, 1)
  | .joinWait => (.joinWait, 0)
  | .leaveWait => (.leaveWait, 1)
  | .rampIn n => (if 64 ≤ n + 1 then .on else .rampIn (n + 1), rcos (n + 1) 64)
  | .rampOut n => (if 64 ≤ n + 1 then .off else .rampOut (n + 1), 1 - rcos (n + 1) 64)

/-- A zero crossing ends a wait at once; a timeout starts its ramp. -/
def Side.cross : Side → Side
  | .joinWait => .on
  | .leaveWait => .off
  | x => x

def Side.expire : Side → Side
  | .joinWait => .rampIn 0
  | .leaveWait => .rampOut 0
  | x => x

/-- A side that waits for a zero crossing. -/
def Side.waits : Side → Bool
  | .joinWait => true
  | .leaveWait => true
  | _ => false

/-! ### Zones -/

def ZoneH.level (h : ZoneH) : Rat := match h.ramp with
  | some r => r.level
  | none => (levelOf h.gain h.mute : Rat)

/-- G_z, with its mute and enable (R163). -/
def ZoneH.factor (h : ZoneH) : Rat := fadeFactor h.fade (if h.en then dbLinear h.level else 0)

def ZoneH.step (h : ZoneH) : ZoneH := { h with ramp := stepRamp h.ramp, fade := stepFade h.fade }

/-- The step that waits applies. -/
def ZoneH.cross (h : ZoneH) : ZoneH :=
  match h.wait with
  | some (g, m, e) => { h with gain := g, mute := m, en := e, wait := none, fade := none, ramp := if h.gain = g ∧ h.mute = m then h.ramp else none }
  | none => h

def ZoneH.expire (h : ZoneH) : ZoneH := if h.wait.isSome then { h.cross with fade := some (h.factor, 0) } else h

/-! ### Layers (R163, R168, R171 to R173) -/

def LayerH.level (h : LayerH) : Rat := match h.ramp with
  | some r => r.level
  | none => (levelOf h.gain h.mute : Rat)

/-- The gate of the activity rule. -/
def LayerH.gateOpen (h : LayerH) : Bool := h.act != 1 || h.gate

def LayerH.gainFactor (h : LayerH) : Rat := fadeFactor h.fade (if h.gateOpen then dbLinear h.level else 0)

/-- Heard: it has a source, its gate is open and it is not muted (R173, R207); and so on while a mute or a release still sounds, in its ramp
(R166, R213). -/
def LayerH.heard (h : LayerH) : Bool :=
  h.srcType != 0 && h.silent.isNone && ((h.gateOpen && (!h.mute || h.ramp.isSome)) || h.fade.isSome)

/-- Active, so that it ducks lower-ranked layers (R173, R181). -/
def LayerH.active (h : LayerH) : Bool :=
  h.voteWait.isNone &&
    match h.act with
    | 0 => h.srcType != 0 && !h.mute
    | 1 => h.asserted
    | _ => 0 < h.holdLeft

/-- A duck depth in 0.01 dB (R172). -/
def duckDepth (d : Nat) : Nat := if d = 255 then 9600 else d * 50

def LayerH.outranks (k l : LayerH) : Bool := (k.va && !l.va) || (k.va == l.va && l.prio < k.prio)

def LayerH.duckFactor (h : LayerH) : Rat := fadeFactor h.duckFade (if 9600 ≤ h.duck then 0 else dbLinear (-h.duck))

/-- The depth moves one sample towards `goal`, which layer `k` of depth, attack and release `by_` sets (R172). -/
def LayerH.duckStep (h : LayerH) (goal k : Nat) (by_ : Nat × Nat × Nat) : LayerH :=
  let h := { h with duckFade := stepFade h.duckFade }
  let h := if goal = h.duckGoal then { h with duckSet := k, duckBy := by_ }
    else { h with duckGoal := goal, duckSet := k, duckPrev := h.duckBy, duckBy := by_ }
  let g : Rat := (goal : Rat)
  if h.duck < g then
    if h.duckBy.2.1 = 0 then { h with duck := g, duckFade := some (h.duckFactor, 0) }
    else { h with duck := min g (h.duck + (h.duckBy.1 : Rat) / ((h.duckBy.2.1 * 48 : Nat) : Rat)) }
  else if g < h.duck then
    if h.duckPrev.2.2 = 0 then { h with duck := g, duckFade := some (h.duckFactor, 0) }
    else { h with duck := max g (h.duck - (h.duckPrev.1 : Rat) / ((h.duckPrev.2.2 * 48 : Nat) : Rat)) }
  else h

/-- The step that waits applies. -/
def LayerH.cross (h : LayerH) : LayerH :=
  match h.wait with
  | some (g, m, t) => { h with gain := g, mute := m, gate := t, wait := none, fade := none, ramp := if h.gain = g ∧ h.mute = m then h.ramp else none }
  | none => h

def LayerH.expire (h : LayerH) : LayerH := if h.wait.isSome then { h.cross with fade := some (h.gainFactor, 0) } else h

/-- The layer's output is zero whatever its source (R168). -/
def LayerH.quiet (h : LayerH) : Bool :=
  (h.srcType == 0 && h.oldSide == .off) || (h.act == 1 && !h.gate && h.fade.isNone) ||
    (h.level ≤ -12000 && h.ramp.isNone && h.fade.isNone) || (9600 ≤ h.duck && h.duckFade.isNone) || (h.silent.isSome && h.oldSide == .off) ||
    ((h.side == .off || h.side == .joinWait) && h.oldSide == .off)

/-! ### Sources (R165) -/

/-- A source entry's block for a heat. -/
def SrcH.blk (h : SrcH) (c : Nat) : Option (List Word) := (h.blks.find? fun b => b.heat == c).map (·.out)

/-- A block of the entry's own input has closed for a heat. -/
def SrcH.closed (h : SrcH) (c : Nat) : Bool := h.blks.any fun b => b.heat == c && !b.made

/-- A microphone is enabled and not warming (R124, R165). -/
def State.micReady (s : State) (m : Nat) : Bool :=
  m < 32 && s.bit (Reg.pdmGrpCfg (m / 8)) 0 && s.bit (Reg.pdmGrpMicEn (m / 8)) (m % 8) && (s.micAt m).warm == 0

def State.genReady (s : State) (g : Nat) : Bool := leAt (s.gens.find? (·.1 == g) |>.map (·.2.cur.cfg) |>.getD []) 1 1 != 0

/-- A source is ready for heat `c` (R165). A lost entry plays its fallback or nothing, so only with one is it ready. -/
def State.srcReady (s : State) (t id c : Nat) : Bool :=
  match t with
  | 0 => true
  | 1 => let h := s.srcAt id
         h.bind != .none && if h.lost then h.fallback.isSome else h.closed c
  | 2 => s.plyReady id
  | 3 => s.genReady id
  | 4 => s.micReady id
  | _ => (s.zoneAt id).en

/-- The range of SRC_ID by SRC_TYPE. -/
def srcIdOk (t id : Nat) : Bool :=
  match t with
  | 0 => true
  | 1 => id < 8192
  | 2 => id < 64
  | 3 => id < 16
  | 4 => id < 32
  | 5 => id < 256
  | _ => false

/-- The layer's player follows what is heard (R207, R213): it starts, or it stops. -/
def State.syncPlayer (s : State) (z l : Nat) : State :=
  let h := s.layerAt z l
  if h.srcType ≠ 2 then s
  else if h.heard then s.plyStart h.srcId else s.plyStop h.srcId

/-- A player that is no longer a layer's source stops. -/
def State.stopOld (s : State) (src : Nat × Nat) : State := if src.1 = 2 then s.plyStop src.2 else s

/-! ### Registers (R200) -/

/-- The layers of a zone. -/
def State.zoneLayers (s : State) (z : Nat) : List LayerH := (List.range 8).map fun l => s.layerAt z l

/-- The zones a zone takes as sources, and its nesting depth (R183, R184). -/
def State.zoneSrcs (s : State) (z : Nat) : List Nat :=
  (s.zoneLayers z).filterMap fun h => if h.srcType = 5 then some h.srcId else none

def depthOf (srcs : Nat → List Nat) : Nat → Nat → Nat
  | 0, _ => 0
  | n + 1, z => (srcs z).foldl (fun a y => max a (depthOf srcs n y + 1)) 0

/-- Depth up to 5, which only a graph that breaks R183 reaches. -/
def State.zoneDepth (s : State) (z : Nat) : Nat := depthOf s.zoneSrcs 5 z

def State.showZone (s : State) (z : Nat) : State :=
  let h := s.zoneAt z
  let act := bitsOf (fun l => (s.layerAt z l).active) 8
  let va := bitsOf (fun l => (s.layerAt z l).active && (s.layerAt z l).va) 8
  let fl := bitsOf (fun i => [h.en, h.mute, h.ambEn, h.holdRun, h.wait.isSome].getD i false) 5
  let s := s.setReg (Reg.zmZState z) (BitVec.ofNat 32 (act * 2 ^ 16 + va * 2 ^ 8 + min 7 (s.zoneDepth z) * 32 + fl))
  let s := s.setReg (Reg.zmZGain z) (BitVec.ofNat 32 (pattern 16 h.offset.floor * 2 ^ 16 + pattern 16 h.level.floor))
  s.setReg (Reg.zmZNoise z) (BitVec.ofNat 32 (match h.noise with
    | some n => pattern 16 n
    | none => 0x8000))

/-- Updates for a layer that wait in the schedule. -/
def isLayerUpd (z l : Nat) (e : Sched) : Bool :=
  (e.desc.opcode == 0x0101#16 || e.desc.opcode == 0x0102#16) && e.desc.body.pl 0 2 == z && e.desc.body.byte 2 == l

/-- The heat the zone mixer builds next: that of the boundary before the last (R176). -/
def State.buildHeat (s : State) : Nat := s.heat - 1

def State.showLayer (s : State) (z l : Nat) : State :=
  let h := s.layerAt z l
  let pend := (s.sched.filter (isLayerUpd z l)).length + (s.groups.flatMap (·.members.filter (isLayerUpd z l))).length
  let left := match h.retry with
    | some d => d + 1 - s.buildHeat
    | none => 0
  let st := if h.retry.isSome then 2 else if h.voteWait.isSome then 4 else if h.silent.isSome then 3
    else if h.srcType = 0 then 0 else 1
  let w := h.wait.isSome || h.side.waits || h.oldSide.waits
  let fl := bitsOf (fun i => [w, decide (0 < h.duck), h.asserted, h.active, h.va].getD i false) 5
  let s := s.setReg (Reg.zmZLState z l) (BitVec.ofNat 32 (min 255 pend * 2 ^ 24 + min 255 left * 2 ^ 16 + fl * 8 + st))
  let s := s.setReg (Reg.zmZLGain z l) (BitVec.ofNat 32 (h.duck.floor.toNat % 65536 * 2 ^ 16 + pattern 16 h.level.floor))
  s.setReg (Reg.zmZLSrc z l) (BitVec.ofNat 32 (h.srcType % 8 * 2 ^ 16 + h.srcId % 65536))

def State.showRoute (s : State) (n : Nat) : State :=
  let r := s.routeAt n
  s.setReg (Reg.zmLaneRoute n) (BitVec.ofNat 32 ((if r.side.waits || r.oldSide.waits then 2 ^ 16 else 0) + r.zone.getD 0xFFFF))

/-- The syndrome of a zone mixer event (R199). -/
def zoneSyn (code z l n : Nat) : Word := syn8 code z l n

end Sys2Proof.Machine
end

