-- ==== Sys2Proof/Machine/ZoneBus.lean ====
section
/-! DEFINITION. The zone bus sample by sample (05_zones_layers.md R163 to R173, R183 to R185): what the sources of a heat play, the layers of
a zone with their gains, activity and ducking, and the composition of the bus. -/

namespace Sys2Proof.Machine

/-! ### Sources of a heat -/

/-- The 48 samples a source entry plays in heat `c`: its own input and its fallback, one level, each by its side (R77, R467). -/
def State.entryHeat (s : State) (e c : Nat) : State × List Word :=
  let h := s.srcAt e
  let own := (h.blk c).getD (List.replicate 48 0#32)
  let fbs := match h.fallback with
    | some f =>
      let g := s.srcAt f
      if g.bind == Bind.none || g.lost then List.replicate 48 0#32 else (g.blk c).getD (List.replicate 48 0#32)
    | none => List.replicate 48 0#32
  if h.bind == Bind.none then (s, own)
  else
    let (a, b, ys) := (List.range 48).foldl (fun (x : Side × Side × List Word) k =>
      let (a, f) := x.1.step
      let (b, g) := x.2.1.step
      let y := if f = 1 ∧ g = 0 then own.getD k 0 else if f = 0 ∧ g = 0 then 0#32
        else mixOf (sampleVal (own.getD k 0) * f + sampleVal (fbs.getD k 0) * g)
      (a, b, x.2.2 ++ [y])) (h.own, h.fb, [])
    (s.setSrc e { h with own := a, fb := b }, ys)

/-- Every entry has a block for heat `c`, one of nothing received where none closed, and what it plays. -/
def State.sourceHeat (s : State) (c : Nat) : State :=
  let s := s.srcs.foldl (fun s x => if (x.2.blk c).isSome then s else s.setSrc x.1 (x.2.feedNone c)) s
  s.srcs.foldl (fun s x =>
    let (s, ys) := s.entryHeat x.1 c
    s.setSrc x.1 { s.srcAt x.1 with plays := ys }) s

/-- One step of the LFSR of R608, and a value after 16. -/
def lfsrStep (x : Nat) : Nat := x * 2 % 2 ^ 31 + (x / 2 ^ 30 + x / 2 ^ 27) % 2
def lfsrValue (x : Nat) : Nat := (List.range 16).foldl (fun a _ => lfsrStep a) x

/-- A wave's sample number `n` since the epoch (R237, R365): a sine at F1, pink noise, white noise, or a logarithmic sweep from F1 to F2 in every
SWEEP_MS. Each has the power of a sine of peak 10^(LEVEL/20). -/
def WaveH.next (h : WaveH) (n : Nat) : WaveH × Word :=
  let a := exp10 ((signed 16 (leAt h.cfg 2 2) : Rat) / 2000)
  let f1 : Rat := (leAt h.cfg 4 2 : Nat)
  let f2 : Rat := (leAt h.cfg 6 2 : Nat)
  let x := lfsrValue h.lfsr
  let white := ((x % 65536 : Nat) - 32768 : Rat) / 32768
  let h' := { h with count := h.count + 1, lfsr := x, noise := (white :: h.noise).take 4096 }
  let v : Rat := match leAt h.cfg 1 1 with
    | 1 => a * sinTurn (f1 * (n : Rat) / 48000)
    | 2 => a * (h'.noise.zipIdx.map fun p => Config.pinkTap p.2 * p.1).sum
    | 3 => a * sqrtOf (3 / 2) * white
    | 4 =>
      let len := leAt h.cfg 8 2 * 48
      let t : Rat := ((h.count % max 1 len : Nat) : Rat) / 48000
      let k := log2Of (f2 / f1) * 1000 / (leAt h.cfg 8 2 : Nat)
      a * sinTurn (if k = 0 then f1 * t else f1 * (exp2 (k * t) - 1) / (k * ln2))
    | _ => 0
  (h', if v = 0 then 0#32 else mixOf (near 24 v))

/-- Every generator makes its sample number `n` since the epoch, with the crossfade after a change. -/
def GenH.step (h : GenH) (n : Nat) : GenH :=
  if h.out.any (·.1 == n) then h
  else
    let (cur, a) := h.cur.next n
    match h.fade with
    | none => { h with cur := cur, out := some (n, a) }
    | some k =>
      let (old, b) := h.old.next n
      let w := rcos (k + 1) 64
      { cur := cur, old := if 64 ≤ k + 1 then {} else old, fade := if 64 ≤ k + 1 then none else some (k + 1),
        out := some (n, mixOf (sampleVal a * w + sampleVal b * (1 - w))) }

def State.gensStep (s : State) (n : Nat) : State := { s with gens := s.gens.map fun g => (g.1, g.2.step n) }

/-- The sample of test generator `g`. -/
def State.genSample (s : State) (g : Nat) : Word := ((Sparse.get {} s.gens g).out.map (·.2)).getD 0#32

/-- A sample being built: its heat and number, and the zone buses already built at it. -/
structure At where
  heat : Nat
  k : Nat
  bus : Sparse Word

/-- The sample of a source (R165). -/
def State.sourceSample (s : State) (x : At) (src : Nat × Nat) : State × Word :=
  match src.1 with
  | 1 => (s, (s.srcAt src.2).plays.getD x.k 0)
  | 2 => s.playerSample src.2
  | 3 => (s, s.genSample src.2)
  | 4 => (s, if s.micReady src.2 then ((((s.micAt src.2).blks.find? fun b => b.1 == x.heat).map (·.2)).getD []).getD x.k 0 else 0#32)
  | 5 => (s, Sparse.get 0 x.bus src.2)
  | _ => (s, 0#32)

/-- A non-finite sample becomes zero, is counted, and raises 0x52 (R164). -/
def State.finiteSample (s : State) (z l : Nat) (x : Word) : State × Rat :=
  if f32Finite x then (s, f32ToRat x)
  else ((s.bump Reg.zmNonfinCnt 32).emit 219 0x52 (zoneSyn 0x52 z l 1), 0)

/-! ### One layer, one zone (R163, R171 to R173) -/

/-- The largest depth among the active layers that outrank `h`, with the layer that sets it and its depth and times (R171): of several with
that depth the one that set it, or else the first. -/
def duckTarget (ls : List LayerH) (h : LayerH) : Nat × Nat × (Nat × Nat × Nat) :=
  let act := ls.zipIdx.filter fun p => p.1.active && p.1.outranks h
  let top := act.foldl (fun a p => max a (duckDepth p.1.depth)) 0
  let has := act.filter fun p => duckDepth p.1.depth == top
  match (has.find? fun p => p.2 == h.duckSet).orElse fun _ => has.head? with
  | some (k, i) => (top, i, (top, k.att, k.rel))
  | none => (0, h.duckSet, (0, 0, 0))

/-- The threshold of a THRESHOLD layer. -/
def threshold (t : Nat) : Rat := dbLinear (-((t * 100 : Nat) : Rat))

/-- The samples x_l of a layer's source and of the source it leaves; and its THRESHOLD activity, from the first sample at or above the threshold
until HOLD ms after the last (R173). -/
def State.layerRead (s : State) (x : At) (z l : Nat) : State × Rat × Rat :=
  let h := s.layerAt z l
  if h = {} then (s, 0, 0)
  else
    let (s, v) := if h.silent.isSome then (s, (0 : Rat))
      else
        let (s, w) := s.sourceSample x (h.srcType, h.srcId)
        s.finiteSample z l w
    let (s, u) := if h.oldSide = .off then (s, (0 : Rat))
      else
        let (s, w) := s.sourceSample x h.old
        s.finiteSample z l w
    let loud := h.act == 2 && threshold h.thresh ≤ (if v < 0 then -v else v)
    (s.setLayer z l { s.layerAt z l with holdLeft := if loud then max 1 (h.hold * 48) else h.holdLeft - 1 }, v, u)

/-- y_l at one sample, from the samples read and the zone's layers as they stand: the sources by their sides, the gain with gate and mute, and
the duck factor. -/
def State.layerSample (s : State) (z l : Nat) (ls : List LayerH) (v u : Rat) : State × Rat :=
  let h := s.layerAt z l
  let (goal, k, by_) := duckTarget ls h
  if h = {} ∧ goal = 0 then (s, 0)
  else
    let (side, f) := h.side.step
    let (oldSide, g) := h.oldSide.step
    let y := h.gainFactor * h.duckFactor * (v * f + u * g)
    let s := if h.oldSide ≠ .off ∧ oldSide = .off then s.stopOld h.old else s
    let h := { s.layerAt z l with side := side, oldSide := oldSide, ramp := stepRamp h.ramp, fade := stepFade h.fade }
    ((s.setLayer z l (h.duckStep goal k by_)).syncPlayer z l, y)

/-- The sums S_amb and S_exempt of a zone at one sample: every layer is read, and then each contributes beside what is then active. -/
def State.zoneSums (s : State) (x : At) (z : Nat) : State × Rat × Rat :=
  let (s, vs) := (List.range 8).foldl (fun (a : State × List (Rat × Rat)) l =>
    let (s, v, u) := a.1.layerRead x z l
    (s, a.2 ++ [(v, u)])) (s, [])
  let ls := s.zoneLayers z
  (List.range 8).foldl (fun (a : State × Rat × Rat) l =>
    let vu := vs.getD l (0, 0)
    let (s, y) := a.1.layerSample z l ls vu.1 vu.2
    if (s.layerAt z l).noAmb then (s, a.2.1, a.2.2 + y) else (s, a.2.1 + y, a.2.2)) (s, 0, 0)

/-- One sample of zone `z`: its post tap and its pre tap. -/
def State.zoneSample (s : State) (x : At) (z : Nat) : State × Word × Word :=
  let (s, amb, ex) := s.zoneSums x z
  let h := s.zoneAt z
  let g := h.factor
  let post := mixOf (g * (dbLinear h.offset * amb + ex))
  let pre := mixOf (g * (amb + ex))
  let last := h.done.head?
  let (post, pre) := if h.late then
      let f := 1 - rcos (x.k + 1) 48
      (mixOf (sampleVal ((last.map (·.2.1.getLastD 0)).getD 0) * f), mixOf (sampleVal ((last.map (·.2.2.1.getLastD 0)).getD 0) * f))
    else match h.back with
      | some k => (mixOf (sampleVal post * rcos (k + 1) 64), mixOf (sampleVal pre * rcos (k + 1) 64))
      | none => (post, pre)
  let h := { h.step with back := h.back.bind fun k => if 64 ≤ k + 1 then none else some (k + 1) }
  (s.setZone z h, post, pre)

/-- The zones that hold anything or feed a capture ring, by nesting depth, those with an active VA layer first within a depth: a zone's
sources come before it (R34, R183, R184). -/
def State.zoneOrder (s : State) : List Nat :=
  let zs := (List.range 256).filter fun z => s.zones.any (·.1 == z) || (s.layers.any fun x => x.1 / 8 == z) || s.bit (Reg.zmRcap z) 31
  let va := zs.filter fun z => (s.zoneLayers z).any fun h => h.va && h.active
  (List.range 6).flatMap fun d => (va.filter fun z => s.zoneDepth z == d) ++ (zs.filter fun z => !va.contains z && s.zoneDepth z == d)

/-- The buses at sample `k` of heat `c` of the zones before `stop` in the order of the build. -/
def State.busesTo (s : State) (c k stop : Nat) : Sparse Word :=
  ((s.zoneOrder.takeWhile (· != stop)).foldl (fun (a : State × Sparse Word) z =>
    let (s, post, _) := a.1.zoneSample { heat := c, k := k, bus := a.2 } z
    (s, Sparse.set 0 a.2 z post)) (s, [])).2

/-- The output y_l of a layer at sample `k` of heat `c` is zero, as the layer stands (R168). The sample is tried, and what it changes let go. -/
def State.layerZero (s : State) (z l c k : Nat) : Bool :=
  let h := s.layerAt z l
  h.quiet || (h.oldSide == .off && (
    let x : At := { heat := c, k := k, bus := if h.srcType = 5 then s.busesTo c k z else [] }
    let (_, v, _) := s.layerRead x z l
    v == 0))

end Sys2Proof.Machine
end

