-- ==== Sys2Proof/Machine/Zones.lean ====
section
/-! DEFINITION. The descriptors of the zone mixer (05_zones_layers.md R174 to R198): zones, layers with their readiness, routes,
returns and ambient entries; and the events of waiting steps, deadlines and joins. -/

namespace Sys2Proof.Machine

/-- A check of a 0x01xx descriptor: its ranges, its target, then REFUSED_MODE while the mixer is off (R198). -/
def zmCheck (fields : List (Bool × Nat)) (s : State) : Chk := (firstBad fields).andThen (if s.bit Reg.zmCtrl 0 then .ok else .mode)

def gainOk (v : Int) : Bool := -12000 ≤ v && v ≤ 2400

/-! ### ZONE_SET (R194) -/

def zoneSetRow : Row where
  blk := .zone
  check := fun s d =>
    zmCheck [(d.pl 0 2 < 256, 0), (gainOk (d.pls 2), 2), (d.pl 4 2 ≤ 10000, 4),
      (d.pl 6 2 == 0 || (5 ≤ d.pl 6 2 && d.pl 6 2 ≤ 500), 6), (d.byte 8 < 8, 8), (restZero d 9, 9)] s
  commit := fun e s =>
    let d := e.desc.body
    let z := d.pl 0 2
    let h := s.zoneAt z
    let g := d.pls 2
    let m := d.byte 8 / 2 % 2 == 1
    let en := d.byte 8 % 2 == 1
    let h := { h with zcT := d.pl 6 2, ambEn := d.byte 8 / 4 % 2 == 1 }
    let h := if d.pl 4 2 ≠ 0 then
        { h with gain := g, mute := m,
                 ramp := if levelOf g m = levelOf h.gain h.mute ∧ h.ramp.isNone then none else some (rampTo h.level g m (d.pl 4 2)),
                 wait := if h.en = en then none else some (g, m, en) }
      else { h with wait := if h.gain = g ∧ h.mute = m ∧ h.en = en ∧ h.ramp.isNone then none else some (g, m, en) }
    ((s.setZone z h).showZone z, resOk)

def execZoneSet (ph : Phase) (o : Origin) (d : Body) (s : State) : Host.Outcome State Fault Refusal :=
  descCmd zoneSetRow 0x0100 ph o d s

/-! ### Layers (R174, R178 to R183, R195, R196, R209) -/

/-- The player named is already the source of another layer (R209). -/
def State.playerTaken (s : State) (d : Body) : Bool :=
  d.byte 3 % 2 == 1 && d.byte 4 == 2 && s.layers.any fun x =>
    x.1 != d.pl 0 2 * 8 + d.byte 2 && x.2.srcType == 2 && x.2.srcId == d.pl 6 2

/-- The groups that MASK selects come into force (R174, R195): `quiet` when the change applies with no wait, `silent` when the source is
to contribute silence from a scheduled heat and sample (R179). -/
def State.layerApply (s : State) (d : Body) (quiet : Bool) (silent : Option (Nat × Nat)) : State :=
  let z := d.pl 0 2
  let l := d.byte 2
  let m := d.byte 3
  let h := s.layerAt z l
  let h := if m / 4 % 2 = 1 then { h with prio := d.byte 12 % 16, depth := d.byte 13, att := d.pl 14 2, rel := d.pl 16 2 } else h
  let h := if m / 8 % 2 = 1 then { h with act := d.byte 18 % 4, thresh := d.byte 19, hold := d.pl 20 2 } else h
  let h := if m / 16 % 2 = 1 then
      { h with readyDl := d.byte 22, abandon := d.byte 23 % 2 == 1, va := d.byte 23 / 2 % 2 == 1, noAmb := d.byte 23 / 4 % 2 == 1 }
    else h
  let gain := d.pls 8
  let mute := d.byte 23 / 8 % 2 == 1
  let gate := match h.wait with
    | some w => w.2.2
    | none => h.gate
  let h := if m / 2 % 2 = 0 then h
    else if d.pl 10 2 ≠ 0 then
      { h with gain := gain, mute := mute, ramp := some (rampTo h.level gain mute (d.pl 10 2)),
               wait := if h.gate = gate then none else some (gain, mute, gate) }
    else if quiet then { h with gain := gain, mute := mute, ramp := none, wait := none, gate := gate }
    else if h.gain = gain ∧ h.mute = mute ∧ h.ramp.isNone ∧ h.gate = gate then { h with wait := none }
    else { h with wait := some (gain, mute, gate) }
  let new := (d.byte 4, d.pl 6 2)
  if m % 2 = 0 ∨ (new = (h.srcType, h.srcId) ∧ silent.isNone) then s.setLayer z l h
  else
    let was := (h.srcType, h.srcId)
    let keepOld : Bool := h.oldSide != .off
    let s := if quiet then s.stopOld was else s
    let s := if quiet && keepOld then s.stopOld h.old else s
    let h := { h with srcType := new.1, srcId := new.2, silent := silent }
    let h := if quiet then { h with side := .on, oldSide := .off }
      else if keepOld then { h with side := .joinWait }
      else { h with side := .joinWait, old := was, oldSide := .leaveWait }
    s.setLayer z l (if silent.isSome then { h with side := .on } else h)

/-- An assert opens the gate, a release closes it as a step (R173). -/
def State.assertApply (s : State) (d : Body) (quiet : Bool) (silent : Option (Nat × Nat)) : State :=
  let z := d.pl 0 2
  let l := d.byte 2
  let h := s.layerAt z l
  if d.byte 3 = 1 then
    s.setLayer z l { h with asserted := true, gate := true, silent := silent.orElse (fun _ => h.silent),
                            wait := h.wait.map fun w => (w.1, w.2.1, true) }
  else
    let h := { h with asserted := false }
    s.setLayer z l (if quiet || h.act != 1 then { h with gate := false, wait := h.wait.map fun w => (w.1, w.2.1, false) }
      else match h.wait with
        | some w => { h with wait := some (w.1, w.2.1, false) }
        | none => if h.gate then { h with wait := some (h.gain, h.mute, false) } else h)

def isAssert (e : Sched) : Bool := e.desc.opcode == 0x0102#16

/-- The update sets a source or asserts a layer, so that it must be ready (R178, R606). -/
def needsReady (e : Sched) : Bool :=
  if isAssert e then e.desc.body.byte 3 == 1 else e.desc.opcode == 0x0101#16 && e.desc.body.byte 3 % 2 == 1

def voteOk (e : Sched) : Bool := match e.vote with
  | .open_ => false
  | .waits => false
  | _ => true

/-- The update can commit in heat `c`: its source is ready, and its vote has completed. -/
def State.updReady (s : State) (e : Sched) (c : Nat) : Bool :=
  let d := e.desc.body
  let h := s.layerAt (d.pl 0 2) (d.byte 2)
  voteOk e && (if isAssert e then s.srcReady h.srcType h.srcId c else s.srcReady (d.byte 4) (d.pl 6 2) c)

/-- READY_DL and the NOT_READY policy of an update (R178). -/
def State.policyOf (s : State) (e : Sched) : Nat × Bool :=
  match e.ready with
  | some p => p
  | none =>
    let d := e.desc.body
    let h := s.layerAt (d.pl 0 2) (d.byte 2)
    if !isAssert e && d.byte 3 / 16 % 2 == 1 then (d.byte 22, d.byte 23 % 2 == 1) else (h.readyDl, h.abandon)

/-- The update will commit in heat `c`: it is ready, or starts silent at its deadline (R178, R179). -/
def State.willCommit (s : State) (e : Sched) (c : Nat) : Bool :=
  e.heat == c && !e.silent && (!needsReady e ||
    (let p := s.policyOf e
     (s.updReady e c && decide (c ≤ e.asked + p.1 + e.moved)) || (decide (e.asked + p.1 ≤ c) && !p.2)))

/-- The sources of the zone graph a commit at heat `c` would leave: those in force, and those of the other updates that commit in it. -/
def State.plannedSrcs (s : State) (c : Nat) (e : Sched) (z : Nat) : List Nat :=
  let ups := (s.sched.filter fun x => x.blk == .zone && x.id != e.id && s.willCommit x c) ++ [e]
  (List.range 8).filterMap fun l =>
    let h := s.layerAt z l
    let (t, id) := ups.foldl (fun (a : Nat × Nat) x =>
      let d := x.desc.body
      if x.desc.opcode = 0x0101#16 ∧ d.pl 0 2 = z ∧ d.byte 2 = l ∧ d.byte 3 % 2 = 1 then (d.byte 4, d.pl 6 2) else a) (h.srcType, h.srcId)
    if t = 5 then some id else none

/-- Zone `goal` is reached from `z` along at most `n` edges. -/
def reaches (srcs : Nat → List Nat) (goal : Nat) : Nat → Nat → Bool
  | 0, _ => false
  | n + 1, z => (srcs z).any fun y => y == goal || reaches srcs goal n y

/-- The zones from which `z` is reached by an edge are those that take it. The longest chain through `z` has at most four edges, and
none comes back (R183). -/
def State.graphBad (s : State) (e : Sched) : Bool :=
  let d := e.desc.body
  let z := d.pl 0 2
  let srcs := s.plannedSrcs e.heat e
  let takers (y : Nat) : List Nat := (List.range 256).filter fun x => (srcs x).contains y
  d.byte 3 % 2 == 1 && d.byte 4 == 5 &&
    (reaches srcs z 5 z || 4 < depthOf srcs 5 z + depthOf takers 5 z)

/-- The update's fields come into force at its sample. -/
def State.updApply (s : State) (e : Sched) (silent : Option (Nat × Nat)) : State :=
  let d := e.desc.body
  let z := d.pl 0 2
  let l := d.byte 2
  let q := e.zero.getD (s.layerZero z l e.heat e.sample)
  let s := if isAssert e then s.assertApply d q silent else s.layerApply d q silent
  ((s.setLayer z l { s.layerAt z l with retry := none }).syncPlayer z l).showLayer z l

/-- The event of a policy: on a VA layer 0x58. -/
def State.policyEvent (s : State) (z l code : Nat) : State :=
  let c := if (s.layerAt z l).va then 0x58 else code
  s.emit 219 c (zoneSyn c z l 1)

/-- START_SILENT (R179, R181): every field commits, the source contributes silence; with its vote still open the layer ducks nothing
and keeps what to return to. -/
def State.startSilent (s : State) (e : Sched) : State × Res :=
  let d := e.desc.body
  let z := d.pl 0 2
  let l := d.byte 2
  let back := s.layerAt z l
  let s := s.updApply e (some (e.asked, e.askedSample))
  let s := s.policyEvent z l 0x53
  if voteOk e then (s, .done stSilent 0)
  else
    let s := s.setLayer z l { s.layerAt z l with voteWait := some e.id }
    ({ s with layerBack := Sparse.set {} s.layerBack (z * 8 + l) { back with retry := none } }.showLayer z l, .retry { e with silent := true })

/-- A layer update or assert at its commit, at a retry, or at its deadline (R174, R178 to R180). -/
def layerCommit (e : Sched) (s : State) : State × Res :=
  let d := e.desc.body
  let z := d.pl 0 2
  let l := d.byte 2
  if !isAssert e && (s.graphBad e || s.playerTaken d) then (s, .done stBad 30)
  else if !needsReady e then (s.updApply e none, resOk)
  else
    let p := s.policyOf e
    if s.updReady e e.heat && (e.heat ≤ e.asked + p.1 + e.moved) then (s.updApply e none, resOk)
    else if e.heat < e.asked + p.1 then
      ((s.setLayer z l { s.layerAt z l with retry := some (e.asked + p.1) }).showLayer z l,
        .retry { e with heat := e.heat + 1, sample := 0, ready := some p })
    else if p.2 then
      (((s.setLayer z l { s.layerAt z l with retry := none }).policyEvent z l 0x54).showLayer z l, .done stNotReady 0)
    else s.startSilent e

def layerSetRow : Row where
  blk := .zone
  check := fun s d =>
    let m := d.byte 3
    let on (i : Nat) : Bool := m / 2 ^ i % 2 == 1
    zmCheck [(d.pl 0 2 < 256, 0), (d.byte 2 < 8, 2), (m != 0 && m < 32, 3), (d.byte 4 ≤ 5, 4), (d.byte 5 == 0, 5),
      (!on 0 || srcIdOk (d.byte 4) (d.pl 6 2), 6), (gainOk (d.pls 8), 8), (d.pl 10 2 ≤ 10000, 10), (d.byte 12 < 16, 12),
      (d.byte 13 ≤ 192 || d.byte 13 == 255, 13), (d.pl 14 2 ≤ 2000, 14), (d.pl 16 2 ≤ 10000, 16), (d.byte 18 ≤ 2, 18),
      (d.byte 19 ≤ 120, 19), (d.pl 20 2 ≤ 10000, 20), (d.byte 23 < 16, 23), (restZero d 24, 24)] s
  onAccept := fun e s => s.showLayer (e.desc.body.pl 0 2) (e.desc.body.byte 2)
  commit := layerCommit

def execLayerSet (ph : Phase) (o : Origin) (d : Body) (s : State) : Host.Outcome State Fault Refusal :=
  descCmd layerSetRow 0x0101 ph o d s

def assertRow (action : Nat) : Row where
  blk := .zone
  check := fun s d => zmCheck [(d.pl 0 2 < 256, 0), (d.byte 2 < 8, 2), (d.byte 3 == action, 3), (restZero d 4, 4)] s
  onAccept := fun e s => s.showLayer (e.desc.body.pl 0 2) (e.desc.body.byte 2)
  commit := layerCommit

def execLayerAssert (ph : Phase) (o : Origin) (d : Body) (s : State) : Host.Outcome State Fault Refusal :=
  descCmd (assertRow 1) 0x0102 ph o d s

def execLayerRelease (ph : Phase) (o : Origin) (d : Body) (s : State) : Host.Outcome State Fault Refusal :=
  descCmd (assertRow 0) 0x0102 ph o d s

/-! ### LANE_ROUTE (R186) -/

/-- A route change: the old bus is to leave and the new one to join, each at its own crossing (R169, R170). -/
def RouteH.change (r : RouteH) (new : Option Nat) : RouteH :=
  if r.zone = new then r
  else if r.side = .joinWait then { r with zone := new, side := if new.isSome then .joinWait else .on }
  else { r with zone := new, side := if new.isSome then .joinWait else .on, old := r.zone,
                oldSide := if r.zone.isSome then .leaveWait else .off }

def laneRouteRow : Row where
  blk := .zone
  check := fun s d =>
    (s.laneFields (d.pl 0 2) [(d.pl 2 2 < 256 || d.pl 2 2 == 0xFFFF, 2), (restZero d 4, 4)]).andThen
      (if s.bit Reg.zmCtrl 0 then .ok else .mode)
  commit := fun e s =>
    let d := e.desc.body
    let n := d.pl 0 2
    let new := if d.pl 2 2 = 0xFFFF then none else some (d.pl 2 2)
    let s := (s.bondLanes n).foldl (fun s k =>
      let r := s.routeAt k
      (s.setRoute k (if r.partner then { r with stored := some new } else r.change new)).showRoute k) s
    (s, resOk)

def execLaneRoute (ph : Phase) (o : Origin) (d : Body) (s : State) : Host.Outcome State Fault Refusal :=
  descCmd laneRouteRow 0x0103 ph o d s

/-! ### RETURN_SET (R187, R188) -/

/-- The capture mappings a commit at the update's heat would leave: zone by ring, with the other updates of that heat. -/
def State.plannedCaps (s : State) (e : Sched) : List (Nat × Nat) :=
  let now : List (Nat × Nat) := (List.range 256).filterMap fun z =>
    if s.bit (Reg.zmRcap z) 31 then some (z, s.getF (Reg.zmRcap z) 30 16) else none
  let ups := (s.sched.filter fun x => x.heat == e.heat && x.id != e.id) ++
    (s.groups.flatMap (·.members)).filter (fun x => x.heat == e.heat && x.id != e.id) ++ [e]
  ups.foldl (fun (a : List (Nat × Nat)) x =>
    let d := x.desc.body
    if x.desc.opcode ≠ 0x0104#16 ∨ d.byte 0 ≠ 2 then a
    else if d.pl 4 2 = 0xFFFF then a.filter (·.2 != d.pl 6 2)
    else a ++ [(d.pl 4 2, d.pl 6 2)]) now

/-- A ring takes one zone, and a zone feeds one ring. -/
def State.capBad (s : State) (e : Sched) : Bool :=
  let d := e.desc.body
  let caps := s.plannedCaps e
  d.byte 0 == 2 && d.pl 4 2 != 0xFFFF &&
    caps.any fun p => (p.2 == d.pl 6 2 && p.1 != d.pl 4 2) || (p.1 == d.pl 4 2 && p.2 != d.pl 6 2)

/-- A transmit port of its own clock takes a converter for its returns (R103). It keeps it from then on: when it is given back is the model's
choice (log 132). -/
def State.txConv (s : State) (n : Nat) : Option State :=
  let c := s.reg (Reg.tdmCtrl n)
  if bitAt c 3 || bitAt c 7 || (s.asrcOf (32 + n)).isSome then some s
  else s.asrcTake (32 + n) (s.getF (Reg.tdmChMax n) 13 8) 1 2 (fld c 11 8) 0

def returnSetRow : Row where
  blk := .zone
  check := fun s d =>
    let k := d.byte 0
    zmCheck [(k ≤ 2, 0), (if k = 0 then d.byte 1 < 16 else if k = 1 then d.byte 1 < 4 else d.byte 1 == 0, 1),
      (if k = 0 then d.byte 2 < 32 else if k = 1 then d.byte 2 < 2 else d.byte 2 == 0, 2), (d.byte 3 ≤ 1, 3),
      (d.pl 4 2 < 256 || d.pl 4 2 == 0xFFFF, 4), (if k = 2 then d.pl 6 2 < 32768 else d.pl 6 2 == 0, 6), (restZero d 8, 8)] s
  commit := fun e s =>
    let d := e.desc.body
    let z := d.pl 4 2
    let w := BitVec.ofNat 32 (d.byte 3 * 2 ^ 16 + z)
    if d.byte 0 = 0 then
      match if z = 0xFFFF then some s else s.txConv (d.byte 1) with
      | none => (s, .done stShort 0)
      | some s => (s.setReg (Reg.zmRtdmS (d.byte 1) (d.byte 2)) w, resOk)
    else if d.byte 0 = 1 then (s.setReg (Reg.zmRaesC (d.byte 1) (d.byte 2)) w, resOk)
    else if s.capBad e then (s, .done stBad 28)
    else if z = 0xFFFF then
      (forUpto 256 (fun y s => if s.bit (Reg.zmRcap y) 31 && s.getF (Reg.zmRcap y) 30 16 == d.pl 6 2 then s.setReg (Reg.zmRcap y) 0 else s) s, resOk)
    else (s.setReg (Reg.zmRcap z) (BitVec.ofNat 32 (2 ^ 31 + d.pl 6 2 * 2 ^ 16 + d.byte 3)), resOk)

def execReturnSet (ph : Phase) (o : Origin) (d : Body) (s : State) : Host.Outcome State Fault Refusal :=
  descCmd returnSetRow 0x0104 ph o d s

/-! ### AMB_SET (R197) -/

def ambSetRow : Row where
  blk := .zone
  check := fun s d =>
    let mic (i : Nat) := d.byte (2 + i)
    let once (i : Nat) : Bool := mic i == 0xFF || (mic i < 32 && (List.range i).all fun j => mic j != mic i)
    zmCheck [(d.pl 0 2 < 256, 0), (once 0, 2), (once 1, 3), (once 2, 4), (once 3, 5), (d.byte 6 < 128, 6), (d.byte 7 ≤ 5, 7),
      (d.pl 10 2 ≤ 200, 10), (-1200 ≤ d.pls 12 && d.pls 12 ≤ 0, 12), (d.pl 14 2 ≤ 1800, 14),
      (1 ≤ d.pl 16 2 && d.pl 16 2 ≤ 1000, 16), (1 ≤ d.pl 18 2 && d.pl 18 2 ≤ 1000, 18), (d.byte 20 < 2, 20), (restZero d 21, 21)] s
  commit := fun e s =>
    let d := e.desc.body
    let z := d.pl 0 2
    let h := s.zoneAt z
    ((s.setZone z { h with amb := d.payload.take 21, pMeas := [], pLane := [], pPred := [], holdRun := false }).showZone z, resOk)

def execAmbSet (ph : Phase) (o : Origin) (d : Body) (s : State) : Host.Outcome State Fault Refusal :=
  descCmd ambSetRow 0x0105 ph o d s

/-! ### Zero crossings and timeouts (R167, R169, R77) -/

/-- A waiting step applies: `f` to a side, `g` to a zone, `h` to a layer. -/
def State.stepTarget (s : State) (t : StepTarget) (f : Side → Side) (g : ZoneH → ZoneH) (h : LayerH → LayerH) : State :=
  match t with
  | .layerGain z l => ((s.setLayer z.val l.val (h (s.layerAt z.val l.val))).syncPlayer z.val l.val).showLayer z.val l.val
  | .layerLeave z l =>
    let x := s.layerAt z.val l.val
    let y := f x.oldSide
    let s := if x.oldSide ≠ .off ∧ y = .off then s.stopOld x.old else s
    (s.setLayer z.val l.val { x with oldSide := y }).showLayer z.val l.val
  | .layerJoin z l =>
    let x := s.layerAt z.val l.val
    ((s.setLayer z.val l.val { x with side := f x.side }).syncPlayer z.val l.val).showLayer z.val l.val
  | .zone z => (s.setZone z.val (g (s.zoneAt z.val))).showZone z.val
  | .routeLeave n =>
    let r := s.routeAt n.val
    (s.setRoute n.val { r with oldSide := f r.oldSide }).showRoute n.val
  | .routeJoin n =>
    let r := s.routeAt n.val
    (s.setRoute n.val { r with side := f r.side }).showRoute n.val
  | .fallbackJoin e =>
    let x := s.srcAt e.val
    s.setSrc e.val (if x.fb = .joinWait then { x with fb := f x.fb } else { x with own := if x.own = .joinWait then f x.own else x.own })
  | .fallbackLeave e =>
    let x := s.srcAt e.val
    s.setSrc e.val { x with fb := if x.fb = .leaveWait then f x.fb else x.fb }

/-- LAYER_ZERO_CROSSING (R167): the signal a step waits on crosses zero. -/
def execLayerZeroCrossing (t : StepTarget) (s : State) : Host.Outcome State Fault Refusal :=
  act s fun s => s.stepTarget t Side.cross ZoneH.cross LayerH.cross

/-- STEP_ZC_TIMEOUT (R167): no crossing came, and the step is applied as a 64-sample ramp. -/
def execStepZcTimeout (t : StepTarget) (s : State) : Host.Outcome State Fault Refusal :=
  act s fun s => s.stepTarget t Side.expire ZoneH.expire LayerH.expire

/-! ### Deadlines, joins, late blocks and hold times (R173, R178, R179, R185) -/

/-- A not-ready update settles, or goes on waiting. -/
def State.settleLayer (s : State) (e : Sched) : State :=
  match layerCommit e (s.unschedule e.id) with
  | (s, .done st v) => s.complete e st v
  | (s, .wait) => s
  | (s, .retry e) => State.showSched { s with sched := s.sched ++ [e] }

/-- READY_DEADLINE (R178): the update at `o` is judged at its deadline heat, which has come. -/
def execReadyDeadline (o : Origin) (s : State) : Host.Outcome State Fault Refusal :=
  act s fun s =>
    match s.sched.find? fun e => decide (e.org = o) && needsReady e && !e.silent && decide (e.asked + (s.policyOf e).1 + 1 ≤ s.heat) with
    | none => s
    | some e =>
      let dl := (s.policyOf e).1
      s.settleLayer { e with heat := max e.heat (e.asked + dl), sample := if dl = 0 ∧ e.heat = e.asked then e.sample else 0 }

/-- A layer that started silent joins its source at sample 0 of heat `c`: a player at the position elapsed (R179, R211). -/
def State.joinSilent (s : State) (z l c : Nat) : State :=
  let h := s.layerAt z l
  match h.silent with
  | none => s
  | some (h0, k0) =>
    if h.voteWait.isSome || !s.srcReady h.srcType h.srcId c then s
    else
      let s := s.setLayer z l { h with silent := none, side := .rampIn 0 }
      let s := s.syncPlayer z l
      let s := if h.srcType = 2 ∧ (s.layerAt z l).heard then State.plyWalk 32 true h.srcId (c * 48 - (h0 * 48 + k0)) s else s
      (s.emit 219 0x57 (zoneSyn 0x57 z l 1)).showLayer z l

/-- SILENT_JOIN (R179): the source of a silently started layer is ready. -/
def execSilentJoin (z : Fin 256) (l : Fin 8) (s : State) : Host.Outcome State Fault Refusal :=
  act s fun s => s.joinSilent z.val l.val s.buildHeat

/-- ZONE_BLOCK_LATE (R185): the zone's block under way is unfinished at the end of its build. -/
def execZoneBlockLate (z : Fin 256) (s : State) : Host.Outcome State Fault Refusal :=
  act s fun s =>
    let h := s.zoneAt z.val
    if h.late then s
    else
      ((((s.setZone z.val { h with late := true }).bump Reg.zmLateCnt 32).setBit Reg.zmStatus 1 true)).emit 219 0x51
        (zoneSyn 0x51 z.val 0xFF 1)

/-- ACTIVITY_HOLD_EXPIRY (R173): HOLD ms after its last sample above threshold, a THRESHOLD layer is no longer active. -/
def execActivityHoldExpiry (z : Fin 256) (l : Fin 8) (s : State) : Host.Outcome State Fault Refusal :=
  act s fun s => ((s.setLayer z.val l.val { s.layerAt z.val l.val with holdLeft := 0 }).showLayer z.val l.val).showZone z.val

end Sys2Proof.Machine
end

