-- ==== Sys2Proof/Machine/Mixer.lean ====
section
/-! DEFINITION. The zone mixer's build of a heat (05_zones_layers.md R163 to R192): the commits of the heat at their samples, the
composition of every zone sample by sample, late blocks, captures, and the ambient estimator. -/

namespace Sys2Proof.Machine

/-! ### Commits of a heat (R174 to R177) -/

/-- The order of R177: groups first, then commit time, then acceptance. -/
def commitBefore (a b : Sched) : Bool :=
  if a.whole != b.whole then a.whole
  else
    let ta := a.asked * 48 + a.askedSample
    let tb := b.asked * 48 + b.askedSample
    ta < tb || (ta == tb && a.id ≤ b.id)

def insertBy {α : Type} (lt : α → α → Bool) (e : α) : List α → List α
  | [] => [e]
  | x :: xs => if lt e x then e :: x :: xs else x :: insertBy lt e xs

def sortBy {α : Type} (lt : α → α → Bool) (l : List α) : List α := l.foldl (fun a e => insertBy lt e a) []

/-- The updates that come up in heat `c`; one of an earlier heat comes up at its sample 0. -/
def State.zoneDue (s : State) (c : Nat) : List Sched :=
  sortBy commitBefore ((s.sched.filter fun e => e.blk == .zone && decide (e.heat ≤ c) && !e.silent && (voteOk e || needsReady e)).map
    fun e => if e.heat < c then { e with heat := c, sample := 0 } else e)

/-- What a commit of one heat leaves: the state, how many updates beside whole groups may still commit, and how many were moved. -/
structure Budget where
  st : State
  left : Nat
  moved : Nat := 0

/-- The result is a commit, as R177 counts them; a retry, a dropped or refused update is none. -/
def Res.commits : Res → Bool
  | .done st _ => st == stOk || st == stSilent
  | .wait => true
  | .retry e => e.silent

/-- One update at its sample: beyond the budget of the heat it moves to the next (R177). -/
def Budget.take (b : Budget) (row : Row) (e : Sched) : Budget :=
  let (s, r) := row.commit e (b.st.unschedule e.id)
  if r.commits && !e.whole && b.left == 0 then
    { b with st := { b.st with sched := b.st.sched.map fun x => if x.id = e.id then { x with heat := e.heat + 1, sample := 0, moved := x.moved + 1 } else x },
             moved := b.moved + 1 }
  else
    let s := match r with
      | .done st v => s.complete e st v
      | .wait => s
      | .retry e => State.showSched { s with sched := s.sched ++ [e] }
    { b with st := s, left := if r.commits && !e.whole then b.left - 1 else b.left }

/-- Whether the layer of an update puts out zero at the update's sample (R168). -/
def State.markZero (s : State) (e : Sched) : Sched :=
  if e.desc.opcode = 0x0101#16 ∨ e.desc.opcode = 0x0102#16 then
    { e with zero := some (s.layerZero (e.desc.body.pl 0 2) (e.desc.body.byte 2) e.heat e.sample) }
  else e

/-- The updates of one sample commit, groups first, then in the order of their commit times and of acceptance (R175, R177); whether a layer is
at zero is judged on what stood before them. -/
def Budget.commitAt (b : Budget) (rows : Nat → Option Row) (due : List Sched) (k : Nat) : Budget :=
  ((due.filter (·.sample == k)).map b.st.markZero).foldl (fun b e =>
    match rows e.desc.opcode.toNat with
    | some row => b.take row e
    | none => b) b

/-- The updates moved are counted, with event 0x50 (R177). -/
def Budget.close (b : Budget) : State :=
  if b.moved = 0 then b.st
  else (b.st.bumpBy Reg.zmOvfCnt 32 b.moved).emit 219 0x50 (zoneSyn 0x50 0 0xFF (min 255 b.moved))

/-! ### The ambient estimator (R189 to R192, R378) -/

/-- Lanes of the transfer entries of microphone `m`, with the gain in band `b` (R192). -/
def State.transfer (s : State) (m b : Nat) : List (Nat × Rat) :=
  (List.range 16).filterMap fun e =>
    let a := (s.reg Reg.zmAmbTfBase).toNat + (m * 16 + e) * 32
    let bs := s.vatBytes a 32
    if leAt bs 0 2 < 128 then some (leAt bs 0 2, sampleVal (BitVec.ofNat 32 (leAt bs (4 + 4 * b) 4))) else none

/-- The block of a bus for heat `c`: a zone's, or from 256 on the partner's zone bus received over Troxlink (R238). -/
def State.busBlock (s : State) (z c : Nat) : List Word :=
  if z < 256 then (((s.zoneAt z).done.find? fun b => b.1 == c).map (·.2.1)).getD []
  else (((Sparse.get [] s.pbus (z - 256)).find? fun b => b.1 == c).map (·.2)).getD []

/-- The bus a lane plays in heat `c` (R378). -/
def State.laneBus (s : State) (n c : Nat) : List Word := (s.routeAt n).zone.elim [] fun z => s.busBlock z c

/-- A lane with a test running on it. -/
def State.testing (s : State) (n : Nat) : Bool := s.tests.any fun t => t.running && t.lane == n

/-- The time constants of TAU, in heats (R197). -/
def ambTau (code : Nat) : Rat := ((250 * 2 ^ code : Nat) : Rat)

/-- The power of a block in octave band `b`; none is negative. -/
def octavePower (xs : List Word) (b : Nat) : Rat := max 0 (Config.bandPower xs b)

/-- The measured powers of zone `z`'s microphones and the powers of the buses their lanes take, averaged over heat `c`, and the predicted powers: the
sums over the transfer entries of gain times bus power (R189). -/
def ZoneH.measure (h : ZoneH) (s : State) (mics : List (Nat × Nat)) (c : Nat) : ZoneH :=
  let tau := ambTau (leAt h.amb 7 1)
  let at_ (j : Nat) : Option Nat := (mics.find? fun p => p.1 == j / 7).map (·.2)
  let blk (m : Nat) : List Word := (((s.micAt m).blks.find? fun b => b.1 == c).map (·.2)).getD []
  let meas : List Rat := (List.range 28).map fun j => (at_ j).elim 0 fun m => expAverage tau (h.pMeas.getD j 0) (octavePower (blk m) (j % 7))
  let lanes := (List.range 128).filter fun n => mics.any fun p => (s.transfer p.2 0).any (·.1 == n)
  let lane : Sparse Rat := lanes.flatMap fun n => (List.range 7).map fun b =>
    (n * 7 + b, expAverage tau (Sparse.get 0 h.pLane (n * 7 + b)) (octavePower (s.laneBus n c) b))
  let pred : List Rat := (List.range 28).map fun j => (at_ j).elim 0 fun m =>
    (s.transfer m (j % 7)).foldl (fun a t => a + t.2 * Sparse.get 0 lane (t.1 * 7 + j % 7)) 0
  { h with pMeas := meas, pLane := lane.filter (·.2 != 0), pPred := pred }

/-- The noise powers of the bands of one microphone that are selected and not excluded (R190). -/
def ZoneH.bands (h : ZoneH) (i : Nat) : List Rat :=
  (List.range 7).filterMap fun b =>
    let j := i * 7 + b
    if leAt h.amb 6 1 / 2 ^ b % 2 = 1 ∧ h.pPred.getD j 0 * 10 ≤ h.pMeas.getD j 0 * 9 then some (h.pMeas.getD j 0 - h.pPred.getD j 0) else none

/-- The offset goes one heat towards a level, at most by the slew limits (R191). -/
def ZoneH.slew (h : ZoneH) (t : Rat) : ZoneH :=
  let u : Rat := ((max 1 (leAt h.amb 16 2) : Nat) : Rat) / 1000
  let d : Rat := ((max 1 (leAt h.amb 18 2) : Nat) : Rat) / 1000
  { h with offset := if h.offset < t then min t (h.offset + u) else max t (h.offset - d) }

/-- The offset target of a noise level in 0.01 dB (R191). -/
def ZoneH.ambTarget (h : ZoneH) (n : Rat) : Rat :=
  max ((signed 16 (leAt h.amb 12 2) : Int) : Rat)
    (min ((leAt h.amb 14 2 : Nat) : Rat) (((leAt h.amb 10 2 : Nat) : Rat) * (n - ((signed 16 (leAt h.amb 8 2) : Int) : Rat)) / 100))

/-- The level the offset of zone `z` moves to: 0 dB while AMB_EN is clear; else the target, on battery no higher than its limit, and while a VA
layer is active no lower than 0 dB and than the offset in force (R191, results 7 and 15 of R378). -/
def State.ambGoal (s : State) (z : Nat) (h : ZoneH) : Rat :=
  if !h.ambEn then 0
  else
    let t := if s.batMode then min h.ambT ((s.getF Reg.gblModeBatAmb 15 0 : Nat) : Rat) else h.ambT
    if (s.zoneLayers z).any fun l => l.va && l.active then max (max 0 t) h.offset else t

/-- The estimator of zone `z` after heat `c`: it runs while EN is set, and not during warm-up; it holds with the offset kept while a test runs on
a lane of its microphones' transfer entries (R190, R197, results 14 and 16 of R378). -/
def State.ambient (s : State) (z c : Nat) : State :=
  let h := s.zoneAt z
  let en := leAt h.amb 20 1 % 2 == 1
  let mics := (List.range 4).filterMap fun i => if leAt h.amb (2 + i) 1 < 32 then some (i, leAt h.amb (2 + i) 1) else none
  let usable := mics.filter fun p => s.micReady p.2 && !(s.micAt p.2).stuck
  let held := mics.any fun p => (s.transfer p.2 0).any fun q => s.testing q.1
  if s.wup then s.setZone z { h with offset := 0 }
  else if !en then s.setZone z (({ h with holdRun := false }).slew 0)
  else if held then s.setZone z { h with holdRun := true }
  else
    let h := h.measure s mics c
    let sums := usable.map fun p => h.bands p.1
    let hold := sums.flatten.isEmpty
    let power := sums.flatten.sum / ((sums.length : Nat) : Rat)
    let n : Rat := if power ≤ 0 then ((signed 16 (s.freeVal.toNat % 65536) : Int) : Rat) else near 2 (100 * powerDb power)
    let h := if hold then { h with holdRun := true } else { h with noise := some n.floor, holdRun := false, ambT := h.ambTarget n }
    let h := h.slew (s.ambGoal z h)
    let s := if !hold && power ≤ 0 then s.take else s
    if hold && !(s.zoneAt z).holdRun then (s.setZone z h).emit 219 0x55 (zoneSyn 0x55 z 0xFF 1) else s.setZone z h

/-! ### The build (R176, R185, R188, R200) -/

/-- A finished block goes to its ring in the vat, to its history and to its capture ring. -/
def State.finishZone (s : State) (z c : Nat) (post pre : List Word) : State :=
  let h := s.zoneAt z
  let s := s.setZone z { h with done := ((c, post, pre, h.late) :: h.done).take 8, late := false,
                                back := if h.late then some 0 else h.back }
  let s := s.vatWrite .egress ((s.reg Reg.zmBusBase).toNat + (c % 8 * 256 + z) * 192) (bytesOfWords post)
  let cap := s.reg (Reg.zmRcap z)
  if !bitAt cap 31 then s
  else
    let r := fld cap 30 16
    let tap := fld cap 0 0
    let mk (ph lost seq dropped : Nat) : List Byte :=
      leBytes 1 tap ++ leBytes 1 ((if h.late then 4 else 0) + lost * 2 + ph) ++ leBytes 2 z ++ leBytes 4 seq ++ leBytes 8 c ++
        leBytes 4 dropped ++ leBytes 44 0 ++ bytesOfWords (if tap = 0 then post else pre)
    if s.ringRoom r then s.ringWrite r false mk
    else ((s.ringWrite r false mk).bump Reg.zmCapDropCnt 32).emit 219 0x56 (zoneSyn 0x56 z 0xFF 1)

/-- Updates that started their layers silent under a vote that has now completed complete STARTED_SILENT, and their layers duck
(R181). -/
def State.silentVotes (s : State) : State :=
  (s.sched.filter fun e => e.silent && voteOk e).foldl (fun s e =>
    let z := e.desc.body.pl 0 2
    let l := e.desc.body.byte 2
    let s := (s.unschedule e.id).setLayer z l { s.layerAt z l with voteWait := none }
    let s := { s with layerBack := Sparse.set {} s.layerBack (z * 8 + l) {} }
    s.complete e stSilent) s

/-- Build the blocks of heat `c` of every zone: commits at their samples, then each zone in order of nesting. -/
def State.buildZones (s : State) (rows : Nat → Option Row) (c : Nat) : State :=
  let s := s.silentVotes
  let s := s.players.foldl (fun s x => s.plyResume x.1) s
  let s := s.layers.foldl (fun s x => if x.2.silent.isSome then s.joinSilent (x.1 / 8) (x.1 % 8) c else s) s
  let s := s.sourceHeat c
  let due := s.zoneDue c
  let on := s.bit Reg.zmCtrl 0
  let b0 : Budget := { st := s, left := 512 - (due.filter (·.whole)).length }
  let (b, _, out) := (List.range 48).foldl (fun (a : Budget × List Nat × Sparse (List Word × List Word)) k =>
    let b := Budget.commitAt { a.1 with st := a.1.st.gensStep (c * 48 + k) } rows due k
    let s := b.st.gensStep (c * 48 + k)
    let order := if k = 0 || due.any (·.sample == k) then s.zoneOrder else a.2.1
    if !on then ({ b with st := s }, order, order.foldl (fun m z =>
      let p := Sparse.get ([], []) m z
      Sparse.set ([], []) m z (p.1 ++ [0#32], p.2 ++ [0#32])) a.2.2)
    else
      let (s, _, m) := order.foldl (fun (b : State × Sparse Word × Sparse (List Word × List Word)) z =>
        let (s, post, pre) := b.1.zoneSample { heat := c, k := k, bus := b.2.1 } z
        let p := Sparse.get ([], []) b.2.2 z
        (s, Sparse.set 0 b.2.1 z post, Sparse.set ([], []) b.2.2 z (p.1 ++ [post], p.2 ++ [pre]))) (s, [], a.2.2)
      ({ b with st := s }, order, m)) (b0, [], [])
  let s := b.close
  let s := s.vatZero .egress ((s.reg Reg.zmBusBase).toNat + c % 8 * 256 * 192) (256 * 192)
  let anyLate := out.any fun p => (s.zoneAt p.1).late
  let s := out.foldl (fun s p => s.finishZone p.1 c (List.replicate (48 - p.2.1.length) 0#32 ++ p.2.1)
    (List.replicate (48 - p.2.2.length) 0#32 ++ p.2.2)) s
  let s := (s.setBit Reg.zmStatus 1 anyLate).setBit Reg.zmStatus 0 on
  let v := s.freeVal.toNat % 1024
  let s := (s.take.setReg Reg.zmLoad (BitVec.ofNat 32 v)).setReg Reg.zmLoadMax (BitVec.ofNat 32 (max v (s.getF Reg.zmLoadMax 9 0)))
  let s := s.zones.foldl (fun s x => if x.2.amb.isEmpty && x.2.offset == 0 then s else s.ambient x.1 c) s
  let s := s.players.foldl (fun s x => s.showPlayer x.1) s
  let s := s.layers.foldl (fun s x => s.showLayer (x.1 / 8) (x.1 % 8)) s
  out.foldl (fun s p => s.showZone p.1) s

/-- The 48 samples of the zone bus of heat `c` that a lane receives, each side of a route change by its own ramp (R186). -/
def State.laneInput (s : State) (n c : Nat) : State × List Word :=
  let r := s.routeAt n
  let bus (z : Option Nat) : List Word := z.elim [] fun z => s.busBlock z c
  let a := bus r.zone
  let b := bus r.old
  if r.side = .on ∧ r.oldSide = .off then (s, to48 0#32 a)
  else
    let (x, y, ws) := (List.range 48).foldl (fun (p : Side × Side × List Word) k =>
      let (x, f) := p.1.step
      let (y, g) := p.2.1.step
      (x, y, p.2.2 ++ [mixOf (sampleVal (a.getD k 0) * f + sampleVal (b.getD k 0) * g)])) (r.side, r.oldSide, [])
    ((s.setRoute n { r with side := x, oldSide := y, old := if y = .off then none else r.old }).showRoute n, ws)

end Sys2Proof.Machine
end

