-- ==== Sys2Proof/Machine/LinkOps.lean ====
section
/-! DEFINITION. What a Tile Link carries (09_modulation_power_tile.md): the samples of a downstream frame with the system gain, fades and
emergency samples; the layout of both frames; and what a tile's modulator makes of the samples. -/

namespace Sys2Proof.Machine

/-! ### The crossover of a lane (R547, R548) -/

def State.setXphase (s : State) (n : Nat) (p : XPhase) : State :=
  { s with xover := { s.xover with lanes := s.xover.lanes.map fun x => if x.1 = n then (n, p) else x } }

/-- The group of a lane under PAIR and FOUR bits. -/
def groupOf (b l : Nat) : Nat × Nat :=
  if b.testBit (4 + l / 4) then (4, l / 4) else if b.testBit (l / 2) then (2, l / 2) else (1, l)

/-- MODE or the bonded group in the registers differs from the defaults (R548). -/
def State.xoverDiffers (s : State) (n : Nat) : Bool :=
  let t := n / 8
  (s.defField t (16 + n % 8 * 16) 1).testBit 1 != s.bit (Reg.tlLaneCfg t (n % 8)) 1 ||
    groupOf (s.defField t 3 1) (n % 8) != groupOf (s.reg (Reg.tlBond t)).toNat (n % 8)

/-- The end of step 3: the lane is at zero, or OFF where its registers differ. -/
def State.xoverZero (s : State) (n : Nat) : State :=
  let s := (s.setXphase n (.zeroed s.heat)).ramp n .zero
  if s.xoverDiffers n then (s.setLane n { s.laneAt n with run := false }).takeCtrl n else s

/-- The lane has been at zero since a heat before `h`. -/
def XPhase.zeroBefore (h : Nat) (p : XPhase) : Bool := match p with
  | .zeroed k => decide (k < h)
  | _ => false

/-! ### Samples (R239, R240, R312, R325, R544) -/

/-- A lane whose emergency samples fade to zero in the crossover (R547). -/
def State.xoverFades (s : State) (n : Nat) : Bool := s.xover.lanes.contains (n, .fading)

/-- The samples of ramp that pass with one link sample: 1, or 6 where the 64 emergency samples of the crossover's fade run (R547). -/
def State.rampStep (s : State) (n : Nat) : Nat := if s.xoverFades n then 6 else 1

/-- The system gain of the `i`-th sample from now. -/
def LaneH.gainAt (h : LaneH) (step i : Nat) : Rat :=
  match h.gain with
  | .zero => 0
  | .full => 1
  | .rampIn => rcos (h.rampPos + step * i) rampLen
  | .rampOut => rcos (h.rampPos - step * i) rampLen

/-- Eight samples further. -/
def LaneH.advance (h : LaneH) (step : Nat) : LaneH :=
  match h.gain with
  | .rampIn => { h with rampPos := min rampLen (h.rampPos + 8 * step) }
  | .rampOut => { h with rampPos := h.rampPos - 8 * step }
  | _ => h

/-- The emergency path has a source: its port is enabled with slot 0 in its mask, and it is not lost (R543, R546). -/
def State.wupSource (s : State) : Bool :=
  if s.straps.wupSrc then s.bit (Reg.aesRxCfg 0) 0 && !s.bit (Reg.aesRxStatus 0) 1
  else s.bit (Reg.tdmCtrl 0) 0 && s.bit (Reg.tdmRxMask 0) 0 && !s.bit (Reg.tdmStatus 0) 3

/-- A lane sends emergency samples (R544). -/
def State.sendsWarm (s : State) (n : Nat) : Bool :=
  s.laneWarm n && (s.defField (n / 8) (16 + n % 8 * 16) 1).testBit 0 &&
    !s.xover.lanes.any fun x => x.1 == n && match x.2 with
      | .zeroed _ => true
      | _ => false

/-- The emergency path's converter sample at 48 kHz that is `back` samples before frame `k` of the heat, over all lanes alike: channel 0 of the
emergency port's stream (R542, R544, R545). -/
def State.warmAt (s : State) (k back : Nat) : Word :=
  let code := s.wupStream
  let lag : Rat := 1020834 + ((Config.warmLag % 129000 : Nat) : Rat)
  let t := ((s.heat * 1000000 : Nat) : Rat) + ((k : Rat) - (back : Rat)) * 1000000 / 48 - lag
  ((s.convAt code).sampleAt (filterTaps (s.convFilter code)) (periodNs (s.convRate code)) 0 t).getD 0#32

/-- The eight emergency samples of frame `k` before a lane's gain: the converter's, interpolated by 8 with a fixed filter over at most 16 of them. -/
def State.warmSamples (s : State) (k : Nat) : List Rat :=
  let w := (List.range 16).map fun b => s.warmAt k b
  (List.range 8).map fun (j : Nat) => if !s.wupSource || w.all f32IsZero then 0 else sampleVal (Config.filterOut 8 ((j : Rat) / 8) w)

/-- Samples after `prev` cross zero: one is zero, or differs in sign from the one before it (R104). -/
def crossesZero (prev : Rat) : List Rat → Bool
  | [] => false
  | x :: xs => decide (x = 0) || decide (prev * x < 0) || crossesZero x xs

/-- DMEM address of the output area that is sent: the one the program does not write in this heat (R227, R238). -/
def LpH.sentArea (h : LpH) : Nat := if h.outB then 0x3800 else 0x6800

/-- The value of pipeline sample `i` of lane `l` before the system gain, and whether a non-finite one was replaced: the completed
output, faded in after a replaced heat. -/
def LpH.output (h : LpH) (l i j : Nat) : Rat × Bool :=
  let w := h.word (h.sentArea + l * 1536 + i * 4)
  let left := Sparse.get 0 h.fadeIn l
  let f := if left = 0 then 1 else rcos (512 - left + j) 512
  if f32Finite w then (f32ToRat w * f, false) else (0, true)

/-- A sample saturated to ±1.0. -/
def satOne (x : Rat) : Rat := if x < -1 then -1 else if 1 < x then 1 else x

/-- The link format of a sample: × 2^31, saturated (R325). -/
def linkCode (x : Rat) : Int :=
  let y := x * 2147483648
  let r := if y.den = 1 then y.num else y.floor + (if Config.linkRoundUp y then 1 else 0)
  clampInt (-2147483648) 2147483647 r

/-- The eight samples of lane `n` in frame `k`: emergency samples times the lane's GAIN, zeros, the completed output times the system
gain, or the 384-sample fade from the last sent sample where there is none. -/
def State.frameSamples (s : State) (k n : Nat) : List Rat × Bool :=
  let h := s.laneAt n
  let p := s.lpAt (n / 8)
  let l := n % 8
  let js := List.range 8
  if s.laneWarm n then
    if !s.sendsWarm n then (js.map fun _ => 0, false)
    else
      let g := dbLinear ((signed 16 (s.defField (n / 8) (18 + l * 16) 2) : Int) : Rat)
      let xs := s.warmSamples k
      (js.map fun j => satOne (xs.getD j 0 * g * h.gainAt (s.rampStep n) j), false)
  else if s.lpSilent (n / 8) then (js.map fun _ => 0, false)
  else if p.send.getLsbD l then
    let xs := js.map fun j => p.output l (8 * k + j) j
    (js.map fun j => satOne (((xs.getD j (0, false)).1) * h.gainAt 1 j), xs.any (·.2))
  else (js.map fun j => (Sparse.get 0 p.fadeFrom l) * (1 - rcos (8 * k + j) 384), false)

/-- The controller's side of lane `n` after frame `k` with those samples. In the crossover a lane whose emergency samples have faded is at zero. -/
def State.frameSent (s : State) (n : Nat) (xs : List Rat) : State :=
  let p := s.lpAt (n / 8)
  let l := n % 8
  let left := if p.send.getLsbD l then Sparse.get 0 p.fadeIn l - 8 else Sparse.get 0 p.fadeIn l
  let s := s.setLp (n / 8) { p with lastSent := Sparse.set 0 p.lastSent l (xs.getLastD 0), fadeIn := Sparse.set 0 p.fadeIn l left }
  let h := ((s.laneAt n).advance (s.rampStep n))
  let s := s.setLane n { h with crossed := crossesZero (Sparse.get 0 p.lastSent l) xs }
  if s.xoverFades n && h.rampPos = 0 then s.xoverZero n else s

/-! ### The frames as bytes (R324 to R328) -/

/-- MUTE in a lane's control word, from any of its mutes. -/
def LaneH.muted (h : LaneH) : Bool := h.mute || h.lpMute || h.pairMute || h.muteReq

def boolNat (b : Bool) : Nat := if b then 1 else 0

def ctrlWord (h : LaneH) : List Byte :=
  leBytes 2 (boolNat h.run + 2 * boolNat h.muted) ++ leBytes 2 h.fastFrac ++ leBytes 2 h.relMs ++ leBytes 2 0

/-- RLY0 to RLY11 as commanded (R323). -/
def State.relayWord (s : State) (t : Nat) : Nat :=
  (List.range 12).foldl (fun a r =>
    a + 2 ^ r * boolNat (if r < 8 then (s.laneAt (t * 8 + r)).relay else (s.tileAt t).relayCmd.getLsbD r)) 0

def mboxBytes (o : Option MboxOp) (tag : Bool) : List Byte :=
  let x := o.getD {}
  leBytes 1 x.op ++ leBytes 1 (boolNat tag) ++ leBytes 2 x.off ++ leBytes 4 x.data.toNat

def withCrc (bs : List Byte) : List Byte := bs ++ leBytes 4 (crc32 bs).toNat

/-- The 404 bytes of downstream frame `k`, with the codes of its samples, lane by lane. -/
def State.downBytes (s : State) (t k : Nat) (codes : List Int) : List Byte :=
  withCrc (leBytes 4 s.heat ++ leBytes 1 k ++ leBytes 1 (boolNat (s.tileWarm t)) ++ leBytes 2 0 ++
    (List.range 8).flatMap (fun l => ctrlWord (s.laneAt (t * 8 + l))) ++ codes.flatMap (fun c => leBytes 4 (pattern 32 c)) ++
    leBytes 4 (s.relayWord t) ++ leBytes 4 (t * 64 + s.straps.engineId.toNat) ++
    mboxBytes (s.tileAt t).resp (s.tileAt t).tag ++ List.replicate 8 0#8 ++ List.replicate 48 0#8)

/-- A lane status word. -/
def State.statWord (s : State) (n : Nat) : List Byte :=
  let h := s.laneAt n
  let g := (h.fastLow * 65536).floor.toNat
  leBytes 1 (s.laneSt n) ++ leBytes 1 (s.getF (laneReg n) 15 8) ++ leBytes 2 (s.getF (laneReg n) 26 16) ++
    leBytes 2 (min 0xFFFF g) ++ leBytes 1 (min 255 h.ilimFrame) ++ leBytes 1 (s.getF (Reg.tlLaneSc (n / 8) (n % 8)) 7 0)

/-- The 224 bytes of an upstream frame; `status` 1 says that the tile refuses the mailbox operation. -/
def State.upBytes (s : State) (t : Nat) (m : TileMeasure) (status : Nat) : List Byte :=
  let h := s.tileAt t
  let flags := 16 * boolNat h.missUp + 8 * boolNat (s.bit (laneReg (t * 8)) (16 + hcUv)) + 4 * boolNat (s.bit (laneReg (t * 8)) (16 + hcOv)) +
    2 * boolNat (s.bit (Reg.tlLinkStatus t) 4) + boolNat (s.bit (Reg.tlLinkStatus t) 3)
  withCrc (leBytes 4 h.lastHeat ++ leBytes 1 h.lastFrame ++ leBytes 1 flags ++ leBytes 2 h.missCnt ++
    (List.range 32).flatMap (fun i => leBytes 3 (h.sense.getD i 0#24).toNat) ++
    leBytes 2 m.railMin.toNat ++ leBytes 2 m.railMax.toNat ++ leBytes 2 m.railMean.toNat ++ leBytes 2 m.tDie.toNat ++
    leBytes 2 m.tSink.toNat ++ leBytes 2 m.battPin.toNat ++ (List.range 8).flatMap (fun l => s.statWord (t * 8 + l)) ++
    bytesOfWords (((s.laneAt (t * 8 + h.lastFrame % 8)).edges.stat ++ List.replicate 4 0#32).take 4) ++ leBytes 4 (s.reg (Reg.tlRelay t)).toNat ++ leBytes 4 (s.getF (Reg.tlClkmon t) 10 0) ++
    mboxBytes h.resp h.tag ++ leBytes 1 status ++ List.replicate 7 0#8)

/-! ### The modulator (R279, R286, R294 to R298, R608) -/

/-- Centre frequency in units of 5 kHz, spread in percent and the triangular rate code, none for pseudo-random (R298, R308). -/
def State.spreadOf (s : State) (n : Nat) : Nat × Nat × Option Nat :=
  let r := Reg.tlLaneCfg (n / 8) (n % 8)
  if s.laneWarm n then (80, 6, none)
  else (s.getF r 23 16, s.getF r 15 12, if s.bit r 11 then some (s.getF r 10 8) else none)

/-- A slot of 20,833.333 ns in units of 62.5 ps. -/
abbrev slotUnits : Rat := 1000000 / 3

/-- One switching period: its length in units of 62.5 ps, and the sequences after it. -/
def LaneH.period (h : LaneH) (cfg : Nat × Nat × Option Nat) : LaneH × Nat :=
  let (fsw, pct, tri) := cfg
  let t0 : Rat := 3200000 / (max 1 fsw : Nat)
  let x := lfsrValue h.lfsr
  let u : Rat := match tri with
    | none => ((x % 65536 : Nat) - 32768 : Rat) / 32768
    | some _ => if h.tri < 1 / 2 then 4 * h.tri - 1 else 3 - 4 * h.tri
  let len := (t0 * (1 + (pct : Rat) / 100 * u) + 1 / 2).floor.toNat
  let ph := match tri with
    | none => h.tri
    | some f => let p := h.tri + (len : Rat) * 2 ^ f / 8000000; p - p.floor
  ({ h with lfsr := x, tri := ph }, len)

/-- The periods that start in the slot, at most `fuel`: each with its length and its index, `m` of its start and midpoint, clamped to ±M_MAX, which
counts (R296). -/
def LaneH.periodsGo (cfg : Nat × Nat × Option Nat) (m : Rat → Rat → Rat) : Nat → LaneH → List (Nat × Rat) → LaneH
  | 0, h, acc => { h with periods := acc.reverse }
  | fuel + 1, h, acc =>
    if slotUnits ≤ h.nextPer then { h with periods := acc.reverse, nextPer := h.nextPer - slotUnits }
    else
      let (h', len) := h.period cfg
      let x := m h.nextPer (h.nextPer + (len : Rat) / 2)
      let top : Rat := 1 - 640 / (max 1 len : Nat)
      let clips := h.edges.clips + (if top < absRat x then 1 else 0)
      LaneH.periodsGo cfg m fuel { h' with nextPer := h.nextPer + (len : Rat), edges := { h.edges with clips := clips } }
        ((len, if x < -top then -top else if top < x then top else x) :: acc)

/-- The samples that the modulator takes: the codes, in warm-up their upper 16 bits (R308); in a probe its own (R321). -/
def State.modSamples (s : State) (n : Nat) (codes : List Int) : List Rat :=
  if s.laneSt n = lsProbe then (List.range 8).map fun j => ProbeH.wave ((s.laneAt n).probe.played + j)
  else codes.map fun c => ((if s.laneWarm n then c / 65536 * 65536 else c : Int) : Rat) / 2147483648

/-- g_F at each of the samples, in volts, of a frame with the rail ADC's codes 250 ns apart (R286). -/
def LaneH.fastGo (h : LaneH) (rail : Nat → Rat) : List Rat → Nat → Rat → List Rat
  | [], _, _ => []
  | v :: vs, j, g =>
    let g := h.fastStep v (rail (j * 125 / 12)) g
    g :: LaneH.fastGo h rail vs (j + 1) g

/-- What the modulator makes of the codes of lane `n` over a slot with the rail ADC's codes: m = s × g_F × V_NOM / V_meas at each period's
midpoint, V_meas being the rail at its start, with the commanded voltage within ±VPK, and the edges of the periods (R279, R286, R295 to R297). -/
def State.modulate (s : State) (n : Nat) (codes : List Int) (rails : List Nat) : State :=
  let h := s.laneAt n
  let lead := s.groupLow n
  let vNom := s.vNom (n / 8)
  let vpk : Rat := (s.getF (Reg.tlRindVpk (n / 8) (n % 8)) 15 0 : Rat) / 10
  let rail (i : Nat) : Rat := railVolts (rails.getD i (rails.getLastD (s.tileAt (n / 8)).railCode))
  let probing := s.laneSt n == lsProbe
  let runs := s.laneSt n == lsRunning || (probing && 20 ≤ h.probe.played)
  let vs := (s.modSamples n codes).map (· * vNom)
  let gs := if runs then h.fastGo rail vs 0 h.fast else vs.map fun _ => h.fast
  let ys := (vs.zip gs).map fun p => p.1 * p.2
  let clamps := runs && ys.any fun y => decide (vpk < absRat y)
  let limit (v : Rat) : Rat := if v < -vpk then -vpk else if vpk < v then vpk else v
  let m (start mid : Rat) : Rat :=
    let vMeas := rail (start / 4000).floor.toNat
    if !runs ∨ vMeas = 0 then 0 else cut (limit (Config.modInterp (h.volts ++ ys) (8 + mid / slotUnits * 8)) / vMeas)
  let start := h.nextPer
  let h := LaneH.periodsGo (s.spreadOf lead) m 24 h []
  let h := { h with samples := codes.map fun c => BitVec.ofInt 32 c, clamp := h.clamp || clamps, fast := gs.getLastD h.fast, volts := ys,
                    probe := if probing then { h.probe with played := h.probe.played + 8 } else h.probe }
  let h := if n ≠ lead then { h with periods := (s.laneAt lead).periods, edges := { h.edges with due := (s.laneAt lead).edges.due } }
    else if runs then
      let cm (u : Rat) : Rat := match h.earth with
        | some e => e.offset (rail (u / 4000).floor.toNat) u
        | none => 0
      { h with edges := h.edges.slot cm h.periods start }
    else h
  let h := { h with earth := h.earth.map fun e => { e with played := e.played + 1 } }
  let first := clamps && !(s.laneAt n).clamp && !(s.laneAt n).clampPrev
  let s := (s.setLane n h).fastShow n (gs.foldl min 1)
  if first then s.laneEvent n 0x90 (s.getF (Reg.tlRindVpk (n / 8) (n % 8)) 15 0) else s

end Sys2Proof.Machine
end

