-- ==== Sys2Proof/Machine/Link.lean ====
section
/-! DEFINITION. The frames of a Tile Link (09_modulation_power_tile.md): TL_DOWNSTREAM_FRAME, TL_UPSTREAM_FRAME with the tile's answer to a
mailbox write, and RELAY_COIL_FAULT. -/

namespace Sys2Proof.Machine

/-! ### Downstream -/

/-- The codes of the eight lanes of a tile in frame `k`, lane by lane; non-finite samples count, with event 0x7A. -/
def State.linkSamples (s : State) (t k : Nat) : State × List (List Int) :=
  let fr := (List.range 8).map fun l => s.frameSamples k (t * 8 + l)
  let bad := (List.range 8).foldl (fun a l => if (fr.getD l ([], false)).2 then a + 2 ^ l else a) 0
  let cnt := ((List.range 8).map fun l => ((List.range 8).filter fun j => ((s.lpAt t).output l (8 * k + j) j).2).length).sum
  let s := forUpto 8 (fun l s => s.frameSent (t * 8 + l) (fr.getD l ([], false)).1) s
  let s := if bad = 0 then s else
    (s.setLp t { s.lpAt t with nonFin := (s.lpAt t).nonFin + cnt }).emit (144 + t) 0x7A (syn12 0x7A 0xFFF bad)
  (s, fr.map fun x => x.1.map linkCode)

/-- The first good frame after power-up or a link loss loads every lane's seed (R299). -/
def State.seedLoad (s : State) (t : Nat) : State :=
  if (s.tileAt t).seeded then s
  else
    let s := forUpto 8 (fun l s =>
      let n := t * 8 + l
      let v := 0x40000000 + s.straps.engineId.toNat * 128 + n
      let s := s.setReg (Reg.tlLaneSeed t l) (BitVec.ofNat 32 v)
      s.setLane n { s.laneAt n with lfsr := v, tri := ((v % 65536 : Nat) : Rat) / 65536, nextPer := 0 }) s
    s.setTile t { s.tileAt t with seeded := true }

/-- A good frame ends a run of missing ones; the sixteenth in a row clears LINK on every lane (R310, R315). -/
def State.goodFrame (s : State) (t k : Nat) : State :=
  let h := s.tileAt t
  let s := (s.putF (Reg.tlLinkStatus t) 15 8 0).setTile t { h with good := h.good + 1, lastHeat := s.heat, lastFrame := k }
  if h.good + 1 = 16 then s.holdTile t hcLink false 0 else s

/-- The next mailbox operation leaves in this frame, unless the tile has still to answer one (R335). -/
def State.mboxSend (s : State) (t : Nat) : State :=
  let h := s.tileAt t
  match h.resp, h.mbox with
  | none, x :: xs => s.setTile t { h with resp := some x, mbox := xs, tag := !h.tag }
  | _, _ => s

/-- The modulators of a tile play the codes of a slot, lane by lane, against the rail ADC's codes. -/
def State.tilePlays (s : State) (t : Nat) (codes : List (List Int)) (rails : List Nat) : State :=
  let s := forUpto 8 (fun l s => s.modulate (t * 8 + l) (codes.getD l []) rails) s
  s.setTile t { s.tileAt t with railCode := rails.getLastD (s.tileAt t).railCode }

/-- A downstream slot ends without a good frame (R315): the modulator plays each lane's last sample again, and the third in a row sets LINK on
every lane and de-energises the relays. -/
def State.frameMissing (s : State) (t : Nat) (rails : List Nat) : State :=
  let h := s.tileAt t
  let run := satInc 8 (s.getF (Reg.tlLinkStatus t) 15 8)
  let s := (s.putF (Reg.tlLinkStatus t) 15 8 run).bump (Reg.tlLinkMissCnt t) 32
  let s := s.tilePlays t ((List.range 8).map fun l => List.replicate 8 ((s.laneAt (t * 8 + l)).samples.getLastD 0).toInt) rails
  let s := s.setTile t { s.tileAt t with good := 0, missCnt := (h.missCnt + 1) % 65536, missSeen := true, missUp := true,
                                          seeded := h.seeded && run < 3 }
  let s := if h.missSeen then s else s.tileEvent t 0xC1 run
  if run = 3 then (s.holdTile t hcLink true 0xC0).relaysOff t else s

/-- DOWNSTREAM_FRAME_MISSING: a slot without a good frame, with the rail ADC's codes in it, 250 ns apart. -/
def execDownstreamFrameMissing (x : TileRails) (s : State) : Host.Outcome State Fault Refusal :=
  onTile s x.tile.val fun s => s.frameMissing x.tile.val (x.rails.map (·.toNat))

/-- The controller sends frame `k` to a tile whose link is up, and the tile receives it: its identity seeds the lanes, relays and control
words are taken, and the modulator plays its samples against the rail ADC's codes. -/
def State.downstream (s : State) (t k : Nat) (rails : List Nat) : State :=
  if !s.bit (Reg.tlLinkStatus t) 1 then s
  else if 0 < (s.tileAt t).omitFrames then
    (s.setTile t { s.tileAt t with omitFrames := (s.tileAt t).omitFrames - 1 }).frameMissing t rails
  else
    let s := s.mboxSend t
    let (s, codes) := s.linkSamples t k
    let frame := s.downBytes t k (codes.flatMap id)
    let s := (s.goodFrame t k).seedLoad t
    let s := forUpto 8 (fun l s => s.takeCtrl (t * 8 + l)) s
    let s := s.relaysFollow t
    let s := s.tilePlays t codes rails
    s.setTile t { s.tileAt t with down := frame }

/-- TL_DOWNSTREAM_FRAME: frame `k` of the heat, with the rail ADC's codes of the slot, 250 ns apart, in units of 200 / 65,536 V. -/
def execTlDownstreamFrame (t : Fin 16) (k : Fin 48) (rails : List (BitVec 16)) (s : State) : Host.Outcome State Fault Refusal :=
  onTile s t.val fun s => s.downstream t.val k.val (rails.map (·.toNat))

/-! ### The tile's answer to a mailbox write (R280, R305, R306, R335) -/

/-- The lane of a register at tile offset `off` in an array of stride `st` from `base`. -/
def laneIn (base st off : Nat) : Option Nat :=
  if base ≤ off ∧ (off - base) % st = 0 ∧ (off - base) / st < 8 then some ((off - base) / st) else none

def State.tileOff (s : State) (t : Nat) : Bool := (List.range 8).all fun l => s.laneSt (t * 8 + l) == lsOff

/-- The fields of `TLn_LANEl_CFG` lie in their ranges. -/
def cfgRange (v : Word) : Bool :=
  50 ≤ fld v 23 16 && fld v 23 16 ≤ 200 && fld v 15 12 ≤ 10 && fld v 10 8 ≤ 4 && 2 ≤ fld v 7 3 && fld v 7 3 ≤ 20

/-- No FOUR bit stands with a PAIR bit inside it (R306). -/
def bondRange (v : Word) : Bool :=
  !(bitAt v 4 && (bitAt v 0 || bitAt v 1)) && !(bitAt v 5 && (bitAt v 2 || bitAt v 3))

/-- The lanes whose PAIR or FOUR bit a write of `TLn_BOND` changes are OFF. -/
def State.bondFree (s : State) (t : Nat) (v : Word) : Bool :=
  let x := s.reg (Reg.tlBond t) ^^^ v
  (List.range 8).all fun l => !(bitAt x (l / 2) || bitAt x (4 + l / 4)) || s.laneSt (t * 8 + l) == lsOff

/-- A finite binary32 within its range in volts. -/
def railRange (v : Word) : Bool := f32Finite v && decide (24 ≤ f32ToRat v) && decide (f32ToRat v ≤ 165)

/-- The tile applies a write of `v` to its register at `off` (R305, R306). -/
def State.tileTakes (s : State) (t off : Nat) (v : Word) : Bool :=
  let lim (lo hi : Nat) : Bool := lo ≤ fld v 15 0 && fld v 15 0 ≤ hi
  match laneIn 0x1000 0x40 off, laneIn 0x1004 0x40 off, laneIn 0x1008 0x40 off with
  | some l, _, _ => cfgRange v && s.laneSt (t * 8 + l) == lsOff
  | _, some _, _ => lim 2000 16000
  | _, _, some _ => lim 20 20000
  | _, _, _ =>
    if off = 0x1C then bondRange v && s.bondFree t v
    else if off = 0x20 then railRange v && s.tileOff t
    else if off = 0x24 then lim 300 1750
    else if off = 0x28 then lim 100 1600
    else true

/-- `BONDED` follows `TLn_BOND`. -/
def State.showBond (s : State) (t : Nat) : State :=
  forUpto 8 (fun l s =>
    let b := s.reg (Reg.tlBond t)
    s.setBit (laneReg (t * 8 + l)) 5 (bitAt b (l / 2) || bitAt b (4 + l / 4))) s

/-- The first values the tile acknowledges end its use of the lane defaults (R280); ACK is set once none is waiting. -/
def State.rindAck (s : State) (t off : Nat) : State :=
  let wait := (s.tileAt t).mbox.any (·.op == 3)
  let s := forUpto 8 (fun l s => s.setBit (Reg.tlRindStat t l) 1 false) s
  let ack (s : State) (l : Nat) : State := s.setBit (Reg.tlRindStat t l) 0 (!wait)
  match (List.range 8).find? fun l => 0x2000 + l * 0x20 ≤ off && off < 0x2000 + l * 0x20 + 0x20 with
  | some l => ack s l
  | none => if off = 0x2100 then forUpto 8 (fun l s => ack s l) s else s

/-- The value a register takes under its access types, the controller's rule for a write. -/
def State.tileWrite (s : State) (t : Nat) (x : MboxOp) : State :=
  let off := 0x100000 + t * 0x4000 + x.off
  if x.op = 3 then
    let s := s.setReg off x.data
    let s := if x.off = 0x2100 ∨ (0x2000 ≤ x.off ∧ x.off < 0x2100 ∧ x.off % 0x20 < 0x10) then s.rindAck t x.off else s
    s.tileEval t 0xC5
  else if !s.tileTakes t x.off x.data then s.setBit (Reg.tlLinkStatus t) 6 true
  else
    let s := s.rawWrite off x.data
    if x.off = 0x1C then s.showBond t
    else if off = Reg.tlClkmon t then s.setReg off (s.reg off ||| (s.tileAt t).islOut.setWidth 32)
    else s

/-- The tile answers the mailbox operation it holds, and the controller's copy shows it. -/
def State.mboxAnswer (s : State) (t : Nat) : State :=
  match (s.tileAt t).resp with
  | none => s
  | some x => ((s.setTile t { s.tileAt t with resp := none }).tileWrite t x).corePend 4 4

/-! ### Upstream -/

/-- Sense samples into the sense area that the program does not read: V = code × 200 / 2^23, I = code × 25 / 2^23 (R227, R329). -/
def State.senseWrite (s : State) (t k : Nat) (codes : List (BitVec 24)) : State :=
  let p := s.lpAt t
  let base := if p.senseB then 0x0800 else 0x2000
  let put (p : LpH) (c i : Nat) : LpH :=
    let x := codes.getD (2 * c + i) 0#24
    p.putWord (base + c * 384 + (2 * k + i) * 4) (f32OfRat (if c % 2 = 0 then senseVolts x else senseAmps x))
  s.setLp t { (List.range 16).foldl (fun p c => put (put p c 0) c 1) p with fillHeat := s.heat - 1 }

/-- The average over 1 s of BATT_SENSE, in units of 0.1 mV, with one reading a frame (R285). -/
def battAverage (avg pin : Rat) : Rat := expAverage 48000 avg pin

/-- The rail, temperatures, battery and edge statistics of a good frame (R285, R327, R331, R334). -/
def State.linkMeasured (s : State) (t : Nat) (m : TileMeasure) : State :=
  let p := s.lpAt t
  let p := { p with railSum := p.railSum + m.railMean.toNat, railN := p.railN + 1, railMin := min p.railMin m.railMin.toNat,
                    railMax := max p.railMax m.railMax.toNat, battAvg := battAverage p.battAvg (m.battPin.toNat : Rat) }
  let s := (s.setLp t p).setReg (Reg.tlTemp t) (BitVec.ofNat 32 (m.tSink.toNat * 65536 + m.tDie.toNat))
  let s := s.showBatt t
  let l := (s.tileAt t).lastFrame % 8
  let n := t * 8 + l
  let ws := ((s.laneAt n).edges.stat ++ List.replicate 4 0#32).take 4
  let s := (s.setLane n { s.laneAt n with edge := ws }).setReg (Reg.tlLaneEdge t l) (ws.getD 1 0)
  forUpto 8 (fun l s =>
    s.setLane (t * 8 + l) { s.laneAt (t * 8 + l) with ilimFrame := 0, fastLow := (s.laneAt (t * 8 + l)).fast }) s

/-- The events the tile has raised reach the collector. -/
def State.deliver (s : State) (t : Nat) : State :=
  let h := s.tileAt t
  h.evs.foldl (fun s e => s.emit e.1 e.2.1 e.2.2) (s.setTile t { h with evs := [] })

/-- A good upstream frame `k`. -/
def State.upstream (s : State) (t k : Nat) (m : TileMeasure) : State :=
  let status := match (s.tileAt t).resp with
    | some x => if x.op = 1 ∧ !s.tileTakes t x.off x.data then 1 else 0
    | none => 0
  let frame := s.upBytes t m status
  let s := s.setTile t { s.tileAt t with up := frame, upMiss := 0, missUp := false, heard := (s.tileAt t).sense }
  (((s.senseWrite t k (s.tileAt t).sense).linkMeasured t m).mboxAnswer t).deliver t

/-- A bad upstream frame: counted, a frame missing from the sense area, and the last sense samples, of the frame before, repeated (R324). -/
def State.upstreamBad (s : State) (t k : Nat) (sense : List (BitVec 24)) : State :=
  let h := s.tileAt t
  let last := (List.range 32).map fun i => sense.getD (i / 2 * 2 + 1) 0#24
  let s := (s.bump (Reg.tlLinkCrcCnt t) 32).setTile t { h with upMiss := h.upMiss + 1 }
  (s.setLp t { s.lpAt t with gap := (s.lpAt t).gap + 1 }).senseWrite t k last

/-- TL_UPSTREAM_FRAME: frame `k` of the heat, with what the tile measures, arrives good or bad. -/
def execTlUpstreamFrame (t : Fin 16) (k : Fin 48) (m : TileMeasure) (s : State) : Host.Outcome State Fault Refusal :=
  onTile s t.val fun s =>
    let h := s.tileAt t.val
    let s := s.tileMeasured t.val m
    if !s.bit (Reg.tlLinkStatus t.val) 1 then s
    else if m.good then s.upstream t.val k.val m
    else s.upstreamBad t.val k.val h.heard

/-! ### Relay coils (R323) -/

/-- RELAY_COIL_FAULT: the coil of driver `r` is open or shorted. -/
def execRelayCoilFault (t : Fin 16) (r : Fin 12) (mA : BitVec 16) (s : State) : Host.Outcome State Fault Refusal :=
  onTile s t.val fun s =>
    let t := t.val
    let s := ((s.setBit (Reg.tlRelay t) (16 + r.val) true).setBit (Reg.tlRelay t) r.val false)
    let h := s.tileAt t
    (s.setTile t { h with fresh := h.fresh ||| (1#12 <<< r.val) }).tileEvent t 0xC7 mA.toNat

end Sys2Proof.Machine
end

