-- ==== Sys2Proof/Machine/LpFloat.lean ====
section
/-! DEFINITION. The F slots of a lane processor (07_lane_processor.md R232). -/

namespace Sys2Proof.Machine

/-! ### binary32 as the F slots compute it: subnormals flushed, NaN propagated, rounded to nearest even -/

/-- A subnormal is flushed to zero with its sign. -/
def flush (w : Word) : Word := if f32Exp w = 0 then f32Zero (f32Neg w) else w

/-- A NaN of a free sign and payload. -/
def nanOf (fr : Word) : Word :=
  let m := fr &&& 0x807FFFFF#32
  0x7F800000#32 ||| (if fld m 22 0 = 0 then m ||| 0x400000#32 else m)

/-- The rounded and flushed pattern of an exact value; `neg` is the sign of a zero. -/
def f32Out (q : Rat) (neg : Bool) : Word := if q = 0 then f32Zero neg else flush (f32OfRat q)

/-- A number to order patterns by: infinities beyond every finite value. -/
def f32Key (w : Word) : Rat := if f32IsInf w then (if f32Neg w then -(pow2 129) else pow2 129) else f32ToRat w

/-- ±(a × b) + c rounded once. -/
def fmaVal (fr : Word) (neg : Bool) (a b c : Word) : Word :=
  let a := flush a
  let b := flush b
  let c := flush c
  let ps := (f32Neg a != f32Neg b) != neg
  if f32IsNan a || f32IsNan b || f32IsNan c then nanOf fr
  else if f32IsInf a || f32IsInf b then
    if f32IsZero a || f32IsZero b || (f32IsInf c && f32Neg c != ps) then nanOf fr else f32Inf ps
  else if f32IsInf c then c
  else
    let p := f32ToRat a * f32ToRat b
    let p := if neg then -p else p
    f32Out (p + f32ToRat c) (p == 0 && ps && f32Neg c)

abbrev f32One : Word := 0x3F800000#32

def f32Negate (w : Word) : Word := w ^^^ 0x80000000#32
def f32Abs (w : Word) : Word := w &&& 0x7FFFFFFF#32

def addVal (fr a b : Word) : Word := fmaVal fr false a f32One b
def subVal (fr a b : Word) : Word := fmaVal fr false a f32One (if f32IsNan b then b else f32Negate b)

def mulVal (fr a b : Word) : Word :=
  let a := flush a
  let b := flush b
  let ps := f32Neg a != f32Neg b
  if f32IsNan a || f32IsNan b then nanOf fr
  else if f32IsInf a || f32IsInf b then (if f32IsZero a || f32IsZero b then nanOf fr else f32Inf ps)
  else f32Out (f32ToRat a * f32ToRat b) ps

/-- The smaller of two, a NaN operand giving the other; of two zeros of unlike sign, which one is free. -/
def minVal (fr a b : Word) : Word :=
  let a := flush a
  let b := flush b
  if f32IsNan a && f32IsNan b then nanOf fr
  else if f32IsNan a then b else if f32IsNan b then a
  else if f32Key a < f32Key b then a else if f32Key b < f32Key a then b
  else if bitAt fr 0 then a else b

def maxVal (fr a b : Word) : Word :=
  let a := flush a
  let b := flush b
  if f32IsNan a && f32IsNan b then nanOf fr
  else if f32IsNan a then b else if f32IsNan b then a
  else if f32Key a < f32Key b then b else if f32Key b < f32Key a then a
  else if bitAt fr 0 then a else b

def absVal (fr a : Word) : Word := if f32IsNan a then nanOf fr else f32Abs (flush a)
def negVal (fr a : Word) : Word := if f32IsNan a then nanOf fr else f32Negate (flush a)

/-- FA if FC ≥ 0, −0 included, else FB. -/
def selVal (fr a b c : Word) : Word :=
  let c := flush c
  let r := if !f32IsNan c && (f32IsZero c || !f32Neg c) then flush a else flush b
  if f32IsNan r then nanOf fr else r

def clampVal (fr a b : Word) : Word := minVal fr (maxVal fr a (f32Negate (f32Abs b))) (f32Abs b)

/-- One unit in the last place of a finite pattern. -/
def f32Ulp (w : Word) : Rat := pow2 ((max 1 (f32Exp w) : Nat) - 150)

/-- A pattern within `k` ulp of an exact value: which one is free. -/
def within (k op : Nat) (a : Word) (q : Rat) : Word :=
  let r := f32OfRat q
  let c := BitVec.ofNat 32 (r.toNat + Config.lpUlp op a % (2 * k + 1) - k)
  if f32Finite c && f32ToRat c - q ≤ k * f32Ulp r && q - f32ToRat c ≤ k * f32Ulp r then c else r

def rcpVal (fr a : Word) : Word :=
  let a := flush a
  if f32IsNan a then nanOf fr
  else if f32IsInf a then f32Zero (f32Neg a)
  else if f32IsZero a then f32Inf (f32Neg a) else flush (within 1 0x0C a (1 / f32ToRat a))

/-- 1 / sqrt within 1 ulp: a negative operand gives NaN, a zero the infinity of its sign, as 1 over its root. -/
def rsqVal (fr a : Word) : Word :=
  let a := flush a
  if f32IsNan a || (f32Neg a && !f32IsZero a) then nanOf fr
  else if f32IsInf a then f32Zero false
  else if f32IsZero a then f32Inf (f32Neg a) else flush (within 1 0x0D a (1 / sqrtOf (f32ToRat a)))

/-- log2 within 2 ulp. The logarithm of a zero or a negative operand is not stated: any value. -/
def log2Val (fr a : Word) : Word :=
  let a := flush a
  if f32IsNan a then nanOf fr
  else if f32IsZero a || f32Neg a then fr
  else if f32IsInf a then f32Inf false else flush (within 2 0x0E a (log2Of (f32ToRat a)))

/-- 2 to the power of the operand, within 2 ulp. -/
def exp2Val (fr a : Word) : Word :=
  let a := flush a
  if f32IsNan a then nanOf fr
  else if f32IsInf a then (if f32Neg a then f32Zero false else f32Inf false)
  else if f32ToRat a < -160 then f32Zero false
  else if 129 < f32ToRat a then f32Inf false else flush (within 2 0x0F a (exp2 (f32ToRat a)))

/-- The int32 pattern as a binary32. -/
def cvtiVal (a : Word) : Word := f32OfRat (a.toInt : Rat)

/-- The nearest integer, ties to even, saturated to int32; NaN gives 0. -/
def cvtfVal (a : Word) : Word :=
  let a := flush a
  if f32IsNan a then 0#32
  else if f32IsInf a then (if f32Neg a then 0x80000000#32 else 0x7FFFFFFF#32)
  else
    let q := f32ToRat a
    let m : Int := divEven q.num.natAbs q.den
    let v := clampInt (-2147483648) 2147483647 (if q < 0 then -m else m)
    BitVec.ofInt 32 v

/-! ### Issue of an F slot -/

/-- An F-slot operation of LP `n` reads its operands and puts its result under way: `srcs` names the registers it reads, `val`
computes from a free value, the slot's word and the operands. -/
def State.lpF (s : State) (n : Nat) (f1 : Bool) (op lat : Nat) (srcs : Word → List Nat)
    (val : Word → Word → List Word → Word) : State :=
  let slot := fSlot f1
  if !s.canIssue n slot op then s
  else
    let w := (s.lpAt n).slotWord slot
    let h := (s.lpAt n).waitAll (srcs w)
    let v := val s.freeVal w ((srcs w).map h.reg)
    (s.setLp n ((h.result slot (fFD w) lat v).mark slot)).take

def val1 (f : Word → Word → Word) (fr _w : Word) (vs : List Word) : Word := f fr (vs.getD 0 0)
def val2 (f : Word → Word → Word → Word) (fr _w : Word) (vs : List Word) : Word := f fr (vs.getD 0 0) (vs.getD 1 0)
def val3 (f : Word → Word → Word → Word → Word) (fr _w : Word) (vs : List Word) : Word :=
  f fr (vs.getD 0 0) (vs.getD 1 0) (vs.getD 2 0)

def execFnop (n : Fin 16) (f1 : Bool) (s : State) : Host.Outcome State Fault Refusal :=
  act s fun s =>
    if s.canIssue n.val (fSlot f1) 0x00 then s.setLp n.val ((s.lpAt n.val).mark (fSlot f1)) else s

def execFadd (n : Fin 16) (f1 : Bool) (s : State) : Host.Outcome State Fault Refusal :=
  act s fun s => s.lpF n.val f1 0x01 4 srcs2 (val2 addVal)

def execFsub (n : Fin 16) (f1 : Bool) (s : State) : Host.Outcome State Fault Refusal :=
  act s fun s => s.lpF n.val f1 0x02 4 srcs2 (val2 subVal)

def execFmul (n : Fin 16) (f1 : Bool) (s : State) : Host.Outcome State Fault Refusal :=
  act s fun s => s.lpF n.val f1 0x03 4 srcs2 (val2 mulVal)

def execFma (n : Fin 16) (f1 : Bool) (s : State) : Host.Outcome State Fault Refusal :=
  act s fun s => s.lpF n.val f1 0x04 4 srcs3 (val3 fun fr a b c => fmaVal fr false a b c)

def execFms (n : Fin 16) (f1 : Bool) (s : State) : Host.Outcome State Fault Refusal :=
  act s fun s => s.lpF n.val f1 0x05 4 srcs3 (val3 fun fr a b c => fmaVal fr true a b c)

def execFmin (n : Fin 16) (f1 : Bool) (s : State) : Host.Outcome State Fault Refusal :=
  act s fun s => s.lpF n.val f1 0x06 1 srcs2 (val2 minVal)

def execFmax (n : Fin 16) (f1 : Bool) (s : State) : Host.Outcome State Fault Refusal :=
  act s fun s => s.lpF n.val f1 0x07 1 srcs2 (val2 maxVal)

def execFabs (n : Fin 16) (f1 : Bool) (s : State) : Host.Outcome State Fault Refusal :=
  act s fun s => s.lpF n.val f1 0x08 1 srcs1 (val1 absVal)

def execFneg (n : Fin 16) (f1 : Bool) (s : State) : Host.Outcome State Fault Refusal :=
  act s fun s => s.lpF n.val f1 0x09 1 srcs1 (val1 negVal)

def execFsel (n : Fin 16) (f1 : Bool) (s : State) : Host.Outcome State Fault Refusal :=
  act s fun s => s.lpF n.val f1 0x0A 1 srcs3 (val3 selVal)

def execFclamp (n : Fin 16) (f1 : Bool) (s : State) : Host.Outcome State Fault Refusal :=
  act s fun s => s.lpF n.val f1 0x0B 1 srcs2 (val2 clampVal)

def execFrcp (n : Fin 16) (f1 : Bool) (s : State) : Host.Outcome State Fault Refusal :=
  act s fun s => s.lpF n.val f1 0x0C 6 srcs1 (val1 rcpVal)

def execFrsq (n : Fin 16) (f1 : Bool) (s : State) : Host.Outcome State Fault Refusal :=
  act s fun s => s.lpF n.val f1 0x0D 6 srcs1 (val1 rsqVal)

def execFlog2 (n : Fin 16) (f1 : Bool) (s : State) : Host.Outcome State Fault Refusal :=
  act s fun s => s.lpF n.val f1 0x0E 8 srcs1 (val1 log2Val)

def execFexp2 (n : Fin 16) (f1 : Bool) (s : State) : Host.Outcome State Fault Refusal :=
  act s fun s => s.lpF n.val f1 0x0F 8 srcs1 (val1 exp2Val)

def execFcvti (n : Fin 16) (f1 : Bool) (s : State) : Host.Outcome State Fault Refusal :=
  act s fun s => s.lpF n.val f1 0x10 2 srcs1 (val1 fun _ a => cvtiVal a)

def execFcvtf (n : Fin 16) (f1 : Bool) (s : State) : Host.Outcome State Fault Refusal :=
  act s fun s => s.lpF n.val f1 0x11 2 srcs1 (val1 fun _ a => cvtfVal a)

/-- Bits [19:4] of the slot's word as the upper half of a binary32. -/
def execFli (n : Fin 16) (f1 : Bool) (s : State) : Host.Outcome State Fault Refusal :=
  act s fun s => s.lpF n.val f1 0x12 1 (fun _ => []) fun _ w _ => BitVec.ofNat 32 (fld w 19 4 * 65536)

end Sys2Proof.Machine
end

