-- ==== Sys2Proof/Machine/LpMem.lean ====
section
/-! DEFINITION. The M slot of a lane processor (07_lane_processor.md R233, R234), the delay lines (R246, R247) and the transfers
between DMEM and the LP's vat bank. -/

namespace Sys2Proof.Machine

/-- An M-slot operation of LP `n` issues: not while DLYX holds the slot, which it waits for; `srcs` names the registers it waits
for, `k` does the rest. -/
def State.lpM (s : State) (n op : Nat) (srcs : Word → List Nat) (k : Word → LpH → State → State) : State :=
  if !s.canIssue n 2 op then s
  else
    let h := s.lpAt n
    let w := h.slotWord 2
    k w ((h.stallTo h.mFree).waitAll (srcs w)) s

/-- A DMEM access of one word at `a` (R233, R234): a program fault, a stall while a transfer holds the range, or `k`. -/
def State.lpAccess (s : State) (n a : Nat) (h : LpH) (k : LpH) : State :=
  match dmemBad a 4 with
  | some c => s.lpFault n c
  | none => if h.busyRange a 4 then s else s.setLp n (k.mark 2)

def execMnop (n : Fin 16) (s : State) : Host.Outcome State Fault Refusal :=
  act s fun s => if s.canIssue n.val 2 0x00 then s.setLp n.val ((s.lpAt n.val).mark 2) else s

def execLdf (n : Fin 16) (s : State) : Host.Outcome State Fault Refusal :=
  act s fun s => s.lpM n.val 0x01 (fun w => [mAB w]) fun w h s =>
    let a := addrOf (h.reg (mAB w)) (mImm w)
    s.lpAccess n.val a h (h.result 2 (mF w) 3 (h.word a))

def execStf (n : Fin 16) (s : State) : Host.Outcome State Fault Refusal :=
  act s fun s => s.lpM n.val 0x02 (fun w => [mAB w, mF w]) fun w h s =>
    let a := addrOf (h.reg (mAB w)) (mImm w)
    s.lpAccess n.val a h (h.putWord a (h.reg (mF w)))

def execLdfp (n : Fin 16) (s : State) : Host.Outcome State Fault Refusal :=
  act s fun s => s.lpM n.val 0x03 (fun w => [mAB w]) fun w h s =>
    let a := (h.reg (mAB w)).toNat
    let next := BitVec.ofNat 32 (addrOf (h.reg (mAB w)) (mImm w))
    s.lpAccess n.val a h ((h.result 2 (mF w) 3 (h.word a)).result 2 (mAB w) 1 next)

def execStfp (n : Fin 16) (s : State) : Host.Outcome State Fault Refusal :=
  act s fun s => s.lpM n.val 0x04 (fun w => [mAB w, mF w]) fun w h s =>
    let a := (h.reg (mAB w)).toNat
    let next := BitVec.ofNat 32 (addrOf (h.reg (mAB w)) (mImm w))
    s.lpAccess n.val a h ((h.putWord a (h.reg (mF w))).result 2 (mAB w) 1 next)

def execLda (n : Fin 16) (s : State) : Host.Outcome State Fault Refusal :=
  act s fun s => s.lpM n.val 0x05 (fun w => [mAB w]) fun w h s =>
    let a := addrOf (h.reg (mAB w)) (mImm w)
    s.lpAccess n.val a h (h.result 2 (mA w) 3 (h.word a))

def execSta (n : Fin 16) (s : State) : Host.Outcome State Fault Refusal :=
  act s fun s => s.lpM n.val 0x06 (fun w => [mAB w, mA w]) fun w h s =>
    let a := addrOf (h.reg (mAB w)) (mImm w)
    s.lpAccess n.val a h (h.putWord a (h.reg (mA w)))

/-- VLD and VST start a transfer of IMM × 64 bytes: a fifth stalls, and both addresses are 64-byte aligned (R233, R234). -/
def State.lpTransfer (s : State) (n : Nat) (load : Bool) (w : Word) (h : LpH) : State :=
  let len := mImmU w * 64
  let a := (h.reg (mA w)).toNat
  let off := (h.reg (mAB w)).toNat
  if mImmU w = 0 ∨ 4096 < mImmU w then s.lpFault n pfIllegal
  else if dmemSize < a + len then s.lpFault n pfRange
  else if a % 64 ≠ 0 ∨ off % 64 ≠ 0 then s.lpFault n pfAlign
  else if bankBad off len then s.lpFault n pfVat
  else if 4 ≤ h.xfers.length ∨ h.busyRange a len then s
  else s.setLp n (LpH.mark { h with xfers := h.xfers ++ [{ load := load, dmem := a, off := off, len := len }] } 2)

def execVld (n : Fin 16) (s : State) : Host.Outcome State Fault Refusal :=
  act s fun s => s.lpM n.val 0x07 (fun w => [mA w, mAB w]) fun w h s => s.lpTransfer n.val true w h

def execVst (n : Fin 16) (s : State) : Host.Outcome State Fault Refusal :=
  act s fun s => s.lpM n.val 0x08 (fun w => [mA w, mAB w]) fun w h s => s.lpTransfer n.val false w h

/-- Transfer `i` in flight completes (R234). -/
def execVatTransferDone (n : Fin 16) (i : Fin 4) (s : State) : Host.Outcome State Fault Refusal :=
  act s fun s =>
    let n := n.val
    let h := s.lpAt n
    match h.xfers[i.val]? with
    | none => s
    | some t =>
      let h := { h with xfers := h.xfers.eraseIdx i.val }
      let va := bankByte n t.off
      if t.load then (s.vatTouch (.privateLp n) va t.len).setLp n (h.putBytes t.dmem (s.vatBytes va t.len))
      else (s.setLp n h).vatWrite (.privateLp n) va (h.bytes t.dmem t.len)

/-! ### Delay lines (R246, R247) -/

/-- The binary32 of an exact value in a block primitive: itself where binary32 holds it, one of its two neighbours elsewhere (R236). -/
def primOf (q : Rat) : Word := if f32Holds q then f32OfRat q else f32Beside q (Config.lpRound q)

/-- Vat byte offset of sample `i` of a lane's delay line of `len` samples: the line is a ring. -/
def delayByte (n base len i : Nat) : Nat := bankByte n (base + i % len * 4)

/-- The sample of a lane's delay line written `d` samples before position `p`. -/
def State.delayed (s : State) (n base len p d : Nat) : Word :=
  BitVec.ofNat 32 (leAt (s.vatBytes (delayByte n base len (p + 2 * len - d)) 4) 0 4)

/-- The delayed sample at position `p`: in a crossfade of 64 samples with a raised cosine, the mix of the old and the new (R247). -/
def State.delayOut (s : State) (n base len p : Nat) (d : DelayLn) (i : Nat) : Word :=
  let new := s.delayed n base len p d.delay
  match d.fade with
  | none => new
  | some k =>
    if 64 ≤ k + i then new
    else
      let old := (d.old.map fun o => sampleVal (s.delayed n base len p o.1) * o.2).sum
      let g := rcos (k + i) 64
      primOf (old + (sampleVal new - old) * g)

/-- `LPn_DLYl_STATE` (R262). -/
def State.showDelay (s : State) (n l : Nat) : State :=
  let d := Sparse.get {} (s.lpAt n).dly l
  s.setReg (Reg.lpnDlyState n l) (BitVec.ofNat 32 (d.delay + if d.fade.isSome then 2 ^ 31 else 0))

/-- 48 samples pass through lane `l`'s delay line of `len` samples: the state after, and the delayed samples. With less room than the delay in
force and 48 samples need, what comes back is free. -/
def State.delayLine (s : State) (n l : Nat) (ins : List Word) : State × List Word :=
  let h := s.lpAt n
  let base := s.getF (Reg.lpnDlyBase n l) 22 0
  let len := s.getF (Reg.lpnDlyAlloc n l) 15 0
  let d := Sparse.get {} h.dly l
  if len < d.delay + 48 then ({ s with freeCtr := s.freeCtr + 48 }, (List.range 48).map fun i => Config.free (s.freeCtr + i))
  else
    let s := (ins.zipIdx).foldl (fun s p =>
      s.vatWrite (.privateLp n) (delayByte n base len (d.pos + p.2)) (leBytes 4 p.1.toNat)) s
    let out := (List.range 48).map fun i => s.delayOut n base len (d.pos + i) d i
    let fade := d.fade.bind fun k => if k + 48 < 64 then some (k + 48) else none
    let d' := { d with pos := (d.pos + 48) % len, fade := fade }
    ((s.setLp n { s.lpAt n with dly := Sparse.set {} h.dly l d' }).showDelay n l, out)

/-- 48 samples at DMEM A go into the lane's delay line, and the 48 delayed samples come back at A + 192; the M slot is taken for 110
cycles (R233). -/
def State.dlyx (s : State) (n : Nat) (w : Word) (h : LpH) : State :=
  let a := (h.reg (mA w)).toNat
  let l := mImmU w % 8
  let base := s.getF (Reg.lpnDlyBase n l) 22 0
  let len := s.getF (Reg.lpnDlyAlloc n l) 15 0
  match dmemBad a 384 with
  | some c => s.lpFault n c
  | none =>
    if bankBad base (len * 4) then s.lpFault n pfVat
    else if h.busyRange a 384 then s
    else
      let (s, out) := s.delayLine n l (h.words a 48)
      let h := { h with mFree := h.cyc + 110, dly := (s.lpAt n).dly }
      s.setLp n ((h.putWords (a + 192) out).mark 2)

def execDlyx (n : Fin 16) (s : State) : Host.Outcome State Fault Refusal :=
  act s fun s => s.lpM n.val 0x09 (fun w => [mA w]) fun w h s => s.dlyx n.val w h

end Sys2Proof.Machine
end

