-- ==== Sys2Proof/Machine/LpCtl.lean ====
section
/-! DEFINITION. The control operations of the C slot of a lane processor (07_lane_processor.md R235), and the end of a heat. -/

namespace Sys2Proof.Machine

/-- A control operation of LP `n` issues: the C slot's word, the processor once its sources are ready, and `k`, which ends the
bundle. -/
def State.lpC (s : State) (n op : Nat) (srcs : Word → List Nat) (k : Word → LpH → State → State) : State :=
  if !s.canClose n op then s
  else
    let h := s.lpAt n
    let w := h.slotWord 3
    k w (h.waitAll (srcs w)) s

/-- The bundle ends, going on at the next or at `t`. -/
def State.lpGo (s : State) (n : Nat) (h : LpH) (t : Option Nat) : State := s.lpClose n h t 0

/-- An operation that writes one register and goes on. -/
def State.lpSet (s : State) (n : Nat) (h : LpH) (r : Nat) (v : Word) : State := s.lpGo n (h.result 3 r 1 v) none

def execCnop (n : Fin 16) (s : State) : Host.Outcome State Fault Refusal :=
  act s fun s => s.lpC n.val 0x00 noSrcs fun _ h s => s.lpGo n.val h none

def execBr (n : Fin 16) (s : State) : Host.Outcome State Fault Refusal :=
  act s fun s => s.lpC n.val 0x01 noSrcs fun w h s => s.lpGo n.val h (some (cT w))

def execBz (n : Fin 16) (s : State) : Host.Outcome State Fault Refusal :=
  act s fun s => s.lpC n.val 0x02 (fun w => [cA w]) fun w h s =>
    s.lpGo n.val h (if h.reg (cA w) = 0#32 then some (cT w) else none)

def execBnz (n : Fin 16) (s : State) : Host.Outcome State Fault Refusal :=
  act s fun s => s.lpC n.val 0x03 (fun w => [cA w]) fun w h s =>
    s.lpGo n.val h (if h.reg (cA w) = 0#32 then none else some (cT w))

def execBlt (n : Fin 16) (s : State) : Host.Outcome State Fault Refusal :=
  act s fun s => s.lpC n.val 0x04 (fun w => [cA w, cB w]) fun w h s =>
    s.lpGo n.val h (if (h.reg (cA w)).toInt < (h.reg (cB w)).toInt then some (cT w) else none)

def execCall (n : Fin 16) (s : State) : Host.Outcome State Fault Refusal :=
  act s fun s => s.lpC n.val 0x05 noSrcs fun w h s =>
    if 8 ≤ h.stack.length then s.lpFault n.val pfStack
    else s.lpGo n.val { h with stack := (h.pc + 1) :: h.stack } (some (cT w))

def execRet (n : Fin 16) (s : State) : Host.Outcome State Fault Refusal :=
  act s fun s => s.lpC n.val 0x06 noSrcs fun _ h s =>
    match h.stack with
    | [] => s.lpFault n.val pfStack
    | t :: ts => s.lpGo n.val { h with stack := ts } (some t)

/-- LOOP: K runs where A is a0, else A runs, of the bundles after it up to E; a count of 0 skips the body. -/
def execLoop (n : Fin 16) (s : State) : Host.Outcome State Fault Refusal :=
  act s fun s => s.lpC n.val 0x07 (fun w => [cA w]) fun w h s =>
    let cnt := if cA w = 64 then fld w 21 12 else (h.reg (cA w)).toNat
    if cnt = 0 then s.setLp n.val { (h.endBundle none 0) with pc := fld w 11 0 + 1 } |>.lpFetch n.val
    else if 4 ≤ h.loops.length then s.lpFault n.val pfLoop
    else
      let h' := h.endBundle none 0
      (s.setLp n.val { h' with pc := h.pc + 1, loops := { first := h.pc + 1, last := fld w 11 0, left := cnt } :: h.loops }).lpFetch
        n.val

def execAmov (n : Fin 16) (s : State) : Host.Outcome State Fault Refusal :=
  act s fun s => s.lpC n.val 0x08 noSrcs fun w h s =>
    s.lpSet n.val h (cA w) (BitVec.ofInt 32 (signed 16 (fld w 15 0)))

def execAadd (n : Fin 16) (s : State) : Host.Outcome State Fault Refusal :=
  act s fun s => s.lpC n.val 0x09 (fun w => [cB w]) fun w h s =>
    s.lpSet n.val h (cA w) (h.reg (cB w) + BitVec.ofInt 32 (signed 18 (fld w 17 0)))

def execAaddr (n : Fin 16) (s : State) : Host.Outcome State Fault Refusal :=
  act s fun s => s.lpC n.val 0x0A (fun w => [cB w, cC w]) fun w h s =>
    s.lpSet n.val h (cA w) (h.reg (cB w) + h.reg (cC w))

def execAshl (n : Fin 16) (s : State) : Host.Outcome State Fault Refusal :=
  act s fun s => s.lpC n.val 0x0B (fun w => [cB w]) fun w h s =>
    s.lpSet n.val h (cA w) (h.reg (cB w) <<< fld w 4 0)

def execMvfa (n : Fin 16) (s : State) : Host.Outcome State Fault Refusal :=
  act s fun s => s.lpC n.val 0x0C (fun w => [cF w]) fun w h s => s.lpSet n.val h (cA w) (h.reg (cF w))

def execMvaf (n : Fin 16) (s : State) : Host.Outcome State Fault Refusal :=
  act s fun s => s.lpC n.val 0x0D (fun w => [cA w]) fun w h s => s.lpSet n.val h (cF w) (h.reg (cA w))

def execOdone (n : Fin 16) (s : State) : Host.Outcome State Fault Refusal :=
  act s fun s => s.lpC n.val 0x0E noSrcs fun w h s =>
    s.lpGo n.val { h with odone := h.odone ||| BitVec.ofNat 8 (fld w 7 0) } none

/-- What a complete heat lifts: the mute of a block reset (R252, R313), the count towards a hang, and the wait of a starting
program's lanes for its first output. -/
def State.heatComplete (s : State) (n : Nat) : State :=
  let s := s.setLp n { s.lpAt n with hangRun := 0 }
  let s := s.putF (Reg.lpnStatus n) 15 12 0
  forUpto 8 (fun l s =>
    let h := s.laneAt (n * 8 + l)
    if h.lpMute then s.setLane (n * 8 + l) { h with lpMute := false } else s) s

/-- `LPn_CYC_LAST` and `LPn_CYC_MAX` take the cycles of the heat that ends (R262). -/
def State.showCycles (s : State) (n : Nat) : State :=
  let cyc := (s.lpAt n).cyc % 2 ^ 20
  (s.setReg (Reg.lpnCycLast n) (BitVec.ofNat 32 cyc)).setReg (Reg.lpnCycMax n)
    (BitVec.ofNat 32 (max cyc (s.getF (Reg.lpnCycMax n) 19 0)))

/-- HEND: every lane's output is complete, the telemetry area is copied to the bank, and the program waits for the next heat
(R235, R238 step 6, R262). -/
def execHend (n : Fin 16) (s : State) : Host.Outcome State Fault Refusal :=
  act s fun s => s.lpC n.val 0x0F noSrcs fun _ h s =>
    let n := n.val
    let h := (h.endBundle none 0)
    let h := { (h.stallTo ((h.wb.foldl (fun c w => max c w.due) h.cyc))) with odone := 0xFF#8, ovrPrev := false }
    let s := (s.setLp n h).bankWrite n (s.getF (Reg.lpnTlmBase n) 22 0) (h.bytes 0x9800 2048)
    let s := s.showCycles n
    let s := s.setReg (Reg.lpnEndLast n) (BitVec.ofNat 32 (s.pacer.ns.toNat % 1000000 / 1000))
    ((s.setBit (Reg.lpnStatus n) 8 false).heatComplete n).lpFetch n

/-- SYNCV issues once no transfer is in flight. -/
def execSyncv (n : Fin 16) (s : State) : Host.Outcome State Fault Refusal :=
  act s fun s => s.lpC n.val 0x10 noSrcs fun _ h s => if h.xfers.isEmpty then s.lpGo n.val h none else s

end Sys2Proof.Machine
end

