-- ==== Sys2Proof/Machine/LpPrim.lean ====
section
/-! DEFINITION. The block primitives of the C slot of a lane processor (07_lane_processor.md R236, R237). A primitive's arithmetic is
exact between the quantities the table names; each of those is a binary32, one of the two neighbours where binary32 does not hold the
exact value; a quantity that a non-finite operand enters is free. -/

namespace Sys2Proof.Machine

/-! ### Fields and values -/

def pAS (w : Word) : Nat := aReg (fld w 25 22)
def pAK (w : Word) : Nat := aReg (fld w 21 18)
def pAD (w : Word) : Nat := aReg (fld w 17 14)
def pAN (w : Word) : Nat := aReg (fld w 13 10)

/-- A primitive's operands: the addresses AS, AK and AD and the count N. -/
structure PrimArgs where
  as_ : Nat
  ak : Nat
  ad : Nat
  n : Nat

/-- A finite operand's exact value. -/
def valOf (w : Word) : Option Rat := if f32Finite w then some (f32ToRat w) else none

/-- Binary operations on values, none where an operand is not finite. -/
def vmul (a b : Option Rat) : Option Rat := a.bind fun x => b.map fun y => x * y
def vadd (a b : Option Rat) : Option Rat := a.bind fun x => b.map fun y => x + y
def vsub (a b : Option Rat) : Option Rat := a.bind fun x => b.map fun y => x - y

/-- The binary32 of a value, the `c`-th free one for none, and the count after it. -/
def primWord (c : Nat) : Option Rat → Word × Nat
  | some q => (primOf q, c)
  | none => (Config.free c, c + 1)

/-- The binary32 patterns of a list of values. -/
def primWords (c : Nat) : List (Option Rat) → List Word × Nat
  | [] => ([], c)
  | q :: qs =>
    let (w, c1) := primWord c q
    let (ws, c2) := primWords c1 qs
    (w :: ws, c2)

/-- A primitive of LP `n` issues: once the M slot and its sources are ready; `ranges` are the DMEM ranges it touches; a bad one is a
program fault, one an incomplete transfer holds stalls the bundle; `counted` says that its count must lie in 1 to 4,096; `bad` is
an operand of its own out of range. `k` gives the processor after it and the free values taken. -/
def State.lpP (s : State) (n op : Nat) (counted : Bool) (bad : PrimArgs → Word → LpH → Bool)
    (ranges : PrimArgs → Word → LpH → List (Nat × Nat)) (cycles : PrimArgs → LpH → Nat)
    (k : PrimArgs → Word → LpH → Nat → LpH × Nat) : State :=
  s.lpC n op (fun w => [pAS w, pAK w, pAD w, pAN w]) fun w h s =>
    let h := h.stallTo h.mFree
    let p : PrimArgs := { as_ := (h.reg (pAS w)).toNat, ak := (h.reg (pAK w)).toNat, ad := (h.reg (pAD w)).toNat,
                          n := (h.reg (pAN w)).toNat }
    if counted && (p.n == 0 || decide (4096 < p.n)) then s.lpFault n pfOperand
    else
      let early := (ranges p w h).findSome? fun r => dmemBad r.1 4
      match early with
      | some c => s.lpFault n c
      | none =>
        if bad p w h then s.lpFault n pfOperand
        else
          match (ranges p w h).findSome? fun r => dmemBad r.1 r.2 with
          | some c => s.lpFault n c
          | none =>
            if (ranges p w h).any fun r => h.busyRange r.1 r.2 then s
            else
              let (h', c) := k p w h s.freeCtr
              State.lpClose { s with freeCtr := c } n h' none (cycles p h - 1)

/-! ### BIQ, FIRB, POLY8, ENV -/

/-- One sample of a biquad section in transposed direct form II: y and the new states. -/
def biqStep (cf : List (Option Rat)) (c : Nat) (s1 s2 x : Word) : (Word × Word × Word) × Nat :=
  let k (i : Nat) := cf.getD i none
  let xv := valOf x
  let (y, c) := primWord c (vadd (vmul (k 0) xv) (valOf s1))
  let (n1, c) := primWord c (vadd (vsub (vmul (k 1) xv) (vmul (k 3) (valOf y))) (valOf s2))
  let (n2, c) := primWord c (vsub (vmul (k 2) xv) (vmul (k 4) (valOf y)))
  ((y, n1, n2), c)

def biqGo (cf : List (Option Rat)) : List Word → Nat → Word → Word → List Word × Nat × Word × Word
  | [], c, s1, s2 => ([], c, s1, s2)
  | x :: xs, c, s1, s2 =>
    let ((y, n1, n2), c) := biqStep cf c s1 s2 x
    let (ys, r) := biqGo cf xs c n1 n2
    (y :: ys, r)

def execBiq (n : Fin 16) (s : State) : Host.Outcome State Fault Refusal :=
  act s fun s => s.lpP n.val 0x20 true (fun _ _ _ => false) (fun p _ _ => [(p.as_, 4 * p.n), (p.ak, 28)])
    (fun p _ => 3 * p.n + 6) fun p _ h c =>
      let (ys, c, s1, s2) := biqGo ((h.words p.ak 5).map valOf) (h.words p.as_ p.n) c (h.word (p.ak + 20)) (h.word (p.ak + 24))
      (((h.putWords p.as_ ys).putWord (p.ak + 20) s1).putWord (p.ak + 24) s2, c)

/-- The sum over k of c_k · x(i − k), `x` giving the sample at a position. -/
def firSum (cs : List Word) (x : Nat → Word) (i : Nat) : Option Rat :=
  (cs.zipIdx).foldl (fun a p => vadd a (vmul (valOf p.1) (valOf (x (i - p.2))))) (some 0)

def firTaps (h : LpH) (p : PrimArgs) : Nat := (h.word p.ak).toNat

/-- FIRB: T and the coefficients at AK; x(−T+1) onwards at AS; y at AD. -/
def execFirb (n : Fin 16) (s : State) : Host.Outcome State Fault Refusal :=
  act s fun s => s.lpP n.val 0x21 true (fun p _ h => firTaps h p == 0 || decide (1024 < firTaps h p))
    (fun p _ h => [(p.ak, 4 + 4 * firTaps h p), (p.as_, 4 * (firTaps h p - 1 + p.n)), (p.ad, 4 * p.n)])
    (fun p h => ceilDiv (firTaps h p * p.n) 2 + 12) fun p _ h c =>
      let t := firTaps h p
      let cs := h.words (p.ak + 4) t
      let (ys, c) := primWords c ((List.range p.n).map fun i => firSum cs (fun j => h.word (p.as_ + 4 * j)) (i + t - 1))
      (h.putWords p.ad ys, c)

/-- POLY8: x(−15) onwards at AS, 128 coefficients at AK, y(8i + p) at AD. -/
def execPoly8 (n : Fin 16) (s : State) : Host.Outcome State Fault Refusal :=
  act s fun s => s.lpP n.val 0x22 true (fun _ _ _ => false)
    (fun p _ _ => [(p.ak, 512), (p.as_, 4 * (15 + p.n)), (p.ad, 32 * p.n)]) (fun p _ => 64 * p.n + 10) fun p _ h c =>
      let taps (q : Nat) := (List.range 16).map fun k => h.word (p.ak + 4 * (q + 8 * k))
      let (ys, c) := primWords c ((List.range (8 * p.n)).map fun j =>
        firSum (taps (j % 8)) (fun i => h.word (p.as_ + 4 * i)) (j / 8 + 15))
      (h.putWords p.ad ys, c)

/-- The absolute value, or the square, that ENV follows. -/
def envIn (sq : Bool) (x : Word) : Option Rat := (valOf x).map fun v => if sq then v * v else if v < 0 then -v else v

def envGo (sq : Bool) (att rel : Option Rat) : List Word → Nat → Word → Word × Nat
  | [], c, e => (e, c)
  | x :: xs, c, e =>
    let v := envIn sq x
    let a := match v, valOf e with
      | some v, some e => if e < v then att else rel
      | _, _ => none
    let (e', c) := primWord c (vadd (valOf e) (vmul a (vsub v (valOf e))))
    envGo sq att rel xs c e'

def execEnv (n : Fin 16) (s : State) : Host.Outcome State Fault Refusal :=
  act s fun s => s.lpP n.val 0x23 true (fun _ _ _ => false) (fun p _ _ => [(p.as_, 4 * p.n), (p.ak, 12)])
    (fun p _ => p.n + 4) fun p w h c =>
      let (e, c) := envGo (bitAt w 0) (valOf (h.word (p.ak + 4))) (valOf (h.word (p.ak + 8))) (h.words p.as_ p.n) c (h.word p.ak)
      (h.putWord p.ak e, c)

/-! ### NCOs, TBL and the lock-in channels (R225, R236, R237) -/

/-- The fractional part of a number. -/
def fracRat (q : Rat) : Rat := q - (q.floor : Rat)

/-- The phase of a channel in cycles at pacer time `t` ns, none for a channel the unit has not or a frequency that is not finite. -/
def LpH.phase (h : LpH) (ch : Nat) (t : Rat) : Option Rat :=
  let l := Sparse.get {} h.lock ch
  if 48 ≤ ch then none
  else (valOf l.freq).bind fun f => (valOf l.phase).map fun p => fracRat (f * t / 1000000000 + p)

/-- The pacer time in ns of sample `i` of heat `heat` at `r` samples a heat. -/
def sampleTime (heat i r : Nat) : Rat := (heat : Rat) * 1000000 + (i : Rat) * 1000000 / (r : Rat)

def tblLog (h : LpH) (p : PrimArgs) : Nat := (h.word p.ak).toNat

/-- Linear interpolation between the K + 1 entries at position `q` of 0 to 1. -/
def tblAt (h : LpH) (p : PrimArgs) (q : Option Rat) : Option Rat :=
  let k : Nat := 2 ^ tblLog h p
  q.bind fun q =>
    let x := q * (k : Rat)
    let i : Nat := min (k - 1) x.floor.toNat
    let e (j : Nat) := valOf (h.word (p.ak + 4 + 4 * j))
    vadd (e i) (vmul (vsub (e (i + 1)) (e i)) (some (x - (i : Rat))))

/-- The position of sample `i`: from an NCO, or the value at AS clamped to 0 to 1. -/
def tblPos (h : LpH) (p : PrimArgs) (w : Word) (i : Nat) : Option Rat :=
  if bitAt w 3 then (valOf (h.word (p.as_ + 4 * i))).map fun v => if v < 0 then 0 else if 1 < v then 1 else v
  else h.phase (fld w 9 4) (sampleTime h.zbHeat i (if bitAt w 2 then 384 else 96))

def execTbl (n : Fin 16) (s : State) : Host.Outcome State Fault Refusal :=
  act s fun s => s.lpP n.val 0x24 true (fun p _ h => decide (tblLog h p < 4) || decide (12 < tblLog h p))
    (fun p w h => [(p.ak, 4 + 4 * (2 ^ min 13 (tblLog h p) + 1)), (p.ad, 4 * p.n)] ++
      (if bitAt w 3 then [(p.as_, 4 * p.n)] else []))
    (fun p _ => 2 * p.n + 8) fun p w h c =>
      let (ys, c) := primWords c ((List.range p.n).map fun i =>
        let v := tblAt h p (tblPos h p w i)
        if bitAt w 1 then vadd (valOf (h.word (p.ad + 4 * i))) v else v)
      (h.putWords p.ad ys, c)

/-- The exact value of a finite binary64 pattern. -/
def f64Val (w : BitVec 64) : Option Rat :=
  let e : Nat := w.toNat / 2 ^ 52 % 2048
  let m : Nat := w.toNat % 2 ^ 52
  if e = 2047 then none
  else
    let q : Rat := if e = 0 then pow2 (-1074) * (m : Rat) else pow2 ((e : Int) - 1075) * ((2 ^ 52 + m : Nat) : Rat)
    some (if w.getLsbD 63 then -q else q)

/-- The binary64 pattern of an exact value: its own, or one of its two neighbours. -/
def f64Of (q : Rat) : BitVec 64 :=
  if q = 0 then 0#64
  else
    let n := q.num.natAbs
    let e := max (ilog2 n q.den) (-1022)
    let sh : Int := 52 - e
    let d := if 0 ≤ sh then q.den else q.den * 2 ^ (-sh).toNat
    let v := if 0 ≤ sh then n * 2 ^ sh.toNat else n
    let m := v / d + if v % d ≠ 0 ∧ Config.lpRound q then 1 else 0
    let b := min ((e + 1022).toNat * 2 ^ 52 + m) (2047 * 2 ^ 52)
    BitVec.ofNat 64 (b + if q < 0 then 2 ^ 63 else 0)

/-- One product added to a binary64 accumulator; a free one where an operand is not finite. -/
def lockAdd (c : Nat) (acc : BitVec 64) (x : Option Rat) : BitVec 64 × Nat :=
  match vadd (f64Val acc) x with
  | some q => (f64Of q, c)
  | none => (Config.free c ++ Config.free (c + 1), c + 2)

/-- The sample `x` of phase `f`, in cycles, enters a channel: I += x·cos φ and Q += x·sin φ. -/
def LockIn.add (l : LockIn) (c : Nat) (x f : Option Rat) : LockIn × Nat :=
  let (i, c) := lockAdd c l.i (vmul x (f.map fun f => near 6 (cosTurn f)))
  let (q, c) := lockAdd c l.q (vmul x (f.map fun f => near 6 (sinTurn f)))
  ({ l with i := i, q := q, count := l.count + 1 }, c)

/-- The samples `xs` of the sense buffer, from sample `i` on, enter channel `ch`. -/
def LpH.lockGo (h : LpH) (ch : Nat) : List Word → Nat → Nat → LockIn → LockIn × Nat
  | [], _, c, l => (l, c)
  | x :: xs, i, c, l =>
    let (l, c) := l.add c (valOf x) (h.phase ch (sampleTime h.senseHeat i 96))
    h.lockGo ch xs (i + 1) c l

/-- LIA: the samples at AS, taken at the 96 kHz sense times of the buffer's heat, enter a channel in binary64. -/
def execLia (n : Fin 16) (s : State) : Host.Outcome State Fault Refusal :=
  act s fun s => s.lpP n.val 0x25 true (fun _ _ _ => false) (fun p _ _ => [(p.as_, 4 * p.n)]) (fun p _ => p.n + 8)
    fun p w h c =>
      let ch := fld w 9 4
      if 48 ≤ ch then (h, c)
      else
        let (l, c) := h.lockGo ch (h.words p.as_ p.n) 0 c (Sparse.get {} h.lock ch)
        ({ h with lock := Sparse.set {} h.lock ch l }, c)

/-- LIARD: I and Q as binary32 and the count as an integer, at AD. -/
def execLiard (n : Fin 16) (s : State) : Host.Outcome State Fault Refusal :=
  act s fun s => s.lpP n.val 0x26 false (fun _ _ _ => false) (fun p _ _ => [(p.ad, 12)]) (fun _ _ => 4) fun p w h c =>
    let ch := fld w 9 4
    let l := Sparse.get {} h.lock ch
    let out (c : Nat) (v : Option Rat) : Word × Nat := match v with
      | some q => (f32OfRat q, c)
      | none => (Config.free c, c + 1)
    let (i, c) := out c (if 48 ≤ ch then none else f64Val l.i)
    let (q, c) := out c (if 48 ≤ ch then none else f64Val l.q)
    let h := h.putWords p.ad [i, q, BitVec.ofNat 32 l.count]
    (if bitAt w 3 then { h with lock := Sparse.set {} h.lock ch { l with i := 0, q := 0, count := 0 } } else h, c)

/-- NCOSET: the frequency and the phase offset at AK. -/
def execNcoset (n : Fin 16) (s : State) : Host.Outcome State Fault Refusal :=
  act s fun s => s.lpP n.val 0x27 false (fun _ _ _ => false) (fun p _ _ => [(p.ak, 8)]) (fun _ _ => 2) fun p w h c =>
    let ch := fld w 9 4
    if 48 ≤ ch then (h, c)
    else
      let l := Sparse.get {} h.lock ch
      ({ h with lock := Sparse.set {} h.lock ch { l with freq := h.word p.ak, phase := h.word (p.ak + 4) } }, c)

/-! ### RAMP (R237) -/

/-- The ramp state block: G, TARGET, START_HEAT, START_SAMPLE, LENGTH, SHAPE, G0, POS. -/
structure RampBlk where
  g : Word
  target : Word
  heat : Nat
  sample : Nat
  len : Nat
  shape : Nat
  g0 : Word
  pos : Nat

def rampBlk (h : LpH) (a : Nat) : RampBlk :=
  let n (i : Nat) := (h.word (a + 4 * i)).toNat
  { g := h.word a, target := h.word (a + 4), heat := n 2, sample := n 3, len := n 4, shape := n 5, g0 := h.word (a + 24), pos := n 7 }

/-- A linear gain in dB: one below 10^-6 is taken as -120 dB. -/
def gainLevel (g : Rat) : Rat := if g < 1 / 1000000 then -120 else 2 * powerDb g

/-- The gain a fraction `f` of the way from one gain to another, linear in dB. -/
def gainBetween (a b f : Rat) : Rat := near 7 (exp10 ((gainLevel a + (gainLevel b - gainLevel a) * f) / 20))

/-- The gain at sample `p` of the ramp; the last is exactly TARGET. -/
def rampGain (c : Nat) (r : RampBlk) (p : Nat) : Word × Nat :=
  if r.len ≤ p then (r.target, c)
  else if r.shape = 1 then
    primWord c ((valOf r.g0).bind fun a => (valOf r.target).map fun b => gainBetween a b ((p : Rat) / (r.len : Rat)))
  else
    let f : Rat := if r.shape = 0 then (p : Rat) / (r.len : Rat) else rcos p r.len
    primWord c (vadd (valOf r.g0) (vmul (vsub (valOf r.target) (valOf r.g0)) (some f)))

/-- Sample `k` of zone bus heat `heat`: at START_SAMPLE of START_HEAT the ramp latches G0, and it then runs to TARGET. -/
def rampStep (c heat k : Nat) (r : RampBlk) : RampBlk × Nat :=
  let starts := (heat + k / 48) % 2 ^ 32 == r.heat && k % 48 == r.sample
  let r := if starts then { r with g0 := r.g, pos := 0 } else r
  if starts || (0 < r.pos && r.pos < r.len) then
    let (g, c) := rampGain c r (r.pos + 1)
    ({ r with g := g, pos := r.pos + 1 }, c)
  else (r, c)

def rampGo (heat : Nat) : List Word → Nat → Nat → RampBlk → List Word × RampBlk × Nat
  | [], _, c, r => ([], r, c)
  | x :: xs, k, c, r =>
    let (r, c) := rampStep c heat k r
    let (y, c) := primWord c (vmul (valOf x) (valOf r.g))
    let (ys, r, c) := rampGo heat xs (k + 1) c r
    (y :: ys, r, c)

def execRamp (n : Fin 16) (s : State) : Host.Outcome State Fault Refusal :=
  act s fun s => s.lpP n.val 0x28 true
    (fun p _ h => let r := rampBlk h p.ak; r.len == 0 || decide (480000 < r.len) || decide (2 < r.shape))
    (fun p _ _ => [(p.as_, 4 * p.n), (p.ak, 32)]) (fun p _ => p.n + 6) fun p w h c =>
      let (ys, r, c) := rampGo h.zbHeat (h.words p.as_ p.n) (fld w 9 4) c (rampBlk h p.ak)
      let h := ((h.putWords p.as_ ys).putWord p.ak r.g).putWords (p.ak + 24) [r.g0, BitVec.ofNat 32 r.pos]
      (h, c)

end Sys2Proof.Machine
end

