-- ==== Sys2Proof/Machine/LpRun.lean ====
section
/-! DEFINITION. Lane parameters and delays (07_lane_processor.md R241 to R247), program images, the state machine of a lane processor
(R248 to R253), its abandoned heats (R240), and the descriptors of R260. -/

namespace Sys2Proof.Machine

/-! ### Parameter banks (R227, R241 to R244) -/

/-- DMEM address of a lane's bank: A, or B. -/
def bankAddr (l : Nat) (b : Bool) : Nat := (if b then 0x12000 else 0x0A000) + l * 0x1000

/-- The active bank of a lane, as bytes. -/
def LpH.activeBank (h : LpH) (l : Nat) : List Byte := h.bytes (bankAddr l (h.bank.getLsbD l)) 4096

/-- An update of a lane's parameters, LANE_PARAM or LANE_PARAM_INLINE (R243, R260). -/
def isParam (e : Sched) : Bool := e.desc.opcode == 0x0200#16 || e.desc.opcode == 0x0201#16

/-- The data of a lane parameter update, none where its fetch failed or its CRC does not match (R244). -/
def paramData (e : Sched) : Option (List Byte) :=
  let d := e.desc.body
  if e.desc.opcode = 0x0201#16 then some ((d.payload.drop 8).take (d.pl 4 2))
  else
    match e.fetched with
    | .error => none
    | .data bs => if bs.length = d.pl 4 2 ∧ crc32 bs = BitVec.ofNat 32 (d.pl 16 4) then some bs else none

/-- The update is a lane parameter update of LP `n` (R244). -/
def isParamOf (n : Nat) (e : Sched) : Bool :=
  isParam e && e.desc.body.byte 0 / 8 == n

/-- Pending updates of LP `n`, and their number (`LPn_PEND_USED`). -/
def State.pending_ (s : State) (n : Nat) : List Sched :=
  s.sched.filter (isParamOf n) ++ s.groups.flatMap (·.members.filter (isParamOf n))
def State.pendUsed (s : State) (n : Nat) : Nat := (s.pending_ n).length

def State.showPend (s : State) (n : Nat) : State := s.putF (Reg.lpnPendUsed n) 5 0 (s.pendUsed n)

/-- Offset in the LP's bank of entry `k` of its pending area: 32 entries of 4,160 B (R262). The data begin an entry; the rest of it is not laid
out, and left alone (log 140). -/
def State.pendOffset (s : State) (n k : Nat) : Nat := s.getF (Reg.lpnPendBase n) 22 0 + k * 4160

/-- Fields of the scheduled update `id`, grouped or not. -/
def State.schedUpd (s : State) (id : Nat) (f : Sched → Sched) : State :=
  let one (e : Sched) : Sched := if e.id = id then f e else e
  { s with sched := s.sched.map one, groups := s.groups.map fun g => { g with members := g.members.map one } }

/-- At acceptance the update's data go into the LP's pending area, into the lowest entry that is free (R241 step 1). -/
def paramAccept (e : Sched) (s : State) : State :=
  let n := e.desc.body.byte 0 / 8
  let used := (s.pending_ n).filterMap (·.pend)
  let s := match paramData e, (List.range 32).find? fun k => !used.contains k with
    | some bs, some k => (s.schedUpd e.id fun e => { e with pend := some k }).bankWrite n (s.pendOffset n k) bs
    | _, _ => s
  s.showPend n

/-- Bytes of data memory at any address. -/
def LpH.patch (h : LpH) (a : Nat) (bs : List Byte) : LpH :=
  let a0 := a / 4 * 4
  let k := a - a0
  let old := h.bytes a0 ((k + bs.length + 3) / 4 * 4)
  h.putBytes a0 (old.take k ++ bs ++ old.drop (k + bs.length))

/-- A lane parameter update is written from the pending area into its lane's shadow bank, which becomes active at the next boundary; at most 64 of one
zone bus heat engine-wide, a later one moving to the next heat (R241, R243). -/
def paramCommit (e : Sched) (s : State) : State × Res :=
  let d := e.desc.body
  let n := d.byte 0 / 8
  let l := d.byte 0 % 8
  let cnt := if s.paramHeat = e.heat then s.paramCnt else 0
  match paramData e with
  | none => (s.showPend n, .done stFaulted 0)
  | some sent =>
    let len := min sent.length 4096
    let at_ := e.pend.map fun k => bankByte n (s.pendOffset n k)
    let bs := (at_.map fun a => s.vatBytes a len).getD sent
    let s := (at_.map fun a => s.vatTouch (.privateLp n) a len).getD s
    if 64 ≤ cnt then (s.bump Reg.lpOvfCnt 32, .retry { e with heat := e.heat + 1 })
    else
      let h := s.lpAt n
      let h := h.patch (bankAddr l (!h.bank.getLsbD l) + d.pl 2 2) bs
      let s := s.setLp n { h with swap := h.swap ||| (1#8 <<< l) }
      (({ s with paramHeat := e.heat, paramCnt := cnt + 1 }).showPend n, resOk)

/-- The fields LANE_PARAM and LANE_PARAM_INLINE share, and the room in the LP's pending area. -/
def paramCheck (unit maxLen : Nat) (own : List (Bool × Nat)) (s : State) (d : Body) : Chk :=
  let off := d.pl 2 2
  let len := d.pl 4 2
  (s.laneFields (d.byte 0) ([(d.byte 1 == 0, 1), (off % 4 == 0 && off ≤ 4092 && !(off < 0xEC0 && 0xE80 < off + len), 2),
      (len % unit == 0 && 4 ≤ len && len ≤ maxLen && off + len ≤ 4096, 4), (d.pl 6 2 == 0, 6)] ++ own)).andThen
    (if 32 ≤ s.pendUsed (d.byte 0 / 8) then .short else .ok)

def laneParamRow : Row where
  blk := .lane
  check := fun s d => paramCheck 4 4096 [(d.pl 8 8 % 4 == 0, 8), (restZero d 20, 20)] s d
  onAccept := paramAccept
  commit := paramCommit

def laneParamInlineRow : Row where
  blk := .lane
  check := fun s d => paramCheck 1 16 [(restZero d 24, 24)] s d
  onAccept := paramAccept
  commit := paramCommit

/-- LANE_PARAM, with what the fetch of its data returned. -/
def execLaneParam (ph : Phase) (o : Origin) (d : Body) (rd : ReadResult) (s : State) : Host.Outcome State Fault Refusal :=
  act s fun s => s.descRow laneParamRow 0x0200 ph o d rd

def execLaneParamInline (ph : Phase) (o : Origin) (d : Body) (s : State) : Host.Outcome State Fault Refusal :=
  descCmd laneParamInlineRow 0x0201 ph o d s

/-- Insert an update in commit order, then acceptance order, members of ATOMIC groups before the rest (R243). -/
def paramBefore (a b : Sched) : Bool :=
  if a.whole != b.whole then a.whole
  else a.heat < b.heat || (a.heat == b.heat && a.id ≤ b.id)

def paramInsert (e : Sched) : List Sched → List Sched
  | [] => [e]
  | x :: xs => if paramBefore e x then e :: x :: xs else x :: paramInsert e xs

/-- The lane parameter updates whose zone bus heat is `c` or earlier, in the order they apply. -/
def State.paramsDue (s : State) (c : Nat) : List Sched :=
  (s.sched.filter fun e => isParam e && decide (e.heat ≤ c) &&
    (match e.vote with
      | .open_ => false
      | .waits => false
      | _ => true)).foldl (fun a e => paramInsert e a) []

/-- The pending updates for zone bus heat `c` are written into their shadows. -/
def State.shadowWrite (s : State) (c : Nat) : State :=
  (s.paramsDue c).foldl (fun s e => (s.unschedule e.id).commitUpd laneParamRow e) s

/-- 500 µs into heat c + 1, the pending updates for zone bus heat c are written into their lanes' shadow banks. -/
def execParamShadowWrite (s : State) : Host.Outcome State Fault Refusal :=
  act s fun s => if s.heat = 0 then s else s.shadowWrite (s.heat - 1)

/-- At a heat boundary the lanes with updates swap banks, and hardware copies the new active bank into the new shadow (R241). -/
def State.bankSwap (s : State) (n : Nat) : State :=
  let h := s.lpAt n
  let h := { h with bank := h.bank ^^^ h.swap }
  let h := (List.range 8).foldl (fun (h : LpH) l =>
    if h.swap.getLsbD l then h.putBytes (bankAddr l (!h.bank.getLsbD l)) (h.activeBank l) else h) h
  s.setLp n { h with swap := 0 }

/-! ### Delays (R246, R247) -/

/-- A delay in force changes: DLYX crossfades from the mix reached over 64 samples. -/
def DelayLn.change (d : DelayLn) (new : Nat) : DelayLn :=
  let reached : List (Nat × Rat) := match d.fade with
    | none => [(d.delay, 1)]
    | some k => let g := rcos k 64; (d.old.map fun o => (o.1, o.2 * (1 - g))) ++ [(d.delay, g)]
  { d with delay := new, old := reached, fade := some 0 }

def laneDelayRow : Row where
  blk := .lane
  check := fun s d => s.laneFields (d.byte 0) [(d.pl 1 3 == 0, 1),
    (d.pl 4 4 ≤ 48000, 4), (restZero d 8, 8)]
  commit := fun e s =>
    let d := e.desc.body
    let n := d.byte 0 / 8
    let l := d.byte 0 % 8
    if s.getF (Reg.lpnDlyAlloc n l) 15 0 < d.pl 4 4 + 48 then (s, .done stShort 0)
    else
      let h := s.lpAt n
      ((s.setLp n { h with dly := Sparse.set {} h.dly l ((Sparse.get {} h.dly l).change (d.pl 4 4)) }).showDelay n l, resOk)

def execLaneDelay (ph : Phase) (o : Origin) (d : Body) (s : State) : Host.Outcome State Fault Refusal :=
  descCmd laneDelayRow 0x0202 ph o d s

/-! ### Program images (R248, R249) -/

def imgBundles (bs : List Byte) : Nat := leAt bs 14 2
def imgEntry (bs : List Byte) : Nat := leAt bs 12 2
def imgDoff (bs : List Byte) : Nat := leAt bs 16 4
def imgDlen (bs : List Byte) : Nat := leAt bs 20 4
def imgSigned (bs : List Byte) : Bool := leAt bs 6 2 % 2 == 1

/-- The header is well formed, and the length is what it gives. -/
def imgFormed (bs : List Byte) : Bool :=
  leAt bs 0 4 == 0x4D424C50 && leAt bs 4 2 == 1 && leAt bs 6 2 ≤ 1 && imgEntry bs < imgBundles bs && 1 ≤ imgBundles bs &&
    imgBundles bs ≤ 4096 && 0x1A000 ≤ imgDoff bs && imgDoff bs % 4 == 0 && imgDlen bs % 4 == 0 &&
    imgDoff bs + imgDlen bs ≤ 0x40000 && zerosAt bs 24 40 && (imgSigned bs || zerosAt bs 160 96) &&
    bs.length == 256 + 16 * imgBundles bs + imgDlen bs && bs.length ≤ 221440

/-- LP_KEY_HASH of the OTP (R534). -/
def State.lpKeyHash (s : State) : List Byte := s.otpBytes 40 12

/-- The SSV's verdict on an image (R249); a halted SSV passes none (R533). -/
def State.imageOk (s : State) (bs : List Byte) : Bool :=
  let key := (bs.drop 64).take 96
  let sig := (bs.drop 160).take 96
  !s.ssvHalted && imgFormed bs &&
    (if imgSigned bs then
      decide (sha384 key = s.lpKeyHash) && ecdsa384 key sig (bs.take 160 ++ bs.drop 256)
     else !s.bit Reg.lpGctrl 0)

/-- IMEM and DINIT load from an image, and the rest of the program data area is zeroed (R250 step 3, R253). -/
def LpH.loadImage (h : LpH) (bs : List Byte) : LpH :=
  let n := imgBundles bs
  let code := wordsOf (4 * n) (bs.drop 256)
  let data := wordsOf (imgDlen bs / 4) (bs.drop (256 + 16 * n))
  let kept := h.dmem.filter fun p => p.1 < 0x1A000 / 4
  let h := { h.idle with dmem := kept, imem := (code.zipIdx).foldl (fun (m : Sparse Word) (p : Word × Nat) => Sparse.set 0 m p.2 p.1) [], diag := [],
                         pc := imgEntry bs, odone := 0, first := true, ovrPrev := false }
  h.putWords (imgDoff bs) data

/-- `LPn_IMG_ID`, `LPn_ENTRY` and SIGNED of the running image. -/
def State.showImage (s : State) (n : Nat) (bs : List Byte) : State :=
  ((s.setReg (Reg.lpnImgId n) (BitVec.ofNat 32 (leAt bs 8 4))).setReg (Reg.lpnEntry n) (BitVec.ofNat 32 (imgEntry bs))).setBit
    (Reg.lpnStatus n) 7 (imgSigned bs)

/-- Vat byte offset of an LP's staging area. -/
def State.stageByte (s : State) (n : Nat) : Nat := bankByte n (s.getF (Reg.lpnStageBase n) 22 0)

/-! ### The state machine (R250, R251) -/

def State.lpLanes (n : Nat) : List Nat := (List.range 8).map fun l => n * 8 + l

/-- The playing lanes of an LP ramp out over 8 ms; its running lanes ramp back in. -/
def State.lpLanesOut (s : State) (n : Nat) : State :=
  (State.lpLanes n).foldl (fun s k => if s.plays k then s.ramp k .rampOut else s) s

def State.lpLanesIn (s : State) (n : Nat) : State :=
  (State.lpLanes n).foldl (fun s k => if s.laneSt k == lsRunning then s.ramp k .rampIn else s) s

/-- LP_LOAD and an LP_RUN that stops an LP are refused while the VA flag is set outside warm-up (R250). -/
def State.vaRefuses (s : State) : Bool := s.vaFlag && !s.wup

def lpMask (d : Body) : BitVec 16 := BitVec.ofNat 16 (d.pl 0 2)

/-- The LPs of a mask. -/
def lpsOf (m : BitVec 16) : List Nat := (List.range 16).filter fun n => m.getLsbD n

def State.setLoads (s : State) (f : LpLoad → LpLoad) (id : Nat) : State :=
  { s with lpLoads := s.lpLoads.map fun x => if x.upd.id = id then f x else x }

def State.dropLoad (s : State) (id : Nat) : State := { s with lpLoads := s.lpLoads.filter (·.upd.id != id) }

/-- At heat `hc` the image change of a load begins: playing LPs ramp out and enter SWITCHING (R250 step 2, R251). -/
def State.loadBegin (s : State) (x : LpLoad) (hc : Nat) : State :=
  let s := s.setLoads (fun x => { x with begun := true, hc := hc, left := x.mask }) x.upd.id
  (lpsOf x.mask).foldl (fun s n =>
    let st := s.lpSt n
    if st = lpRunning then (s.lpLanesOut n).setLpSt n lpSwitching
    else if st = lpStandby then s.setLpSt n lpSwitching else s) s

/-- The loads that have committed, and whose image has been accepted, begin at a boundary; not while one of their LPs is in RESET, which an
LP_LOAD does not end (R251, log 141). -/
def State.loadsBegin (s : State) (hc : Nat) : State :=
  (s.lpLoads.filter fun x => x.due && !x.begun && x.verdict == some true && (lpsOf x.mask).all fun n => s.lpSt n != lpReset).foldl (fun s x => s.loadBegin x hc) s

/-- LP_LOAD at acceptance: the image is fetched into each LP's staging area and the SSV checks it. -/
def loadAccept (e : Sched) (s : State) : State :=
  let d := e.desc.body
  let bs := match e.fetched with
    | .data bs => bs
    | .error => []
  let x : LpLoad := { upd := e, mask := lpMask d, start := d.byte 2 % 2 == 1, image := bs }
  let s := { s with lpLoads := s.lpLoads ++ [x] }
  (lpsOf x.mask).foldl (fun s n => (s.bankWrite n (s.getF (Reg.lpnStageBase n) 22 0) (bs.take 0x40000)).setBit (Reg.lpnStatus n) 9 true) s

def lpLoadRow : Row where
  blk := .other
  group := false
  check := fun s d =>
    (firstBad [(d.pl 0 2 != 0, 0), (d.pl 2 2 ≤ 1, 2), (d.pl 8 8 % 64 == 0, 8),
      (restZero d 16, 16)]).andThen (if s.vaRefuses then .mode else .ok)
  onAccept := loadAccept
  commit := fun e s =>
    match s.lpLoads.find? (·.upd.id == e.id) with
    | none => (s, .done stFaulted 0)
    | some x =>
      if s.vaRefuses then
        ((lpsOf x.mask).foldl (fun s n => s.setBit (Reg.lpnStatus n) 9 false) (s.dropLoad e.id), .done stMode 0)
      else if x.verdict = some false then (s.dropLoad e.id, .done stFaulted 0)
      else
        (s.setLoads (fun x => { x with due := true, upd := e }) e.id, .wait)

/-- LP_LOAD, with what the fetch of its image returned. -/
def execLpLoad (ph : Phase) (o : Origin) (d : Body) (rd : ReadResult) (s : State) : Host.Outcome State Fault Refusal :=
  act s fun s => s.descRow lpLoadRow 0x0210 ph o d rd

/-- The SSV has checked the image of the LP_LOAD at `o` (R249): the hash is recorded, or the load is refused with event 0x75. -/
def execImageAccepted (o : Origin) (s : State) : Host.Outcome State Fault Refusal :=
  act s fun s =>
    match s.lpLoads.find? fun x => decide (x.upd.org = o) && x.verdict.isNone with
    | none => s
    | some x =>
      let ns := lpsOf x.mask
      let s := ns.foldl (fun s n => s.setBit (Reg.lpnStatus n) 9 false) s
      let s := if imgSigned x.image && !s.ssvHalted then s.otpTouch 40 12 else s
      if s.imageOk x.image ∧ x.image.length = x.upd.desc.body.pl 4 4 then
        let s := ns.foldl (fun s n =>
          s.setLp n { s.lpAt n with stageLen := x.image.length, hash := sha384 x.image }) s
        s.setLoads (fun x => { x with verdict := some true }) x.upd.id
      else
        let s := if x.upd.fetched = .error then s else
          ns.foldl (fun s n => s.emit (144 + n) 0x75 (syn12 0x75 0xFFF 0)) s
        if x.due then (s.dropLoad x.upd.id).complete x.upd stFaulted
        else s.setLoads (fun x => { x with verdict := some false }) x.upd.id

/-- One LP of a load has started, stayed halted or failed; the LP_LOAD completes with the last, reporting `heat` (R250, R253). -/
def State.loadStep (s : State) (x : LpLoad) (n heat : Nat) (ok : Bool) : State :=
  let x' := { x with left := x.left &&& ~~~(1#16 <<< n), failed := x.failed || !ok }
  if x'.left = 0#16 then (s.dropLoad x.upd.id).completeWith x.upd heat (if x'.failed then stFaulted else stOk) 0
  else s.setLoads (fun _ => x') x.upd.id

/-- The load under way of LP `n`. -/
def State.loadOf (s : State) (n : Nat) : Option LpLoad := s.lpLoads.find? fun x => x.begun && x.left.getLsbD n

/-- The 8 ms ramp has ended: a stopping LP halts in STANDBY; an LP that changes its image halts and loads from staging (R250 step 3,
R251). -/
def execLpSwitchHalt (n : Fin 16) (s : State) : Host.Outcome State Fault Refusal :=
  act s fun s =>
    let n := n.val
    match (s.loadOf n).filter fun _ => s.lpSt n != lpReset with
    | some x =>
      let bs := s.vatBytes (s.stageByte n) x.image.length
      (((s.vatTouch (.privateLp n) (s.stageByte n) x.image.length).setLp n ((s.lpAt n).loadImage bs)).setBit
        (Reg.lpnStatus n) 8 false)
    | none =>
      if !(s.lpAt n).stopping then s
      else
        let s := s.setLp n { (s.lpAt n).idle with stopping := false, odone := 0, first := true }
        ((s.setLpSt n lpStandby).setBit (Reg.lpnStatus n) 8 false).lpStopped n

/-- An LP starts at the next boundary, with its lanes to ramp in after its first output. -/
def State.lpStart (s : State) (n : Nat) : State :=
  (s.setLp n { s.lpAt n with startDue := true, first := true, rampDue := true, pc := s.getF (Reg.lpnEntry n) 11 0 }).setLpSt n
    lpRunning

/-- 9 ms after Hc the new program starts with FIRST set, or the LP stays in STANDBY, and the LP_LOAD completes (R250 step 4). -/
def execLpSwitchStart (n : Fin 16) (s : State) : Host.Outcome State Fault Refusal :=
  act s fun s =>
    let n := n.val
    match (s.loadOf n).filter fun _ => s.lpSt n != lpReset with
    | none => s
    | some x =>
      let s := s.showImage n x.image
      let go := x.start && s.bit (Reg.lpnCtrl n) 0 && !s.wup
      let s := if go then s.lpStart n else s.setLpSt n lpStandby
      s.loadStep x n (x.hc + 9) true

/-! ### LP_RUN and EN (R251, R260, R262) -/

def lpRunCheck (action : Nat) (d : Body) : Chk :=
  firstBad [(d.byte 2 == action, 2), (restZero d 3, 3)]

def lpRunStartRow : Row where
  blk := .other
  group := false
  check := fun s d => (lpRunCheck 1 d).andThen (if s.wup then .mode else .ok)
  commit := fun e s =>
    let ns := lpsOf (lpMask e.desc.body)
    if s.wup || ns.any fun n => s.lpSt n == lpOff || s.lpSt n == lpFaulted || !s.bit (Reg.lpnCtrl n) 0 then
      (s, .done stMode 0)
    else (ns.foldl (fun s n => if s.lpSt n = lpStandby then s.lpStart n else s) s, resOk)

def execLpRunStart (ph : Phase) (o : Origin) (d : Body) (s : State) : Host.Outcome State Fault Refusal :=
  descCmd lpRunStartRow 0x0211 ph o d s

/-- A RUNNING LP ramps its lanes out, and halts at the end of the ramp. -/
def State.lpStop (s : State) (n : Nat) : State :=
  if s.lpSt n = lpRunning then (s.lpLanesOut n).setLp n { s.lpAt n with stopping := true } else s

def lpRunStopRow : Row where
  blk := .other
  group := false
  check := fun s d => (lpRunCheck 0 d).andThen (if s.vaRefuses then .mode else .ok)
  commit := fun e s =>
    if s.vaRefuses then (s, .done stMode 0)
    else
      let m := lpMask e.desc.body
      let run := (lpsOf m).filter fun n => s.lpSt n == lpRunning
      if run.isEmpty then (s, resOk)
      else
        let s := run.foldl (fun s n => s.lpStop n) s
        let left := run.foldl (fun a n => a ||| (1#16 <<< n)) 0#16
        ({ s with lpStops := s.lpStops ++ [{ upd := e, left := left }] }, .wait)

def execLpRunStop (ph : Phase) (o : Origin) (d : Body) (s : State) : Host.Outcome State Fault Refusal :=
  descCmd lpRunStopRow 0x0211 ph o d s

/-- A write of `LPn_CTRL`: clearing EN stops the LP as LP_RUN stop does, but leaves EN at 1 where that is refused (R262). -/
def execLpEnWrite (m : Master) (n : Fin 16) (v : Word) (s : State) : Host.Outcome State Fault Refusal :=
  act s fun s => s.gated m (Reg.lpnCtrl n.val) fun s =>
    let n := n.val
    let clears := s.bit (Reg.lpnCtrl n) 0 && !bitAt v 0
    let keep := clears && s.vaRefuses && (s.lpSt n == lpRunning || s.lpSt n == lpSwitching)
    let s := s.rawWrite (Reg.lpnCtrl n) (if keep then setBitAt v 0 true else v)
    if clears && !keep then s.lpStop n else s

/-! ### Abandoned heats, hangs and reloads (R240, R253) -/

/-- The next boundary comes before HEND: unfinished lanes are faded, the program is forced to the entry bundle, and 0x70 is raised;
`OVR_U` heats in a row raise 0x71. -/
def State.abandonHeat (s : State) (n : Nat) : State :=
  if !s.inHeat n then s
  else
    let h := s.lpAt n
    let s := s.setLp n { h.idle with pc := s.getF (Reg.lpnEntry n) 11 0, ovrPrev := true, hangRun := h.hangRun + 1 }
    let s := (((s.showCycles n).setBit (Reg.lpnStatus n) 8 false).setReg (Reg.lpnEndLast n) 0x3FF#32).bump (Reg.lpnOvrCnt n) 32
    let run := satInc 4 (s.getF (Reg.lpnStatus n) 15 12)
    let u := max 1 (s.getF (Reg.lpnCtrl n) 7 4)
    let again := h.hangRun + 1 == u
    let s := (s.putF (Reg.lpnStatus n) 15 12 run).emit (144 + n) 0x70 (syn12 0x70 0xFFF (~~~h.odone).toNat)
    if again then s.emit (144 + n) 0x71 (syn12 0x71 0xFFF u) else s

def execHeatAbandoned (n : Fin 16) (s : State) : Host.Outcome State Fault Refusal :=
  act s fun s => s.abandonHeat n.val

/-- Sixteen consecutive heats without HEND (R240). -/
def execLpHang (n : Fin 16) (s : State) : Host.Outcome State Fault Refusal :=
  act s fun s => if 16 ≤ (s.lpAt n.val).hangRun then s.lpFails n.val 0x73 (s.lpAt n.val).hangRun else s

/-- A reset LP reloads from its staging area and checks the hash recorded at acceptance (R251, R253). An LP_LOAD that the reset cut completes
when the LP is in STANDBY, or starts (`State.lpBegins`). -/
def execLpReloadDone (n : Fin 16) (s : State) : Host.Outcome State Fault Refusal :=
  act s fun s =>
    let n := n.val
    if s.lpSt n ≠ lpReset ∨ s.fc.held.contains (144 + n) then s
    else
      let h := s.lpAt n
      let bs := s.vatBytes (s.stageByte n) h.stageLen
      let s := s.vatTouch (.privateLp n) (s.stageByte n) h.stageLen
      if sha384 bs ≠ h.hash then
        let s := (s.setLpSt n lpFaulted).emit (144 + n) 0x78 (syn12 0x78 0xFFF 0)
        match s.loadOf n with
        | some x => s.loadStep x n s.heat false
        | none => s
      else
        let s := (s.setLp n ((s.lpAt n).loadImage bs)).showImage n bs
        match s.loadOf n with
        | some x =>
          if x.start && s.bit (Reg.lpnCtrl n) 0 && !s.wup then s.lpStart n else (s.setLpSt n lpStandby).loadStep x n s.heat true
        | none => if h.was = lpRunning then s.lpStart n else s.setLpSt n lpStandby

end Sys2Proof.Machine
end

