-- ==== Sys2Proof/Machine/Diag.lean ====
section
/-! DEFINITION. Line supervision and load diagnostics (10_line_diagnostics.md): the lane states and the admission table, requesting,
starting, stopping and finishing tests and their records, the test generators, and the verdicts of the continuous pilot. -/

namespace Sys2Proof.Machine

/-! ### Telemetry records of the standard program (R278, R346) -/

def tlmAddr (l : Nat) : Nat := 0x9800 + l * 256

/-- Bytes of lane `n`'s telemetry record. -/
def State.telPut (s : State) (n off : Nat) (bs : List Byte) : State :=
  s.setLp (n / 8) ((s.lpAt (n / 8)).putBytes (tlmAddr (n % 8) + off) bs)

def State.telWord (s : State) (n off : Nat) : Word := (s.lpAt (n / 8)).word (tlmAddr (n % 8) + off)

/-- A word of the copy of the record in the vat, which the admission unit reads (R346). -/
def State.copyWord (s : State) (n off : Nat) : Word :=
  BitVec.ofNat 32 (leAt (s.vatBytes (bankByte (n / 8) (s.getF (Reg.lpnTlmBase (n / 8)) 22 0) + n % 8 * 256 + off) 4) 0 4)

def State.diagAt (s : State) (n : Nat) : LaneDiag := Sparse.get {} (s.lpAt (n / 8)).diag (n % 8)

def State.setDiag (s : State) (n : Nat) (d : LaneDiag) : State :=
  let h := s.lpAt (n / 8)
  s.setLp (n / 8) { h with diag := Sparse.set {} h.diag (n % 8) d }

def State.admitAt (s : State) (n : Nat) : AdmitH := Sparse.get {} s.admits n
def State.setAdmit (s : State) (n : Nat) (h : AdmitH) : State := { s with admits := Sparse.set {} s.admits n h }

/-! ### Lane states (R336, R378) -/

abbrev dsIdle : Nat := 0
abbrev dsProg : Nat := 1
abbrev dsVa : Nat := 2
abbrev dsMuted : Nat := 3
abbrev dsFaulted : Nat := 4

/-- The lane's takeover relay is energised (result 20 of R378). -/
def State.relayOn (s : State) (n : Nat) : Bool := s.bit (Reg.tlRelay (n / 8)) (n % 8)

/-- The zone the lane takes has an active VA layer, or the lane plays its partner's bus or holds its partner's line. -/
def State.laneVa (s : State) (n : Nat) : Bool :=
  s.relayOn n || (match (s.routeAt n).zone with
    | some z => 256 ≤ z || s.getF (Reg.zmZState z) 23 16 != 0
    | none => false)

/-- The state of a lane for admission and supervision (R336). -/
def State.diagState (s : State) (n : Nat) : Nat :=
  let st := s.laneSt n
  if !s.present (n / 8) || st == lsSafeOff || st == lsProbe || st == lsLockout || s.laneHold n &&& 0x7FE#11 != 0#11 ||
      s.lpSt (n / 8) != lpRunning then dsFaulted
  else if s.laneVa n then dsVa
  else if st == lsOff || (s.laneHold n).getLsbD hcMute then dsMuted
  else if bitAt (s.copyWord n 96) 0 then dsIdle else dsProg

/-! ### The admission table (R349, R350, R352, R378) -/

abbrev tkSpectro : Nat := 1
abbrev tkTweeter : Nat := 2
abbrev tkEarth : Nat := 3
abbrev tkProve : Nat := 4
abbrev tkCal : Nat := 5

abbrev adRefuse : Nat := 0
abbrev adDefer : Nat := 1
abbrev adInaud : Nat := 2
abbrev adRun : Nat := 3

def admitReg (k : Nat) : Nat := Reg.lpDiagAdmit1 + 4 * (k - 1)

/-- The entry a request takes on a lane in state `st`, with FORCE (R350) and results 8 and 23 of R378. -/
def State.admitEntry (s : State) (k st : Nat) (force : Bool) : Nat :=
  let e := s.getF (admitReg k) (2 * st + 1) (2 * st)
  let e := if force && (st == dsProg || st == dsMuted) && e == adDefer then adRun else e
  if e = adRun ∧ ((s.vaFlag ∧ k ≠ tkEarth) ∨ (s.batMode ∧ (k = tkSpectro ∨ k = tkProve))) then adDefer else e

/-- A write of an admission register that R349 discards. -/
def admitBad (k v : Nat) : Bool :=
  let e (st : Nat) : Nat := v / 4 ^ st % 4
  let inaud : Bool := k == tkTweeter || k == tkEarth
  e dsVa == adRun || (!inaud && (List.range 5).any fun st => e st == adInaud) || e dsMuted == adRun ||
    (e dsMuted == adInaud && k != tkEarth) || e dsFaulted == adRun || e dsFaulted == adInaud

/-- LP_DIAG_ADMIT_WRITE (R349): a write of `LP_DIAG_ADMITk`, k from 1. -/
def execLpDiagAdmitWrite (m : Master) (k : Fin 5) (v : Word) (s : State) : Host.Outcome State Fault Refusal :=
  act s fun s => s.gated m (admitReg (k.val + 1)) fun s =>
    if admitBad (k.val + 1) (fld v 9 0) then s.setBit Reg.lpDiagCtrl 1 true else s.rawWrite (admitReg (k.val + 1)) v

/-- The microphones a test names. -/
def TestH.mics (t : TestH) : List Nat := ((List.range 4).map fun i => t.upd.desc.body.byte (16 + i)).filter (· < 32)

/-- The limits of R352, the valid window of result 18, and room for the parameter update of R353. -/
def State.testRoom (s : State) (t : TestH) : Bool :=
  let run := s.tests.filter (·.running)
  let d := (s.diagAt t.lane).good.getD []
  let fl := leAt d 0xE02 1
  !run.any (·.lane == t.lane) && (run.filter (·.lane / 8 == t.lane / 8)).length < 2 &&
    !(t.kind == tkEarth && run.any fun x => x.kind == tkEarth && x.lane / 8 == t.lane / 8) &&
    !(t.kind == tkProve && run.any fun x => x.kind == tkProve && x.mics.any t.mics.contains) &&
    (t.kind != tkProve || fl % 4 != 3 || (s.admitAt t.lane).valid) &&
    s.pendUsed (t.lane / 8) < 32 && (s.paramHeat != s.laneFirst || s.paramCnt < 64)

/-! ### Records (R364) -/

abbrev rsDone : Nat := 0
abbrev rsStarted : Nat := 1
abbrev rsRequeued : Nat := 2
abbrev rsExpired : Nat := 3
abbrev rsAborted : Nat := 4

/-- The header of a telemetry entry (R461). -/
def telHeader (type cont ph lost seq : Nat) : List Byte :=
  leBytes 1 type ++ leBytes 1 (2 * lost + ph) ++ leBytes 2 cont ++ leBytes 4 seq

/-- The 56 bytes of a record. -/
def recordBody (tag start end_ lane kind status follow rflags stops : Nat) (res : List Word) : List Byte :=
  leBytes 8 tag ++ leBytes 8 start ++ leBytes 8 end_ ++ leBytes 1 lane ++ leBytes 1 kind ++ leBytes 1 status ++
    leBytes 1 follow ++ leBytes 1 rflags ++ leBytes 1 (min stops 255) ++ leBytes 2 0 ++
    bytesOfWords ((res ++ List.replicate 6 0#32).take 6)

/-- A record of a test, with its result words, its further flags and the records that follow. -/
def State.testRecord (s : State) (t : TestH) (status rflags : Nat) (res : List Word) (more : List (List Byte)) : State :=
  let d := t.upd.desc.body
  let fl := rflags + (if t.inaud then 2 else 0) + (if t.forced then 1 else 0)
  let head := recordBody d.tag.toNat (t.start.getD 0) s.heat t.lane t.kind status more.length fl t.stops res
  s.ringWriteAll (d.pl 8 2) ((fun ph lost seq _ => telHeader 2 0 ph lost seq ++ head) ::
    more.zipIdx.map fun p => fun ph lost seq _ => telHeader 3 (p.2 + 1) ph lost seq ++ p.1)

/-- The syndrome of R367. -/
def diagSyn (code k v : Nat) : Word := syn16 code k (min v 65535)

/-! ### What the registers show (R368) -/

def State.showLane (s : State) (n : Nat) : State :=
  let q := (s.tests.filter fun t => t.lane == n && !t.running).foldl (fun a t => a ||| 2 ^ (t.kind - 1)) 0
  let r := ((s.tests.find? fun t => t.lane == n && t.running).map (·.kind)).getD 0
  let v := if s.present (n / 8) then fld (s.copyWord n 96) 7 4 else 0
  let st := if s.present (n / 8) then s.diagState n else 0
  s.setReg (Reg.lpDiagLane n) (BitVec.ofNat 32 (st * 2 ^ 21 + q % 32 * 2 ^ 16 + r * 2 ^ 8 + v % 8))

def State.showTests (s : State) : State :=
  s.setReg Reg.lpDiagQueue (BitVec.ofNat 32 ((s.tests.filter (·.running)).length * 2 ^ 16 + (s.tests.filter (!·.running)).length))

/-- What `LP_DIAG_QUEUE` and the lane's register show follows a change. -/
def State.showDiag (s : State) (n : Nat) : State := s.showTests.showLane n

/-! ### The test section (R344, R353) -/

/-- The 24 bytes the admission unit writes at 0xE80 of the block. -/
def State.testSection (s : State) (t : TestH) (mode : Nat) : List Byte :=
  let d := t.upd.desc.body
  let level : Rat := if t.inaud then -((s.getF Reg.lpDiagCtrl 23 16 : Nat) : Rat)
    else if d.pl 4 2 = 0 then -40 else (d.pls 4 : Rat) / 100
  let hz (off dflt : Nat) : Rat := ((if d.pl off 2 = 0 then dflt else d.pl off 2 : Nat) : Rat)
  let dur : Rat := if t.kind = tkTweeter then (if t.inaud then 800 else 100) else 0
  leBytes 4 ((s.testSeq + 1) % 2 ^ 32) ++ leBytes 1 t.kind ++ leBytes 1 mode ++ leBytes 2 0 ++ leBytes 4 (f32OfRat level).toNat ++
    leBytes 4 (f32OfRat (hz 10 1000)).toNat ++ leBytes 4 (f32OfRat (hz 12 12000)).toNat ++ leBytes 4 (f32OfRat dur).toNat

/-- At a heat boundary the admission unit reads the lane's record, as copied to the vat: a point completed joins the points of SPECTRO (R346, R355); the
proving correlator takes the blocks of heat `c` of the microphones that PROVE names (R361). -/
def State.testsRead (s : State) (c : Nat) : State :=
  { s with tests := s.tests.map fun t =>
      if !t.running then t
      else if t.kind = tkSpectro ∧ (s.copyWord t.lane 100).toNat = t.seq ∧ t.pts.length < fld (s.copyWord t.lane 104) 15 0 then
        { t with pts := t.pts ++ [(s.copyWord t.lane 108, s.copyWord t.lane 112)] }
      else if t.kind = tkProve then
        { t with heard := t.mics.foldl (fun m i =>
            match (s.micAt i).blks.find? fun b => b.1 == c with
            | some b => Sparse.set [] m i ((b :: Sparse.get [] m i).take 5000)
            | none => m) t.heard }
      else t }

/-- The section is written as a lane parameter update of the first zone bus heat that can take it (R353). -/
def State.writeSection (s : State) (t : TestH) (mode : Nat) : State :=
  let n := t.lane / 8
  let l := t.lane % 8
  let h := s.lpAt n
  let h := h.putBytes (bankAddr l (!h.bank.getLsbD l) + 0xE80) (s.testSection t mode)
  let cnt := if s.paramHeat = s.laneFirst then s.paramCnt else 0
  { s.setLp n { h with swap := h.swap ||| (1#8 <<< l) } with
    testSeq := (s.testSeq + 1) % 2 ^ 32, paramHeat := s.laneFirst, paramCnt := cnt + 1 }

/-! ### Starting and ending tests (R350 to R354) -/

def State.putTest (s : State) (t : TestH) : State :=
  { s with tests := s.tests.map fun x => if x.upd.id = t.upd.id then t else x }

def State.dropTest (s : State) (t : TestH) : State := { s with tests := s.tests.filter (·.upd.id != t.upd.id) }

/-- Sense samples that a CAL averages: the whole number of pilot periods nearest 100 ms (result 22 of R378). -/
def State.calLen (s : State) (n : Nat) : Nat :=
  let b := (s.diagAt n).good.getD []
  let f := sampleVal (BitVec.ofNat 32 (leAt b 0xE04 4))
  if leAt b 0xE02 1 % 2 = 0 ∨ f ≤ 0 then 9600 else (roundRat ((roundRat (f / 10) : Rat) / f * 96000)).toNat

/-- A test in the list starts, as its entry permits it. -/
def State.testStart (s : State) (t : TestH) (entry : Nat) : State :=
  let n := t.lane
  let runs := t.forced && (s.laneSt n == lsOff || (s.laneHold n).getLsbD hcMute)
  let t := { t with running := true, inaud := entry == adInaud, start := some s.laneFirst, seq := (s.testSeq + 1) % 2 ^ 32, pts := [], heard := []
                    was := if runs then some ((s.laneAt n).run, (s.laneAt n).mute) else none }
  let s := (s.writeSection t (if t.inaud then 2 else 1)).putTest t
  let s := if runs then (s.setRun n true).setMute n false else s
  let s := if t.kind = tkEarth then
      (s.setReg (Reg.tlEarthStat (n / 8)) (BitVec.ofNat 32 (0x80 + n % 8))).setLane n { s.laneAt n with earth := some { volts := if t.inaud then 5 else 15 } }
    else if t.kind = tkCal then
      (s.bondLanes n).foldl (fun s k => s.setLane k { s.laneAt k with cal := some { len := s.calLen n } }) s
    else s
  let s := if t.queued then s.testRecord t rsStarted 0 [] [] else s
  s.showDiag n

/-- What a test changed on its lane is as it was before it. -/
def State.testOff (s : State) (t : TestH) : State :=
  let s := match t.was with
    | some (r, m) => (s.setRun t.lane r).setMute t.lane m
    | none => s
  let s := if t.kind = tkEarth then
      (s.setBit (Reg.tlEarthStat (t.lane / 8)) 7 false).setLane t.lane { s.laneAt t.lane with earth := none }
    else (s.bondLanes t.lane).foldl (fun s k => s.setLane k { s.laneAt k with cal := none }) s
  s.setAdmit t.lane { s.admitAt t.lane with valid := false }

/-- A running test stops with its ramp, and is requeued or ends ABORTED. -/
def State.testStop (s : State) (t : TestH) (requeue : Bool) : State :=
  let s := (s.writeSection t 0).testOff t
  if requeue then
    let t' := { t with stops := t.stops + 1 }
    ((s.testRecord t' rsRequeued 0 [] []).putTest
      { t' with running := false, inaud := false, queued := true, since := s.heat, was := none, start := none }).showDiag t.lane
  else ((s.testRecord t rsAborted 0 [] []).dropTest t).showDiag t.lane

/-- A running test may go on in its lane's present state (R354). -/
def State.testGoes (s : State) (t : TestH) : Bool :=
  let st := s.diagState t.lane
  let e := s.admitEntry t.kind st t.forced
  let own := s.getF (admitReg t.kind) (2 * st + 1) (2 * st)
  e == adRun || (t.inaud && (e == adInaud || (own == adRun && e == adDefer && !(s.batMode && t.kind == tkProve)))) ||
    (t.forced && st != dsVa && st != dsFaulted && s.mnt && !s.vaFlag &&
      !(s.batMode && (t.kind == tkSpectro || t.kind == tkProve)))

/-- A running test whose lane no longer permits it stops (R354). -/
def State.testJudge (s : State) (t : TestH) : State :=
  if s.testGoes t then s
  else
    let st := s.diagState t.lane
    let e := s.admitEntry t.kind st t.forced
    s.testStop t (e != adRefuse && st != dsFaulted)

/-- Every running test is judged again after a mode change; a forced one ends with MNT, or with the VA flag (R373, results 8, 12 and
23 of R378). -/
def State.testsJudge (s : State) : State :=
  let s := (s.tests.filter fun t => t.running && t.forced && (!s.mnt || s.vaFlag)).foldl (fun s t => s.testStop t false) s
  let s := if s.mnt then s else { s with tests := s.tests.map fun t => { t with forced := false } }
  (s.tests.filter (·.running)).foldl (fun s t => s.testJudge t) s

/-- At a heat boundary every queued test that may start does, in acceptance order (R351). -/
def State.testsAdmit (s : State) : State :=
  (s.tests.filter (!·.running)).foldl (fun s t =>
    let f := t.forced && s.mnt && !s.vaFlag
    let e := s.admitEntry t.kind (s.diagState t.lane) f
    if (e = adRun ∨ e = adInaud) ∧ !(t.forced && s.vaFlag) ∧ !s.wup ∧ s.testRoom t then s.testStart t e else s) s

/-! ### TEST_REQ, TEST_CANCEL and TESTGEN_SET (R348, R350, R351, R365, R366) -/

def inRange (lo hi v : Nat) : Bool := lo ≤ v && v ≤ hi

/-- The named microphones are in range and not repeated, and a PROVE names one. -/
def micsOk (d : Body) (i : Nat) : Bool :=
  let m := d.byte (16 + i)
  m == 0xFF || (m < 32 && (List.range i).all fun j => d.byte (16 + j) != m)

def testReqCheck (s : State) (d : Body) : Chk :=
  s.laneFields (d.byte 0)
    [(inRange 1 5 (d.byte 1), 1), (d.byte 2 < 8, 2), (d.byte 3 ≤ 16, 3),
     (d.pl 4 2 == 0 || (-7000 ≤ d.pls 4 && d.pls 4 ≤ -3000), 4), (d.pl 8 2 < 32768, 8),
     (d.pl 10 2 == 0 || inRange 20 40000 (d.pl 10 2), 10), (d.pl 12 2 == 0 || inRange 20 40000 (d.pl 12 2), 12),
     (d.byte 1 != tkEarth || inRange 10 10000 (d.pl 14 2), 14),
     (micsOk d 0 && (d.byte 1 != tkProve || (List.range 4).any fun i => d.byte (16 + i) < 32), 16),
     (micsOk d 1, 17), (micsOk d 2, 18), (micsOk d 3, 19), (restZero d 24, 24)]

def testReqRow : Row where
  blk := .other
  group := false
  check := testReqCheck
  commit := fun e s =>
    let d := e.desc.body
    let n := d.byte 0
    let k := d.byte 1
    let force := d.byte 2 % 2 == 1
    let t : TestH := { upd := e, lane := n, kind := k, forced := force }
    let en := s.admitEntry k (s.diagState n) force
    if !s.bit Reg.lpDiagCtrl 0 || s.wup || (force && (!s.mnt || s.vaFlag)) || en == adRefuse then (s, .done stMode 0)
    else if 256 ≤ (s.tests.filter (!·.running)).length ∨ s.tests.any fun x => x.lane == n && x.kind == k then (s, .done stShort 0)
    else if (en = adRun ∨ en = adInaud) ∧ s.testRoom t then
      (State.testStart { s with tests := s.tests ++ [t] } t en, resOk)
    else (({ s with tests := s.tests ++ [{ t with queued := true, since := s.heat }] }).showDiag n, .done stDeferred 0)

/-- TEST_REQ: judged at its commit heat; its results arrive as records. -/
def execTestReq (ph : Phase) (o : Origin) (d : Body) (s : State) : Host.Outcome State Fault Refusal :=
  descCmd testReqRow 0x0400 ph o d s

def testCancelRow : Row where
  blk := .other
  check := fun s d => s.laneFields (d.byte 0) [(d.byte 1 ≤ 5, 1), (restZero d 2, 2)]
  commit := fun e s =>
    let n := e.desc.body.byte 0
    let k := e.desc.body.byte 1
    let mine := s.tests.filter fun t => t.lane == n && (k == 0 || t.kind == k)
    (mine.foldl (fun s t =>
      if t.running then s.testStop t false else ((s.testRecord t rsAborted 0 [] []).dropTest t).showDiag n) s, resOk)

/-- TEST_CANCEL: queued and running tests of the kind end ABORTED. -/
def execTestCancel (ph : Phase) (o : Origin) (d : Body) (s : State) : Host.Outcome State Fault Refusal :=
  descCmd testCancelRow 0x0401 ph o d s

def testgenSetRow : Row where
  blk := .zone
  check := fun s d =>
    let w := d.byte 1
    (firstBad [(d.byte 0 < 16, 0), (w ≤ 4, 1), (-12000 ≤ d.pls 2 && d.pls 2 ≤ 0, 2),
      ((w != 1 && w != 4) || inRange 20 20000 (d.pl 4 2), 4), (w != 4 || inRange 20 20000 (d.pl 6 2), 6),
      (w != 4 || inRange 100 60000 (d.pl 8 2), 8), (restZero d 10, 10)]).andThen (if s.bit Reg.zmCtrl 0 then .ok else .mode)
  commit := fun e s =>
    let g := e.desc.body.byte 0
    let h := Sparse.get {} s.gens g
    let n : GenH := { cur := { cfg := (e.desc.body.payload ++ List.replicate 16 0#8).take 16, lfsr := 0x40000000 + g }, old := h.cur,
                      fade := some 0 }
    ({ s with gens := Sparse.set {} s.gens g n }, resOk)

/-- TESTGEN_SET: a generator's wave, level and frequencies, with a crossfade from the last. -/
def execTestgenSet (ph : Phase) (o : Origin) (d : Body) (s : State) : Host.Outcome State Fault Refusal :=
  descCmd testgenSetRow 0x0402 ph o d s

/-- TEST_STOP: the state of lane `n` has changed. -/
def execTestStop (n : Fin 128) (s : State) : Host.Outcome State Fault Refusal :=
  act s fun s =>
    match s.tests.find? fun t => t.running && t.lane == n.val with
    | none => s
    | some t => s.testJudge t

/-- TEST_EXPIRED: MAX_WAIT of the queued test of a kind, from 1, on lane `n` has elapsed (R351). -/
def execTestExpired (n : Fin 128) (k : Fin 6) (s : State) : Host.Outcome State Fault Refusal :=
  act s fun s =>
    match s.tests.find? fun t => !t.running && t.lane == n.val && t.kind == k.val && t.upd.desc.body.pl 6 2 != 0 &&
        decide (t.since + t.upd.desc.body.pl 6 2 * 1000 ≤ s.heat) with
    | none => s
    | some t =>
      let s := ((s.testRecord t rsExpired 0 [] []).dropTest t).bump Reg.lpDiagExpCnt 32
      (s.emit n.val 0xDA (diagSyn 0xDA t.kind 0)).showDiag n.val

/-! ### The lane's pilot (R338, R342) -/

/-- The lane runs its pilot: RUNNING, with PILOT_EN in the block in force (R338). -/
def State.pilotOn (s : State) (n : Nat) : Bool :=
  s.lpSt (n / 8) == lpRunning && s.laneSt n == lsRunning && leAt ((s.diagAt n).good.getD []) 0xE02 1 % 2 == 1

/-- The lane is supervised against a baseline, and not held (R342, R343). -/
def State.pilotBase (s : State) (n : Nat) : Bool :=
  let st := s.diagState n
  s.pilotOn n && leAt ((s.diagAt n).good.getD []) 0xE02 1 / 2 % 2 == 1 && st != dsFaulted && st != dsMuted && !s.relayOn n

end Sys2Proof.Machine
end

