-- ==== Sys2Proof/Machine/Modes.lean ====
section
/-! DEFINITION. The engine-wide modes (11_twelve_modes.md): MODE_SET, automatic battery mode, the maintenance timeout, factory test and
its injections; and the crossover out of warm-up (17_cores_boot_warmup.md R547 to R549). -/

namespace Sys2Proof.Machine

/-! ### Events and flags (R384, R385) -/

abbrev mdVa : Nat := 2
abbrev mdBat : Nat := 6
abbrev mdWup : Nat := 7
abbrev mdMnt : Nat := 11
abbrev mdFtm : Nat := 12

/-- An event of a mode. -/
def State.modeEvent (s : State) (code mode : Nat) : State :=
  s.emit (if code = 0xE6 ∨ code = 0xE7 then 229 else 217) code (syn16 code mode 0)

def State.setMode (s : State) (bit : Nat) (b : Bool) : State := s.setBit Reg.gblMode bit b

/-- The pacer is stepping, before step 4 of R55 (R82). -/
def State.stepPending (s : State) : Bool := match s.pacer.step with
  | some x => x.phase != .rampIn
  | none => false

/-! ### MODE_SET (R383) -/

/-- MODE_SET of one mode: entering, or leaving. In warm-up it waits for a step to reach its step 4 (R549). -/
def modeRow (mode : Nat) (set : Sched → Bool → State → State × Res) : Row where
  blk := .other
  group := false
  check := fun _ d => firstBad [(d.byte 0 == mode, 0), (d.byte 1 ≤ 1, 1), (restZero d 2, 2)]
  commit := fun e s => if s.wup && s.stepPending then (s, .retry e) else set e (e.desc.body.byte 1 == 1) s

/-- The VA flag (R370). -/
def setVa (_ : Sched) (enter : Bool) (s : State) : State × Res :=
  if s.vaFlag = enter then (s, resOk)
  else (((s.setMode 1 enter).modeEvent (if enter then 0xE0 else 0xE1) mdVa).testsJudge, resOk)

def modeVaRow : Row := modeRow mdVa setVa

def execModeSetVa (ph : Phase) (o : Origin) (d : Body) (s : State) : Host.Outcome State Fault Refusal :=
  descCmd modeVaRow 0x0500 ph o d s

/-! ### Battery (R371) -/

/-- BAT follows its command and its automatic condition. -/
def State.batFollow (s : State) : State :=
  let on := s.bit Reg.gblMode 15 || (s.bit Reg.gblMode 16 && s.bit Reg.gblModeCfg 0)
  if s.batMode = on then s else ((s.setMode 5 on).modeEvent (if on then 0xE2 else 0xE3) mdBat).testsJudge

def setBat (_ : Sched) (enter : Bool) (s : State) : State × Res :=
  if !enter then ((s.setMode 15 false).batFollow, resOk)
  else if s.batMode then (s, resOk) else ((s.setMode 15 true).batFollow, resOk)

def modeBatRow : Row := modeRow mdBat setBat

def execModeSetBat (ph : Phase) (o : Origin) (d : Body) (s : State) : Host.Outcome State Fault Refusal :=
  descCmd modeBatRow 0x0500 ph o d s

/-- BAT_AUTO_ENTER: the rail of a present tile has been low for 100 heats. -/
def execBatAutoEnter (s : State) : Host.Outcome State Fault Refusal :=
  act s fun s =>
    if s.presentTiles.any fun t => 100 ≤ (s.tileAt t).railLow then (s.setMode 16 true).batFollow else s

/-- BAT_AUTO_LEAVE: every present tile's rail has been 5 % above the limit for BAT_HOLD seconds, 0 being taken as 1. -/
def execBatAutoLeave (s : State) : Host.Outcome State Fault Refusal :=
  act s fun s =>
    if max 1 (s.getF Reg.gblModeCfg 15 8) * 1000 ≤ s.modes.batHigh then (s.setMode 16 false).batFollow else s

/-! ### Maintenance (R373) -/

def State.mntLeave (s : State) : State := ((s.setMode 10 false).modeEvent 0xE5 mdMnt).testsJudge

def setMnt (_ : Sched) (enter : Bool) (s : State) : State × Res :=
  if s.mnt = enter then (s, resOk)
  else if !enter then (s.mntLeave, resOk)
  else if s.wup || s.vaFlag then (s, .done stMode 0)
  else
    ((({ s with modes := { s.modes with mntHeats := 0 } }).setMode 10 true).modeEvent 0xE4 mdMnt, resOk)

def modeMntRow : Row := modeRow mdMnt setMnt

def execModeSetMnt (ph : Phase) (o : Origin) (d : Body) (s : State) : Host.Outcome State Fault Refusal :=
  descCmd modeMntRow 0x0500 ph o d s

/-- MNT_TIMEOUT: MNT has lasted its minutes, where they are limited. -/
def execMntTimeout (s : State) : Host.Outcome State Fault Refusal :=
  act s fun s =>
    let m := s.getF Reg.gblModeCfg 31 24
    if s.mnt && m != 0 && m * 60000 ≤ s.modes.mntHeats then s.mntLeave else s

/-! ### Warm-up and the crossover (R376, R547 to R549) -/

/-- The lane plays in warm-up by its tile's defaults (R540). -/
def State.wupLane (s : State) (n : Nat) : Bool := (s.defField (n / 8) (16 + n % 8 * 16) 1).testBit 0

/-- The warm-up lanes. -/
def State.warmLanes (s : State) : List Nat :=
  (List.range 128).filter fun n => s.present (n / 8) && s.tileWarm (n / 8) && s.wupLane n

/-- Step 1: every present LP starts, and each warm-up lane that runs waits for a zero crossing; one that a cause holds counts as
complete (R548). -/
def State.crossover (s : State) (e : Sched) : State :=
  let s := s.presentTiles.foldl (fun s n =>
    let s := s.lpStart n
    s.setLp n { s.lpAt n with rampDue := false }) s
  { s with xover := { active := true, upd := some e, since := s.pacer.ns.toNat,
                      lanes := s.warmLanes.map fun n => (n, if s.laneSt n = lsRunning then .waiting else .zeroed s.heat) } }

def setWup (e : Sched) (enter : Bool) (s : State) : State × Res :=
  if enter then (s, .done stMode 0)
  else if !s.wup then (s, resOk)
  else if !s.bit Reg.zmCtrl 0 || s.presentTiles.any fun n => s.lpSt n != lpStandby then (s, .done stMode 0)
  else (s.crossover e, .wait)

def modeWupRow : Row := modeRow mdWup setWup

def execModeSetWup (ph : Phase) (o : Origin) (d : Body) (s : State) : Host.Outcome State Fault Refusal :=
  descCmd modeWupRow 0x0500 ph o d s

/-- CROSSOVER_ZERO_CROSSING: from 1 ms after step 1, a warm-up lane's emergency signal crosses zero, and zero replaces it; or the timeout passes, and
it ramps to zero over 64 samples. -/
def execCrossoverZeroCrossing (n : Fin 128) (timeout : Bool) (s : State) : Host.Outcome State Fault Refusal :=
  onTile s (n.val / 8) fun s =>
    let from1 := s.xover.since + 1000000
    let now := s.pacer.ns.toNat
    if !s.xover.lanes.contains (n.val, .waiting) ∨ now < from1 then s
    else if timeout then
      if now < from1 + zcTaken (s.getF Reg.zmCtrl 24 16) * 100000 then s else (s.setXphase n.val .fading).ramp n.val .rampOut
    else if (s.laneAt n.val).crossed then s.xoverZero n.val
    else s

/-- CROSSOVER_APPLY: at the boundary after step 3, the tile takes a lane's registers, and the lane ramps in on the pipeline. WARMUP
clears with the tile's last lane. -/
def execCrossoverApply (n : Fin 128) (s : State) : Host.Outcome State Fault Refusal :=
  onTile s (n.val / 8) fun s =>
    let n := n.val
    let t := n / 8
    if !s.xover.lanes.any fun x => x.1 == n && x.2.zeroBefore s.heat then s
    else
      let s := if s.laneSt n = lsRunning then (s.setXphase n .rampIn).ramp n .rampIn else s.setXphase n .passed
      if s.xover.lanes.all fun x => x.1 / 8 != t || x.2 == .rampIn || x.2 == .passed then
        s.setBit (Reg.tlLinkStatus t) 5 false else s

/-- The lane has come through the crossover: it has ramped in, or a hold cause has stopped it, or it went OFF (R548). -/
def State.xoverDone (s : State) (x : Nat × XPhase) : Bool :=
  x.2 == .passed || (x.2 == .rampIn && ((s.laneAt x.1).gain != .rampIn || (s.laneAt x.1).rampPos == rampLen))

/-- CROSSOVER_COMPLETE: the last lane has ramped in; WUP clears, and MODE_SET completes OK with event 0xE8. -/
def execCrossoverComplete (s : State) : Host.Outcome State Fault Refusal :=
  act s fun s =>
    if !s.xover.active || !s.xover.lanes.all s.xoverDone then s
    else
      let upd := s.xover.upd
      let s := s.xover.lanes.foldl (fun s x => if (s.laneAt x.1).gain = .rampIn then s.rampDone x.1 else s) s
      let s := s.wupOver.modeEvent 0xE8 mdWup
      match upd with
      | some e => s.complete e stOk
      | none => s

/-! ### Factory test (R379, R549) -/

/-- Warm-up ends without a crossover: its lanes ramp out over 8 ms and go OFF. A crossover under way completes FAULTED. -/
def State.wupQuit (s : State) : State :=
  let s := match s.xover.upd with
    | some e => s.complete e stFaulted
    | none => s
  let lanes := (List.range 128).filter fun n => s.warmLanes.contains n || s.xover.lanes.any (·.1 == n)
  let s := { s with xover := {}, modes := { s.modes with quit := lanes } }
  if lanes.isEmpty then s.wupOver
  else lanes.foldl (fun s n => if s.laneSt n = lsRunning then s.ramp n .rampOut else s.wupLaneOff n) s

def setFtm (_ : Sched) (enter : Bool) (s : State) : State × Res :=
  if !enter then (s, .done stMode 0)
  else if s.ftm then (s, resOk)
  else if !s.bit Reg.gblMode 18 || s.vaFlag then (s, .done stMode 0)
  else
    let s := ((s.setMode 11 true).setMode 18 false).modeEvent 0xE6 mdFtm
    (if s.wup then s.wupQuit else s, resOk)

def modeFtmRow : Row := modeRow mdFtm setFtm

def execModeSetFtm (ph : Phase) (o : Origin) (d : Body) (s : State) : Host.Outcome State Fault Refusal :=
  descCmd modeFtmRow 0x0500 ph o d s

/-- Value `k` of the unlock sequence. -/
def State.unlockKey (s : State) (k : Nat) : Nat :=
  if k = 0 then 0xF7E1 else if k = 1 then 0x0B5A else 0xC300 + s.straps.engineId.toNat

/-- A host port that holds the baton. -/
def State.ownsBaton (s : State) (m : Master) : Bool := match m with
  | .host p => s.owns p.val
  | _ => false

/-- A write of `GBL_FTM_UNLOCK` that reaches the register. -/
def State.unlockWrite (s : State) (owner : Bool) (v : Word) : State :=
  let k := s.modes.unlock
  let good := owner && v.toNat == s.unlockKey k && (k == 0 || s.modes.unlockHeat < 100)
  if good then
    if k = 2 then
      ({ s with modes := { s.modes with unlock := 0, unlockHeat := 0 } }).setMode 18 true
    else { s with modes := { s.modes with unlock := k + 1, unlockHeat := if k = 0 then 0 else s.modes.unlockHeat } }
  else if owner && v.toNat == s.unlockKey 0 then { s with modes := { s.modes with unlock := 1, unlockHeat := 0 } }
  else { s with modes := { s.modes with unlock := 0, unlockHeat := 0 } }

def execGblFtmUnlockWrite (m : Master) (v : Word) (s : State) : Host.Outcome State Fault Refusal :=
  act s fun s => s.gated m Reg.gblFtmUnlock fun s => if !s.bit Reg.gblMode 17 then s else s.unlockWrite (s.ownsBaton m) v

/-- UNLOCK_WINDOW_EXPIRY: 100 heats since the first write of the sequence, or, with `entry`, 1,000 since UNLOCKED was set. -/
def execUnlockWindowExpiry (entry : Bool) (s : State) : Host.Outcome State Fault Refusal :=
  act s fun s =>
    if s.modes.unlockHeat < (if entry then 1000 else 100) then s
    else if entry then s.setMode 18 false
    else { s with modes := { s.modes with unlock := 0 } }

/-! ### Injection (R380, R381) -/

/-- The event a hold cause goes with, and whether it is the tile's rather than the lane's (R310, R332). -/
def causeEvent (c : Nat) : Option (Nat × Bool) :=
  match c with
  | 2 => some (0xB5, false)
  | 3 => some (0x91, false)
  | 4 => some (0xA1, true)
  | 5 => some (0xC4, true)
  | 6 => some (0xC5, true)
  | 7 => some (0xC8, true)
  | 8 => some (0xB1, false)
  | 9 => some (0xC3, true)
  | 10 => some (0xB7, false)
  | _ => none

/-- The tile holds a cause for `ms` as if it had detected it. -/
def State.injectCause (s : State) (n c ms : Nat) : State :=
  let code := ((causeEvent c).map (·.1)).getD 0
  let s := s.setHold n c true code
  let s := s.setLane n { s.laneAt n with injected := (c, s.heat + ms) :: (s.laneAt n).injected.filter (·.1 != c) }
  let s := match causeEvent c with
    | some (code, true) => s.tileEvent (n / 8) code 0
    | some (code, false) => s.laneEvent n code 0
    | none => s
  s.showFault (n / 8)

/-- The injection of a write of `GBL_FTM_INJ`, none where it is discarded (R381, R385). -/
def State.inject (s : State) (v : Word) : Option State :=
  let kind := fld v 31 30
  let tgt := fld v 27 20
  let sel := fld v 19 16
  let par := fld v 15 0
  if kind = 0 then
    let cls : Cls := [.c, .u, .f].getD (fld v 29 28) .f
    if fld v 29 28 = 3 ∨ srcReserved tgt then none
    else some (s.emitEv { src := Fin.ofNat 256 tgt, cls := cls, react := (evDefault cls).2, syn := s.reg Reg.gblFtmInjSyn })
  else if kind = 1 then
    if 128 ≤ tgt ∨ !s.present (tgt / 8) ∨ 10 < sel ∨ par = 0 ∨ 4095 < par then none else some (s.injectCause tgt sel par)
  else if kind = 2 then
    if 16 ≤ tgt ∨ !s.present tgt ∨ par = 0 ∨ 255 < par then none
    else some (s.setTile tgt { s.tileAt tgt with omitFrames := par })
  else if 16 ≤ tgt ∨ 1 < sel then none
  else some (s.setBank tgt { s.bankAt tgt with inject := sel + 1 })

/-- A write of `GBL_FTM_INJ`: one injection, in factory test and from the baton owner; any other write is discarded. -/
def State.injWrite (s : State) (m : Master) (v : Word) : State :=
  let refuse (s : State) : State := s.setMode 19 true
  if !s.ownsBaton m then refuse (s.gated m Reg.gblFtmInj fun s => s)
  else if !s.ftm then refuse s
  else match s.inject v with
    | some s' => (s'.modeEvent 0xE7 mdFtm).bump Reg.gblFtmInjCnt 32
    | none => refuse s

/-- An event on a collector source. -/
def execFtmInjSource (m : Master) (v : Word) (s : State) : Host.Outcome State Fault Refusal :=
  act s fun s => s.injWrite m (setFld v 31 30 0)

/-- A hold cause on a lane. -/
def execFtmInjHoldCause (m : Master) (v : Word) (s : State) : Host.Outcome State Fault Refusal :=
  act s fun s => s.injWrite m (setFld v 31 30 1)

/-- Downstream frames omitted. -/
def execFtmInjLinkFrames (m : Master) (v : Word) (s : State) : Host.Outcome State Fault Refusal :=
  act s fun s => s.injWrite m (setFld v 31 30 2)

/-- Bits flipped in a vat bank. -/
def execFtmInjVatEcc (m : Master) (v : Word) (s : State) : Host.Outcome State Fault Refusal :=
  act s fun s => s.injWrite m (setFld v 31 30 3)

/-- A cause that the tile detects from a level holds a lane on its own: MUTE, LINK, CLK of its island, TSAFE (R310, R316). -/
def State.causeStands (s : State) (n c : Nat) : Bool :=
  let t := n / 8
  (c == hcMute && s.bit (laneReg n) 6) || (c == hcLink && decide (3 ≤ s.getF (Reg.tlLinkStatus t) 15 8)) ||
    (c == hcClk && (s.tileAt t).islOut.getLsbD (n % 8)) || (c == hcTsafe && s.bit (Reg.tlLinkStatus t) 4)

/-- INJECTED_CAUSE_EXPIRY: the duration of an injected cause has passed, and it clears, unless the tile has it on its own. -/
def execInjectedCauseExpiry (n : Fin 128) (cause : Fin 11) (s : State) : Host.Outcome State Fault Refusal :=
  onTile s (n.val / 8) fun s =>
    let h := s.laneAt n.val
    if !h.injected.any fun x => x.1 == cause.val && x.2 ≤ s.heat then s
    else
      let s := s.setLane n.val { h with injected := h.injected.filter (·.1 != cause.val) }
      if s.causeStands n.val cause.val then s else (s.setHold n.val cause.val false 0).showFault (n.val / 8)

end Sys2Proof.Machine
end

