-- ==== Sys2Proof/Machine/Resets.lean ====
section
/-! DEFINITION. Power, resets, locks and the die temperature: what an engine reset clears and keeps (R439, R481, R539, R563), power-on and
loss of power (R536, R586), the software reset key (R561, R562), the global lock (R564), and thermal shutdown (R599). -/

namespace Sys2Proof.Machine

/-! ### What each part keeps (R303, R481, R539) -/

/-- Registers a tile holds itself, by offset within its proxy: a reset of the controller leaves them as they are. The link counters, the
identification and presentation offset, the lane-defaults window and `RIND_CTRL` belong to the controller. -/
def tileKeeps (o : Nat) : Bool :=
  !(0x4 ≤ o && o < 0x14) && o != 0x18 && !(0x200 ≤ o && o < 0x304) && o != 0x2104

/-- Collector registers an engine reset keeps (R481): status word, hold bits, open-window bits, history, photo-finish record and
`FC_RESET_CAUSE`; `FC_STATUS` keeps PF_VALID alone. -/
def fcKeeps (off : Nat) : Bool :=
  (Reg.fcFsw 0 ≤ off && off < Reg.fcVasel 0) || (Reg.fcHoldva 0 ≤ off && off < Reg.fcHistLost) || off == Reg.fcResetCause ||
    off == Reg.fcStatus || (Reg.fcHist 0 0 ≤ off && off < Reg.fcPf 8)

/-- Offsets of the collector's block. -/
def inCollector (off : Nat) : Bool := 0x10000 ≤ off && off < 0x20000

/-- Offsets of the tile proxies. -/
def inTiles (off : Nat) : Bool := 0x100000 ≤ off && off < 0x140000

/-- Registers every reset but power-on keeps: the straps and identification, `GBL_RESET_INFO` (R563), and what the tiles and the host
ports' configuration space hold. -/
def resetKeeps (off : Nat) : Bool :=
  off == Reg.gblDevIdLo || off == Reg.gblDevIdHi || off == Reg.gblStraps || off == Reg.gblResetInfo ||
    (inTiles off && tileKeeps ((off - 0x100000) % 0x4000)) || off == Reg.hpStatus 0 || off == Reg.hpStatus 1 || off == Reg.hpStatus 2

/-- The part of a lane that lies in its tile. -/
def LaneH.inTile (h : LaneH) : LaneH :=
  { ilimRun := h.ilimRun, ilimHeat := h.ilimHeat, ilimPrev := h.ilimPrev, fast := h.fast, fastLow := h.fastLow, volts := h.volts, fastAct := h.fastAct, fastPrev := h.fastPrev,
    clamp := h.clamp, clampPrev := h.clampPrev, relayHeld := h.relayHeld, trips := h.trips, rindLocked := h.rindLocked,
    samples := h.samples, shorts := h.shorts, probeHit := h.probeHit, ilimFrame := h.ilimFrame, lfsr := h.lfsr, tri := h.tri,
    nextPer := h.nextPer, levPilot := h.levPilot, levProg := h.levProg, lev := h.lev, edges := h.edges, rind := h.rind, probe := h.probe, uneven := h.uneven,
    offV := h.offV, offI := h.offI }

/-- The part of a tile's record that lies in the tile; the stored lane defaults come into use (R541). -/
def TileH.inTile (h : TileH) : TileH :=
  { evs := h.evs, good := h.good, missSeen := h.missSeen, missCnt := h.missCnt, fresh := h.fresh, aux12 := h.aux12, defs := h.defs,
    defsUse := h.defs, tdcCals := h.tdcCals, lastHeat := h.lastHeat, lastFrame := h.lastFrame, missUp := h.missUp,
    railCode := h.railCode }

/-- What of a host port an engine reset keeps: its link and configuration space (R539). -/
def HpH.kept (h : HpH) : HpH := { msixEn := h.msixEn, fmask := h.fmask, sent := h.sent, lastVec := h.lastVec }

/-- Controller bits the tiles lose with the controller: RUN and MUTE, and the link's part of `TLn_LINK_STATUS`. -/
def State.tilesAlone (s : State) : State :=
  forUpto 16 (fun t s =>
    let s := s.setReg (Reg.tlLinkStatus t) (s.reg (Reg.tlLinkStatus t) &&& 0x0000FF18#32)
    let s := forUpto 8 (fun l s => ((s.setBit (laneReg (t * 8 + l)) 7 false).setBit (laneReg (t * 8 + l)) 6 false).setHold
      (t * 8 + l) hcMute false 0) s
    (s.tileEval t 0).showFault t) s

/-- The hold causes injected under factory test end with it (R369, R385). -/
def State.injectionsEnd (s : State) : State :=
  (s.lanes.filter fun p => !p.2.injected.isEmpty).foldl (fun s p =>
    p.2.injected.foldl (fun s c => s.setHold p.1 c.1 false 0) s) s

/-- The block with every part but the collector in reset, and the registers `keep` names as they stand: memories with check bits are zero
(R536 step 3), nothing is queued, scheduled or open, and the tiles are on their own. -/
def State.blocksReset (s : State) (keep : Nat → Bool) : State :=
  let s := s.injectionsEnd
  let b : State :=
    { regs := s.regs.filter fun p => keep p.1, hold := s.hold, straps := s.straps, pins := s.pins, fc := s.fc,
      hp := s.hp.map fun p => (p.1, p.2.kept), otp := s.otp, otpBad := s.otpBad, dieOver := s.dieOver,
      lanes := s.lanes.map fun p => (p.1, p.2.inTile), tiles := s.tiles.map fun p => (p.1, p.2.inTile),
      freeCtr := s.freeCtr, pending := s.pending }
  let b := { b with hp := b.hp.filter (·.2 != ({} : HpH)), lanes := b.lanes.filter (·.2 != ({} : LaneH)),
                    tiles := b.tiles.filter (·.2 != ({} : TileH)) }
  let b := forUpto 3 (fun p b => b.setReg (Reg.hpStatus p) (b.reg (Reg.hpStatus p) &&& 0x000001F3#32)) b
  b.tilesAlone

/-- The collector as an engine reset leaves it: its own oscillator, SEQ, and what the registers of R481 say; every shadow, block reset
and interrupt hold-off ends. -/
def FcH.kept (h : FcH) : FcH := { seq := h.seq, oscStopped := h.oscStopped, running := h.running }

/-- Steps 2 to 4 of R536: the SSV is in the ROM, warm-up follows WARMUP_EN, and the link training window is open. -/
def State.romStart (s : State) : State :=
  let cfg := s.otpWord 2
  let s := s.setBit Reg.gblMode 6 s.straps.warmupEn
  let s := s.setBit Reg.gblMode 17 (s.straps.ftmEn && !bitAt cfg 3)
  let s := s.setBit Reg.lpGctrl 0 (bitAt cfg 1)
  let s := s.setReg Reg.coreSsvStatus 0x9#32
  { s.setReg Reg.coreBootStatus 0x02000300#32 with hold := .run }

/-- The engine reset of R539. -/
def State.engineReset (s : State) : State :=
  let s := s.tilesSafe.blocksReset fun off => resetKeeps off || fcKeeps off
  let s := s.setReg Reg.fcStatus (s.reg Reg.fcStatus &&& 0x80#32)
  State.romStart { s with fc := s.fc.kept }

/-- ENGINE_RESET: 10 µs after a collector ENGINE_RESET or an accepted software reset. -/
def execEngineReset (s : State) : Host.Outcome State Fault Refusal :=
  act s fun s => if s.fc.engReset then s.engineReset else s

/-! ### Power (R528, R536, R586) -/

/-- `GBL_STRAPS` (R559). -/
def strapWord (x : Straps) (ftmDis : Bool) : Word :=
  let b (v : Bool) (i : Nat) : Nat := if v then 2 ^ i else 0
  BitVec.ofNat 32 (x.engineId.toNat * 2 ^ 8 + b x.ftmEn 6 + b (x.ftmEn && !ftmDis) 5 + b x.warmupEn 4 + b x.wupSrc 3 + x.bootSrc.toNat)

/-- POWER_ON: power-good is released with these straps; the collector and the SSV run, and every memory is clear (R536 steps 1 to 4). -/
def execPowerOn (straps : Straps) (s : State) : Host.Outcome State Fault Refusal :=
  actAlways s fun s =>
    let s := s.tilesSafe.blocksReset fun off => inTiles off && tileKeeps ((off - 0x100000) % 0x4000)
    let s := { s with straps := straps, fc := {}, hp := [], dieOver := 0 }
    let s := s.setReg Reg.gblStraps (strapWord straps (bitAt (s.otpWord 2) 3))
    let s := (s.setReg Reg.gblDevIdLo (s.otpWord 0)).setReg Reg.gblDevIdHi (s.otpWord 1)
    s.romStart

/-- POWER_FAIL: the controller is held in power-on reset, and the collector state is lost; every tile goes safe, by its TILE_SAFE_n and
by its link (R314, R586). -/
def execPowerFail (s : State) : Host.Outcome State Fault Refusal :=
  actAlways s fun s =>
    let s := s.tilesSafe.blocksReset fun off => inTiles off && tileKeeps ((off - 0x100000) % 0x4000)
    let s := { s with hold := .power, fc := { running := false }, hp := [], dieOver := 0 }
    forUpto 16 (fun t s => ((s.holdTile t hcLink true 0xC0).relaysOff t).showFault t) s

/-! ### Software reset (R561 to R563) -/

/-- The key sequence is complete: refused to a host port while the VA flag is set; else the request is recorded, TILE_SAFE_n asserted, and
the reset awaited, unless one is already. -/
def State.softReset (s : State) (m : Master) : State :=
  let port? : Option Nat := match m with
    | .host p => some p.val
    | _ => none
  if port?.isSome && s.vaFlag then
    (s.setBit Reg.gblResetInfo 8 true).emit 217 0x30 (syn16 0x30 (port?.getD 0) 0)
  else if s.fc.engReset then s
  else
    let s := match m with
      | .host p => (s.putF Reg.gblResetInfo 2 0 2).putF Reg.gblResetInfo 6 5 p.val
      | .ssv => s.putF Reg.gblResetInfo 2 0 3
      | _ => (s.putF Reg.gblResetInfo 2 0 (fld s.freeVal 2 0)).take
    let s := s.putF Reg.gblResetInfo 31 16 (satInc 16 (s.getF Reg.gblResetInfo 31 16))
    State.tilesSafe { s with fc := { s.fc with engReset := true } }

/-- SOFTWARE_RESET_KEY: a write of `GBL_RESET`. -/
def execSoftwareResetKey (m : Master) (v : Word) (s : State) : Host.Outcome State Fault Refusal :=
  act s fun s => s.gated m Reg.gblReset fun s =>
    let now := s.pacer.ns.toNat
    let second : Bool := match s.key with
      | some (k, t) => v == 0x0000C3A5#32 && k == m && now ≤ t + 1000000
      | none => false
    let s := { s with key := if v = 0x00005A3C#32 then some (m, now) else none }
    if second then s.softReset m else s

/-! ### Locks (R564) -/

/-- Every lock bit but the tiles' RIND_LOCK, in one cycle. -/
def State.lockAll (s : State) : State :=
  let s := (s.setBit Reg.fcLock 0 true).setBit Reg.mxLock 0 true
  let s := (s.setBit Reg.coreLock 0 true).setBit Reg.gblHpLock 0 true
  ((s.setBit Reg.gblVoteCfg 31 true).setBit Reg.lpGctrl 31 true).setBit Reg.gblLock 0 true

/-- GBL_LOCK_WRITE: only the baton owner and the SSV set ALL. -/
def execGblLockWrite (m : Master) (v : Word) (s : State) : Host.Outcome State Fault Refusal :=
  act s fun s => s.gated m Reg.gblLock fun s =>
    let by_ : Bool := match m with
      | .host _ => true
      | .ssv => true
      | _ => false
    if by_ && bitAt v 0 then s.lockAll else s

/-- GBL_SYS_CTRL_WRITE: only the SSV sets REMAP (R506, R560). -/
def execGblSysCtrlWrite (m : Master) (v : Word) (s : State) : Host.Outcome State Fault Refusal :=
  act s fun s => s.ssvOnly m fun s => s.rawWrite Reg.gblSysCtrl v

/-! ### The controller's temperature (R599) -/

/-- A threshold at `limit` °C: in force from it, until 5 K below it. -/
def thermalBit (was : Bool) (limit t : Int) : Bool := if limit ≤ t then true else if t < limit - 5 then false else was

/-- DIE_TEMPERATURE_CROSSING: the junction is at `celsius` °C. -/
def execDieTemperatureCrossing (celsius : BitVec 16) (s : State) : Host.Outcome State Fault Refusal :=
  actAlways s fun s =>
    if s.hold = .power then s
    else
      let t := celsius.toInt
      let was (i : Nat) : Bool := s.dieOver.getLsbD i
      let now (i : Nat) : Bool := thermalBit (was i) (100 + 10 * (i : Int)) t
      let s := { s with dieOver := BitVec.ofNat 3 ((if now 0 then 1 else 0) + (if now 1 then 2 else 0) + (if now 2 then 4 else 0)) }
      let ev (s : State) (b : Bool) (code : Nat) : State := if b then s.emit 228 code (syn16 code 0 celsius.toNat) else s
      let s := ev s (now 0 && !was 0) 0x01
      let s := ev s (now 1 && !was 1) 0x02
      let s := ev s (now 2 && !was 2) 0x03
      ev s (was 0 && !now 0) 0x04

/-- THERMAL_SHUTDOWN: at 125 °C TILE_SAFE_n is asserted on every tile, and every block but the collector is held in reset. -/
def execThermalShutdown (s : State) : Host.Outcome State Fault Refusal :=
  act s fun s => { s.tilesSafe.blocksReset (fun off => resetKeeps off || inCollector off) with hold := .thermal }

/-- THERMAL_RELEASE: below 110 °C the reset is released, and an engine reset follows; which CAUSE it records the spec does not say. -/
def execThermalRelease (s : State) : Host.Outcome State Fault Refusal :=
  actAlways s fun s =>
    if s.hold ≠ .thermal then s
    else
      let s := (s.putF Reg.gblResetInfo 2 0 (fld s.freeVal 2 0)).take
      State.engineReset (s.putF Reg.gblResetInfo 31 16 (satInc 16 (s.getF Reg.gblResetInfo 31 16)))

end Sys2Proof.Machine
end

