-- ==== Sys2Proof/Machine/Boot.lean ====
section
/-! DEFINITION. Boot and warm-up (17_cores_boot_warmup.md): the end of the training window, firmware images from flash and from the host,
and the lane-defaults memory of the tiles. -/

namespace Sys2Proof.Machine

/-! ### The lane-defaults image (R540, R541) -/

/-- The ranges of one lane's fields. -/
def defsLaneOk (bs : List Byte) (l : Nat) : Bool :=
  let o := 16 + l * 16
  let f (off lo hi : Nat) : Bool := lo ≤ leAt bs (o + off) 2 && leAt bs (o + off) 2 ≤ hi
  let g := signed 16 (leAt bs (o + 2) 2)
  leAt bs o 1 < 8 && leAt bs (o + 1) 1 == 0 && decide (-12000 ≤ g) && decide (g ≤ 0) && f 4 2000 16000 && f 6 20 20000 &&
    f 8 100 1700 && f 10 100 12000 && f 12 10 500 && f 14 10 2000

/-- A lane with WUP set has MODE 0 while RAIL_NOM exceeds 60.0 V (R304). -/
def defsHot (bs : List Byte) (l : Nat) : Bool :=
  let fl := leAt bs (16 + l * 16) 1
  fl.testBit 0 && !fl.testBit 1 && 600 < leAt bs 4 2

/-- The conditions under which a tile stores an image. -/
def defsStorable (bs : List Byte) : Bool :=
  defsSound bs && bondRange (BitVec.ofNat 32 (leAt bs 3 1)) && 240 ≤ leAt bs 4 2 && leAt bs 4 2 ≤ 1650 &&
    90 ≤ leAt bs 6 1 && leAt bs 6 1 ≤ 150 && zerosAt bs 7 9 && zerosAt bs 144 108 &&
    (List.range 8).all fun l => defsLaneOk bs l && !defsHot bs l

/-- TL_DEF_COMMIT: the SSV writes `TLn_DEF_CTRL` (R541). -/
def execTlDefCommit (m : Master) (t : Fin 16) (v : Word) (s : State) : Host.Outcome State Fault Refusal :=
  act s fun s => s.ssvOnly m fun s =>
    let r := Reg.tlDefCtrl t.val
    if bitAt v 0 && !s.bit r 1 then (s.setBit r 1 true).setBit r 2 false else s

/-- TL_DEF_STORE_DONE: the tile stores the image, for its next power-up or engine reset, or stores nothing and sets CRC_BAD. -/
def execTlDefStoreDone (t : Fin 16) (s : State) : Host.Outcome State Fault Refusal :=
  act s fun s =>
    let t := t.val
    let r := Reg.tlDefCtrl t
    if !s.bit r 1 then s
    else
      let img := (List.range 64).flatMap fun w => leBytes 4 (s.reg (Reg.tlDef t w)).toNat
      let s := s.setBit r 1 false
      if defsStorable img then s.setTile t { s.tileAt t with defs := img } else s.setBit r 2 true

/-! ### The end of the training window (R20, R538, R542) -/

/-- A port with a trained link is marked present. -/
def State.markPresent (s : State) (p : TileProbe) : State :=
  let t := p.tile.val
  let r := Reg.tlLinkStatus t
  let s := ((s.setBit r 0 true).setBit r 1 true).setBit r 2 true
  let s := (s.setReg (Reg.tlTileId t) p.id).setReg (Reg.tlPresOfs t) (BitVec.ofNat 32 p.ofs.toNat)
  s.setTile t { s.tileAt t with upMiss := 0 }

/-- The SSV's checks of one present tile; whether it passes. -/
def State.tileCheck (s : State) (p : TileProbe) : State × Bool :=
  let t := p.tile.val
  let img := (s.tileAt t).image
  let bad := p.corrupt || !defsSound img
  let s := if bad then
      (s.setTile t { s.tileAt t with defsBad := true, defsUse := deliveredImage }).emit (128 + t) 0xC9 (tileSyn 0xC9 0xFF 0)
    else (s.setTile t { s.tileAt t with defsBad := false, defsUse := img }).rindDefaults t img
  let low := p.rail.toNat < fld (resetWord (Reg.tlRailUv t)) 15 0
  let high := fld (resetWord (Reg.tlRailOv t)) 15 0 < p.rail.toNat
  let s := if high then s.railCause t hcOv 0xC3 p.rail.toNat else if low then s.railCause t hcUv 0xC4 p.rail.toNat else s
  (s.showFault t, fld p.id 15 0 == 0x9108 && !bad && !low && !high)

/-- The first byte of the warm-up area's receive ring (R543). -/
def wupRingBase : Word := BitVec.ofNat 32 (0x07FF0000 + Config.wupRing % 1024 * 64)

/-- The SSV brings the emergency port up, unless the host has enabled it; its stream takes a converter with L = 32, A = 512. -/
def State.wupPort (s : State) : State :=
  let up (s : State) (n : Nat) (rate : Nat) (chans : Nat) : State :=
    match s.asrcTake n chans (if n < 16 then 1 else 2) 1 rate 512 with
    | some s => { s with wupPath := true }
    | none => s
  if s.straps.wupSrc then
    if s.bit (Reg.aesRxCfg 0) 0 then s
    else
      let s := (s.setReg (Reg.aesRxRingBase 0) wupRingBase).setReg (Reg.aesRxRingCfg 0) 8#32
      let s := up s 16 (s.aesRate 0) 2
      s.aesRxCfgWrite 0 (setBitAt (s.reg (Reg.aesRxCfg 0)) 0 true)
  else if s.bit (Reg.tdmCtrl 0) 0 then s
  else
    let s := (s.setReg (Reg.tdmRxRingBase 0) wupRingBase).setReg (Reg.tdmRxRingCfg 0) 8#32
    let s := ((s.putF (Reg.tdmChMax 0) 5 0 1).setReg (Reg.tdmRxMaskNext 0) 1#32).setReg (Reg.tdmRxMask 0) 1#32
    let s := up s 0 2 1
    (s.setBit (Reg.tdmCtrl 0) 0 true).tdmRxOn 0

/-- Every present tile runs in warm-up, and the warm-up lanes of those that pass start under R311; a lane whose defaults give MODE 0 with
more than 60.0 V does not (R304). -/
def State.wupStart (s : State) (pass : List Nat) : State :=
  let s := s.wupPort
  let s := s.presentTiles.foldl (fun s t => s.setBit (Reg.tlLinkStatus t) 5 true) s
  (s.warmLanes.filter fun n => pass.contains (n / 8) && !defsHot (s.defImage (n / 8)) (n % 8)).foldl (fun s n =>
    s.setLane n { s.laneAt n with run := true }) s

/-- LINK_TRAINING_WINDOW_END: the ports in `probes` carry a trained link and are marked present, the others absent; the SSV reads the OTP,
checks each present tile and releases its TILE_SAFE_n, and warm-up starts. -/
def execLinkTrainingWindowEnd (probes : List TileProbe) (s : State) : Host.Outcome State Fault Refusal :=
  act s fun s =>
    if 3 ≤ s.getF Reg.coreBootStatus 31 24 then s
    else
      let s := s.otpTouch 0 2048
      let s := probes.foldl (fun s p => s.markPresent p) s
      let (s, pass) := probes.foldl (fun (a : State × List Nat) p =>
        let (s, ok) := a.1.tileCheck p
        (s, if ok then p.tile.val :: a.2 else a.2)) (s, [])
      let s := s.presentTiles.foldl (fun s t => s.tileSafeOff t) s
      let s := if s.wup then s.wupStart pass else s
      s.putF Reg.coreBootStatus 31 24 (if s.straps.bootSrc = 3#2 then 7 else 4)

/-! ### Firmware images (R529 to R532) -/

abbrev fwFlags (bs : List Byte) : Nat := leAt bs 6 2
abbrev fwSsvLen (bs : List Byte) : Nat := leAt bs 16 4
abbrev fwAcLen (bs : List Byte) (n : Nat) : Nat := leAt bs (24 + 4 * n) 4
abbrev fwAcEntry (bs : List Byte) (n : Nat) : Nat := leAt bs (40 + 4 * n) 4

def fwSigned (bs : List Byte) : Bool := (fwFlags bs).testBit 0

/-- The header is well formed, for an SSV region of `region` bytes. -/
def fwFormed (region : Nat) (bs : List Byte) : Bool :=
  256 ≤ bs.length && leAt bs 0 4 == 0x4D424657 && leAt bs 4 2 == 1 && fwFlags bs < 4 && leAt bs 8 4 < 128 && leAt bs 12 1 < 16 &&
    zerosAt bs 13 3 && fwSsvLen bs % 4 == 0 && 4 ≤ fwSsvLen bs && fwSsvLen bs ≤ region && leAt bs 20 4 < region &&
    ((List.range 4).all fun n => fwAcLen bs n ≤ 0x40000 && fwAcEntry bs n < 0x40000) && zerosAt bs 56 8 &&
    (fwSigned bs || zerosAt bs 160 96)

def fwLength (bs : List Byte) : Nat := 256 + fwSsvLen bs + ((List.range 4).map (fwAcLen bs)).sum

/-- FW_MIN_VER is the number of its bits that are set. -/
def State.fwMinVer (s : State) : Nat :=
  ((List.range 4).map fun i => ((List.range 32).filter fun b => bitAt (s.otpWord (56 + i)) b).length).sum

/-- The key of an image is one of the two of the OTP, and not revoked. -/
def State.fwKeyOk (s : State) (bs : List Byte) : Bool :=
  let hash := sha384 ((bs.drop 64).take 96)
  (hash == s.otpBytes 16 12 && !bitAt (s.otpWord 52) 0) || (hash == s.otpBytes 28 12 && !bitAt (s.otpWord 52) 1)

/-- Why the ROM refuses an image (R531, R551), none where it accepts it: 1 format, 2 length, 3 key, 4 signature, 5 rollback, 6 unsigned,
7 flash read. -/
def State.fwRefusal (s : State) (readOk : Bool) (bs : List Byte) : Option Nat :=
  if !readOk then some 7
  else if !fwFormed (s.getF Reg.mxCsramSsv 20 0) bs then some 1
  else if bs.length ≠ fwLength bs then some 2
  else if !fwSigned bs && bitAt (s.otpWord 2) 0 then some 6
  else if fwSigned bs && !s.fwKeyOk bs then some 3
  else if fwSigned bs && !ecdsa384 ((bs.drop 64).take 96) ((bs.drop 160).take 96) (bs.take 160 ++ bs.drop 256) then some 4
  else if leAt bs 8 4 < s.fwMinVer then some 5
  else none

/-- Bytes loaded into a memory from its first. -/
def loadBytesAt0 (m : Sparse Byte) (bs : List Byte) : Sparse Byte :=
  ((bs.zipIdx.filter fun p => p.1 != 0#8).map fun p => (p.2, p.1)) ++ m.filter fun p => bs.length ≤ p.1

/-- Where core SRAM lies for every master (R509), and the tightly coupled memory of an application core. -/
abbrev csramBase : Nat := 0x10100000
abbrev tcmBase : Nat := 0x30000000

/-- An accepted image is loaded and runs: REMAP is set, the SSV is at its entry, and each application core with an image starts (R536
step 8). `image` is 0 primary, 1 secondary, 2 host. -/
def State.fwBoot (s : State) (bs : List Byte) (image : Nat) : State :=
  let ssv := (bs.drop 256).take (fwSsvLen bs)
  let s := { s with csram := loadBytesAt0 s.csram ssv,
                    csramH := { s.csramH with bad := s.csramH.bad.filter fun e => ssv.length < e.word * 8 + 8 } }
  let s := forUpto 4 (fun n s =>
    let len := fwAcLen bs n
    if len = 0 then s
    else
      let from_ := 256 + fwSsvLen bs + ((List.range n).map (fwAcLen bs)).sum
      let h := s.coreAt n
      let s := s.setCore n { h with tcm := loadBytesAt0 h.tcm ((bs.drop from_).take len), pc := BitVec.ofNat 32 (tcmBase + fwAcEntry bs n) }
      ((s.setBit (Reg.coreAcCtrl n) 0 true).setBit (Reg.coreAcStatus n) 0 true).setBit (Reg.coreAcStatus n) 1 false) s
  let s := s.setCore 4 { s.coreAt 4 with pc := BitVec.ofNat 32 (csramBase + leAt bs 20 4) }
  let s := (s.setBit Reg.gblSysCtrl 0 true).setBit Reg.coreSsvStatus 3 false
  let s := s.setReg Reg.coreFwVersion (BitVec.ofNat 32 (leAt bs 8 4 % 128))
  let s := ((s.putF Reg.coreBootStatus 31 24 6).putF Reg.coreBootStatus 9 8 image).setBit Reg.coreBootStatus 7 (fwSigned bs)
  if fwSigned bs then s else s.emit 229 0x04 (syn16 0x04 0 0)

/-- The OTP words the ROM reads to judge an image. -/
def State.fwOtp (s : State) : State := ((s.otpTouch 2 1).otpTouch 16 24).otpTouch 52 8

/-- A refusal: event 0x01 with its reason. -/
def State.fwRefused (s : State) (r : Nat) : State :=
  (s.putF Reg.coreBootStatus 23 16 r).emit 229 0x01 (syn16 0x01 0 r)

/-- FIRMWARE_BOOT: image `which` of the boot order has been read (R529): the primary and secondary of one flash, or of both. -/
def execFirmwareBoot (img : FwImage) (s : State) : Host.Outcome State Fault Refusal :=
  act s fun s =>
    let stage := s.getF Reg.coreBootStatus 31 24
    let k := img.which.val
    let count := if s.straps.bootSrc = 2#2 then 4 else 2
    if (stage ≠ 4 ∧ stage ≠ 5) ∨ s.straps.bootSrc = 3#2 ∨ count ≤ k then s
    else
      let s := (if img.readOk then s.fwOtp else s).corePend 4 6
      match s.fwRefusal img.readOk img.bytes with
      | none =>
        let s := s.fwBoot img.bytes (k % 2)
        if k = 0 then s else s.emit 229 0x02 (syn16 0x02 0 k)
      | some r =>
        let s := (s.fwRefused r).putF Reg.coreBootStatus 31 24 5
        if k + 1 < count then s else (s.putF Reg.coreBootStatus 31 24 7).emit 229 0x03 (syn16 0x03 0 0)

/-- CORE_HOSTBOOT_GO: in the service loop the ROM checks the image the host has written into the vat and boots it; at any other time GO is
discarded. -/
def execCoreHostbootGo (m : Master) (v : Word) (s : State) : Host.Outcome State Fault Refusal :=
  act s fun s => s.gated m Reg.coreHostboot fun s =>
    let s := s.rawWrite Reg.coreHostboot (setBitAt v 31 false)
    if !bitAt v 31 ∨ s.getF Reg.coreBootStatus 31 24 ≠ 7 then s
    else
      let a := s.getF Reg.coreHostboot 26 0
      let n := s.getF Reg.coreHostbootLen 20 0
      let bs := s.vatBytes a n
      let s := (s.vatTouch .ssv a n).fwOtp
      match s.fwRefusal true bs with
      | none => s.fwBoot bs 2
      | some r => s.fwRefused r

end Sys2Proof.Machine
end

