-- ==== Sys2Proof/Machine/PacerOps.lean ====
section
/-! DEFINITION. The pacer (02_pacer_heats_clocks.md): its arithmetic, its discipline state machine and its steps. -/

namespace Sys2Proof.Machine

/-! ### States and events (R51, R603) -/

abbrev pcFree : Nat := 0
abbrev pcAcquire : Nat := 1
abbrev pcLocked : Nat := 2
abbrev pcHoldover : Nat := 3
abbrev pcStepping : Nat := 4

def State.pcrSt (s : State) : Nat := s.getF Reg.pcrStatus 2 0

/-- A new state of the pacer; runs of offsets inside and outside the window count from it (R51). -/
def State.setPcrSt (s : State) (st : Nat) : State :=
  ({ s with pacer := { s.pacer with inSince := none, outSince := none } }).putF Reg.pcrStatus 2 0 st
def State.discSrc (s : State) : Nat := s.getF Reg.pcrCtrl 1 0

/-- An event of source 194, with the island for code 0x0F. -/
def State.pacerEvent (s : State) (code island : Nat) : State :=
  s.emit 194 code (syn8 code s.discSrc island s.pcrSt)

/-! ### Arithmetic (R44, R48, R52, R54) -/

/-- The frequency adjustment in force, in units of 10^-12. -/
def State.adjFreq (s : State) : Int := (s.reg Reg.pcrAdjFreq).toInt

/-- ±500 ppm in units of 10^-12. -/
abbrev fLimit : Int := 500000000

/-- The slew rate taken, 1 to 100 ppm, in units of 10^-12 ns a cycle. -/
def State.slewRate (s : State) : Int := ((clampNat 1 100 (s.getF Reg.pcrSlewRate 15 0) * 1000000 : Nat) : Int)

/-- The total adjustment f of the next cycle in units of 10^-12, what the cycle removes of the outstanding slew, and whether f is
clamped. -/
def State.pacerF (s : State) : Rat × Int × Bool :=
  if s.pcrSt = pcHoldover then (s.pacer.frozen, 0, false)
  else
    let a := s.adjFreq
    let want := a + clampInt (-s.slewRate) s.slewRate s.pacer.slew
    let f := clampInt (-fLimit) fLimit want
    ((f : Rat), f - a, f != want)

/-- The 32.32 increment of a cycle, 1 ns × (1 + f). -/
def pacerInc (f : Rat) : Nat :=
  let q := (2 ^ 32 : Rat) + (2 ^ 32 : Rat) * f / 1000000000000
  (q.floor + (if q = (q.floor : Rat) then 0 else if Config.incRoundUp f then 1 else 0)).toNat

/-- The pacer in units of 2^-32 ns. -/
def State.pacerVal (s : State) : Nat := s.pacer.ns.toNat * 2 ^ 32 + s.pacer.frac.toNat

/-- `k` cycles at the present f. -/
def State.pacerCycles (s : State) (k : Nat) : State :=
  let (f, rem, clamped) := s.pacerF
  let v := s.pacerVal + k * pacerInc f
  let p := { s.pacer with ns := BitVec.ofNat 64 (v / 2 ^ 32), frac := BitVec.ofNat 32 v, slew := s.pacer.slew - k * rem }
  let s := { s with pacer := p }
  if clamped then s.setBit Reg.pcrStatus 4 true else s

/-- Cycles until the count reaches `goal` in units of 2^-32 ns; f changes at most twice on the way, when the slew ends. -/
def State.pacerTo (goal : Nat) : Nat → State → State
  | 0, s => s
  | n + 1, s =>
    if goal ≤ s.pacerVal then s
    else
      let (f, rem, _) := s.pacerF
      let need := ceilDiv (goal - s.pacerVal) (pacerInc f)
      let k := if rem = 0 then need else min need (max 1 (s.pacer.slew.natAbs / rem.natAbs))
      State.pacerTo goal n (s.pacerCycles k)

/-- The cycles up to the next millisecond boundary of the count (R58); none when it stands on one, unless `past`. -/
def State.pacerToHeat (s : State) (past : Bool) : State :=
  let ns := s.pacer.ns.toNat
  let h := if past then ns / 1000000 + 1 else if s.pacer.frac = 0#32 then ceilDiv ns 1000000 else ns / 1000000 + 1
  State.pacerTo (h * 1000000 * 2 ^ 32) 4 s

/-- One cycle of the pacer clock, unless it would cross into the next heat, which HEAT_BOUNDARY does. -/
def State.pacerIdle (s : State) : State :=
  let s' := s.pacerCycles 1
  if s'.heat = s.heat then s' else s

/-- What the block does when no command waits: one cycle of the pacer clock while the controller runs (R46). -/
def State.idle (s : State) : State := if s.hold = .run then s.pacerIdle else s

/-- `PCR_SLEW_LEFT`: the outstanding slew in whole ns, what is held pending included (R54). -/
def State.slewLeft (s : State) : Word := BitVec.ofInt 32 (s.pacer.slew.tdiv 1000000000000 + s.pacer.pendSlew)

/-! ### Discipline (R50, R51, R52) -/

/-- f is averaged over the last 16 s. -/
def State.fAverage (s : State) : Rat :=
  let n := (s.pacer.fHist.map (·.2)).sum
  if n = 0 then s.pacerF.1 else (s.pacer.fHist.map fun x => x.1 * (x.2 : Rat)).sum / (n : Rat)

/-- Runs of (f, heats), cut to `n` heats. -/
def cutRuns : Nat → List (Rat × Nat) → List (Rat × Nat)
  | _, [] => []
  | n, (f, k) :: t => if n = 0 then [] else (f, min k n) :: cutRuns (n - k) t

/-- A heat's f joins the last 16,000. -/
def State.fNote (s : State) : State :=
  let f := s.pacerF.1
  let hs := match s.pacer.fHist with
    | (g, k) :: t => if g = f then (g, k + 1) :: t else (f, 1) :: (g, k) :: t
    | [] => [(f, 1)]
  { s with pacer := { s.pacer with fHist := cutRuns 16000 hs } }

/-- An offset is reported in `PCR_SERVO_OFFSET` (R49), and a run of offsets inside, or outside, ±THRESH goes on or begins. -/
def State.reportOffset (s : State) (v : Word) : State :=
  let t := s.pacer.ns.toNat
  let p := s.pacer
  let p := if v.toInt.natAbs ≤ s.getF Reg.pcrLockCfg 15 0 then { p with inSince := some (p.inSince.getD t), outSince := none }
    else { p with inSince := none, outSince := some (p.outSince.getD t) }
  { s with pacer := p }.setReg Reg.pcrServoOffset v

/-- A run that began at `since` has lasted LOCK_S seconds (R51). LOCK_S 0, which is outside its range, is used as written (log entry 138). -/
def State.ranLong (s : State) (since : Option Nat) : Bool :=
  match since with
  | some t => t + s.getF Reg.pcrLockCfg 23 16 * 1000000000 ≤ s.pacer.ns.toNat
  | none => false

/-- The discipline source selected is usable (R50), its island and the pacer's in tolerance (R71). -/
def State.discUsable (s : State) : Bool :=
  let d := s.discSrc
  !s.islOut.getLsbD 7 &&
    (if d = 0 then false
     else if d = 3 then s.bit Reg.pcrStatus 5 && s.bit Reg.pcrStatus 6 && !s.islOut.getLsbD 79
     else if s.getF Reg.pcrCtrl 15 8 = 0 then s.pacer.ptpSince else s.pacer.ptpOk)

def State.holdForce (s : State) : Bool := s.bit Reg.pcrCtrl 6

/-- HOLDOVER begins: f is frozen at its 16 s average. -/
def State.enterHoldover (s : State) : State :=
  ({ s with pacer := { s.pacer with frozen := s.fAverage } }).setPcrSt pcHoldover

/-- HOLDOVER ends: what was held pending applies. -/
def State.leaveHoldover (s : State) (st : Nat) : State :=
  let p := { s.pacer with slew := s.pacer.slew + s.pacer.pendSlew * 1000000000000, pendSlew := 0 }
  ({ s with pacer := p }).setPcrSt st

/-- The transitions of R51 that follow from the source and HOLD_FORCE. -/
def State.discipline (s : State) : State :=
  let st := s.pcrSt
  let ok := s.discUsable && !s.holdForce
  if st = pcFree then (if ok then s.setPcrSt pcAcquire else s)
  else if st = pcAcquire ∨ st = pcLocked then (if ok then s else s.enterHoldover.pacerEvent 0x03 0)
  else if st = pcHoldover then (if ok then s.leaveHoldover pcAcquire else s)
  else s

/-- A correction joins the outstanding slew, or waits in HOLDOVER. -/
def State.addSlew (s : State) (ns : Int) : State :=
  if s.pcrSt = pcHoldover then { s with pacer := { s.pacer with pendSlew := s.pacer.pendSlew + ns } }
  else { s with pacer := { s.pacer with slew := s.pacer.slew + ns * 1000000000000 } }

/-- A write of `PCR_CTRL`: a change of DISC_SRC takes LOCKED to ACQUIRE, and PTP waits for a fresh offset (R50, R51). -/
def State.pcrCtrlWrite (s : State) (v : Word) : State :=
  let d := s.discSrc
  let s := s.rawWrite Reg.pcrCtrl v
  let s := if s.discSrc = d then s
    else
      let s := { s with pacer := { s.pacer with ptpSince := false } }
      if s.pcrSt = pcLocked then s.setPcrSt pcAcquire else s
  s.discipline

/-- A write of `PCR_ADJ_FREQ` is stored clamped (R48). In HOLDOVER it has no effect on f until the state leaves HOLDOVER (R52), and the
register reads the new value at once: the spec does not say what it reads until then (log entry 136). -/
def State.adjFreqWrite (s : State) (v : Word) : State :=
  let f := clampInt (-fLimit) fLimit v.toInt
  let s := s.setReg Reg.pcrAdjFreq (BitVec.ofInt 32 f)
  if f = v.toInt then s else s.setBit Reg.pcrStatus 4 true

/-- A write of `PCR_SLEW_RATE` reads back as the value taken. -/
def State.slewRateWrite (s : State) (v : Word) : State :=
  s.setReg Reg.pcrSlewRate (BitVec.ofNat 32 (clampNat 1 100 (fld v 15 0)))

/-- A 1PPS edge `off` ns from its expected time (R49, R50): counted in the seconds; with the reference input selected, reported, and
slewed out if it lies in the window. Outside the window it is a miss, and the third in a row makes 1PPS unusable. -/
def State.ppsEdge (s : State) (off : Word) : State :=
  let ref := s.discSrc == 3
  let s := s.set64 Reg.pcrRefSecLo Reg.pcrRefSecHi ((s.get64 Reg.pcrRefSecLo Reg.pcrRefSecHi + 1) % 0x1000000000000)
  let s := if ref then s.reportOffset off else s
  if s.getF Reg.pcrLockCfg 15 0 < off.toInt.natAbs then
    let n := s.pacer.ppsBad + 1
    let s := ({ s with pacer := { s.pacer with ppsBad := n } }).bump Reg.pcrRefMiss 32
    if 3 ≤ n then (s.setBit Reg.pcrStatus 6 false).discipline else s
  else
    let s := ({ s with pacer := { s.pacer with ppsBad := 0 } }).setBit Reg.pcrStatus 6 true
    (if ref then s.addSlew (-off.toInt) else s).discipline

/-! ### Steps (R53, R55 to R57) -/

/-- A refused or discarded step. -/
def State.stepRefused (s : State) : State := (s.setBit Reg.pcrStatus 3 true).pacerEvent 0x06 0

/-- A write of `PCR_STEP_HI` arms a step, or replaces the one armed. -/
def State.stepWrite (s : State) (hi : Word) : State :=
  let v := hi ++ s.reg Reg.pcrStepLo
  if !s.bit Reg.pcrCtrl 7 || s.vaFlag then s.stepRefused
  else
    let s' := s.setReg Reg.pcrStepHi hi
    match s.pacer.step with
    | none =>
      let s' := if s.pcrSt = pcHoldover then s'.leaveHoldover pcStepping else s'.setPcrSt pcStepping
      { s' with pacer := { s'.pacer with step := some { value := v } } }
    | some x =>
      if x.phase = .armed ∨ x.phase = .rampOut then { s' with pacer := { s'.pacer with step := some { x with value := v } } }
      else s.stepRefused

/-- What a jump discards (R55): blocks under way close with a time discontinuity, short where their format has the flag, and no block of the
old grid is left in the sources, the converters, the zones or the lane processors. Those of the PDM groups close at the boundary itself. -/
def State.discardBlocks (s : State) : State :=
  let mark (b : OpenBlk) : OpenBlk := { b with flags := b.flags ||| bfDisc ||| bfStep }
  let fresh (h : RxH) : RxH := { h with parts := [], frameIdx := 0, closed := none }
  let s := forUpto 16 (fun n s =>
    let h := s.tdmRxAt n
    let s := match h.blk with
      | some b => (s.setTdmRx n { h with blk := some (mark b) }).tdmClose n b.heat true
      | none => s
    s.setTdmRx n (fresh (s.tdmRxAt n))) s
  let s := forUpto 8 (fun n s =>
    let h := s.aesRxAt n
    let s := match h.blk with
      | some b => (s.setAesRx n { h with blk := some (mark b) }).aesClose n b.heat true
      | none => s
    s.setAesRx n (fresh (s.aesRxAt n))) s
  let s := forUpto 4 (fun n s => s.setPdm n (fresh (s.pdmAt n))) s
  let s := (s.flows.filter fun x => s.bit (Reg.pktRxfState x.1) 0).foldl (fun s x => s.flowClose x.1 (s.heat - 1) (bfDisc ||| bfStep)) s
  let s := s.flows.foldl (fun s x => s.setFlow x.1 { s.flowAt x.1 with buf := [], closed := none, arrived := none, mark := none }) s
  let s : State := { s with convs := s.convs.map fun (x : Nat × ConvH) => (x.1, { x.2 with hist := [], last := none }) }
  let s := s.srcs.foldl (fun s x => s.setSrc x.1 { s.srcAt x.1 with blks := [] }) s
  let s := s.mics.foldl (fun s x => s.setMic x.1 { s.micAt x.1 with blks := [] }) s
  let s := s.zones.foldl (fun s x => s.setZone x.1 { s.zoneAt x.1 with done := [] }) s
  let s := forUpto 16 (fun n s => s.setLp n { s.lpAt n with odone := 0, send := 0 }) s
  { s with pbus := [] }

/-- Step 3 of R55: the pacer value jumps, and what is in flight is discarded. -/
def State.stepJump (s : State) (x : StepH) : State :=
  let s := s.discardBlocks
  { s with pacer := { s.pacer with ns := s.pacer.ns + x.value, step := some { x with phase := .jumped } } }

/-- A heat boundary of the old grid at which the jump takes the place of a heat (R55, R57). -/
def State.atJump (s : State) : Bool :=
  match s.pacer.step with
  | some x => x.phase == .rampOut && (s.heat == x.h0 + if x.warm then 0 else 8)
  | none => false

/-- A step armed, or ramped in again, meets a heat boundary: the playing lanes ramp out at h0 unless the engine is in warm-up, and in
at step 5. A step armed during the crossover waits for its end (R549). -/
def State.stepHeat (s : State) : State :=
  match s.pacer.step with
  | none => s
  | some x =>
    match x.phase with
    | .armed =>
      if s.xover.active then s
      else
        let s' := { s with pacer := { s.pacer with step := some { x with phase := .rampOut, h0 := s.heat, warm := s.wup } } }
        if s.wup then s' else s'.lanesOut
    | .rampIn => if s.heat = x.h0 + 3 ∧ !x.warm then s.lanesIn else s
    | _ => s

/-- Step 6 of R55: normal service, with event 0x05. -/
def State.stepDone (s : State) : State :=
  let s := { s with pacer := { s.pacer with step := none } }
  ((s.setPcrSt pcAcquire).pacerEvent 0x05 0).discipline

/-! ### Machine timers (R524) -/

/-- The machine timer interrupt of a core is pending while the pacer is at or beyond its compare value. -/
def State.timerEval (s : State) (c : Nat) : State :=
  s.setCore c { s.coreAt c with timer := s.get64 (Reg.coreMtimecmpLo c) (Reg.coreMtimecmpHi c) ≤ s.pacer.ns.toNat }

def State.timersEval (s : State) : State := forUpto 5 (fun c s => s.timerEval c) s

end Sys2Proof.Machine
end

