-- ==== Sys2Proof/Machine/RingCmds.lean ====
section
/-! DEFINITION. The commands of the ring engine (14_rings_descriptors.md): doorbells, enabling and disabling rings, stalls, errors and
coalesced interrupts, NOP and BARRIER. -/

namespace Sys2Proof.Machine

/-! ### Doorbells (R412, R440, R441) -/

def engineProduced (t : Nat) : Bool := t == 2 || t == 4 || t == 5 || t == 6 || t == 7

/-- The ring lies inside an enabled window of the port. -/
def State.inWindow (s : State) (p r : Nat) : Bool :=
  (List.range 12).any fun k =>
    let w := s.reg (Reg.hpDbw p k)
    bitAt w 31 && fld w 14 0 ≤ r && r ≤ fld w 30 16

/-- The checks of R412, in order. -/
def State.doorbellOk (s : State) (p r : Nat) : Bool :=
  s.inWindow p r && s.ringPort r == p &&
    (s.owns p || s.ringType r == 1 || (s.shadowPair r).isSome || engineProduced (s.ringType r))

/-- A refused doorbell is counted, with event 0x24 once a heat (R412). -/
def State.refuseDoorbell (s : State) (p : Nat) : State :=
  let s := s.bump (Reg.hpDbRefCnt p) 32
  if s.baton.refSeen then s
  else ({ s with baton := { s.baton with refSeen := true } }).emit 217 0x24 (batonSyn 0x24 p 1)

/-- The index of a doorbell is in range (R441). -/
def State.doorbellRange (s : State) (r : Nat) (idx : Word) : Bool :=
  let c := s.reg (Reg.ringCons r)
  if engineProduced (s.ringType r) then (idx - c).toNat ≤ s.ringOcc r
  else s.ringOcc r ≤ (idx - c).toNat && (idx - c).toNat ≤ s.ringSize r

/-- A doorbell that passes moves the producer index of a host-produced ring, or returns entries of an engine-produced one. -/
def State.doorbellMove (s : State) (r : Nat) (idx : Word) : State :=
  if engineProduced (s.ringType r) then
    let n := (idx - s.reg (Reg.ringCons r)).toNat
    (s.setRing r { s.ringAt r with ents := (s.ringAt r).ents.drop n }).setReg (Reg.ringCons r) idx
  else s.setReg (Reg.ringProd r) idx

/-- The writer may ring the doorbell (R412). -/
def State.doorbellMay (s : State) (m : Master) (r : Nat) : Bool :=
  match m with
  | .host p => s.doorbellOk p.val r
  | m => s.may m (Reg.db r)

/-- The doorbell passes its checks and reaches an enabled ring with an index in range. -/
def State.doorbellTaken (s : State) (m : Master) (r : Nat) (idx : Word) : Bool :=
  s.doorbellMay m r && s.ringEn r && s.doorbellRange r idx

/-- The doorbell of ring `r` is rung with an index (R440). -/
def State.ringDoorbell (s : State) (m : Master) (r : Nat) (idx : Word) : State :=
  if !s.doorbellMay m r then
    match m with
    | .host p => s.refuseDoorbell p.val
    | m => s.refuseWrite m
  else if !s.ringEn r then s
  else if !s.doorbellRange r idx then
    ((s.setBit (Reg.ringStatus r) 5 true).bump Reg.rngDbBadCnt 32).emit 218 0x10 (ringSyn 0x10 (s.ringPort r) r)
  else s.doorbellMove r idx

/-! ### Enabling and disabling (R437, R438) -/

/-- The context may be enabled with the configuration `v` (R437). -/
def State.ringCfgOk (s : State) (v : Word) : Bool :=
  let t := fld v 27 24
  let l := fld v 14 0
  t ≤ 8 && 4 ≤ fld v 20 16 && fld v 20 16 ≤ 16 && fld v 23 22 != 3 &&
    (!(t == 0 || t == 1 || t == 8) || (s.ringEn l && s.ringType l == 2 && s.ringPort l == fld v 23 22))

/-- The stored bits of `RINGr_CFG`: bits [30:28] and [15] are reserved. -/
def ringCfgBits (v : Word) : Word := v &&& 0x8FFF7FFF#32

/-- The fields other than EN of a write while the ring is enabled: discarded, with CFG_BAD if they would change (R437). -/
def State.ringCfgKept (s : State) (n : Nat) (v : Word) : State :=
  if fld (ringCfgBits v ^^^ s.reg (Reg.ringCfg n)) 30 0 = 0 then s else s.setBit (Reg.ringStatus n) 6 true

/-- RING_ENABLE (R437): a write of `RINGr_CFG` with EN set. -/
def execRingEnable (m : Master) (r : Fin 32768) (v : Word) (s : State) : Host.Outcome State Fault Refusal :=
  act s fun s => s.gated m (Reg.ringCfg r.val) fun s =>
    let n := r.val
    if s.ringEn n then s.ringCfgKept n v
    else if !s.ringCfgOk v then
      (s.setReg (Reg.ringCfg n) (setBitAt (ringCfgBits v) 31 false)).setBit (Reg.ringStatus n) 6 true
    else
      let s := s.setReg (Reg.ringCfg n) (setBitAt (ringCfgBits v) 31 true)
      let s := ((s.setReg (Reg.ringProd n) 0).setReg (Reg.ringCons n) 0).setReg (Reg.ringInflight n) 0
      let s := ((s.putF (Reg.ringStatus n) 4 2 0).setBit (Reg.ringStatus n) 0 true).setRing n {}
      s.pairsFollow

/-- A ring named in the LINK of an enabled command, vote or frame-transmit ring. -/
def State.linked (s : State) (l : Nat) : Bool :=
  s.enabledRings.any fun r => (s.ringType r == 0 || s.ringType r == 1 || s.ringType r == 8) && s.ringLink r == l

/-- The fetched members of a ring's unclosed group complete NOT_READY_ABANDONED, with event 0x17 (R438). -/
def State.abandonGroup (s : State) (r : Nat) : State :=
  match (s.ringAt r).group.bind fun id => s.groups.find? (·.id == id) with
  | none => s
  | some g =>
    let s := ({ s with groups := s.groups.filter (·.id != g.id) }).showSched
    let s := s.setRing r { s.ringAt r with group := none }
    (g.members.foldl (fun s e => s.completeWith e s.heat stNotReady 0) s).emit 218 0x17 (ringSyn 0x17 (s.ringPort r) r)

/-- RING_DISABLE (R437, R438): a write of `RINGr_CFG` with EN clear. -/
def execRingDisable (m : Master) (r : Fin 32768) (v : Word) (s : State) : Host.Outcome State Fault Refusal :=
  act s fun s => s.gated m (Reg.ringCfg r.val) fun s =>
    let n := r.val
    if !s.ringEn n then s.setReg (Reg.ringCfg n) (setBitAt (ringCfgBits v) 31 false)
    else if s.ringType n == 2 && s.linked n then s.setBit (Reg.ringStatus n) 6 true
    else
      let s := ((s.ringCfgKept n v).abandonGroup n).setBit (Reg.ringCfg n) 31 false
      ((s.setBit (Reg.ringStatus n) 0 false).putF (Reg.ringStatus n) 4 2 0).pairsFollow

/-! ### Errors, stalls, interrupts -/

/-- A ring stops on an error: ERR is set, and the event is recorded in `RING_ERR_LAST` (R446). -/
def State.ringStop (s : State) (r code : Nat) : State :=
  let syn := ringSyn code (s.ringPort r) r
  (((s.setBit (Reg.ringStatus r) 4 true).setBit (Reg.ringStatus r) 0 false).setReg Reg.rngErrLast syn).emit 218 code syn

/-- RING_WRITE_ERROR (R446): a write to an engine-produced ring ends in error. -/
def execRingWriteError (r : Fin 32768) (s : State) : Host.Outcome State Fault Refusal :=
  act s fun s => if s.ringEn r.val && engineProduced (s.ringType r.val) then s.ringStop r.val 0x12 else s

/-- RING_STALL_LONG (R445): a ring stalled for 100 consecutive heats. -/
def execRingStallLong (r : Fin 32768) (s : State) : Host.Outcome State Fault Refusal :=
  act s fun s =>
    if s.ringEn r.val && decide (100 ≤ (s.ringAt r.val).stallHeats) then s.emit 218 0x14 (ringSyn 0x14 (s.ringPort r.val) r.val) else s

/-- IRQ_COALESCE_TIMEOUT (R460): CO_USEC × 8 µs after the first entry not yet signalled. -/
def execIrqCoalesceTimeout (r : Fin 32768) (s : State) : Host.Outcome State Fault Refusal :=
  act s fun s =>
    let h := s.ringAt r.val
    let due := h.coFrom + s.getF (Reg.ringIrq r.val) 31 24 * 8000
    if h.coRun && h.unsig != 0 && s.bit (Reg.ringIrq r.val) 15 && decide (due ≤ s.pacer.ns.toNat) then s.ringRaise r.val else s

/-! ### NOP and BARRIER (R465) -/

def nopRow : Row where
  blk := .other
  check _ d := firstBad [(restZero d 0, 0)]
  commit _ s := (s, resOk)

/-- NOP (R465): changes nothing and completes OK at its commit heat. -/
def execNop (ph : Phase) (o : Origin) (d : Body) (s : State) : Host.Outcome State Fault Refusal :=
  descCmd nopRow 0x0000 ph o d s

/-- Nothing of the ring is in flight but the barrier itself. -/
def State.barrierClear (s : State) (r : Nat) : Bool := s.getF (Reg.ringInflight r) 8 0 ≤ 1

def barrierRow : Row where
  blk := .now
  group := false
  check _ d := firstBad [(restZero d 0, 0)]
  commit e s :=
    match e.org with
    | .ring r _ =>
      if s.barrierClear r.val then (s, resOk) else (s.setRing r.val { s.ringAt r.val with barrier := some e }, .wait)
    | .core _ _ => (s, resOk)

/-- BARRIER (R465): holds further fetch from its ring until every earlier descriptor has completed. -/
def execBarrier (o : Origin) (d : Body) (s : State) : Host.Outcome State Fault Refusal := nowCmd barrierRow 0x0001 o d s

/-- BARRIER_RELEASE (R465): the last earlier descriptor of the ring has completed. -/
def execBarrierRelease (r : Fin 32768) (s : State) : Host.Outcome State Fault Refusal :=
  act s fun s =>
    match (s.ringAt r.val).barrier with
    | none => s
    | some e =>
      if s.barrierClear r.val then
        (s.setRing r.val { s.ringAt r.val with barrier := none }).completeWith e s.heat stOk 0
      else s

end Sys2Proof.Machine
end

