-- ==== Sys2Proof/Machine/Cores.lean ====
section
/-! DEFINITION. The control cores as the engine sees them (17_cores_boot_warmup.md): lockstep, watchdogs, timers, mailboxes and resets; the
OTP and the crypto unit; and the scrubbers (16_matrix_vat.md R513, R516, R517). -/

namespace Sys2Proof.Machine

/-! ### Lockstep and watchdogs (R521, R526) -/

/-- LOCKSTEP_MISMATCH: both SSV cores halt, and their outputs stay as they are. -/
def execLockstepMismatch (s : State) : Host.Outcome State Fault Refusal :=
  act s fun s =>
    if s.ssvHalted then s
    else
      let s := ((s.setBit Reg.coreSsvStatus 0 false).setBit Reg.coreSsvStatus 1 true).setBit Reg.coreSsvStatus 2 true
      s.emit 222 0x01 (syn16 0x01 0 0)

/-- CORE_WATCHDOG_EXPIRY: the watchdog of core `c`, the SSV being 4, runs out; it is timed by the collector oscillator. The heats since it was
last restarted measure its milliseconds, to the oscillator's 2 % (DESIGN CHOICE, log 145). -/
def execCoreWatchdogExpiry (c : Fin 5) (s : State) : Host.Outcome State Fault Refusal :=
  act s fun s =>
    let c := c.val
    if !s.bit (Reg.coreWdog c) 31 || s.fc.oscStopped || decide ((s.coreAt c).wdogHeats * 100 < s.getF (Reg.coreWdog c) 15 0 * 98) then s
    else
      let s := s.setCore c { s.coreAt c with kicks := 0, wdogHeats := 0 }
      if c = 4 then s.emit 229 0x05 (syn16 0x05 0 c) else s.emit (223 + c) 0x01 (syn16 0x01 0 c)

/-- CORE_KICK_WRITE: 0x0000_A5C3 restarts the watchdog. -/
def execCoreKickWrite (m : Master) (c : Fin 5) (v : Word) (s : State) : Host.Outcome State Fault Refusal :=
  act s fun s => s.gated m (Reg.coreKick c.val) fun s =>
    if v = 0x0000A5C3#32 then s.setCore c.val { s.coreAt c.val with kicks := (s.coreAt c.val).kicks + 1, wdogHeats := 0 } else s

/-! ### Timers (R524) -/

/-- MACHINE_TIMER: the pacer has come to the compare value of core `c`. -/
def execMachineTimer (c : Fin 5) (s : State) : Host.Outcome State Fault Refusal := act s fun s => s.timerEval c.val

/-- CORE_MTIME_LO_READ: the high word is frozen for the master. -/
def execCoreMtimeLoRead (m : Master) (s : State) : Host.Outcome State Fault Refusal :=
  act s fun s =>
    let ns := s.pacer.ns.toNat
    { s.latchWords m [Reg.coreMtimeHi] (fun _ => BitVec.ofNat 32 (ns / 2 ^ 32)) with rdata := BitVec.ofNat 32 ns }

/-! ### Mailboxes (R523, R552) -/

/-- CORE_MBOX_BELL: any write sets MBOX of core `c`. -/
def execCoreMboxBell (m : Master) (c : Fin 5) (s : State) : Host.Outcome State Fault Refusal :=
  act s fun s => s.gated m (Reg.coreMboxBell c.val) fun s => s.corePend c.val 2

/-- CORE_MBOX_RAISE: a write of `CORE_MBOXc_CTRL`; RAISE sends VECTOR to the owner's port while EN is set. -/
def execCoreMboxRaise (m : Master) (c : Fin 5) (v : Word) (s : State) : Host.Outcome State Fault Refusal :=
  act s fun s => s.gated m (Reg.coreMboxCtrl c.val) fun s =>
    let r := Reg.coreMboxCtrl c.val
    let s := s.rawWrite r (setBitAt v 31 false)
    if bitAt v 31 && s.bit r 15 && s.held then s.msix s.owner (s.getF r 10 0) else s

/-! ### Application cores (R478, R552) -/

/-- A write of `CORE_ACn_CTRL`: RUN starts or stops the core; RESET is a block reset under R478, unless one is in progress. -/
def State.acCtrlWrite (s : State) (n : Nat) (v : Word) : State :=
  let s := s.setReg (Reg.coreAcCtrl n) (v &&& 1#32)
  let s := s.setBit (Reg.coreAcStatus n) 0 (bitAt v 0 && !s.bit (Reg.coreAcStatus n) 1)
  if bitAt v 1 && !s.inReset (223 + n) then
    State.blockReset { s with fc := { s.fc with resets := (223 + n) :: s.fc.resets } } (223 + n)
  else s

def execCoreAcReset (m : Master) (n : Fin 4) (v : Word) (s : State) : Host.Outcome State Fault Refusal :=
  act s fun s => s.gated m (Reg.coreAcCtrl n.val) fun s => s.acCtrlWrite n.val v

/-! ### OTP (R534, R535) -/

/-- An OTP command has completed: bit 5 of the SSV's pending interrupts (R523). -/
def State.otpDone (s : State) : State := s.corePend 4 5

/-- The lock bit of the group a word lies in; none where no bit locks it. -/
def otpGroup (w : Nat) : Option Nat :=
  if w = 2 then some 0
  else if 16 ≤ w ∧ w < 28 then some 1
  else if 28 ≤ w ∧ w < 40 then some 2
  else if 40 ≤ w ∧ w < 52 then some 3
  else if w = 52 then some 4
  else if 56 ≤ w ∧ w < 60 then some 5
  else if 64 ≤ w ∧ w < 2048 then some (8 + (w - 64) / 248)
  else none

/-- A word of DEV_ID, or of a locked group. -/
def State.otpRefused (s : State) (w : Nat) : Bool :=
  w < 2 || match otpGroup w with
    | some k => bitAt (s.otpWord 3) k
    | none => false

/-- OTP_READ: the SSV reads the word `CORE_OTP_ADDR` names. -/
def execOtpRead (m : Master) (s : State) : Host.Outcome State Fault Refusal :=
  act s fun s => s.ssvOnly m fun s =>
    if s.bit Reg.coreOtpStatus 0 then s
    else
      let w := s.getF Reg.coreOtpAddr 12 2
      let s := (s.otpTouch w 1).setReg Reg.coreOtpCmd 1#32
      ((s.setReg Reg.coreOtpData (s.otpWord w)).setReg Reg.coreOtpStatus 0).otpDone

/-- OTP_PROGRAM: the SSV starts to program a word, or is refused. -/
def execOtpProgram (m : Master) (s : State) : Host.Outcome State Fault Refusal :=
  act s fun s => s.ssvOnly m fun s =>
    if s.bit Reg.coreOtpStatus 0 then s
    else
      let w := s.getF Reg.coreOtpAddr 12 2
      let s := s.setReg Reg.coreOtpCmd 2#32
      if s.otpRefused w then ((s.setReg Reg.coreOtpStatus 4#32).emit 230 0x03 (syn16 0x03 0 w)).otpDone
      else { s.setReg Reg.coreOtpStatus 1#32 with otpProg := some (w, s.reg Reg.coreOtpData) }

/-- OTP_PROGRAM_DONE: the word is read back; bits only go from 0 to 1. Where it does not verify, some of the bits to be set are: which, is
a free value. -/
def execOtpProgramDone (ok : Bool) (s : State) : Host.Outcome State Fault Refusal :=
  act s fun s =>
    match s.otpProg with
    | none => s
    | some (w, v) =>
      let old := Sparse.get 0 s.otp w
      let s := { s with otpProg := none }
      if ok then
        let s := { s with otp := Sparse.set 0 s.otp w (old ||| v) }
        (s.setReg Reg.coreOtpStatus 0).otpDone
      else
        let s := State.take { s with otp := Sparse.set 0 s.otp w (old ||| (v &&& s.freeVal)) }
        ((s.setReg Reg.coreOtpStatus 2#32).emit 230 0x03 (syn16 0x03 0 w)).otpDone

/-! ### The crypto unit (R533) -/

/-- A byte of memory at a core address (R506, R509): core SRAM, OTP and the vat; what decodes to nothing reads zero, and so does register
space, from which the crypto unit is given no data. The boot ROM's bytes are not in the spec. -/
def State.coreByte (s : State) (a : Nat) : Byte :=
  if csramBase ≤ a ∧ a < csramBase + 0x100000 then Sparse.get 0 s.csram (a - csramBase)
  else if 0x40000000 ≤ a ∧ a < 0x48000000 then (s.vatBytes (a - 0x40000000) 1).headD 0
  else if 0x10200000 ≤ a ∧ a < 0x10202000 then
    let o := a - 0x10200000
    BitVec.ofNat 8 ((s.otpWord (o / 4)).toNat / 2 ^ (8 * (o % 4)))
  else if a < 0x100000 ∧ s.bit Reg.gblSysCtrl 0 then Sparse.get 0 s.csram a
  else if (0x10000000 ≤ a ∧ a < 0x10010000) ∨ a < 0x10000 then BitVec.ofNat 8 (Config.romByte (a % 0x10000))
  else 0#8

def State.coreBytes (s : State) (a n : Nat) : List Byte := (List.range n).map fun i => s.coreByte (a + i)

/-- The crypto unit writes bytes at a core address. -/
def State.coreStore (s : State) (a : Nat) (bs : List Byte) : State :=
  let sram (s : State) (o : Nat) : State := { s with csram := (bs.zipIdx).foldl (fun m p => Sparse.set 0 m (o + p.2) p.1) s.csram }
  if 0x40000000 ≤ a ∧ a < 0x48000000 then s.vatWrite .ssv (a - 0x40000000) bs
  else if csramBase ≤ a ∧ a + bs.length ≤ csramBase + 0x100000 then sram s (a - csramBase)
  else if a + bs.length ≤ 0x100000 ∧ s.bit Reg.gblSysCtrl 0 then sram s a
  else s

/-- The SSV starts an operation: 1 SHA-384, 2 verification. -/
def State.cryptoStart (s : State) (op : Nat) : State :=
  if s.bit Reg.coreCryStatus 0 then s
  else
    let s := (s.setReg Reg.coreCryCmd (BitVec.ofNat 32 op)).setReg Reg.coreCryStatus 1#32
    { s with crypto := some { op := op, src := s.reg Reg.coreCrySrc, len := s.reg Reg.coreCryLen, arg := s.reg Reg.coreCryArg } }

def execCryptoSha384 (m : Master) (s : State) : Host.Outcome State Fault Refusal :=
  act s fun s => s.ssvOnly m fun s => s.cryptoStart 1

def execCryptoEcdsaVerify (m : Master) (s : State) : Host.Outcome State Fault Refusal :=
  act s fun s => s.ssvOnly m fun s => s.cryptoStart 2

/-- CRYPTO_DONE: a hash is written as the digest of the block at ARG; a verification takes the digest, key and signature from it. -/
def execCryptoDone (s : State) : Host.Outcome State Fault Refusal :=
  act s fun s =>
    match s.crypto with
    | none => s
    | some x =>
      let s := { s with crypto := none }
      let a := x.arg.toNat
      if x.op = 1 then
        (s.coreStore a (sha384 (s.coreBytes x.src.toNat x.len.toNat))).setReg Reg.coreCryStatus 2#32
      else
        let ok := ecdsaVerify (s.coreBytes (a + 48) 96) (s.coreBytes (a + 144) 96) (s.coreBytes a 48)
        s.setReg Reg.coreCryStatus (if ok then 2#32 else 0#32)

/-! ### Scrubbing (R513, R516, R517) -/

/-- A read of core SRAM finds the error `e` (R516). -/
def State.csramFound (s : State) (e : BadWord) : State :=
  let b := s.csramH
  if !e.double then
    (({ s with csramH := b.drop e.word }).bump Reg.mxCsramCeCnt 32).emit 212 0x01 (vatSyn 0x01 1 e.word)
  else if e.listed then s
  else
    let code := if e.word * 8 < s.getF Reg.mxCsramSsv 20 0 then 0x03 else 0x02
    let listed := decide ((b.bad.filter (·.listed)).length < 16)
    (({ s with csramH := { (b.drop e.word) with bad := (b.drop e.word).bad ++ [{ e with listed := listed }] } }).bump
      Reg.mxCsramUeCnt 32).emit 212 code (vatSyn code 1 e.word)

/-- A bank with the errors a line read brings to light, those known before included. -/
def BankH.withBad (b : BankH) (bad : List (Fin 8 × Bool)) : BankH :=
  { b with bad := b.bad ++ (bad.filterMap fun p =>
      let w := b.line * 8 + p.1.val
      if (b.find w).isSome then none else some { word := w, double := p.2 }) }

/-- The errors of the line under the scrubber. -/
def BankH.lineBad (b : BankH) : List BadWord := b.bad.filter fun e => e.word / 8 == b.line

/-- The scrubber of a vat bank. -/
def State.scrubVat (s : State) (n : Nat) (bad : List (Fin 8 × Bool)) : State :=
  let b := (s.bankAt n).withBad bad
  let s := b.lineBad.foldl (fun s e => s.vatFound n e 0x1F 0) (s.setBank n b)
  let last := b.line + 1 == 131072
  let s := s.setBank n { s.bankAt n with line := if last then 0 else b.line + 1 }
  if last then s.bump (Reg.mxVbankLaps n) 32 else s

def State.scrubCsram (s : State) (bad : List (Fin 8 × Bool)) : State :=
  let b := s.csramH.withBad bad
  let s := b.lineBad.foldl (fun s e => s.csramFound e) { s with csramH := b }
  { s with csramH := { s.csramH with line := if b.line + 1 = 16384 then 0 else b.line + 1 } }

/-- The scrubber of ring context memory: a line is the context of one ring, which an uncorrectable error stops. -/
def State.scrubCtx (s : State) (bad : List (Fin 8 × Bool)) : State :=
  let r := s.ctxH.line
  let s := bad.foldl (fun s p =>
    if p.2 then s.ringStop r 0x16 else s.emit 218 0x15 (ringSyn 0x15 (s.ringPort r) r)) s
  { s with ctxH := { s.ctxH with line := if r + 1 = 32768 then 0 else r + 1 } }

/-- SCRUB_LINE_READ: the scrubber of a vat bank 0 to 15, of core SRAM (16) or of ring context memory (17) reads its next line, of whose
words `bad` have one wrong bit, or more where the flag is set. -/
def execScrubLineRead (bank : Fin 18) (bad : List (Fin 8 × Bool)) (s : State) : Host.Outcome State Fault Refusal :=
  act s fun s =>
    if !s.bit Reg.mxCtrl 0 then s
    else if bank.val = 16 then s.scrubCsram bad
    else if bank.val = 17 then s.scrubCtx bad
    else s.scrubVat bank.val bad

end Sys2Proof.Machine
end

