-- ==== Sys2Proof/Machine/StdChain.lean ====
section
/-! DEFINITION. The signal chain of the standard lane program for one lane and one heat: lane gain, EQ and FIR with the crossfade of a swap
(07_lane_processor.md R256, R258), the limiters that work on a heat as a whole (08_loudspeaker_protection.md R263, R264, R269, R270, R273),
interpolation, and the sines added at 384 kHz. Sections and filters run on the block primitives' arithmetic (R236). -/

namespace Sys2Proof.Machine

/-- A binary32 of a block. -/
def blkW (b : List Byte) (off : Nat) : Word := BitVec.ofNat 32 (leAt b off 4)
def blkV (b : List Byte) (off : Nat) : Rat := sampleVal (blkW b off)

/-- An exact value as the program holds it. -/
def held32 (q : Rat) : Rat := sampleVal (primOf q)

/-- Each sample times its factor, rounded once. -/
def scaleBy (c : Nat) (f : Nat → Rat) (xs : List Word) : List Word × Nat :=
  primWords c (xs.zipIdx.map fun p => vmul (valOf p.1) (some (f p.2)))

/-- From one list of samples to another by a weight: `w` 0 is the first, 1 the second. -/
def mixBy (c : Nat) (w : Nat → Rat) (xs ys : List Word) : List Word × Nat :=
  primWords c ((xs.zip ys).zipIdx.map fun p =>
    vadd (valOf p.1.1) (vmul (vsub (valOf p.1.2) (valOf p.1.1)) (some (w p.2))))

/-- The largest magnitude of a block, and its first sample beyond a limit. -/
def peakOf (ys : List Word) : Rat := ys.foldl (fun a y => max a (absRat (sampleVal y))) 0
def firstBeyond (lim : Rat) (ys : List Word) : Option Nat := (ys.zipIdx.find? fun p => lim < absRat (sampleVal p.1)).map (·.2)

def meanSq (xs : List Rat) : Rat := (xs.map fun x => x * x).sum / (max 1 xs.length : Nat)

/-! ### Lane gain (R256) -/

def ChainH.level (h : ChainH) : Rat := match h.ramp with
  | some r => r.level
  | none => (h.gain : Rat)

def ChainH.factor (h : ChainH) : Rat := fadeFactor h.fade (dbLinear h.level)

/-- GAIN changes to `g`: a ramp of `ms` from the gain reached, or a step that waits for a zero crossing, the timeout running on from an
earlier one that still waits (R166, R167, R170). -/
def ChainH.gainTo (h : ChainH) (g : Int) (ms : Nat) : ChainH :=
  if ms = 0 then { h with wait := some (g, (h.wait.map (·.2)).getD 0) }
  else
    let now := if h.fade.isNone then h.level else 100 * gainLevel h.factor
    { h with gain := g, ramp := some (rampTo now g false ms), wait := none, fade := none }

/-- One input sample: the step that waits applies at a zero crossing, or with a 64-sample ramp once `zc` units of 100 µs have passed. -/
def ChainH.sample (h : ChainH) (zc : Nat) (x : Word) : ChainH × Rat :=
  let h := match h.wait with
    | none => h
    | some (g, t) =>
      if crossing h.last x then { h with gain := g, ramp := none, fade := none, wait := none }
      else if zc * 48 ≤ t * 10 then { h with gain := g, ramp := none, fade := some (h.factor, 0), wait := none }
      else { h with wait := some (g, t + 1) }
  ({ h with last := x, ramp := stepRamp h.ramp, fade := stepFade h.fade }, h.factor)

/-- The samples of a heat through the gain, `sign` being the polarity. -/
def ChainH.gainGo (zc : Nat) (sign : Rat) : List Word → Nat → ChainH → List Word × Nat × ChainH
  | [], c, h => ([], c, h)
  | x :: xs, c, h =>
    let (h, f) := h.sample zc x
    let (y, c) := primWord c (vmul (valOf x) (some (sign * f)))
    let (ys, c, h) := ChainH.gainGo zc sign xs c h
    (y :: ys, c, h)

/-! ### Biquads, EQ and FIR (R256, R258, R270) -/

/-- A block through one section. -/
def biqPass (cf : List (Option Rat)) (xs : List Word) (c : Nat) (b : BiqS) : List Word × Nat × BiqS :=
  let (ys, c, s1, s2) := biqGo cf xs c b.s1 b.s2
  (ys, c, { s1 := s1, s2 := s2 })

/-- The bilinear section of (b0 + b1 s + b2 s²) / (a0 + a1 s + s²), s standing for k (1 - z) / (1 + z). -/
def bilinear (b0 b1 b2 a0 a1 k : Rat) : List (Option Rat) :=
  let d := a0 + a1 * k + k * k
  [b0 + b1 * k + b2 * k * k, 2 * b0 - 2 * b2 * k * k, b0 - b1 * k + b2 * k * k, 2 * a0 - 2 * k * k, a0 - a1 * k + k * k].map fun x =>
    some (held32 (near 10 (x / d)))

/-- k of a section at 48 kHz prewarped at `f` Hz. -/
def prewarp (f : Rat) : Rat := 2 * piVal * f / tanTurn (f / 96000)

/-- The second-order Butterworth high-pass at `f` Hz (R273). -/
def highPass (f : Rat) : List (Option Rat) :=
  let w := 2 * piVal * f
  bilinear 0 0 1 (w * w) (sqrtOf 2 * w) (prewarp f)

def flagOf (b : List Byte) (i : Nat) : Bool := (leAt b 3 1).testBit i
def eqCount (b : List Byte) : Nat := if flagOf b 1 then leAt b 8 1 else 0
def firCount (b : List Byte) : Nat := if flagOf b 2 then leAt b 0x00A 2 else 0
def eqCoefs (b : List Byte) (i : Nat) : List (Option Rat) := (List.range 5).map fun k => valOf (blkW b (0x100 + i * 20 + 4 * k))

/-- The EQ of a block: its sections one after the other. -/
def eqPass (b : List Byte) (xs : List Word) (c : Nat) (st : List BiqS) : List Word × Nat × List BiqS :=
  (List.range (eqCount b)).foldl (fun (a : List Word × Nat × List BiqS) i =>
    let (ys, c, q) := biqPass (eqCoefs b i) a.1 a.2.1 (a.2.2.getD i {})
    (ys, c, a.2.2.set i q)) (xs, c, to48 {} st |>.take 24)

/-- The FIR of a block over the samples before and the samples. -/
def firPass (b : List Byte) (old xs : List Word) (c : Nat) : List Word × Nat :=
  if firCount b = 0 then (xs, c)
  else
    let cs := (List.range (firCount b)).map fun i => blkW b (0x300 + 4 * i)
    let pad := List.replicate (511 - old.length) 0#32 ++ old ++ xs
    primWords c ((List.range xs.length).map fun i => firSum cs (fun j => pad.getD j 0) (i + 511))

/-- EQ and FIR of a block. -/
def shapePass (b : List Byte) (h : ChainH) (xs : List Word) (c : Nat) : List Word × Nat × ChainH :=
  let (ys, c, eq) := eqPass b xs c h.eq
  let (zs, c) := firPass b h.fir ys c
  let all := h.fir ++ ys
  (zs, c, { h with eq := eq, fir := all.drop (all.length - 511) })

/-- EQ and FIR of a heat: where the block swapped in changes them, the old and the new set run side by side, and their outputs crossfade over the
48 samples (R256). The new set goes on from the states of the old (log 142). -/
def shapeHeat (prev : Option (List Byte)) (b : List Byte) (h : ChainH) (xs : List Word) (c : Nat) : List Word × Nat × ChainH :=
  let (new, c, h') := shapePass b h xs c
  match prev with
  | none => (new, c, h')
  | some p =>
    let (old, c, _) := shapePass p h xs c
    let (out, c) := mixBy c (fun k => rcos (k + 1) 48) old new
    (out, c, h')

/-- Two blocks have the same EQ and FIR sections. -/
def sameShape (a b : List Byte) : Bool :=
  let part (x : List Byte) (off n : Nat) := (x.drop off).take n
  leAt a 3 1 / 2 % 4 == leAt b 3 1 / 2 % 4 && leAt a 8 1 == leAt b 8 1 && leAt a 0x00A 2 == leAt b 0x00A 2 &&
    part a 0x100 480 == part b 0x100 480 && part a 0x300 2048 == part b 0x300 2048

/-! ### Gains that move within a heat (R269, R273, R276, R284, R290) -/

/-- A gain in one heat: from `a` to `b`, reached after `len` samples, linearly between (log 143). -/
structure GainMove where
  a : Rat
  b : Rat
  len : Nat
deriving DecidableEq, Repr

/-- The gain of sample `k`. -/
def GainMove.gain (m : GainMove) (k : Nat) : Rat :=
  if m.len ≤ k + 1 then m.b else m.a + (m.b - m.a) * ((k + 1 : Nat) : Rat) / (m.len : Rat)

/-- A gain moves from `g` towards `t`: a fall is complete within `att` ms, and by sample `first`; a rise has the time constant `rel` ms. -/
def gainMove (g t att rel : Rat) (first : Nat) : GainMove :=
  if t < g then { a := g, b := t, len := max 1 (min (first + 1) (min 48 (att * 48).ceil.toNat)) }
  else if t = g then { a := g, b := g, len := 1 } else { a := g, b := expAverage rel g t, len := 48 }

/-! ### The limiter with the dynamic high-pass (R273) -/

/-- What the limiter makes of a heat: the samples, the corner and the gain in force, the states, the predicted peak left, and whether it acts. -/
structure Limited where
  out : List Word
  fHp : Rat
  gain : Rat
  hp : BiqS
  model : BiqS
  peak : Rat
  acts : Bool
  c : Nat
deriving DecidableEq, Repr

/-- The excursion limiter or saturation guard over a heat: `model` is the section that predicts the quantity to be kept within `lim`. -/
def limitHeat (h : ChainH) (xs : List Word) (c : Nat) (model : List (Option Rat)) (lim hpMin hpMax rel fHp g : Rat) : Limited :=
  let (y0, c, q0) := biqPass (highPass fHp) xs c h.hp
  let (x0, c, _) := biqPass model y0 c h.model
  let acts := decide (lim < peakOf x0)
  let r := lim / peakOf x0
  let f := if acts then held32 (min hpMax (fHp / (r * r))) else if fHp = hpMin then fHp else held32 (expAverage rel fHp hpMin)
  let (y1, c, q1) := biqPass (highPass f) xs c h.hp
  let (x1, c, _) := biqPass model y1 c h.model
  let stay := !acts && decide (lim < peakOf x1)
  let t := if acts && decide (lim < peakOf x1) then lim / peakOf x1 else 1
  let j := (firstBeyond lim x0).getD 47
  let m := gainMove g t 1 rel j
  let (y, c) := if stay then (y0, c) else if acts then mixBy c (fun k => min 1 (((k + 1 : Nat) : Rat) / ((j + 1 : Nat) : Rat))) y0 y1 else (y1, c)
  let (out, c) := scaleBy c m.gain y
  let (x2, c, st) := biqPass model out c h.model
  { out := out, fHp := if stay then fHp else f, gain := m.b, hp := if stay then q0 else q1, model := st, peak := peakOf x2, acts := acts, c := c }

/-- Samples to displacement in mm: X/V of R270 with V_NOM volts to a sample. -/
def excursion (b : List Byte) (f0 qms k re : Rat) : List (Option Rat) :=
  let w := 2 * piVal * f0
  let qes := w * re / k
  let qts := qes * qms / (qes + qms)
  bilinear (1000 * blkV b 0xF10 * (k / blkV b 0xB38) / re) 0 0 (w * w) (w / qts) (prewarp f0)

/-- Samples to the leaky flux integral of R275. -/
def fluxSection (b : List Byte) : List (Option Rat) :=
  [blkV b 0xF10 / 48000, 0, 0, -(1 - 1 / (48000 * blkV b 0xBA0)), 0].map fun x => some (held32 x)

/-! ### Interpolation by 8 and the sines added at 384 kHz (R255, R263, R267, R338) -/

/-- A sine of amplitude `a`, in samples, whose phase at pacer time `t` ns is `p`, in cycles. -/
def sineAt (a p : Rat) : Rat := if a = 0 then 0 else near 8 (a * sinTurn p)

/-- The 384 samples of a heat: the interpolation, whose coefficients are not given, and each sine added in its turn. -/
def interpolate8 (h : ChainH) (xs : List Word) (c : Nat) (sines : List (Nat → Rat)) : List Word × Nat × ChainH :=
  let all := List.replicate (15 - h.poly.length) 0#32 ++ h.poly ++ xs
  let taps (q : Nat) := (List.range 16).map fun k => Config.polyTap (q + 8 * k)
  let (ys, c) := primWords c ((List.range (8 * xs.length)).map fun j => firSum (taps (j % 8)) (fun i => all.getD i 0) (j / 8 + 15))
  let (ys, c) := sines.foldl (fun (a : List Word × Nat) f =>
    primWords a.2 (a.1.zipIdx.map fun p => vadd (valOf p.1) (some (f p.2)))) (ys, c)
  (ys, c, { h with poly := all.drop (all.length - 15) })

end Sys2Proof.Machine
end

