-- ==== Sys2Proof/Machine/StdTests.lean ====
section
/-! DEFINITION. What the standard lane program does for supervision and tests (10_line_diagnostics.md R338, R339, R344, R346, R355, R357, R360, R363):
the signals it plays, and what it measures on the lock-in channels of R255. -/

namespace Sys2Proof.Machine

/-! ### Phasors (R236, R339, R355) -/

/-- The peak phasor a channel has found: its in-phase and quadrature parts. -/
def LockIn.phasor (l : LockIn) : Rat × Rat :=
  let n : Rat := ((max 1 l.count : Nat) : Rat)
  (2 * (f64Val l.i).getD 0 / n, -(2 * (f64Val l.q).getD 0) / n)

def magSq (z : Rat × Rat) : Rat := z.1 * z.1 + z.2 * z.2
def mag (z : Rat × Rat) : Rat := near 13 (sqrtOf (magSq z))

/-- A complex quotient, none for a divisor of zero. -/
def phasorDiv (a b : Rat × Rat) : Option (Rat × Rat) :=
  if magSq b = 0 then none else some ((a.1 * b.1 + a.2 * b.2) / magSq b, (a.2 * b.1 - a.1 * b.2) / magSq b)

/-- The phase in degrees, from -180 to +180. -/
def degrees (z : Rat × Rat) : Rat :=
  if z.1 = 0 then (if z.2 = 0 then 0 else if 0 < z.2 then 90 else -90)
  else
    let a := near 14 (arctan (z.2 / z.1) * 180 / piVal)
    if 0 < z.1 then a else if 0 ≤ z.2 then a + 180 else a - 180

/-- Samples of sense channel `c` of LP `n` in the area the program reads (R227). -/
def State.senseWords (s : State) (n c : Nat) : List Word :=
  let h := s.lpAt n
  h.words ((if h.senseB then 0x2000 else 0x0800) + c * 384) 96

/-- The same as values, a non-finite one counting as zero. -/
def State.senseOf (s : State) (n c : Nat) : List Rat := (s.senseWords n c).map sampleVal

/-- The summed current of a lane's bonded group (R265, R338). -/
def State.groupCurrent (s : State) (n : Nat) : List Rat :=
  ((s.groupLanes n).map fun k => s.senseOf (n / 8) (2 * (k % 8) + 1)).foldl (fun a x => (a.zip x).map fun p => p.1 + p.2) (List.replicate 96 0)

def State.lockAt (s : State) (n ch : Nat) : LockIn := Sparse.get {} (s.lpAt n).lock ch

def State.setLock (s : State) (n ch : Nat) (l : LockIn) : State :=
  s.setLp n { s.lpAt n with lock := Sparse.set {} (s.lpAt n).lock ch l }

/-- A channel's accumulators start from zero. -/
def State.lockClear (s : State) (n ch : Nat) : State := s.setLock n ch { s.lockAt n ch with i := 0, q := 0, count := 0 }

/-- The sense samples `xs` of the heat enter channel `ch` of LP `n`, set to `freq`. -/
def State.lockHeat (s : State) (n ch : Nat) (freq : Word) (xs : List Word) : State :=
  let s := s.setLock n ch { s.lockAt n ch with freq := freq, phase := 0 }
  let (l, c) := (s.lpAt n).lockGo ch xs 0 s.freeCtr (s.lockAt n ch)
  { s.setLock n ch l with freeCtr := c }

/-! ### The signals of a test (R355, R357, R360) -/

/-- The raised cosine at `x` of its way from 0 to 1. -/
def riseAt (x : Rat) : Rat := if x ≤ 0 then 0 else if 1 ≤ x then 1 else near 1 ((1 - cosTurn (x / 2)) / 2)

/-- A signal of `len` sense samples with ramps of 5 ms at both ends, `t` after its start. -/
def envelope (len t : Rat) : Rat := min (riseAt (t / 480)) (riseAt ((len - t) / 480))

/-- The frequency of point `i` of SPECTRO. -/
def pointFreq (i : Nat) : Word :=
  let e : Rat := if i ≤ 115 then (i : Rat) else 115 + ((i - 115 : Nat) : Rat) / 2
  primOf (near 11 (20 * exp2 (e / 12)))

/-- Its length in sense samples. -/
def pointLen (i : Nat) : Nat := max 288 (roundRat (192000 / sampleVal (pointFreq i))).toNat

def spectroLen (i : Nat) : Nat := ((List.range i).map pointLen).sum

/-- The point played at `u` sense samples after the first one's start, and the phase there in cycles; the phase runs on from point to point, `p` at the
start of the first of the points given. -/
def pointAt : List Nat → Rat → Rat → Option Nat × Rat
  | [], _, p => (none, p)
  | i :: is, u, p =>
    let f := sampleVal (pointFreq i) / 96000
    let n : Rat := (pointLen i : Rat)
    if u < n ∨ is.isEmpty then (if 0 ≤ u ∧ u < n then some i else none, p + u * f) else pointAt is (u - n) (p + n * f)

/-- Sense samples of one tone of TWEETER with its ramps. -/
def RunH.toneLen (r : RunH) : Nat := r.dur * 96 + 960

/-- The test's sine `t` sense samples after its start, at pacer time `ns`: its envelope, its phase in cycles, and the number of the tone measured. -/
def RunH.signal (r : RunH) (t ns : Rat) : Rat × Rat × Option Nat :=
  if r.kind = tkSpectro then
    let (i, p) := pointAt (List.range 148) (t - 480) 0
    (envelope ((spectroLen 148 + 960 : Nat) : Rat) t, p, i)
  else if r.kind = tkTweeter then
    let l : Rat := (r.toneLen : Rat)
    let j := if t < l then 0 else 1
    let u := t - (j : Nat) * l
    (envelope l u, (if j = 0 then r.fA else r.fB) * ns / 1000000000, if 480 ≤ u ∧ u < l - 480 then some j else none)
  else (0, 0, none)

/-- Tones the test measures, and the sense sample after its start at which tone `i` has been measured. -/
def RunH.tones (r : RunH) : Nat := if r.kind = tkSpectro then 148 else if r.kind = tkTweeter then 2 else 0
def RunH.toneEnd (r : RunH) (i : Nat) : Nat := if r.kind = tkSpectro then 480 + spectroLen (i + 1) else (i + 1) * r.toneLen - 480

/-- What a stop leaves of the test signal at sample `i` of `n` of heat `h`: it ramps out over the first 48 samples' time of its heat (R354). -/
def RunH.left (r : RunH) (h i n : Nat) : Rat :=
  match r.stop with
  | none => 1
  | some k => if h < k then 1 else if h = k then 1 - rcos (i + 1) n else 0

/-- The sine at sample `i` of the 384 of zone bus heat `h`. -/
def RunH.sine (r : RunH) (h i : Nat) : Rat :=
  let (e, p, _) := r.signal (((h - r.start) * 96 : Nat) + (i : Rat) / 4) (sampleTime h i 384)
  sineAt (e * dbLinear (100 * r.level) * r.left h i 384) p

/-- The frequency of tone `j` of PROVE: the pair of each octave band in turn. -/
def proveFreq (j : Nat) : Rat := near 12 (((125 * 2 ^ (j / 2) : Nat) : Rat) * exp2 (if j % 2 = 0 then -1 / 24 else 1 / 24))

/-- Samples of PROVE: stepped tones, or speech-shaped noise. -/
def proveLen (speech : Bool) : Nat := if speech then 204000 else 180000

/-- The input sample that PROVE plays in place of sample `k` of zone bus heat `h`: zero for 250 ms, then tones, or noise whose shaping filter is not
given. -/
def RunH.proveSample (r : RunH) (speech : Bool) (h k : Nat) : RunH × Rat :=
  let n := (h - r.start) * 48 + k
  let a := dbLinear (100 * r.level) * r.left h k 48
  if n < 12000 ∨ proveLen speech ≤ n then (r, 0)
  else if speech then
    let v := lfsrValue r.lfsr
    let noise := (((v % 65536 : Nat) - 32768 : Rat) / 32768 :: r.noise).take 128
    ({ r with lfsr := v, noise := noise }, a * (noise.zipIdx.map fun x => Config.speechTap x.2 * x.1).sum)
  else
    let m := n - 12000
    (r, sineAt (a * envelope 24000 (2 * ((m % 12000 : Nat) : Rat))) (proveFreq (m / 12000) * sampleTime h k 48 / 1000000000))

def RunH.proveGo (speech : Bool) (h : Nat) : List Nat → RunH → RunH × List Word
  | [], r => (r, [])
  | k :: ks, r =>
    let (r, x) := r.proveSample speech h k
    let (r, xs) := RunH.proveGo speech h ks r
    (r, primOf x :: xs)

/-! ### The test of a lane in a heat (R344, R346, R354, R355, R357) -/

/-- The test section of a good block changes the test: a new one starts with zone bus heat `h`, or the one under way ramps out. -/
def LaneDiag.takeTest (d : LaneDiag) (lane h : Nat) (b : List Byte) : LaneDiag :=
  let seq := leAt b 0xE80 4
  if seq = d.seq then d
  else
    let d := { d with seq := seq }
    let v (off : Nat) : Rat := sampleVal (BitVec.ofNat 32 (leAt b off 4))
    if leAt b 0xE85 1 = 0 then { d with test := d.test.map fun r => if r.done then r else { r with stop := some h } }
    else
      { d with test := some { kind := leAt b 0xE84 1, mode := leAt b 0xE85 1, level := v 0xE88, fA := v 0xE8C, fB := v 0xE90,
                              dur := (v 0xE94).floor.toNat, start := h, lfsr := 0x20000000 + lane } }

/-- The test under way on lane `n`. -/
def State.testOf (s : State) (n : Nat) : Option RunH := (s.diagAt n).test.filter fun r => !r.done && r.stop.isNone

/-- A test of one of these kinds runs on lane `n`. -/
def State.testRuns (s : State) (n : Nat) (kinds : List Nat) : Bool := (s.testOf n).any fun r => kinds.contains r.kind

/-- The request behind the test running on lane `n`. -/
def State.testReq (s : State) (n : Nat) : Option TestH := s.tests.find? fun t => t.running && t.lane == n

/-- The sense samples by which a sense sample lies behind the output sample it shows: 3,175 µs (R30, R329). -/
abbrev senseLag : Rat := 1524 / 5

/-- A tone has been measured: its |Z| and phase, or its conductance; a current below 1 µA gives |Z| infinite. -/
def State.toneDone (s : State) (n : Nat) (r : RunH) : State × RunH :=
  let t := n / 8
  let l := n % 8
  let v := (s.lockAt t (32 + 2 * l)).phasor
  let i := (s.lockAt t (33 + 2 * l)).phasor
  let s := (s.lockClear t (32 + 2 * l)).lockClear t (33 + 2 * l)
  let r' := { r with points := r.points + 1 }
  if r.kind = tkSpectro then
    let z := if magSq i < 2 / 1000000000000 then none else phasorDiv v i
    (s.telPut n 108 (bytesOfWords [(z.map fun z => primOf (mag z)).getD (f32Inf false), primOf ((z.map degrees).getD 0)]), r')
  else (s, { r' with g := r.g ++ [held32 ((phasorDiv i v).map (·.1) |>.getD 0)] })

/-- One sense sample of voltage and of current enters the test's channels. -/
def State.toneSample (s : State) (n : Nat) (r : RunH) (k : Nat) (v i : Rat) : State × RunH :=
  let h := s.lpAt (n / 8)
  let t : Rat := (((h.senseHeat : Int) - (r.start : Int)) * 96 : Int) + (k : Rat) - senseLag
  let (s, r) := if r.points < r.tones ∧ (r.toneEnd r.points : Rat) ≤ t then s.toneDone n r else (s, r)
  let (_, p, j) := r.signal t (sampleTime h.senseHeat k 96)
  if j ≠ some r.points then (s, r)
  else
    let put (s : State) (ch : Nat) (x : Rat) : State :=
      let (l, c) := (s.lockAt (n / 8) ch).add s.freeCtr (some x) (some p)
      { s.setLock (n / 8) ch l with freeCtr := c }
    (put (put s (32 + 2 * (n % 8)) v) (33 + 2 * (n % 8)) i, r)

def State.toneGo (s : State) (n : Nat) : List (Rat × Rat) → Nat → RunH → State × RunH
  | [], _, r => (s, r)
  | x :: xs, k, r =>
    let (s, r) := s.toneSample n r k x.1 x.2
    s.toneGo n xs (k + 1) r

/-- TEST_SEQ, TEST_WORD and the result words of the record, and TEST_ACTIVE (R346). -/
def State.testShow (s : State) (n : Nat) : State :=
  let d := s.diagAt n
  let r := d.test.getD { done := true }
  let st := if r.stop.isSome then 2 else if r.done then 1 else 0
  let on := d.test.isSome && st == 0
  let s := s.telPut n 100 (bytesOfWords [BitVec.ofNat 32 d.seq, BitVec.ofNat 32 (st * 2 ^ 24 + r.points)])
  let s := s.telPut n 96 (leBytes 4 (setBitAt (s.telWord n 96) 1 on).toNat)
  if r.kind = tkTweeter ∧ r.done then
    let a := r.g.getD 0 0
    let b := r.g.getD 1 0
    s.telPut n 116 (bytesOfWords [primOf a, primOf b, primOf (b - a), 0#32, 0#32, 0#32])
  else s

/-- The test of lane `n` measures the heat's sense samples, and is done once all is measured or played. -/
def State.testHeat (s : State) (n : Nat) (v i : List Rat) : State :=
  match s.testOf n with
  | none => if (s.diagAt n).test.isSome then s.testShow n else s
  | some r =>
    let (s, r) := s.toneGo n (v.zip i) 0 r
    let age := (s.lpAt (n / 8)).zbHeat - r.start
    let speech := (s.testReq n).any fun t => t.upd.desc.body.byte 2 / 2 % 2 == 1
    let done := if r.kind = tkProve then proveLen speech ≤ age * 48 else if r.kind = tkCal then 110 ≤ age
      else if r.tones = 0 then false else r.tones ≤ r.points
    (s.setDiag n { s.diagAt n with test := some { r with done := done } }).testShow n

/-! ### The continuous pilot (R338, R339) -/

/-- The lane runs its pilot: RUNNING, with PILOT_EN in the block in force, and no test that stops it (R355, R360, result 22 of R378). -/
def State.pilotRuns (s : State) (n : Nat) : Bool := s.pilotOn n && !s.testRuns n [tkSpectro, tkProve]

/-- The conditions of a valid window in this heat. -/
def State.pilotClean (s : State) (n : Nat) : Bool :=
  let h := s.laneAt n
  let d := s.diagAt n
  let e := (s.lpAt (n / 8)).word (64 + n % 8 * 16 + 12)
  s.laneSt n == lsRunning && h.gain == .full && fld e 31 16 == 0 && !h.fastPrev && h.fast == 1 &&
    !bitAt ((s.lpAt (n / 8)).word 16) 4 && !d.supNew && (s.testReq n).all fun t => t.kind == tkTweeter || t.kind == tkEarth

/-- Blindness counts the heats without a valid window, but none while a test stops the windows or the lane is held (R342, R343). -/
def State.blindHeat (s : State) (n : Nat) : State :=
  let d := s.diagAt n
  if !s.pilotBase n || (s.testReq n).any fun t => t.kind == tkSpectro || t.kind == tkProve || t.kind == tkCal then s
  else s.setDiag n { d with noWin := d.noWin + 1 }

/-- A lane that leaves IDLE on its own input stops its audible test in the same heat, where the entry for its new state does not permit it (R354). -/
def State.idleStop (s : State) (n : Nat) (wasIdle : Bool) : State :=
  let d := s.diagAt n
  match d.test, s.testReq n with
  | some r, some t =>
    if !wasIdle || bitAt (s.telWord n 96) 0 || r.mode != 1 || r.done || r.stop.isSome || t.forced ||
        s.admitEntry t.kind dsProg t.forced == adRun then s
    else s.setDiag n { d with test := some { r with stop := some (s.lpAt (n / 8)).zbHeat } }
  | _, _ => s

/-- A heat of the pilot window: the sense samples enter channels 16 + 2l and 17 + 2l; a window that is full waits for its end. -/
def State.pilotHeat (s : State) (n : Nat) (b : List Byte) (i : List Rat) : State :=
  let t := n / 8
  let l := n % 8
  let d := s.diagAt n
  if !s.pilotOn n then s.setDiag n { d with win := 0, supNew := false }
  else if (blkV b 0xE0C).floor.toNat ≤ d.win then s
  else
    let s := if d.win = 0 then (s.lockClear t (16 + 2 * l)).lockClear t (17 + 2 * l) else s
    let ok := s.pilotClean n
    let s := s.lockHeat t (16 + 2 * l) (blkW b 0xE04) (s.senseWords t (2 * l))
    let s := s.lockHeat t (17 + 2 * l) (blkW b 0xE04) (i.map primOf)
    s.setDiag n { s.diagAt n with win := d.win + 1, winOk := (d.win == 0 || d.winOk) && ok, supNew := false }

end Sys2Proof.Machine
end

