-- ==== Sys2Proof/Machine/Models.lean ====
section
/-! DEFINITION. The standard lane program beside its bundles (07_lane_processor.md R259, 08_loudspeaker_protection.md R265 to R278, R284,
R288, 10_line_diagnostics.md R337): the check of a newly active parameter block, the loudspeaker models and their limiters, IDLE, the
press, the lane's output, and what they leave in the telemetry record. -/

namespace Sys2Proof.Machine

/-! ### The check of a block (R258, R259, R277, R287, R344) -/

/-- The binary32 at an offset of a block lies between two bounds. -/
def blkF (b : List Byte) (off : Nat) (lo hi : Rat) : Bool × Nat :=
  let w := BitVec.ofNat 32 (leAt b off 4)
  (f32Finite w && decide (lo ≤ f32ToRat w) && decide (f32ToRat w ≤ hi), off)

/-- A bound as the binary32 nearest it. -/
def bound32 (q : Rat) : Rat := f32ToRat (f32OfRat q)

/-- A whole number of `n` bytes lies between two bounds. -/
def blkN (b : List Byte) (off n lo hi : Nat) : Bool × Nat := (lo ≤ leAt b off n && leAt b off n ≤ hi, off)

/-- Reserved bytes, each to be zero. -/
def blkZ (b : List Byte) (off n : Nat) : Bool × Nat := ((firstNonzero b off n).isNone, (firstNonzero b off n).getD off)

/-- Section `i` has its poles within the unit circle. -/
def eqStable (b : List Byte) (i : Nat) : Bool × Nat :=
  let o := 0x100 + i * 20
  let w (k : Nat) := BitVec.ofNat 32 (leAt b (o + 4 * k) 4)
  let a1 := blkV b (o + 12)
  let a2 := blkV b (o + 16)
  ((List.range 5).all (fun k => f32Finite (w k)) && decide (absRat a2 ≤ 1) && decide (absRat a1 ≤ 1 + a2), o)

def headChecks (b : List Byte) : List (Bool × Nat) :=
  let fir := leAt b 0x00A 2
  let zc := leAt b 0x00C 2
  let g := signed 16 (leAt b 0x004 2)
  [blkN b 0 2 0x100 0x100, blkN b 2 1 0 2, blkN b 3 1 0 15, (-12000 ≤ g && g ≤ 2400, 4), blkN b 6 2 0 10000, blkN b 8 1 0 24,
    blkN b 9 1 0 0, (fir == 0 || (8 ≤ fir && fir ≤ 512 && fir % 8 == 0), 0x00A), (zc == 0 || (5 ≤ zc && zc ≤ 500), 0x00C),
    blkN b 0x00E 2 1 10000, blkZ b 0x010 240] ++ (List.range 24).map (eqStable b) ++
    [blkZ b 0x2E0 32]

def modelChecks (b : List Byte) : List (Bool × Nat) :=
  let vs := blkV b 0xB9C
  [blkN b 0xB00 2 0x100 0x100, (leAt b 0xB02 1 / 128 % 2 == 0 && leAt b 0xB02 1 % 2 == 0, 0xB02), blkN b 0xB03 1 0 1,
    blkF b 0xB04 (1 / 2) 100, blkF b 0xB08 (-20) 60, blkF b 0xB0C 0 (bound32 (1 / 100)), blkF b 0xB10 (bound32 (1 / 10)) 50,
    blkF b 0xB14 (bound32 (1 / 10)) 1000, (bound32 (1 / 20) ≤ blkV b 0xB10 * blkV b 0xB14, 0xB14),
    blkF b 0xB18 (bound32 (1 / 10)) 50, blkF b 0xB1C 1 100000, blkF b 0xB20 (-20) 70, blkF b 0xB24 50 300, blkF b 0xB28 1 50,
    blkF b 0xB2C 10 500, blkF b 0xB30 (1 / 2) 30, blkF b 0xB34 10 100000, blkF b 0xB38 (1 / 2) 50, blkF b 0xB3C (bound32 (1 / 10)) 30,
    blkF b 0xB40 (1 / 2) 1, blkF b 0xB44 10 200, blkF b 0xB48 (blkV b 0xB44) 400, blkF b 0xB4C 10 5000, blkF b 0xB50 5 40,
    blkF b 0xB54 (bound32 (1 / 20)) 1, blkF b 0xB58 (bound32 (999 / 1000)) (bound32 (999999 / 1000000)),
    blkF b 0xB5C (bound32 (1 / 1000)) (bound32 (1 / 10)), blkF b 0xB60 (bound32 (1 / 1000)) 1, blkZ b 0xB64 28,
    blkF b 0xB80 0 200, blkF b 0xB84 0 (bound32 (2 / 1000000)), blkF b 0xB88 5 10000, blkF b 0xB8C (bound32 (1 / 10)) 1000,
    blkF b 0xB90 0 (bound32 (1 / 10000)), blkF b 0xB94 10 100000, blkF b 0xB98 20 200,
    ((blkF b 0xB9C 0 2).1 && (vs == 0 || decide (bound32 (1 / 100) ≤ vs)), 0xB9C), blkF b 0xBA0 (bound32 (1 / 20)) 2,
    blkF b 0xBA4 1 150, blkF b 0xBA8 (bound32 (1 / 10)) 60, blkZ b 0xBAC 596]

def supChecks (b : List Byte) : List (Bool × Nat) :=
  let win := blkV b 0xE0C
  [blkN b 0xE00 2 0x100 0x100, blkN b 0xE02 1 0 3, blkN b 0xE03 1 1 4, blkF b 0xE04 18000 30000, blkF b 0xE08 (-50) (-30),
    ((blkF b 0xE0C 50 500).1 && win.den == 1 && decide (win * ((leAt b 0xE03 1 + 1 : Nat) : Rat) ≤ 2000), 0xE0C), blkF b 0xE10 1 100000,
    blkF b 0xE14 (-90) 90, blkF b 0xE18 (bound32 (5 / 1000)) (1 / 2), blkF b 0xE1C (1 / 2) 45, blkF b 0xE20 (3 / 2) 100,
    blkF b 0xE24 (bound32 (1 / 100)) (bound32 (67 / 100)), blkF b 0xE28 (-120) (-40), blkF b 0xE2C (bound32 (1 / 10)) 60, blkZ b 0xE30 80]

def pressChecks (b : List Byte) : List (Bool × Nat) :=
  [blkF b 0xF00 (1 / 2) (bound32 (98 / 100)), blkF b 0xF04 (blkV b 0xF00) (bound32 (99 / 100)), blkF b 0xF08 (bound32 (1 / 10)) 10,
    blkF b 0xF0C 10 5000, blkF b 0xF10 24 165, blkF b 0xF14 0 20, blkN b 0xF18 1 0 3, blkZ b 0xF19 231]

/-- The offset of the first bad field of a block, none where the block is good (R259). -/
def blockBad (b : List Byte) : Option Nat :=
  ((headChecks b ++ modelChecks b ++ supChecks b ++ pressChecks b).find? fun x => !x.1).map (·.2)

/-- Two blocks agree in the fields at some offsets. -/
def sameAt (a b : List Byte) (offs : List Nat) : Bool := offs.all fun o => leAt a o 4 == leAt b o 4

/-- The models at their start: both nodes at T_AMB, the estimate unconfirmed (R268). -/
def LaneDiag.thermalInit (d : LaneDiag) (b : List Byte) : LaneDiag :=
  { d with tvc := blkV b 0xB20, tm := blkV b 0xB20, confirmed := false, gT := 1, hotRun := 0, reRun := 0 }

/-- The values in force start at the block's (R270, R272). -/
def LaneDiag.identInit (d : LaneDiag) (b : List Byte) : LaneDiag :=
  { d with f0 := blkV b 0xB2C, qms := blkV b 0xB30, k := blkV b 0xB34, drift := 0 }

/-- The program starts with FIRST on a good block: everything it holds of the lane starts from it. Where the fit starts is not given. -/
def LaneDiag.startOn (d : LaneDiag) (b : List Byte) : LaneDiag :=
  let d := (d.thermalInit b).identInit b
  { d with good := some b, prev := none, first := false, accepted := d.accepted, fHp := blkV b 0xB44, gX := 1, gP := 1, gR := 1, gS := 1,
           chain := { gain := signed 16 (leAt b 4 2), eq := List.replicate 24 {} }, seq := leAt b 0xE80 4, test := none, win := 0, supNew := true,
           ident := { fit := (List.range 3).map Config.idStart, cov := (List.range 9).map fun i => Config.idStart (3 + i) } }

/-- The standard program takes a good block in a lane of zone bus heat `h`; `start` says that the program starts with FIRST (R256, R268, R272). -/
def LaneDiag.takeBlock (d : LaneDiag) (start : Bool) (lane h : Nat) (b : List Byte) : LaneDiag :=
  match d.good.filter fun _ => !start with
  | none => d.startOn b
  | some old =>
    let d := if !sameAt old b [0xB04, 0xB08] || leAt old 0xB03 1 != leAt b 0xB03 1 then d.thermalInit b else d
    let d := if !sameAt old b [0xB2C, 0xB30, 0xB34] then d.identInit b else d
    let d := if leAt old 4 2 = leAt b 4 2 then d else { d with chain := d.chain.gainTo (signed 16 (leAt b 4 2)) (leAt b 6 2) }
    let d := { d with prev := if sameShape old b then none else some old, supNew := (old.drop 0xE00).take 48 != (b.drop 0xE00).take 48 }
    { d.takeTest lane h b with good := some b }

/-- A lane's newly active block is checked: taken, or refused with event 0x74 and the offset of its first bad field; the program then goes on with
the last good block, from its start where the program starts with FIRST. -/
def State.blockCheck (s : State) (n : Nat) (start : Bool) : State :=
  let h := s.lpAt (n / 8)
  let b := h.activeBank (n % 8)
  let d := s.diagAt n
  match blockBad b with
  | none => s.setDiag n (d.takeBlock start (n % 8) h.zbHeat b)
  | some off =>
    let s := match d.good.filter fun _ => start with
      | some g => s.setDiag n (d.startOn g)
      | none => s
    s.emit (144 + n / 8) 0x74 (syn12 0x74 0xFFF off)

/-- LP `n` runs the standard program. -/
def State.standard (s : State) (n : Nat) : Bool := s.lpRuns n && Config.standardImage (s.reg (Reg.lpnImgId n))

/-- At a heat boundary the standard program of LP `n` checks the blocks that are newly active: all with FIRST, else those that
swapped. -/
def State.blocksCheck (s : State) (n : Nat) (start : Bool) (swapped : BitVec 8) : State :=
  if !s.standard n then s
  else forUpto 8 (fun l s => if start || swapped.getLsbD l then s.blockCheck (n * 8 + l) start else s) s

/-! ### Models and limiters of one heat (R265 to R276) -/

/-- What the heat of a lane's program works on. -/
structure HeatIn where
  blk : List Byte
  input : List Word
  /-- Sense current and voltage of the most recent complete heat. -/
  i : List Rat
  v : List Rat

/-- A level in dB of a linear gain, binary32. -/
def gainDb (g : Rat) : Word := primOf (near 9 (gainLevel g))

/-- An event of the models, with its value (R292). -/
def State.modelEvent (s : State) (n code : Nat) (v : Int) : State :=
  s.emit n code (syn16 code (n % 8) (pattern 16 v))

/-- α of the coil's metal (R266). -/
def coilAlpha (b : List Byte) : Rat := if leAt b 0xB03 1 = 1 then 429 / 100000 else 393 / 100000

/-- Re(T) (R266). -/
def coilRe (b : List Byte) (t : Rat) : Rat := blkV b 0xB04 * (1 + coilAlpha b * (t - blkV b 0xB08))

/-- The two nodes one heat later, from the power `p` in the coil (R266): each takes the step of its differential equation over 1 ms (log 144). -/
def thermalStep (b : List Byte) (tvc tm p : Rat) : Rat × Rat :=
  let q := (tvc - tm) / blkV b 0xB10
  (held32 (tvc + (p - q) / blkV b 0xB14 / 1000), held32 (tm + (q - (tm - blkV b 0xB20) / blkV b 0xB18) / blkV b 0xB1C / 1000))

/-- The target of g_T (R269). -/
def thermalTarget (b : List Byte) (tvc : Rat) : Rat :=
  let q := (blkV b 0xB24 - tvc) / blkV b 0xB28
  if q ≤ 1 / 10000 then 1 / 100 else if 1 ≤ q then 1 else near 15 (sqrtOf q)

/-- The thermal model and its limiter for one heat (R266, R269), and g_T in it. -/
def State.thermalHeat (s : State) (n : Nat) (x : HeatIn) : State × GainMove :=
  let d := s.diagAt n
  let b := x.blk
  let (tvc, tm) := thermalStep b d.tvc d.tm (meanSq x.i * coilRe b d.tvc)
  let m := if (leAt b 0xB02 1).testBit 1 then gainMove d.gT (thermalTarget b tvc) (blkV b 0xF08) (blkV b 0xB4C) 47 else { a := 1, b := 1, len := 1 }
  let act := decide (m.b < 1)
  let hot := decide (blkV b 0xB24 ≤ tvc)
  let s := s.setDiag n { d with tvc := tvc, tm := tm, gT := m.b, actT := act, atMax := hot }
  let s := if act && !d.actT then s.modelEvent n 0x80 tvc.floor else s
  (if hot && !d.atMax then s.modelEvent n 0x81 tvc.floor else s, m)

/-- What a stage leaves: the state, the samples, and the count of free values. -/
abbrev Stage : Type := State × List Word × Nat

/-- VS_L (R275). -/
def fluxLimit (b : List Byte) : Rat :=
  let v := blkV b 0xB9C
  if v ≠ 0 then v else near 16 ((if leAt b 2 1 = 1 then 100 else 70) * sqrtOf 2 / (2 * piVal * blkV b 0xB98))

/-- The excursion limiter, or the saturation guard, over a heat's samples (R270, R273, R275). -/
def State.peakHeat (s : State) (n : Nat) (b : List Byte) (flux : Bool) (xs : List Word) (c : Nat) : Stage :=
  let d := s.diagAt n
  let lim := if flux then fluxLimit b else blkV b 0xB40 * blkV b 0xB3C
  let model := if flux then fluxSection b else excursion b d.f0 d.qms d.k (coilRe b d.tvc)
  let r := limitHeat d.chain xs c model lim (blkV b 0xB44) (blkV b 0xB48) (blkV b 0xB4C) d.fHp d.gX
  let was := if flux then d.actV else d.actX
  let s := s.setDiag n { d with fHp := r.fHp, gX := r.gain, chain := { d.chain with hp := r.hp, model := r.model },
                                actX := !flux && r.acts, actV := flux && r.acts }
  let s := if flux then s.telPut n 48 (bytesOfWords [primOf (r.peak / lim)]) else s.telPut n 32 (bytesOfWords [primOf r.peak])
  let s := if r.acts && !was then s.modelEvent n (if flux then 0x86 else 0x83) (if flux then (r.peak * 1000).floor else r.peak.floor) else s
  (s, r.out, r.c)

/-- The commanded voltages of samples. -/
def voltsOf (b : List Byte) (xs : List Word) : List Rat := xs.map fun w => sampleVal w * blkV b 0xF10

/-- ρ: the ratio of the measured to the predicted power, within 0.5 to 2; 1 while nothing is predicted (R276). -/
def powerRatio (meas pred : Rat) : Rat :=
  if pred = 0 then 1 else let r := meas / pred; if r < 1 / 2 then 1 / 2 else if 2 < r then 2 else r

/-- The line power limiter over a heat's samples (R276). -/
def State.powerHeat (s : State) (n : Nat) (x : HeatIn) (xs : List Word) (c : Nat) : Stage :=
  let d := s.diagAt n
  let b := x.blk
  let own := meanSq (voltsOf b xs) / blkV b 0xB88
  let meas := expAverage 10000 d.chain.pMeas (((x.v.zip x.i).map fun p => p.1 * p.2).sum / 96)
  let pred := expAverage 10000 d.chain.pPred own
  let avg := expAverage (blkV b 0xBA8 * 1000) d.pAvg (own * powerRatio meas pred)
  let lim := blkV b 0xBA4
  let act := decide (lim < avg)
  let m := gainMove d.gP (if act then near 15 (sqrtOf (lim / avg)) else 1) (blkV b 0xF08) (blkV b 0xB4C) 47
  let s := s.setDiag n { d with pAvg := avg, gP := m.b, actP := act, chain := { d.chain with pMeas := meas, pPred := pred } }
  let s := s.telPut n 52 (bytesOfWords [primOf avg])
  let s := if act && !d.actP then s.modelEvent n 0x87 avg.floor else s
  let (ys, c) := scaleBy c m.gain xs
  (s, ys, c)

/-- A model acts on lane `n`: MODEL_EN is set, and the engine is not in warm-up (R265). -/
def State.modelsOn (s : State) (b : List Byte) : Bool := (leAt b 3 1).testBit 3 && !s.wup

/-- The model stage over a heat's samples (R263, R265); while no model acts, its gains are 1 and its filter is out. -/
def State.modelsHeat (s : State) (n : Nat) (x : HeatIn) (xs : List Word) (c : Nat) : Stage :=
  let b := x.blk
  let on (k : Nat) : Bool := (leAt b 0xB02 1).testBit k
  let off (d : LaneDiag) : LaneDiag := { d with gX := 1, fHp := blkV b 0xB44, actX := false, actV := false, chain := { d.chain with hp := {}, model := {} } }
  if !s.modelsOn b then (s.setDiag n { off (s.diagAt n) with gT := 1, gP := 1, actT := false, actP := false }, xs, c)
  else if leAt b 2 1 = 0 then
    let (s, m) := s.thermalHeat n x
    let (ys, c) := scaleBy c m.gain xs
    if on 2 then s.peakHeat n b false ys c else (s.setDiag n (off (s.diagAt n)), ys, c)
  else
    let (s, ys, c) := if on 5 then s.peakHeat n b true xs c else (s.setDiag n (off (s.diagAt n)), xs, c)
    if on 6 then s.powerHeat n x ys c else (s.setDiag n { s.diagAt n with gP := 1, actP := false }, ys, c)

/-! ### Identification in every heat (R271) -/

/-- One step of the recursive least-squares fit of e to the regressors `p`, with forgetting factor `lam`: the fit and its matrix. -/
def rlsStep (lam : Rat) (fit cov p : List Rat) (e : Rat) : List Rat × List Rat :=
  let dot (a b : List Rat) : Rat := ((a.zip b).map fun x => x.1 * x.2).sum
  let row (i : Nat) : List Rat := (cov.drop (3 * i)).take 3
  let q := (List.range 3).map fun i => dot (row i) p
  let den := lam + dot p q
  let err := e - dot p fit
  ((List.range 3).map fun i => held32 (fit.getD i 0 + q.getD i 0 * err / den),
    (List.range 9).map fun j => held32 ((cov.getD j 0 - q.getD (j / 3) 0 * q.getD (j % 3) 0 / den) / lam))

/-- One decimated sample of voltage and current: the back-EMF joins its record, and the fit is updated where `upd`. -/
def IdentH.sample (h : IdentH) (re le lam : Rat) (upd : Bool) (x : Rat × Rat) : IdentH :=
  let (v, i) := x
  let e := held32 (v - re * i - le * (i - h.iDec.getD 0 0) * 3000)
  let p := [-(h.eDec.getD 0 0), -(h.eDec.getD 1 0), i - h.iDec.getD 1 0]
  let (fit, cov) := if upd then rlsStep lam h.fit h.cov p e else (h.fit, h.cov)
  { h with iDec := (i :: h.iDec).take 64, eDec := (e :: h.eDec).take 2, fit := fit, cov := cov }

/-- Decimation by 32: the three samples of a heat, from the 63 before it and its own 96. -/
def decimate (old xs : List Rat) : List Rat :=
  let all := List.replicate (63 - old.length) 0 ++ old ++ xs
  (List.range 3).map fun j => held32 ((List.range 64).map fun k => Config.decimTap k * all.getD (63 + 32 * j + 31 - k) 0).sum

/-- Identification in one heat: decimation and back-EMF always, the fit unless one of the three conditions holds. -/
def State.identHeat (s : State) (n : Nat) (x : HeatIn) : State :=
  let d := s.diagAt n
  let b := x.blk
  if !(s.modelsOn b && leAt b 2 1 == 0 && (leAt b 0xB02 1).testBit 4) then s.setDiag n { d with ident := { d.ident with active := false } }
  else
    let h := d.ident
    let skip := decide (Config.bandRms d.f0 h.iDec < blkV b 0xB60) || decide (d.gX < 7 / 10) || decide (d.gT < 7 / 10) ||
      (s.laneHold n).getLsbD hcRind || (s.laneAt n).clampPrev
    let re := d.reMeas.getD (blkV b 0xB04)
    let h := ((decimate h.v x.v).zip (decimate h.i x.i)).foldl (fun h p => h.sample re (blkV b 0xB0C) (blkV b 0xB58) (!skip) p) h
    s.setDiag n { d with ident := { h with v := x.v.drop 33, i := x.i.drop 33, active := !skip } }

/-! ### IDLE, the press, the link control word and telemetry (R284, R288, R330, R337, R278) -/

/-- IDLE of the lane's record for the heat (R337). -/
def State.idleHeat (s : State) (n : Nat) (x : HeatIn) : State :=
  let d := s.diagAt n
  let lim := dbLinear (blkV x.blk 0xE28 * 100)
  let loud := x.input.any fun w => decide (lim ≤ absRat (sampleVal w))
  let q := if loud then 0 else d.quiet + 1
  let unrouted := (s.routeAt n).zone.isNone
  let idle := !loud && (unrouted || decide (blkV x.blk 0xE2C * 1000 ≤ (q : Rat)))
  let s := s.setDiag n { d with quiet := q }
  s.telPut n 96 (leBytes 4 (setBitAt (s.telWord n 96) 0 (unrouted || idle)).toNat)

/-- R_pred from the heat block (R284). -/
def State.railPred (s : State) (n : Nat) (b : List Byte) : Rat :=
  let h := s.lpAt (n / 8)
  let rail := sampleVal (h.word 36)
  if leAt b 0xF18 1 % 2 = 1 then min rail (sampleVal (h.word 44) - blkV b 0xF14) else rail

/-- The pilot's peak in volts at the terminals: TLn_RAIL_NOM times its level, none while none is added (R338). -/
def State.pilotPeak (s : State) (n : Nat) (b : List Byte) : Rat :=
  if s.pilotRuns n then sampleVal (s.reg (Reg.tlRailNom (n / 8))) * dbLinear (blkV b 0xE08 * 100) else 0

/-- The lane's measured conductance over the last 1 s, 0 while there is no voltage (R288). -/
def conductance (load : List (Rat × Rat)) : Rat :=
  let vv := (load.map (·.2)).sum
  if vv = 0 then 0 else (load.map (·.1)).sum / vv

/-- The press, the pool's gain and the demand over a heat's samples, with bytes 64 to 79 of the record (R284, R288, R290). -/
def State.pressHeat (s : State) (n : Nat) (x : HeatIn) (xs : List Word) (c : Nat) : Stage :=
  let d := s.diagAt n
  let b := x.blk
  let rp := s.railPred n b
  let room := blkV b 0xF00 * rp - s.pilotPeak n b
  let v := blkV b 0xF10
  let pk := peakOf xs * v
  let first := (firstBeyond (room / v) xs).getD 47
  let mR := gainMove d.gR (if pk ≤ room then 1 else if room ≤ 0 then 0 else room / pk) (blkV b 0xF08) (blkV b 0xF0C) first
  let rec_ := bankByte (n / 8) (s.getF (Reg.lpnTlmBase (n / 8)) 22 0) + 0x800 + 8 + 4 * (n % 8)
  let shed := sampleVal (BitVec.ofNat 32 (leAt (s.vatBytes rec_ 4) 0 4))
  let part := (leAt b 0xF18 1).testBit 1
  let mS := if part then gainMove d.gS shed (blkV b 0xF08) (blkV b 0xF0C) 47 else { a := 1, b := 1, len := 1 }
  let load := ((((x.v.zip x.i).map fun p => p.1 * p.2).sum / 96, meanSq x.v) :: d.chain.load).take 1000
  let demand := expAverage (s.pool.tau : Rat) d.chain.demand (meanSq (voltsOf b xs) * conductance load)
  let s := s.setDiag n { d with gR := mR.b, gS := mS.b, chain := { d.chain with load := load, demand := demand } }
  let s := s.telPut n 64 (bytesOfWords [gainDb mR.b, gainDb mS.b, primOf rp, if part then primOf demand else 0#32])
  let (ys, c) := scaleBy c (fun k => mR.gain k * mS.gain k) xs
  (s, ys, c)

/-- FAST_FRAC and REL_MS into the link control area (R286, R330). -/
def State.controlHeat (s : State) (n : Nat) (x : HeatIn) : State :=
  s.setLp (n / 8) ((s.lpAt (n / 8)).putBytes (0x700 + n % 8 * 32) ((x.blk.drop 0xF04).take 4 ++ (x.blk.drop 0xF0C).take 4))

/-- The model values of the record that change in every heat (R278). -/
def State.modelTelemetry (s : State) (n : Nat) (b : List Byte) : State :=
  let d := s.diagAt n
  let qes := 2 * piVal * d.f0 * coilRe b d.tvc / (if d.k = 0 then 1 else d.k)
  let qts := if qes + d.qms = 0 then 0 else qes * d.qms / (qes + d.qms)
  let st := d.accepted % 65536 * 65536 + (if d.confirmed then 4 else 0) + (if d.ident.active then 2 else 0) + (if d.first then 1 else 0)
  let s := s.telPut n 0 (bytesOfWords [primOf d.tvc, primOf d.tm])
  let s := s.telPut n 16 (bytesOfWords [primOf d.f0, primOf d.qms, primOf d.k, primOf (near 17 qts)])
  let s := s.telPut n 36 (bytesOfWords [gainDb d.gX, primOf d.fHp, gainDb d.gT])
  s.telPut n 56 (leBytes 4 st)

/-! ### One heat of a lane (R255 to R259, R263, R338) -/

/-- The program adds its probe sine, and reads Re (R267). -/
def State.probes (s : State) (b : List Byte) : Bool := s.modelsOn b && leAt b 2 1 == 0 && (leAt b 0xB02 1).testBit 3

/-- The sense samples of the heat enter the channels of the models and of the pilot, and the test's (R255, R267, R339, R355). -/
def State.senseHeat (s : State) (n : Nat) (x : HeatIn) : State :=
  let t := n / 8
  let l := n % 8
  let b := x.blk
  let s := if s.probes b then
      (s.lockHeat t (2 * l) (blkW b 0xB50) (x.i.map primOf)).lockHeat t (2 * l + 1) (blkW b 0xB50) (s.senseWords t (2 * l))
    else s
  ((s.pilotHeat n b x.i).blindHeat n).testHeat n x.v x.i

/-- The samples that go into the chain: the zone bus as gathered, PROVE's signal in its place, or nothing while another forced test runs
(R350, R360). -/
def State.chainInput (s : State) (n : Nat) (x : HeatIn) : State × List Word :=
  let h := (s.lpAt (n / 8)).zbHeat
  let d := s.diagAt n
  match d.test.filter fun r => !r.done && (r.stop.all fun k => h ≤ k) with
  | none => (s, x.input)
  | some r =>
    let req := s.testReq n
    if r.kind = tkProve then
      let (r, ws) := r.proveGo (req.any fun t => t.upd.desc.body.byte 2 / 2 % 2 == 1) h (List.range 48)
      (s.setDiag n { d with test := some r }, ws)
    else if req.any (·.forced) then (s, List.replicate 48 0#32) else (s, x.input)

/-- The sines of a heat: the pilot, the probe and the test's, at sample `i` of the 384. -/
def State.sines (s : State) (n : Nat) (b : List Byte) : List (Nat → Rat) :=
  let h := (s.lpAt (n / 8)).zbHeat
  let p (f : Rat) (i : Nat) : Rat := f * sampleTime h i 384 / 1000000000
  let pilot : List (Nat → Rat) := if s.pilotRuns n then [fun i => sineAt (dbLinear (blkV b 0xE08 * 100)) (p (blkV b 0xE04) i)] else []
  let probe : List (Nat → Rat) := if s.probes b then [fun i => sineAt (near 18 (blkV b 0xB54 * sqrtOf 2 / blkV b 0xF10)) (p (blkV b 0xB50) i)] else []
  let test : List (Nat → Rat) := ((s.diagAt n).test.filter fun r => 0 < r.tones).toList.map fun r => r.sine h
  pilot ++ probe ++ test

/-- The output of lane `n` for the heat, into the area the program writes (R227). -/
def State.outPut (s : State) (n : Nat) (ws : List Word) : State :=
  let h := s.lpAt (n / 8)
  s.setLp (n / 8) (h.putWords ((if h.outB then 0x6800 else 0x3800) + n % 8 * 1536) ws)

/-- The signal of lane `n` in one heat: gain and polarity, delay, EQ and FIR, models, press, interpolation and sines (R256, R263). A lane in CAL
is held at zero but for its pilot (R363, result 22 of R378). -/
def State.chainHeat (s : State) (n : Nat) (x : HeatIn) : State :=
  let b := x.blk
  let zc := zcTaken (if leAt b 0x00C 2 = 0 then leAt ((s.lpAt (n / 8)).bytes 24 4) 0 2 else leAt b 0x00C 2)
  let (s, ins) := s.chainInput n x
  let d := s.diagAt n
  let (ys, c, ch) := d.chain.gainGo zc (if flagOf b 0 then -1 else 1) ins s.freeCtr
  let (s, ys) := State.delayLine { s with freeCtr := c } (n / 8) (n % 8) ys
  let (ys, c, ch) := shapeHeat d.prev b ch ys s.freeCtr
  let s := s.setDiag n { d with chain := ch, prev := none }
  let (s, ys, c) := s.modelsHeat n x ys c
  let (s, ys, c) := s.pressHeat n x ys c
  let ys := if s.testRuns n [tkCal] then List.replicate 48 0#32 else ys
  let (out, c, ch) := interpolate8 (s.diagAt n).chain ys c (s.sines n b)
  let s := State.setDiag { s with freeCtr := c } n { s.diagAt n with chain := ch }
  s.outPut n out

/-- One heat of lane `n` in the standard program: zero samples while it holds no good block (R259). -/
def State.laneHeat (s : State) (n : Nat) : State :=
  match (s.diagAt n).good with
  | none => s.outPut n (List.replicate 384 0#32)
  | some b =>
    let h := s.lpAt (n / 8)
    let x : HeatIn := { blk := b, input := h.words (0x100 + n % 8 * 192) 48, i := s.groupCurrent n, v := s.senseOf (n / 8) (2 * (n % 8)) }
    ((((((s.idleHeat n x).idleStop n (bitAt (s.telWord n 96) 0)).senseHeat n x).identHeat n x).chainHeat n x).controlHeat n x).modelTelemetry n b

/-- The standard program's heat in LP `n`, on the lowest lane of each group. -/
def State.programHeat (s : State) (n : Nat) : State :=
  if !s.standard n then s
  else forUpto 8 (fun l s => if s.groupLow (n * 8 + l) = n * 8 + l then s.laneHeat (n * 8 + l) else s) s

/-! ### Once per second (R267, R268, R272) -/

/-- A reading of Re from the lock-in's voltage and current, the real part of V/I; none where |I| is below 1 mA (R267). -/
def reReading (v i : LockIn) : Option Rat :=
  if magSq i.phasor < 2 / 1000000 then none else (phasorDiv v.phasor i.phasor).map (·.1)

/-- A kept reading moves the coil node; the first also confirms the estimate, and takes over a higher T_meas at once. Events 0x82 and 0x88 (R268). -/
def State.readingKept (s : State) (n : Nat) (b : List Byte) (re : Rat) : State :=
  let d := s.diagAt n
  let re0 := blkV b 0xB04
  let tMeas := held32 (blkV b 0xB08 + (re / re0 - 1) / coilAlpha b)
  let hot := if 20 < tMeas - d.tvc then d.hotRun + 1 else 0
  let out := if re < re0 / 2 ∨ 3 * re0 < re then d.reRun + 1 else 0
  let tvc := if !d.confirmed ∧ d.tvc < tMeas then tMeas else held32 (d.tvc + (tMeas - d.tvc) / 4)
  let s := s.setDiag n { d with tvc := tvc, confirmed := true, hotRun := hot, reRun := out, reMeas := some (held32 re) }
  let s := s.telPut n 8 (bytesOfWords [primOf re, primOf tMeas])
  let s := if hot = 10 then s.modelEvent n 0x82 tMeas.floor else s
  if out = 3 then s.modelEvent n 0x88 (re * 10).floor else s

/-- A value moves towards a result by at most a fraction of itself. -/
def stepTo (x target frac : Rat) : Rat :=
  let m := absRat x * frac
  if absRat (target - x) ≤ m then target else if x < target then x + m else x - m

/-- The fit mapped to continuous values f0, Qms and K, none where one is not finite (R272). -/
def fitMap (c1 c2 g : Rat) : Option (Rat × Rat × Rat) :=
  let dd := 1 - c1 + c2
  if dd = 0 then none
  else
    let b := 36000000 * (1 + c1 + c2) / dd
    let a := 12000 * (1 - c2) / dd
    if b < 0 ∨ a = 0 then none
    else some (held32 (near 19 (3000 / piVal * arctan (sqrtOf b / 6000))), held32 (near 20 (sqrtOf b / a)), held32 (g * 24000 / dd))

/-- The result of a fit is accepted (R272). -/
def fitGood (b : List Byte) (r : Rat × Rat × Rat) : Bool :=
  let f0 := blkV b 0xB2C
  let k0 := blkV b 0xB34
  decide (f0 / 2 ≤ r.1) && decide (r.1 ≤ 2 * f0) && decide (1 / 2 ≤ r.2.1) && decide (r.2.1 ≤ 30) && decide (k0 / 4 ≤ r.2.2) &&
    decide (r.2.2 ≤ 4 * k0)

/-- Identification once per second: the fit's result is accepted or rejected (R272). -/
def State.identify (s : State) (n : Nat) (b : List Byte) : State :=
  let d := s.diagAt n
  let c (i : Nat) : Rat := d.ident.fit.getD i 0
  let fit := fitMap (c 0) (c 1) (c 2)
  let m := blkV b 0xB5C
  match fit.filter (fitGood b) with
  | none => s.modelEvent n 0x84 ((fit.map fun r => r.1.floor).getD 0)
  | some r => s.setDiag n { d with f0 := held32 (stepTo d.f0 r.1 m), qms := held32 (stepTo d.qms r.2.1 m), k := held32 (stepTo d.k r.2.2 m),
                                   accepted := d.accepted + 1, first := true }

/-- The seconds in a row for which f0 or K has lain more than 30 % from the block's value; the sixtieth raises 0x85 (R272). -/
def State.driftSecond (s : State) (n : Nat) (b : List Byte) : State :=
  let d := s.diagAt n
  let far (x y : Rat) : Bool := decide (3 * y < 10 * absRat (x - y))
  let drift : Nat := if far d.f0 (blkV b 0xB2C) || far d.k (blkV b 0xB34) then d.drift + 1 else 0
  let s := s.setDiag n { d with drift := drift }
  if drift = 60 then s.modelEvent n 0x85 d.f0.floor else s

/-- MODEL_SECOND_UPDATE: once per second the standard program of lane `n` reads the lock-in channels of its models, and maps the fit. -/
def State.secondUpdate (s : State) (n : Nat) : State :=
  match (s.diagAt n).good with
  | none => s
  | some b =>
    if !s.standard (n / 8) || !s.modelsOn b || leAt b 2 1 != 0 then s
    else
      let t := n / 8
      let l := 2 * (n % 8)
      let s := if !s.probes b then s else
        let re := reReading (s.lockAt t (l + 1)) (s.lockAt t l)
        let s := (s.lockClear t l).lockClear t (l + 1)
        match re with
        | some re => s.readingKept n b re
        | none => s
      let s := if (leAt b 0xB02 1).testBit 4 then s.identify n b else s
      s.driftSecond n b

/-- MODEL_SECOND_UPDATE: once a second the program takes its Re reading, from the lock-in's voltage and current phasors, and maps the fit's
c1, c2 and g (R267, R272). -/
def execModelSecondUpdate (n : Fin 128) (_vr _vi _ir _ii _c1 _c2 _g : Measured) (s : State) : Host.Outcome State Fault Refusal :=
  act s fun s => s.secondUpdate n.val

end Sys2Proof.Machine
end

