-- ==== Sys2Proof/Machine/Troxlink.lean ====
section
/-! DEFINITION. Troxlink and the pairing unit (12_troxlink_pairing.md): the link and its frames, bindings, evidence, takeover and
return. -/

namespace Sys2Proof.Machine

/-! ### Events, bindings and states (R395, R397, R406, R407) -/

abbrev bsOff : Nat := 0
abbrev bsWatch : Nat := 1
abbrev bsSwitchIn : Nat := 2
abbrev bsTaken : Nat := 3
abbrev bsReturnWait : Nat := 4
abbrev bsSwitchOut : Nat := 5

def State.txlEvent (s : State) (code own partner cnt : Nat) : State := s.emit 221 code (syn8 code own partner cnt)

def State.pairSt (s : State) (n : Nat) : Nat := s.getF (Reg.txlBstate n) 2 0
def State.setPairSt (s : State) (n st : Nat) : State := s.putF (Reg.txlBstate n) 2 0 st
def State.pairLAt (s : State) (n : Nat) : PairL := Sparse.get {} s.pairLs n
def State.setPairL (s : State) (n : Nat) (h : PairL) : State := { s with pairLs := Sparse.set {} s.pairLs n h }

/-- The partner lane of a binding. -/
def State.plane (s : State) (n : Nat) : Nat := s.getF (Reg.txlBind n) 22 16
def State.pzone (s : State) (n : Nat) : Nat := s.getF (Reg.txlBind n) 15 8

/-- The lanes with a binding that is not OFF. -/
def State.bound (s : State) : List Nat := (List.range 128).filter fun n => s.pairSt n != bsOff

/-- The binding whose partner lane is `p`. -/
def State.pairEvent (s : State) (code n cnt : Nat) : State := s.txlEvent code n (s.plane n) cnt

/-- Settings, within their ranges (R407). -/
def State.hbTimeout (s : State) : Nat := clampNat 1 64 (s.getF Reg.txlCtrl 15 8)
def State.evidHeats (s : State) : Nat := clampNat 10 250 (s.getF Reg.txlCfg 15 8)

/-- `TXL_CFG` and `TXL_LEV_CFG` take the nearest limit of each field. -/
def txlCfgTaken (v : Word) : Word :=
  BitVec.ofNat 32 (clampNat 10 65535 (fld v 31 16) * 2 ^ 16 + clampNat 10 250 (fld v 15 8) * 2 ^ 8 + clampNat 5 50 (fld v 7 0))

def txlLevTaken (v : Word) : Word :=
  BitVec.ofNat 32 (clampNat 40 100 (fld v 31 24) * 2 ^ 24 + clampNat 1 255 (fld v 23 16) * 2 ^ 16 + clampNat 1 255 (fld v 15 8) * 2 ^ 8)

/-- Pairing is armed (R392). -/
def State.showArmed (s : State) : State :=
  s.setBit Reg.txlStatus 0 (s.bit Reg.txlCtrl 0 && s.getF Reg.txlStatus 7 6 == 0)

/-- The line of a binding was live in the last heat read (R389). -/
def State.lineLive (s : State) (n : Nat) : Bool := s.getF (Reg.tlLevStat (n / 8) (n % 8)) 1 0 != 0

/-! ### Takeover sources and own routes (R399) -/

/-- A binding's lane begins to ignore its own route, which is kept to take back. -/
def State.holdRoute (s : State) (n : Nat) : State :=
  let z := (s.routeAt n).zone
  let s := s.setPairL n { s.pairLAt n with home := if s.bit (Reg.txlBind n) 29 then z else some (s.getF (Reg.txlBind n) 7 0) }
  (s.groupLanes n).foldl (fun s k =>
    let r := s.routeAt k
    (s.setRoute k { r with partner := true, stored := some r.zone }).showRoute k) s

/-- The lane's input moves to a bus while it is muted. -/
def State.setSource (s : State) (n : Nat) (z : Option Nat) : State :=
  let s := (s.groupLanes n).foldl (fun s k =>
    (s.setRoute k { s.routeAt k with zone := z, side := .on, old := none, oldSide := .off }).showRoute k) s
  s.setBit (Reg.txlBstate n) 8 (z.any (256 ≤ ·))

/-- The lane takes its own route back, and any stored meanwhile. -/
def State.freeRoute (s : State) (n : Nat) : State :=
  let s := (s.groupLanes n).foldl (fun s k =>
    let r := s.routeAt k
    (s.setRoute k { zone := r.stored.getD r.zone }).showRoute k) s
  s.setBit (Reg.txlBstate n) 8 false

/-- A takeover relay as the pairing unit commands it (R323). -/
def State.setRelay (s : State) (n : Nat) (b : Bool) : State :=
  let h := s.tileAt (n / 8)
  let s := s.setLane n { s.laneAt n with relay := b }
  s.setTile (n / 8) { h with fresh := h.fresh &&& ~~~(1#12 <<< (n % 8)) }

def State.relayShown (s : State) (n : Nat) : Bool := s.bit (Reg.tlRelay (n / 8)) (n % 8)

/-- The taker's pairing mute is asked for, or no longer. -/
def State.takeMute (s : State) (n : Nat) (b : Bool) : State :=
  (s.setLane n { s.laneAt n with pairTake := b }).pairMuteEval n

/-- Every entry to WATCH restarts the evidence (R397). -/
def State.toWatch (s : State) (n : Nat) : State :=
  let s := s.setPairL n {}
  s.setReg (Reg.txlBstate n) ((s.reg (Reg.txlBstate n) &&& 0x0000FEF8#32) ||| BitVec.ofNat 32 bsWatch)

def State.setTakenBit (s : State) (n : Nat) (b : Bool) : State := s.setBit (Reg.txlTaken (n / 32)) (n % 32) b

/-- The taker's fault releases a line: the relay bit is cleared, with event 0xF6 (R397). -/
def State.pairRelease (s : State) (n : Nat) : State :=
  let s := ((s.setRelay n false).setTakenBit n false).freeRoute n
  ((s.takeMute n false).pairEvent 0xF6 n 0).toWatch n

/-- The taker lane has a hold cause other than its pairing mute, or the tile has de-energised its relay. -/
def State.takerFault (s : State) (n : Nat) : Bool :=
  let h := s.laneAt n
  s.groupHold n &&& 0x7FE#11 != 0#11 || h.mute || h.lpMute || h.muteReq || ((s.pairLAt n).held && !s.relayShown n)

/-! ### The link (R390, R400, R401) -/

/-- A scheduled return that has not reached step 3 is cancelled (R404). -/
def State.cancelReturn (s : State) (n : Nat) : State :=
  let h := s.pairLAt n
  if s.pairSt n = bsSwitchOut ∧ (h.step = .none ∨ h.step = .rampOut) then
    ((s.setPairSt n bsTaken).setPairL n { h with step := .none, retHeat := 0 }).takeMute n false
  else s

/-- The link goes down, with event 0xF1 where it was up. -/
def State.txlDown (s : State) : State :=
  let s := { s with txl := { s.txl with good := 0 } }
  if !s.bit Reg.txlStatus 2 then s
  else
    let s := { s with txl := { s.txl with lostFor := some 0, checked := false } }
    let s := (s.setBit Reg.txlStatus 2 false).txlEvent 0xF1 0xFF 0xFF s.txl.miss
    s.bound.foldl (fun s n => s.cancelReturn n) s

/-- The island or its PCS loses the link: block lock is lost (R71, R390). -/
def State.blockLockLost (s : State) : State := (s.setBit Reg.txlStatus 1 false).txlDown

def execBlockLockLoss (s : State) : Host.Outcome State Fault Refusal := act s fun s => s.blockLockLost

/-- The mutes of lanes whose lines the partner held are released once the link has been down for HB_TIMEOUT heats (R400). -/
def State.freeOwnMutes (s : State) : State :=
  let down : Bool := match s.txl.lostFor with
    | some k => s.hbTimeout ≤ k
    | none => !s.bit Reg.txlStatus 2
  if down && decide (s.hbTimeout ≤ s.txl.miss) then
    ((List.range 128).filter fun n => (s.laneAt n).pairOwn).foldl (fun s n =>
      ((s.setLane n { s.laneAt n with pairOwn := false }).pairMuteEval n).txlEvent 0xFB n 0xFF 0) s
  else s

/-- HEARTBEAT_TIMEOUT: no accepted control frame for HB_TIMEOUT heats. -/
def execHeartbeatTimeout (s : State) : Host.Outcome State Fault Refusal :=
  act s fun s =>
    if s.txl.miss < s.hbTimeout then s
    else
      let s := (s.setBit Reg.txlStatus 3 true).txlDown
      let s := s.bound.foldl (fun s n => if s.pairSt n = bsReturnWait then s.setPairSt n bsTaken else s) s
      s.freeOwnMutes

/-- PARTNER_ALIVE_CHECK: EVID_HEATS after the link was lost, once per loss. -/
def execPartnerAliveCheck (s : State) : Host.Outcome State Fault Refusal :=
  act s fun s =>
    if s.txl.checked || !s.txl.lostFor.any (s.evidHeats ≤ ·) then s
    else
      let s := { s with txl := { s.txl with checked := true } }
      if s.bound.any s.lineLive then s.txlEvent 0xF2 0xFF 0xFF 0 else s

/-! ### Frames received (R391, R392, R394) -/

def laneBits (bs : List Byte) (off : Nat) : BitVec 128 := BitVec.ofNat 128 (leAt bs off 16)

/-- A frame that names another engine than the partner: discarded, with event 0xF7. -/
def State.wrongEngine (s : State) (id : Nat) : State :=
  let s := { s with txl := { s.txl with good := 0 } }
  let s := s.setBit Reg.txlStatus (if id = s.straps.engineId.toNat then 7 else 6) true
  s.showArmed.txlEvent 0xF7 0xFF 0xFF id

/-- A takeover is abandoned before its relay bit is set: the lane comes back on its own route (R397). -/
def State.abandonTake (s : State) (n : Nat) : State := (((s.freeRoute n).takeMute n false).pairEvent 0xF4 n 0).toWatch n

/-- What an accepted frame's HEALTHY bit does to a binding (R397, R404). -/
def State.pairHealthy (s : State) (n : Nat) (healthy : Bool) : State :=
  let st := s.pairSt n
  let s := if healthy then s.putF (Reg.txlBstate n) 31 24 0 else s
  if st = bsSwitchIn then (if healthy && (s.pairLAt n).step == .rampOut then s.abandonTake n else s)
  else if st = bsTaken then (if healthy then (s.setPairSt n bsReturnWait).setPairL n { s.pairLAt n with waited := 0 } else s)
  else if st = bsReturnWait then (if healthy then s else s.setPairSt n bsTaken)
  else if st = bsSwitchOut then (if healthy then s else s.cancelReturn n)
  else s

/-- An accepted control frame. -/
def State.controlAccepted (s : State) (bs : List Byte) : State :=
  let ef := leAt bs 9 1
  let healthy := laneBits bs 16
  let taken := laneBits bs 48
  let t : TxlH := { s.txl with
    good := s.txl.good + 1, miss := 0, got := true, ever := true, quiet := laneBits bs 32, ret := laneBits bs 64
    healthy := s.txl.healthy ||| healthy }
  let s := ({ s with txl := t }).putF Reg.txlPartner 7 0 ef
  let s := ((s.setBit Reg.txlStatus 5 (ef.testBit 0)).setBit Reg.txlStatus 4 (ef.testBit 3)).setBit Reg.txlStatus 3 false
  let s := forUpto 4 (fun k s =>
    (s.setReg (Reg.txlPhealthy k) (BitVec.ofNat 32 (leAt bs (16 + 4 * k) 4))).setReg (Reg.txlPtaken k)
      (BitVec.ofNat 32 (leAt bs (48 + 4 * k) 4))) s
  let s := s.bound.foldl (fun s n =>
    (s.setBit (Reg.txlBstate n) 10 (t.quiet.getLsbD (s.plane n))).pairHealthy n (healthy.getLsbD (s.plane n))) s
  let s := (List.range 128).foldl (fun s n =>
    if (s.laneAt n).pairOwn = taken.getLsbD n then s
    else (s.setLane n { s.laneAt n with pairOwn := taken.getLsbD n }).pairMuteEval n) s
  if t.good < 16 then s
  else
    let s := ((s.setBit Reg.txlStatus 7 false).setBit Reg.txlStatus 6 false).showArmed
    if s.bit Reg.txlStatus 2 then s
    else ({ s.setBit Reg.txlStatus 2 true with txl := { s.txl with lostFor := none } }).txlEvent 0xF0 0xFF 0xFF 0

/-- TROXLINK_CONTROL_FRAME: 128 bytes from the partner. A frame received shows block lock. -/
def execTroxlinkControlFrame (bytes : List Byte) (s : State) : Host.Outcome State Fault Refusal :=
  act s fun s =>
    if s.inReset 221 then s else
    let s := s.setBit Reg.txlStatus 1 true
    if !s.bit Reg.txlCtrl 0 then s
    else if bytes.length ≠ 128 ∨ (crc32 (bytes.take 124)).toNat ≠ leAt bytes 124 4 then
      ({ s with txl := { s.txl with good := 0 } }).bump Reg.txlCrcCnt 32
    else
      let id := leAt bytes 8 1 % 64
      let s := s.putF Reg.txlPartner 13 8 id
      if id = s.getF Reg.txlCtrl 21 16 ∧ id ≠ s.straps.engineId.toNat then s.controlAccepted bytes else s.wrongEngine id

/-- TROXLINK_BUS_FRAME: 208 bytes of a zone bus heat, kept for gathering unless it comes after its boundary. -/
def execTroxlinkBusFrame (bytes : List Byte) (s : State) : Host.Outcome State Fault Refusal :=
  act s fun s =>
    if s.inReset 221 then s else
    let s := s.setBit Reg.txlStatus 1 true
    if !s.bit Reg.txlCtrl 0 then s
    else if bytes.length ≠ 208 ∨ (crc32 (bytes.take 204)).toNat ≠ leAt bytes 204 4 then s.bump Reg.txlCrcCnt 32
    else
      let h := leAt bytes 0 8
      let z := leAt bytes 8 1
      if h + 2 ≤ s.heat then s
      else
        let old := (Sparse.get [] s.pbus z).filter (·.1 != h)
        { s with pbus := Sparse.set [] s.pbus z (((h, wordsOf 48 ((bytes.drop 12).take 192)) :: old).take 8) }

/-! ### Evidence at a heat boundary (R396, R397) -/

/-- The taker is ready. -/
def State.takerReady (s : State) (n : Nat) : Bool :=
  s.laneSt n == lsRunning && s.groupHold n == 0#11 && !s.wup && s.bit Reg.txlStatus 0

/-- Step 1 of a takeover (R398). -/
def State.takeover (s : State) (n : Nat) : State :=
  let s := (s.setPairSt n bsSwitchIn).holdRoute n
  (s.setPairL n { s.pairLAt n with step := .rampOut }).takeMute n true

/-- The bus a lane plays had no sample reaching 10^(−SIL_DB/20) in heat `c`. -/
def State.busSilent (s : State) (n c : Nat) : Bool :=
  let lim := dbLinear (-((clampNat 40 100 (s.getF Reg.txlLevCfg 31 24) * 100 : Nat) : Rat))
  (s.laneBus n c).all fun x => let v := sampleVal x; decide (-lim < v) && decide (v < lim)

/-- A VA layer is active in the zone the lane plays, or in the partner's zone for that line. -/
def State.pairVa (s : State) (n : Nat) : Bool :=
  let va (z : Nat) : Bool := (s.zoneLayers z).any fun l => l.va && l.active
  va (s.pzone n) || (s.routeAt n).zone.any fun z => va (z % 256)

/-- One binding at a heat boundary, zone bus heat `c` the newest. -/
def State.pairHeat (s : State) (n c : Nat) : State :=
  let st := s.pairSt n
  let live := s.lineLive n
  let hb := if s.txl.healthy.getLsbD (s.plane n) then 0 else satInc 8 (s.getF (Reg.txlBstate n) 31 24)
  let dead := if live then 0 else satInc 8 (s.getF (Reg.txlBstate n) 23 16)
  let s := ((s.putF (Reg.txlBstate n) 31 24 hb).putF (Reg.txlBstate n) 23 16 dead).setBit (Reg.txlBstate n) 9 (!live)
  if (st = bsSwitchIn ∨ st = bsTaken ∨ st = bsReturnWait) ∧ s.takerFault n then s.pairRelease n
  else
    let h := s.pairLAt n
    let s := if st = bsTaken ∨ st = bsReturnWait then
        s.setPairL n { h with silent := if s.busSilent n c && !s.pairVa n then h.silent + 1 else 0, waited := h.waited + 1 } else s
    if st ≠ bsWatch then s
    else if s.hbTimeout ≤ hb ∧ s.evidHeats ≤ dead ∧ !s.bit (Reg.txlBstate n) 10 then
      if s.takerReady n then s.takeover n
      else if h.withheld then s
      else (s.setPairL n { h with withheld := true }).pairEvent 0xFA n 0
    else s.setPairL n { h with withheld := false }

/-- Blocks of the partner's bus missing from the gathering of heat `c` (R394, R399). -/
def State.partnerGather (s : State) (n c : Nat) : State :=
  match (s.routeAt n).zone with
  | some z =>
    if z < 256 ∨ s.pairSt n = bsOff then s
    else
      let h := s.pairLAt n
      if (Sparse.get [] s.pbus (z - 256)).any (·.1 == c) then s.setPairL n { h with miss := 0 }
      else
        let s := (s.setPairL n { h with miss := h.miss + 1 }).bump Reg.txlBusMissCnt 32
        if h.miss = 0 then s.pairEvent 0xF8 n 1 else s
  | none => s

/-- The boundary of the link: frames missed, the bindings, and mutes released on link loss. -/
def State.txlHeat (s : State) (c : Nat) : State :=
  let s := if s.txl.got then s else ({ s with txl := { s.txl with miss := s.txl.miss + 1, good := 0 } }).bump Reg.txlHbMissCnt 32
  let s := { s with txl := { s.txl with lostFor := s.txl.lostFor.map (· + 1) } }
  let s := s.freeOwnMutes
  let s := s.bound.foldl (fun s n => (s.partnerGather n c).pairHeat n c) s
  { s with txl := { s.txl with got := false, healthy := 0 } }

/-! ### Frames sent (R391, R393) -/

/-- HEALTHY of a lane. -/
def State.laneHealthy (s : State) (n : Nat) : Bool :=
  let h := s.laneAt n
  let own := h.mute || h.lpMute || h.muteReq
  s.present (n / 8) && s.bit (Reg.tlLinkStatus (n / 8)) 1 && s.lpSt (n / 8) == lpRunning &&
    ((s.laneSt n == lsRunning && s.groupHold n == 0#11) ||
      (s.laneSt n == lsSafeLow && s.groupHold n == 1#11 && h.pairMute && !own))

/-- QUIET of a lane. -/
def State.laneQuietBit (s : State) (n : Nat) : Bool :=
  let h := s.laneAt n
  (h.stopped && s.laneSt n == lsOff) || h.mute || h.muteReq

/-- A bit for each partner lane of a binding. -/
def State.planeBits (s : State) (p : Nat → Bool) : Nat :=
  s.bound.foldl (fun a n => if p n then a ||| 2 ^ s.plane n else a) 0

/-- The control frame of this boundary. -/
def State.controlFrame (s : State) : List Byte :=
  let locked : Bool := s.pcrSt == pcLocked
  let ef := (if s.vaFlag then 1 else 0) + (if s.batMode then 2 else 0) + (if s.mnt then 4 else 0) + (if locked then 8 else 0) +
    (if s.ftm then 16 else 0)
  let rets := s.bound.filter fun n => s.pairSt n == bsSwitchOut && (s.pairLAt n).step != .rampIn
  let heats := rets.map fun n => (s.pairLAt n).retHeat
  let body := leBytes 8 s.heat ++ leBytes 1 s.straps.engineId.toNat ++ leBytes 1 ef ++ leBytes 2 s.txl.seq ++ leBytes 4 0 ++
    leBytes 16 (bitsOf s.laneHealthy 128) ++ leBytes 16 (bitsOf s.laneQuietBit 128) ++ leBytes 16 (s.planeBits s.relayShown) ++
    leBytes 16 (s.planeBits fun n => rets.contains n) ++ leBytes 8 (heats.min?.getD 0) ++ leBytes 36 0
  body ++ leBytes 4 (crc32 body).toNat

/-- The bus frame of zone `z` for heat `c`. -/
def State.busFrame (s : State) (z c : Nat) : List Byte :=
  let b := (s.zoneAt z).done.find? fun b => b.1 == c
  let body := leBytes 8 c ++ leBytes 1 z ++ leBytes 1 (if b.any (·.2.2.2) then 1 else 0) ++ leBytes 2 0 ++
    bytesOfWords ((s.busBlock z c ++ List.replicate 48 0#32).take 48)
  body ++ leBytes 4 (crc32 body).toNat

/-- The frames sent in a heat: one control frame, none in warm-up, and a bus frame for each zone selected. -/
def State.txlSend (s : State) (c : Nat) : State :=
  if !s.bit Reg.txlCtrl 0 then s
  else
    let zs := (List.range 256).filter fun z => s.bit (Reg.txlBusTx (z / 32)) (z % 32) && (s.zoneAt z).done.any (·.1 == c)
    let s := { s with txl := { s.txl with buses := zs.map fun z => s.busFrame z c } }
    if s.wup then s else { s with txl := { s.txl with sent := s.controlFrame, seq := (s.txl.seq + 1) % 65536 } }

/-! ### Takeover (R398, R399) -/

/-- The lane stands in SAFE_LOW by its pairing mute (R398 step 2, R404 step 3). -/
def State.pairSafe (s : State) (n : Nat) : Bool := s.laneSt n == lsSafeLow && (s.laneAt n).pairMute

/-- The ramp back to full gain has ended. -/
def State.pairFull (s : State) (n : Nat) : Bool := (s.laneAt n).gain == .full || ((s.laneAt n).gain == .rampIn && (s.laneAt n).rampOver)

/-- `RLY_SETTLE` has passed since the relay bit changed (R398 step 4, R404 step 4). -/
def State.settled (s : State) (n : Nat) : Bool :=
  decide ((s.pairLAt n).since + clampNat 5 50 (s.getF Reg.txlCfg 7 0) * 1000000 ≤ s.pacer.ns.toNat)

/-- TAKEOVER_RECHECK: the lane is in SAFE_LOW. In the last complete heat the line was dead: the relay bit is set; else the lane comes back on
its own route. -/
def execTakeoverRecheck (n : Fin 128) (s : State) : Host.Outcome State Fault Refusal :=
  act s fun s =>
    let n := n.val
    let h := s.pairLAt n
    if s.pairSt n ≠ bsSwitchIn ∨ h.step ≠ .rampOut ∨ !s.pairSafe n then s
    else if s.bit (Reg.txlBstate n) 9 then (s.setPairL n { h with step := .relay, since := s.pacer.ns.toNat }).setRelay n true
    else s.abandonTake n

/-- The takeover source (R399): the partner's bus when it is wanted and came in the last four heats, else the local zone. -/
def State.takeSource (s : State) (n : Nat) : Option Nat :=
  let z := s.pzone n
  let bus := Sparse.get [] s.pbus z
  if s.bit (Reg.txlBind n) 30 && (List.range 4).all fun i => bus.any (·.1 + 2 + i == s.heat) then some (256 + z)
  else (s.pairLAt n).home

/-- TAKEOVER_RELEASE: the relay has settled; the input moves, and the pairing mute clears. A relay found open is a taker fault. -/
def execTakeoverRelease (n : Fin 128) (s : State) : Host.Outcome State Fault Refusal :=
  act s fun s =>
    let n := n.val
    let h := s.pairLAt n
    if s.pairSt n ≠ bsSwitchIn ∨ h.step ≠ .relay ∨ !s.settled n then s
    else if !s.relayShown n then s.pairRelease n
    else
      let s := s.setSource n (s.takeSource n)
      (s.setPairL n { h with step := .rampIn, held := true, miss := 0 }).takeMute n false

/-- TAKEOVER_COMPLETE: full gain on both lines. -/
def execTakeoverComplete (n : Fin 128) (s : State) : Host.Outcome State Fault Refusal :=
  act s fun s =>
    let n := n.val
    let h := s.pairLAt n
    if s.pairSt n ≠ bsSwitchIn ∨ h.step ≠ .rampIn ∨ !s.pairFull n then s
    else
      let s := (s.setPairL n { h with step := .none, silent := 0 }).setPairSt n bsTaken
      ((s.setTakenBit n true).bump Reg.txlTakeCnt 32).pairEvent 0xF3 n 0

/-- PARTNER_BUS_MISSING: four partner blocks in a row are missing, and the lane moves to its local zone until the return. -/
def execPartnerBusMissing (n : Fin 128) (s : State) : Host.Outcome State Fault Refusal :=
  act s fun s =>
    let n := n.val
    let h := s.pairLAt n
    if !s.bit (Reg.txlBstate n) 8 || h.miss < 4 then s
    else
      let s := (s.groupLanes n).foldl (fun s k => (s.setRoute k ((s.routeAt k).change h.home)).showRoute k) s
      (s.setBit (Reg.txlBstate n) 8 false).pairEvent 0xF9 n h.miss

/-! ### Return (R403, R404) -/

/-- Step 1: the return is scheduled. -/
def State.startReturn (s : State) (n : Nat) : State :=
  if s.pairSt n ≠ bsReturnWait ∨ s.pairVa n then s
  else (s.setPairSt n bsSwitchOut).setPairL n { s.pairLAt n with step := .none, retHeat := s.heat + 4 }

/-- RETURN_SILENCE: 2,000 silent heats in a row. -/
def execReturnSilence (n : Fin 128) (s : State) : Host.Outcome State Fault Refusal :=
  act s fun s => if (s.pairLAt n.val).silent < 2000 then s else s.startReturn n.val

/-- MAX_HOLD_EXPIRY: MAX_HOLD seconds in RETURN_WAIT. -/
def execMaxHoldExpiry (n : Fin 128) (s : State) : Host.Outcome State Fault Refusal :=
  act s fun s =>
    if (s.pairLAt n.val).waited < clampNat 10 65535 (s.getF Reg.txlCfg 31 16) * 1000 then s else s.startReturn n.val

/-- RETURN_MUTE: at D + 4 ms the taker lane ramps out. -/
def execReturnMute (n : Fin 128) (s : State) : Host.Outcome State Fault Refusal :=
  act s fun s =>
    let n := n.val
    let h := s.pairLAt n
    if s.pairSt n ≠ bsSwitchOut ∨ h.step ≠ .none ∨ s.heat < h.retHeat then s
    else (s.setPairL n { h with step := .rampOut }).takeMute n true

/-- RETURN_RELAY_CLEAR: the lane is in SAFE_LOW, and the relay bit is cleared. -/
def execReturnRelayClear (n : Fin 128) (s : State) : Host.Outcome State Fault Refusal :=
  act s fun s =>
    let n := n.val
    let h := s.pairLAt n
    if s.pairSt n ≠ bsSwitchOut ∨ h.step ≠ .rampOut ∨ !s.pairSafe n then s
    else (s.setPairL n { h with step := .relay, held := false, since := s.pacer.ns.toNat }).setRelay n false

/-- RETURN_RESTORE: the relay is open and settled; the lane takes its own route back and comes up on it. -/
def execReturnRestore (n : Fin 128) (s : State) : Host.Outcome State Fault Refusal :=
  act s fun s =>
    let n := n.val
    let h := s.pairLAt n
    if s.pairSt n ≠ bsSwitchOut ∨ h.step ≠ .relay ∨ s.relayShown n ∨ !s.settled n then s
    else
      let s := (s.freeRoute n).setTakenBit n false
      (s.setPairL n { h with step := .rampIn, since := s.pacer.ns.toNat }).takeMute n false

/-- RETURN_COMPLETE: both lines at full gain, 9.1 ms after the lane came back, the owner's 1 ms later than it. -/
def execReturnComplete (n : Fin 128) (s : State) : Host.Outcome State Fault Refusal :=
  act s fun s =>
    let n := n.val
    if s.pairSt n ≠ bsSwitchOut ∨ (s.pairLAt n).step ≠ .rampIn ∨ !s.pairFull n ∨ s.pacer.ns.toNat < (s.pairLAt n).since + 9100000 then s
    else (s.pairEvent 0xF5 n 0).toWatch n

/-! ### Descriptors (R395, R405) -/

/-- Another enabled binding names the partner lane. -/
def State.planeUsed (s : State) (lane plane : Nat) : Bool :=
  (List.range 128).any fun n => n != lane && s.bit (Reg.txlBind n) 31 && s.plane n == plane

def pairBindRow : Row where
  blk := .other
  check := fun s d =>
    let f := d.pl 6 2
    s.laneFields (d.byte 0) [(d.byte 1 < 128 && !s.planeUsed (d.byte 0) (d.byte 1), 1), (d.byte 2 < 8, 2), (d.byte 5 == 0, 5),
      (18000 ≤ f && f ≤ 30000, 6), (restZero d 8, 8)]
  commit := fun e s =>
    let d := e.desc.body
    let n := d.byte 0
    if s.planeUsed n (d.byte 1) then (s, .done stBad 25)
    else if bsWatch < s.pairSt n then (s, .done stMode 0)
    else
      let fl := d.byte 2
      let w := (if fl.testBit 0 then 2 ^ 31 else 0) + (if fl.testBit 1 then 2 ^ 30 else 0) + (if fl.testBit 2 then 2 ^ 29 else 0) +
        d.byte 1 * 2 ^ 16 + d.byte 3 * 2 ^ 8 + d.byte 4
      let s := s.setReg (Reg.txlBind n) (BitVec.ofNat 32 w)
      let s := s.putF (Reg.tlLevCfg (n / 8) (n % 8)) 15 0 (d.pl 6 2)
      let s := s.putF (Reg.tlLevTh (n / 8)) 15 0 (s.getF Reg.txlLevCfg 23 8)
      let s := (s.setReg (Reg.txlBstate n) 0).setPairL n {}
      let s := if fl.testBit 0 then
          (s.toWatch n).setBit (Reg.txlBstate n) 10 (s.txl.ever && s.txl.quiet.getLsbD (d.byte 1)) else s
      (s, resOk)

def execPairBind (ph : Phase) (o : Origin) (d : Body) (s : State) : Host.Outcome State Fault Refusal :=
  descCmd pairBindRow 0x0800 ph o d s

def pairBusRow : Row where
  blk := .other
  check := fun _ d => firstBad [(d.byte 1 ≤ 1, 1), (restZero d 2, 2)]
  commit := fun e s =>
    let z := e.desc.body.byte 0
    (s.setBit (Reg.txlBusTx (z / 32)) (z % 32) (e.desc.body.byte 1 == 1), resOk)

def execPairBus (ph : Phase) (o : Origin) (d : Body) (s : State) : Host.Outcome State Fault Refusal :=
  descCmd pairBusRow 0x0801 ph o d s

def pairReturnRow : Row where
  blk := .other
  check := fun s d => s.laneFields (d.byte 0) [(restZero d 1, 1)]
  commit := fun e s =>
    let n := e.desc.body.byte 0
    if s.pairSt n ≠ bsReturnWait ∨ s.pairVa n then (s, .done stMode 0) else (s.startReturn n, resOk)

def execPairReturn (ph : Phase) (o : Origin) (d : Body) (s : State) : Host.Outcome State Fault Refusal :=
  descCmd pairReturnRow 0x0802 ph o d s

end Sys2Proof.Machine
end

