-- ==== Sys2Proof/Machine/Restart.lean ====
section
/-! DEFINITION. How the block of a source comes out of its block reset (R478). -/

namespace Sys2Proof.Machine

/-- A TDM port restarts on its configuration; the block that was open closes as a short block. -/
def State.tdmRestart (s : State) (n : Nat) : State :=
  let s := if (s.tdmRxAt n).blk.isSome then s.tdmClose n s.heat true else s
  s.setTdmRx n { s.tdmRxAt n with good := 0 }

/-- An AES3 receiver restarts and re-locks under R77. -/
def State.aesRxRestart (s : State) (n : Nat) : State :=
  let s := if (s.aesRxAt n).blk.isSome then s.aesClose n s.heat true else s
  let s := (s.setCs (aesCs n 0) {}).setCs (aesCs n 1) {}
  (s.setAesRx n { s.aesRxAt n with good := 0 }).relock (.aes (Fin.ofNat 8 n))

/-- An AES3 transmitter restarts: its next frame begins a channel-status block. -/
def State.aesTxRestart (s : State) (n : Nat) : State := s.setAesTx n { s.aesTxAt n with zSent := false }

/-- A PDM group restarts, with WARMING under R124. -/
def State.pdmRestart (s : State) (g : Nat) : State :=
  let w := s.warmBlocks
  forUpto 8 (fun i s => s.setMic (g * 8 + i) { s.micAt (g * 8 + i) with warm := w, stuckRun := 0, okRun := 0, bits := [] }) (s.setPdm g { s.pdmAt g with warm := w })

/-- An application core restarts at its reset vector, which the spec does not give: its pc is a free value. -/
def State.coreRestart (s : State) (n : Nat) : State :=
  let s := (s.setBit (Reg.coreAcStatus n) 1 false).setBit (Reg.coreAcStatus n) 0 (s.bit (Reg.coreAcCtrl n) 0)
  (s.setCore n { s.coreAt n with pc := s.freeVal, nmi := false, nmiHeld := false }).take

/-- The block comes out of its reset. A lane processor does with LP_RELOAD_DONE. -/
def State.blockRestart (s : State) (src : Nat) : State :=
  if 160 ≤ src ∧ src < 176 then s.tdmRestart (src - 160)
  else if 176 ≤ src ∧ src < 184 then s.aesRxRestart (src - 176)
  else if 184 ≤ src ∧ src < 188 then s.aesTxRestart (src - 184)
  else if 188 ≤ src ∧ src < 192 then s.pdmRestart (src - 188)
  else if src = 192 ∨ src = 193 then s.pktLinkDown (src - 192)
  else if src = 221 then s.blockLockLost
  else if 223 ≤ src ∧ src < 227 then s.coreRestart (src - 223)
  else s

end Sys2Proof.Machine
end

