-- ==== Sys2Proof/Machine/Faults.lean ====
section
/-! DEFINITION. The commands of the fault collector (15_fault_collection.md): latching, block resets and shadows, acknowledging and
clearing, and the 0x07xx opcodes. -/

namespace Sys2Proof.Machine

/-- `LPn_FAULT` keeps the syndrome of an event 0x72, 0x73 or 0x77 of LP n (R261, R262). -/
def State.lpFaultKept (s : State) (e : Ev) : State :=
  if 144 ≤ e.src.val ∧ e.src.val < 160 ∧ (fld e.syn 31 24 = 0x72 ∨ fld e.syn 31 24 = 0x73 ∨ fld e.syn 31 24 = 0x77) then
    s.setReg (Reg.lpnFault (e.src.val - 144)) e.syn else s

/-- FAULT_EVENT_LATCH (R482): the events that reach the collector in one of its cycles are latched. -/
def execFaultEventLatch (evs : List Ev) (s : State) : Host.Outcome State Fault Refusal :=
  actAlways s fun s =>
    if s.fc.oscStopped then s
    else
      let evs := evs.filter fun e => !srcReserved e.src.val &&
        (144 ≤ e.src.val || s.present (if e.src.val < 128 then e.src.val / 8 else e.src.val - 128))
      (evs.foldl State.lpFaultKept s).latchCycle evs

/-- BLOCK_RESET_DONE (R478): the block of the source has restarted; its shadow closes 16 µs later (R489). -/
def execBlockResetDone (src : Fin 256) (s : State) : Host.Outcome State Fault Refusal :=
  actAlways s fun s =>
    if !s.fc.resets.contains src.val then s
    else
      let done (x : ShadowFc) : ShadowFc := if x.src = src.val then { x with done := true } else x
      let fc := { s.fc with resets := s.fc.resets.filter (· != src.val), shadows := s.fc.shadows.map done }
      State.blockRestart { s with fc := fc } src.val

/-- SHADOW_CLOSE (R489): 16 µs after the reset completed, the shadow of the source closes. -/
def execShadowClose (src : Fin 256) (s : State) : Host.Outcome State Fault Refusal :=
  actAlways s fun s =>
    { s with fc := { s.fc with shadows := s.fc.shadows.filter fun x => !(x.src == src.val && x.done) } }

/-- BLOCK_RESET_OVERDUE (R491): a block reset past its longest duration closes the shadow and raises 0x02 on source 231. -/
def execBlockResetOverdue (src : Fin 256) (s : State) : Host.Outcome State Fault Refusal :=
  actAlways s fun s =>
    if !s.fc.resets.contains src.val then s
    else
      State.emit { s with fc := { s.fc with shadows := s.fc.shadows.filter fun x => !(x.src == src.val && !x.done) } }
        231 0x02 (syn16 0x02 src.val 0)

/-- INT_HOLDOFF_END (R477): 10 µs after an MSI-X, the INTs combined on the port are raised as one. -/
def execIntHoldoffEnd (p : Fin 3) (s : State) : Host.Outcome State Fault Refusal :=
  actAlways s fun s =>
    let w := s.fc.irqWait.contains p.val
    let s := { s with fc := { s.fc with irqBusy := s.fc.irqBusy.filter (· != p.val),
                                        irqWait := s.fc.irqWait.filter (· != p.val) } }
    if w then s.intPort p.val else s

/-- Acknowledge every source whose window is open (R486). -/
def State.ackAll (s : State) : State :=
  forUpto 256 (fun k s => if s.bitVecGet Reg.fcOpen k then s.ackSource k else s) s

/-- FC_ACK_WRITE (R486): a write of the source, or of ALL, closes reaction windows. -/
def execFcAckWrite (m : Master) (v : Word) (s : State) : Host.Outcome State Fault Refusal :=
  act s fun s => s.gated m Reg.fcAck fun s => if bitAt v 31 then s.ackAll else
    if s.bitVecGet Reg.fcOpen (fld v 7 0) then s.ackSource (fld v 7 0) else s

/-- The photo-finish record is cleared (R484). -/
def State.clearPf (s : State) : State :=
  (forUpto 8 (fun j s => s.setReg (Reg.fcPf j) 0) s).setBit Reg.fcStatus 7 false

/-- FC_PF_CLEAR_WRITE (R484): a write of 1 clears the photo-finish record. -/
def execFcPfClearWrite (m : Master) (v : Word) (s : State) : Host.Outcome State Fault Refusal :=
  act s fun s => s.gated m Reg.fcPfClear fun s => if bitAt v 0 then s.clearPf else s

/-- Clear the status bit of a source with its hold bits while its window is closed; CLR_OPEN while it is open (R492). -/
def State.clearSource (s : State) (k : Nat) : State :=
  if s.bitVecGet Reg.fcOpen k then s.setBit Reg.fcStatus 5 true
  else ((s.bitVecSet Reg.fcFsw k false).bitVecSet Reg.fcHoldva k false).bitVecSet Reg.fcHoldgen k false

/-- FC_FSW_CLEAR (R492): a W1C write to word `w` of the status word. -/
def execFcFswClear (m : Master) (w : Fin 8) (v : Word) (s : State) : Host.Outcome State Fault Refusal :=
  act s fun s => s.gated m (Reg.fcFsw w.val) fun s =>
    forUpto 32 (fun b s => if bitAt v b then s.clearSource (32 * w.val + b) else s) s

/-- FC_FSW0_READ (R492): the eight status words are frozen for the reading master. -/
def execFcFsw0Read (m : Master) (s : State) : Host.Outcome State Fault Refusal :=
  act s fun s => { s.latchWords m ((List.range 8).map Reg.fcFsw) s.reg with rdata := s.reg (Reg.fcFsw 0) }

/-- FC_HIST_TIME_LO_READ (R483): a read of TIME_LO of an entry, 32 standing for the photo-finish record, latches its other words. -/
def execFcHistTimeLoRead (m : Master) (k : Fin 33) (s : State) : Host.Outcome State Fault Refusal :=
  act s fun s =>
    let w (j : Nat) : Nat := if k.val < 32 then Reg.fcHist k.val j else Reg.fcPf j
    { s.latchWords m ((List.range 7).map fun j => w (j + 1)) s.reg with rdata := s.reg (w 0) }

/-- COLLECTOR_OSCILLATOR_STOP (R494): the collector stops, and VA_ALIVE stays at its last level. -/
def execCollectorOscillatorStop (s : State) : Host.Outcome State Fault Refusal :=
  actAlways s fun s => { s with fc := { s.fc with oscStopped := true } }

/-! ### The 0x07xx opcodes (R496) -/

def faultAckRow : Row where
  blk := .now
  group := false
  check _ d := firstBad [(d.pl 0 2 < 256 || d.pl 0 2 == 0xFFFF, 0), (restZero d 2, 2)]
  commit e s :=
    let k := e.desc.body.pl 0 2
    (if k = 0xFFFF then s.ackAll else if s.bitVecGet Reg.fcOpen k then s.ackSource k else s, resOk)

def faultClearRow : Row where
  blk := .now
  group := false
  check _ d := firstBad [(restZero d 32, 32)]
  commit e s :=
    let ks := (List.range 256).filter fun k => e.desc.body.byte (k / 8) / 2 ^ (k % 8) % 2 == 1
    let s := ks.foldl (fun s k => s.clearSource k) s
    (s, .done stOk (ks.filter fun k => s.bitVecGet Reg.fcFsw k).length)

def faultPfClearRow : Row where
  blk := .now
  group := false
  check _ d := firstBad [(restZero d 0, 0)]
  commit _ s := (s.clearPf, resOk)

/-- ADD asks BLOCK_RESET for a class of a source that has no block reset (R476). -/
def addsReset (src : Nat) (add : Word) : Bool := !srcResettable src && (bitAt add 2 || bitAt add 10 || bitAt add 18)

def faultReactRow : Row where
  blk := .other
  group := false
  check s d :=
    (firstBad [(!srcReserved (d.byte 0), 0), (d.byte 1 < 8, 1),
      (!addsReset (d.byte 0) (BitVec.ofNat 32 (d.pl 6 4)), 6), (restZero d 10, 10)]).andThen
      (if s.bit Reg.fcLock 0 then .mode else .ok)
  commit e s :=
    let d := e.desc.body
    if s.bit Reg.fcLock 0 then (s, .done stMode 0)
    else
      let s := if d.byte 1 % 2 = 1 then
          (s.setReg (Reg.fcSrcMask (d.byte 0)) (BitVec.ofNat 32 (d.pl 2 4) &&& 0x003F3F3F#32)).setReg
            (Reg.fcSrcAdd (d.byte 0)) (BitVec.ofNat 32 (d.pl 6 4) &&& 0x003F3F3F#32)
        else s
      (if d.byte 1 / 4 % 2 = 1 then s.bitVecSet Reg.fcVasel (d.byte 0) (d.byte 1 / 2 % 2 == 1) else s, resOk)

/-- FAULT_ACK (R486, R496): acknowledges one source, or every open window, at acceptance. -/
def execFaultAck (o : Origin) (d : Body) (s : State) : Host.Outcome State Fault Refusal := nowCmd faultAckRow 0x0700 o d s

/-- FAULT_CLEAR (R492, R496): clears status bits by mask; VALUE counts those left set. -/
def execFaultClear (o : Origin) (d : Body) (s : State) : Host.Outcome State Fault Refusal :=
  nowCmd faultClearRow 0x0701 o d s

/-- FAULT_PF_CLEAR (R484, R496): clears the photo-finish record at acceptance. -/
def execFaultPfClear (o : Origin) (d : Body) (s : State) : Host.Outcome State Fault Refusal :=
  nowCmd faultPfClearRow 0x0702 o d s

/-- FAULT_REACT (R496): sets a source's masks and its VA class at its heat. -/
def execFaultReact (ph : Phase) (o : Origin) (d : Body) (s : State) : Host.Outcome State Fault Refusal :=
  descCmd faultReactRow 0x0703 ph o d s

end Sys2Proof.Machine
end

