-- ==== Sys2Proof/Machine/Opcodes.lean ====
section
/-! DEFINITION. Every opcode and its row (R451), and the commands that take descriptors of any opcode: a ring read, the queues of the
application cores, BATON_ADOPT, the end of a handover, and the end of a vote's window. -/

namespace Sys2Proof.Machine

/-! ### The opcodes (R451) -/

/-- BATON_ADOPT among the descriptors that a BATON_ADOPT executes: nothing is pending any more (R422). -/
def adoptNone : Row where
  blk := .now
  group := false
  check := fun _ _ => .bad 1
  commit := fun _ s => (s, resOk)

/-- The row of opcodes 0x0000 to 0x02FF. -/
def rowLow (op : Nat) (d : Body) : Option Row :=
  if op = 0x0000 then some nopRow
  else if op = 0x0001 then some barrierRow
  else if op = 0x0041 then some voteMarkRow
  else if op = 0x0100 then some zoneSetRow
  else if op = 0x0101 then some layerSetRow
  else if op = 0x0102 then some (assertRow (if d.byte 3 = 0 then 0 else 1))
  else if op = 0x0103 then some laneRouteRow
  else if op = 0x0104 then some returnSetRow
  else if op = 0x0105 then some ambSetRow
  else if op = 0x0200 then some laneParamRow
  else if op = 0x0201 then some laneParamInlineRow
  else if op = 0x0202 then some laneDelayRow
  else if op = 0x0210 then some lpLoadRow
  else if op = 0x0211 then some (if d.byte 2 = 0 then lpRunStopRow else lpRunStartRow)
  else if op = 0x0220 then
    some (if d.byte 1 = 0 then laneRunRow 0 laneStop else if d.byte 1 = 2 then laneRunRow 2 laneMute
      else if d.byte 1 = 3 then laneRunRow 3 laneUnmute else laneRunRow 1 laneStart)
  else if op = 0x0221 then some scClearRow
  else if op = 0x0222 then some relaySetRow
  else if op = 0x0230 then some rindSetRow
  else if op = 0x0231 then some rindClearRow
  else if op = 0x0232 then some battSetRow
  else if op = 0x0233 then some poolSetRow
  else none

/-- The row of opcodes from 0x0300. -/
def rowHigh (op : Nat) (d : Body) : Option Row :=
  if op = 0x0300 then some playerSetRow
  else if op = 0x0301 then some playerFlushRow
  else if op = 0x0302 then some clipLoadRow
  else if op = 0x0303 then some clipPinRow
  else if op = 0x0304 then some clipDropRow
  else if op = 0x0400 then some testReqRow
  else if op = 0x0401 then some testCancelRow
  else if op = 0x0402 then some testgenSetRow
  else if op = 0x0500 then
    some (if d.byte 0 = mdBat then modeBatRow else if d.byte 0 = mdWup then modeWupRow else if d.byte 0 = mdMnt then modeMntRow
      else if d.byte 0 = mdFtm then modeFtmRow else modeVaRow)
  else if op = 0x0600 then some srcBindRow
  else if op = 0x0601 then some srcFallbackRow
  else if op = 0x0602 then some streamSetRow
  else if op = 0x0603 then some chGainRow
  else if op = 0x0610 then some flowRxSetRow
  else if op = 0x0611 then some flowTxSetRow
  else if op = 0x0612 then some vsrcSetRow
  else if op = 0x0700 then some faultAckRow
  else if op = 0x0701 then some faultClearRow
  else if op = 0x0702 then some faultPfClearRow
  else if op = 0x0703 then some faultReactRow
  else if op = 0x0800 then some pairBindRow
  else if op = 0x0801 then some pairBusRow
  else if op = 0x0802 then some pairReturnRow
  else none

/-- The row of an opcode; none for one not listed. -/
def baseRow (d : Desc) : Option Row :=
  let op := d.opcode.toNat
  if op = 0x0040 then some adoptNone else if op < 0x0300 then rowLow op d.body else rowHigh op d.body

/-! ### BATON_ADOPT (R421, R422) -/

/-- The command rings of a port advance to the last producer index rung, and are no longer frozen. -/
def State.skipRings (s : State) (p : Nat) : State :=
  (s.commandRings p).foldl (fun s r => (s.setReg (Reg.ringCons r) (s.reg (Reg.ringProd r))).setBit (Reg.ringStatus r) 3 false) s

/-- The unmatched shadow descriptors of pair `k` execute in ring order, and its shadow ring becomes a command ring. -/
def State.adoptPair (s : State) (k : Nat) (rds : List ReadResult) : State × List ReadResult :=
  let todo := (s.pairAt k).shadow.filter (!·.settled)
  let s := (s.setPair k {}).setBit (Reg.gblShadow k) 31 false
  todo.foldl (fun a e => (a.1.accept (baseRow e.desc) .command e.org e.desc (a.2.headD .error), a.2.drop 1)) (s, rds)

/-- The frozen pairs that mirror a ring of port `p` are settled: adopted where `adopt` and the shadow ring is the owner's, else dropped. -/
def State.settlePairs (s : State) (p : Nat) (adopt : Bool) (rds : List ReadResult) : State :=
  ((List.range 64).foldl (fun (a : State × List ReadResult) k =>
    let s := a.1
    if !(s.pairAt k).frozen || s.ringPort (s.pairMirror k) != p then a
    else if adopt && s.owns (s.ringPort (s.pairShadow k)) then s.adoptPair k a.2
    else (s.pairDrop k, a.2)) (s, rds)).1

/-- BATON_ADOPT; `rds` are what the reads of the descriptors it executes return. -/
def adoptRow (action : Nat) (rds : List ReadResult) : Row where
  blk := .now
  group := false
  check := fun s d => (firstBad [(d.byte 0 == action, 0), (d.byte 1 ≤ 2, 1), (restZero d 2, 2)]).andThen
    (if s.bit Reg.gblBatonState 14 && s.getF Reg.gblBatonState 13 12 == d.byte 1 then .ok else .bad 1)
  commit := fun e s =>
    let p := e.desc.body.byte 1
    let s := ((s.skipRings p).setBit Reg.gblBatonState 14 false).settlePairs p (action == 1) rds
    (s.pairsFollow, resOk)

def execBatonAdoptDiscard (o : Origin) (d : Body) (s : State) : Host.Outcome State Fault Refusal := nowCmd (adoptRow 0 []) 0x0040 o d s

def execBatonAdoptAdopt (o : Origin) (d : Body) (rds : List ReadResult) (s : State) : Host.Outcome State Fault Refusal :=
  nowCmd (adoptRow 1 rds) 0x0040 o d s

/-- The row of any opcode, with what the reads of an adoption return. -/
def rowOf (d : Desc) (rds : List ReadResult) : Option Row :=
  if d.opcode = 0x0040#16 then some (adoptRow (if d.body.byte 0 = 0 then 0 else 1) rds) else baseRow d

/-! ### Application cores' queues (R527) -/

/-- Descriptors are taken from a core's queue, oldest first, while they may be. -/
def State.drainCore (n : Fin 4) : Nat → State → State
  | 0, s => s
  | k + 1, s =>
    match (s.coreAt n.val).dq with
    | [] => s
    | (d, rd) :: ds =>
      if !s.mayTakeCore n.val then s
      else
        let s := (s.setCore n.val { s.coreAt n.val with dq := ds }).showQueues n.val
        State.drainCore n k (s.takeCore (rowOf d [rd]) n d rd)

def State.drainCores (s : State) : State := [0, 1, 2, 3].foldl (fun s n => State.drainCore n 16 s) s

/-- The descriptor in a core's window. -/
def State.windowDesc (s : State) (n : Nat) : Desc :=
  let bs := bytesOfWords ((List.range 16).map fun j => s.reg (Reg.coreAcDqWin n j))
  { opcode := BitVec.ofNat 16 (leAt bs 0 2)
    body := { flags := BitVec.ofNat 16 (leAt bs 2 2), rsv := BitVec.ofNat 32 (leAt bs 4 4), tag := BitVec.ofNat 64 (leAt bs 8 8),
              commit := BitVec.ofNat 64 (leAt bs 16 8), payload := bs.drop 24 } }

/-- CORE_DQ_PUSH: the window is queued, or DQ_FULL is set; `rd` is what a read the descriptor makes at acceptance returns. -/
def execCoreDqPush (m : Master) (n : Fin 4) (v : Word) (rd : ReadResult) (s : State) : Host.Outcome State Fault Refusal :=
  act s fun s => s.gated m (Reg.coreAcDqPush n.val) fun s =>
    let h := s.coreAt n.val
    if !bitAt v 0 then s
    else if 16 ≤ h.dq.length then s.setBit (Reg.coreAcStatus n.val) 8 true
    else
      let s := (s.setCore n.val { h with dq := h.dq ++ [(s.windowDesc n.val, rd)] }).showQueues n.val
      State.drainCore n 16 s

/-- CORE_CQ_POP: the head completion is removed. -/
def execCoreCqPop (m : Master) (n : Fin 4) (v : Word) (s : State) : Host.Outcome State Fault Refusal :=
  act s fun s => s.gated m (Reg.coreAcCqPop n.val) fun s =>
    if !bitAt v 0 then s
    else
      let h := s.coreAt n.val
      State.drainCore n 16 ((s.setCore n.val { h with cq := h.cq.drop 1 }).showQueues n.val)

/-! ### Ring reads (R444) -/

/-- How many entries one read of a ring can take: 16, and none beyond the ring's end. -/
def State.readLimit (s : State) (r : Nat) : Nat := min 16 (s.ringSize r - (s.reg (Reg.ringCons r)).toNat % s.ringSize r)

/-- RING_READ_DONE: the data of a read arrives, and its descriptors are accepted in ring order. With each descriptor stands what the
reads that it makes at acceptance return. -/
def execRingReadDone (r : Fin 32768) (ds : List (Desc × List ReadResult)) (s : State) : Host.Outcome State Fault Refusal :=
  act s fun s => (ds.take (s.readLimit r.val)).foldl (fun s x => s.takeRing (rowOf x.1 x.2) r x.1 (x.2.headD .error)) s

/-! ### The end of a handover (R418, R420, R421) -/

def State.batonApply (s : State) : BatonOp → State
  | .claim p v => s.claim p.val v
  | .withdraw p => s.withdraw p.val
  | .pass p v => if s.owns p.val then s.passTo v else s.dropWrite p.val

/-- Completed votes that waited for an owner let their updates commit (R416, R425). -/
def State.votesOwned (s : State) : State :=
  (s.sched.filter fun e => e.vote == .waits).foldl (fun s e =>
    match rowOf e.desc [] with
    | some row => s.voteReady row e
    | none => s) s

/-- The rings of a port freeze, or are fetched again. -/
def State.freezeRings (s : State) (p : Nat) (on : Bool) : State :=
  (s.commandRings p).foldl (fun s r => s.setBit (Reg.ringStatus r) 3 on) s

/-- The new owner is recorded, and its writes are accepted from here. -/
def State.handoverDone (s : State) : State :=
  let b := s.baton
  let prev := b.last
  let adopt := prev != 3 && prev != b.next
  let s := ((s.putF Reg.gblBatonState 2 0 2).putF Reg.gblBatonState 5 4 b.next).putF Reg.gblBatonState 13 12 prev
  let s := s.setBit Reg.gblBatonState 14 adopt
  let s := (s.setReg Reg.gblBatonLease (BitVec.ofNat 32 b.nextLease)).setReg Reg.gblBatonLeft (BitVec.ofNat 32 b.nextLease)
  let s := if adopt then s.freezeRings prev true else s
  let s := { s.freezeRings b.next false with
    baton := { b with last := b.next, next := 3, nextLease := 0, pendOps := [], revert := false } }
  let s := s.setReg Reg.gblBatonEpoch (s.reg Reg.gblBatonEpoch + 1)
  let s := forUpto 3 (fun p s => s.portEvent p 10) s
  let s := s.emit 217 0x20 (batonSyn 0x20 b.next (s.reg Reg.gblBatonEpoch).toNat)
  let s := if b.revert then s.emit 217 0x2A (batonSyn 0x2A b.next 0) else s
  let s := b.pendOps.foldl (fun s o => s.batonApply o) s.pairsFollow
  s.votesOwned.drainCores

/-- HANDOVER_COMPLETE (R420). -/
def execHandoverComplete (s : State) : Host.Outcome State Fault Refusal :=
  act s fun s => if s.batonSt = 4 then s.handoverDone else s

/-! ### The end of a vote's window (R181, R425, R606) -/

/-- A layer that an update started silent returns to the state it had before it. -/
def State.silentBack (s : State) (e : Sched) : State :=
  if !e.silent then s
  else
    let z := e.desc.body.pl 0 2
    let l := e.desc.body.byte 2
    let s := s.setLayer z l (Sparse.get {} s.layerBack (z * 8 + l))
    ({ s with layerBack := Sparse.del s.layerBack (z * 8 + l) }).showLayer z l

/-- VOTE_TIMEOUT: the window of the vote that a copy from `o` opened or joined closes without completion. -/
def execVoteTimeout (o : Origin) (s : State) : Host.Outcome State Fault Refusal :=
  act s fun s =>
    match s.sched.find? fun e => e.vote == .open_ && e.copies.any (·.org == o) && s.votes.any (fun v => v.id == e.id && v.left == 0) with
    | none => s
    | some e =>
      let v := (s.votes.find? (·.id == e.id)).getD {}
      let s := ({ s with votes := s.votes.filter (·.id != e.id) }).bump Reg.gblVoteToCnt 32
      let s := ((s.unschedule e.id).silentBack e).showVotes
      (s.completeWith e s.heat stVoteTo 0).emit 217 0x26 (batonSyn 0x26 (v.ports.headD 0xFF) v.heat)

end Sys2Proof.Machine
end

