-- ==== Sys2Proof/Machine/Heat.lean ====
section
/-! DEFINITION. The heat boundary (02_pacer_heats_clocks.md R58, 01_engine_tiles_lanes.md R30): groups judged at their commit heats
(14_rings_descriptors.md R453 to R456), what each heat-driven block does when its next heat starts, and the heat boundary and resumption
of a step (R55). A boundary into heat H finishes the voted and zone bus blocks of heat H - 2, which lane processors take in it. -/

namespace Sys2Proof.Machine

/-! ### Groups (R182, R453 to R456) -/

/-- The commit heat of a group, the latest of its members'. -/
def GroupH.heat (g : GroupH) : Nat := g.members.foldl (fun h e => max h e.heat) 0

/-- The row of an accepted descriptor. -/
def memberRow (e : Sched) : Row := (rowOf e.desc []).getD nopRow

/-- The members' budget in one heat (R454); none where members weigh nothing. -/
def blkRoom : Blk → Option Nat
  | .zone => some 512
  | .lane => some 64
  | _ => none

/-- A member counts against the budget `b`: of a lane's updates only parameter updates do (R243, R454). -/
def Sched.weighs (e : Sched) (b : Blk) : Bool := e.blk == b && (b != .lane || isParam e)

/-- What groups have already taken of a budget in heat `h`. -/
def State.groupUsed (s : State) (b : Blk) (h : Nat) : Nat :=
  (s.sched.filter fun e => e.group.isSome && e.weighs b && e.heat == h).length +
    (if b = .lane ∧ s.paramHeat = h then s.paramCnt else 0)

def GroupH.weight (g : GroupH) (b : Blk) : Nat := (g.members.filter (·.weighs b)).length

/-- The group's weight alone exceeds a budget (R456). -/
def GroupH.tooLarge (g : GroupH) : Bool := 512 < g.weight .zone || 64 < g.weight .lane

/-- The group fits heat `h` beside the groups that already have room there. -/
def State.groupFits (s : State) (g : GroupH) (h : Nat) : Bool :=
  s.groupUsed .zone h + g.weight .zone ≤ 512 && s.groupUsed .lane h + g.weight .lane ≤ 64

/-- The first heat from `h` on, of at most `n`, that satisfies `p`. -/
def heatFrom (p : Nat → Bool) : Nat → Nat → Nat
  | 0, h => h
  | n + 1, h => if p h then h else heatFrom p n (h + 1)

/-- The members of a split group, each in the earliest heat with room from that of the member before it (R456). -/
def State.placeSplit (s : State) : List Sched → Nat → List Sched → List Sched
  | [], _, acc => acc
  | e :: es, h, acc =>
    let room (h : Nat) : Bool := match (if e.weighs e.blk then blkRoom e.blk else none) with
      | none => true
      | some n => s.groupUsed e.blk h + (acc.filter fun x => x.weighs e.blk && x.heat == h).length < n
    let k := heatFrom room (s.sched.length + acc.length + 1) h
    State.placeSplit s es k (acc ++ [if k = e.heat then e else { e with heat := k, sample := 0 }])

/-- A closed group leaves, and its members wait for their own commits. -/
def State.dissolve (s : State) (g : GroupH) (es : List Sched) : State :=
  ({ s with groups := s.groups.filter (·.id != g.id), sched := s.sched ++ es }).showSched

def State.putGroup (s : State) (g : GroupH) : State :=
  { s with groups := s.groups.map fun (x : GroupH) => if x.id = g.id then g else x }

/-- A trial of a group's commits: the state they would leave, the members as they would commit, the first refusal as status, VALUE and
member, and the members not ready. -/
structure Trial where
  st : State
  out : List Sched := []
  bad : Option (Nat × Nat × Nat) := none
  wait : List Sched := []

/-- One member tried in heat `c`: one that is not ready starts silent. -/
def Trial.member (c : Nat) (t : Trial) (e : Sched) : Trial :=
  let e := { e with heat := max e.heat c, sample := if e.heat < c then 0 else e.sample }
  let nr := needsReady e && !t.st.updReady e e.heat
  let e' := if nr then { e with ready := some (e.heat - e.asked, false) } else e
  let (st, r) := (memberRow e).commit e' t.st
  let bad : Option (Nat × Nat × Nat) := match r with
    | .done x v => if x = stOk ∨ x = stSilent then none else some (x, v, e.gidx)
    | _ => none
  { st := st, out := t.out ++ [e'], bad := t.bad.orElse (fun _ => bad), wait := if nr then t.wait ++ [e] else t.wait }

/-- The layers of a group's updates that wait show NOT_READY, or no longer. -/
def State.groupRetry (s : State) (es : List Sched) (dl : Option Nat) : State :=
  es.foldl (fun s e =>
    let z := e.desc.body.pl 0 2
    let l := e.desc.body.byte 2
    (s.setLayer z l { s.layerAt z l with retry := dl }).showLayer z l) s

/-- A group that fits its budgets is judged in heat `c`: refused as a whole, retried while a member is not ready, dropped or started
silent at the earliest deadline, or let go to commit. -/
def State.judgeGroup (s : State) (g : GroupH) (c : Nat) : State :=
  let t := g.members.foldl (Trial.member c) { st := s }
  let waits := g.members.filter needsReady
  let dl := (waits.map fun e => e.asked + (s.policyOf e).1).min?.getD c
  match t.bad with
  | some (st, v, idx) => (s.groupRetry waits none).failGroup g st v idx
  | none =>
    if t.wait.isEmpty then s.dissolve g t.out
    else if c < dl then
      (s.putGroup { g with members := g.members.map fun e => { e with heat := c + 1, sample := 0 } }).groupRetry t.wait (some dl)
    else
      match t.wait.find? fun e => (s.policyOf e).2 with
      | some e =>
        let s := (s.groupRetry waits none).policyEvent (e.desc.body.pl 0 2) (e.desc.body.byte 2) 0x54
        s.failGroup g stNotReady 0 e.gidx
      | none => s.dissolve g t.out

/-- The boundary at which a group is judged: with sources to be ready, when the zone mixer comes to its heat; else when the first of its
members would act. -/
def GroupH.judgedAt (g : GroupH) : Nat :=
  if g.members.any needsReady then g.heat + 2 else if g.members.any (fun e => e.blk == .other || e.blk == .port) then g.heat else g.heat + 1

/-- One closed group at the boundary into the present heat. -/
def State.groupHeat (s : State) (id : Nat) : State :=
  match s.groups.find? fun g => g.id == id && g.closed && decide (g.judgedAt ≤ s.heat) with
  | none => s
  | some g =>
    let c := g.heat
    if g.tooLarge then
      if g.policy = 1 then
        let s' := ({ s with groups := s.groups.filter (·.id != g.id) }).showSched
        g.members.foldl (fun s e => s.completeWith e c stTooLarge 0) s'
      else
        let es := s.placeSplit g.members c []
        let last := es.foldl (fun h e => max h e.heat) c
        s.dissolve g (es.map fun e => { e with split := some (last - c + 1) })
    else
      let k := heatFrom (s.groupFits g) (s.sched.length + 1) c
      if k ≠ c then s.putGroup { g with members := g.members.map fun e => { e with heat := k, sample := 0 } }
      else s.judgeGroup { g with members := g.members.map fun e => if e.heat = c then e else { e with heat := c, sample := 0 } } c

def State.groupsHeat (s : State) : State := (s.groups.map (·.id)).foldl (fun s id => s.groupHeat id) s

/-! ### Commits at a boundary (R449) -/

/-- What waits for this boundary in the blocks that act at boundaries, in order of acceptance. -/
def State.blockCommits (s : State) : State :=
  ((s.sched.filter fun e => e.blk == .other || e.blk == .port).map (·.id)).foldl (fun s id =>
    match s.sched.find? fun e => e.id == id && s.canCommit (memberRow e) e with
    | some e => (s.unschedule id).commitUpd (memberRow e) e
    | none => s) s

/-! ### What counts heats -/

/-- Windows of votes, waits of shadow descriptors, stalls of rings, the lease, and what happens once a heat (R411, R412, R415, R425,
R428, R445, R379), and the time since each core's watchdog was restarted (R526). -/
def State.countHeat (s : State) : State :=
  let votes := (s.votes.map fun v => { v with left := v.left - 1 }).filter fun v => !(v.complete && v.left == 0 && v.status.isSome)
  let pairs := s.pairs.map fun p => (p.1, { p.2 with shadow := p.2.shadow.map fun e => { e with heats := e.heats + 1 } })
  let s := { s with votes := votes, pairs := pairs, evCounts := [], baton := { s.baton with dropSeen := false, refSeen := false }
                    modes := { s.modes with unlockHeat := s.modes.unlockHeat + 1, mntHeats := s.modes.mntHeats + 1 }, pacer := { s.pacer with stretched := 0 } }
  let s := forUpto 5 (fun c s => s.setCore c { s.coreAt c with wdogHeats := (s.coreAt c).wdogHeats + 1 }) s
  let s := s.enabledRings.foldl (fun s r =>
    s.setRing r { s.ringAt r with stallHeats := if s.bit (Reg.ringStatus r) 2 then (s.ringAt r).stallHeats + 1 else 0 }) s
  if s.held then s.setReg Reg.gblBatonLeft (BitVec.ofNat 32 ((s.reg Reg.gblBatonLeft).toNat - 1)) else s

/-- Revertive return (R419): the home port takes the baton without a pass. -/
def State.revertHeat (s : State) : State :=
  let home := s.getF Reg.gblBatonCfg 1 0
  let lease := s.getF (Reg.gblBatonClaimOf home) 29 16
  if s.batonSt = 2 ∧ home ≠ 3 ∧ s.owner ≠ home ∧ s.bit Reg.gblBatonCfg 2 ∧ s.claimValid home ∧ leaseOk lease ∧
      s.getF (Reg.hpStatus home) 1 0 ≠ 0 then s.handover home lease true
  else s

/-- The HEAT interrupt of every core, and the machine timers (R523, R524). -/
def State.coresHeat (s : State) : State := (forUpto 5 (fun c s => s.corePend c 1) s).timersEval

/-! ### Tiles and lanes -/

/-- What a lane's tile shows of the last heat: VPK clamped, trips and short circuits of the last 60 s (R282, R293, R305, R322). -/
def State.laneShow (s : State) (n : Nat) : State :=
  let h := s.laneAt n
  let s := (s.setBit (rindReg n) 3 h.clamp).showTrips n
  let s := s.putF (Reg.tlLaneSc (n / 8) (n % 8)) 1 0 (min 3 (s.lastMinute h.shorts).length)
  (s.setLane n { h with ilimPrev := h.ilimHeat, ilimHeat := false, fastPrev := h.fastAct, fastAct := false, clampPrev := h.clamp,
                        clamp := false }).edgesHeat n

def State.tilesHeat (s : State) : State :=
  let s := (s.lanes.map (·.1)).foldl (fun s n => s.laneShow n) s
  (s.tiles.map (·.1)).foldl (fun s t => s.setTile t { s.tileAt t with missSeen := false }) s

/-- The volts of a line-evidence sample, coded as a sense voltage. -/
def levVolts (c : Int) : Rat := (c : Rat) * 200 / 8388608

/-- The lock-in amplitude at `hz` over the heat's 96 samples, in mV peak, and the programme level, in units of 10 mV rms (R389). -/
def levMeasure (hz : Nat) (xs : List Rat) : Nat × Nat :=
  let ys := (xs.take 96).zipIdx.map fun p => (p.1, (hz : Rat) * (p.2 : Rat) / 96000)
  let c := (ys.map fun p => p.1 * cosTurn p.2).sum
  let d := (ys.map fun p => p.1 * sinTurn p.2).sum
  ((near 30 (1000 / 48 * sqrtOf (c * c + d * d))).floor.toNat, (100 * Config.levBand xs).floor.toNat)

/-- The line-evidence detectors of a tile that carries an enabled binding judge the heat (R389). -/
def State.evidence (s : State) (t : Nat) : State :=
  if !(List.range 8).any fun l => s.bit (Reg.txlBind (t * 8 + l)) 31 then s
  else forUpto 8 (fun l s =>
    let h := s.laneAt (t * 8 + l)
    let x := levMeasure (s.getF (Reg.tlLevCfg t l) 15 0) (h.lev.map levVolts)
    let h := { h with levPilot := x.1, levProg := x.2 }
    let s := s.setLane (t * 8 + l) h
    let th := s.reg (Reg.tlLevTh t)
    let pilot := fld th 15 8 * 10 ≤ h.levPilot
    let prog := fld th 7 0 ≤ h.levProg
    s.setReg (Reg.tlLevStat t l) (BitVec.ofNat 32 (min h.levPilot 65535 * 2 ^ 16 + min h.levProg 255 * 2 ^ 8 +
      (if prog then 2 else 0) + (if pilot then 1 else 0)))) s

/-- Lanes that leave warm-up for factory test and no longer run go OFF (R378 result 30). -/
def State.quitHeat (s : State) : State :=
  s.modes.quit.foldl (fun s n => if s.laneSt n = lsRunning then s else s.wupLaneOff n) s

/-! ### Lane processors (R228, R238 to R241) -/

/-- The heat of LP `n` has ended: abandoned if the program is still in it; lanes with ODONE are sent in the next, the others fade out
from their last sent sample, and the first completed output after that fades in (R239, R240). -/
def State.lpEnds (s : State) (n : Nat) : State :=
  let ran := s.lpRuns n && !(s.lpAt n).first
  let s := s.abandonHeat n
  let h := s.lpAt n
  let done := if ran then h.odone else 0#8
  let upd (h : LpH) (l : Nat) : LpH :=
    if !done.getLsbD l then { h with fadeFrom := Sparse.set 0 h.fadeFrom l (Sparse.get 0 h.lastSent l) }
    else if h.replaced.getLsbD l then { h with fadeIn := Sparse.set 0 h.fadeIn l 512 } else h
  let h := (List.range 8).foldl upd h
  s.setLp n { h with send := done, odone := 0, replaced := if ran then ~~~done else h.replaced }

/-- The Tile Link controller reads the link control area of LP `n` (R330). -/
def State.lpControl (s : State) (n : Nat) : State :=
  forUpto 8 (fun l s =>
    let bs := (s.lpAt n).bytes (0x700 + l * 32) 12
    let k := n * 8 + l
    let h := s.laneAt k
    let q (off m : Nat) : Nat :=
      let w := BitVec.ofNat 32 (leAt bs off 4)
      if f32Finite w then min 65535 (f32ToRat w * m).floor.toNat else 0
    let mreq := leAt bs 8 1 % 2 == 1
    let s := s.setLane k { h with fastFrac := q 0 65536, relMs := q 4 1, mreq := mreq }
    if mreq = h.mreq then s else s.muteReqEval k) s

/-- A binary32 of a count of units. -/
def f32Units (n : Int) (per : Nat) : Word := f32OfRat ((n : Rat) / ((per : Nat) : Rat))

/-- The words 0 to 15 of the heat block: heats, flags, masks, cycles, rail, battery and temperatures (R228). -/
def State.heatHead (s : State) (n : Nat) (swapped : BitVec 8) : List Byte :=
  let h := s.lpAt n
  let ks := State.lpLanes n
  let bits (p : Nat → Bool) : Nat := bitsOf (fun l => p (n * 8 + l)) 8
  let route (k : Nat) : Option Nat := (s.routeAt k).zone
  let flags := (if h.first then 1 else 0) + (if h.ovrPrev then 2 else 0) + (if h.senseB then 4 else 0) + (if h.outB then 8 else 0) +
    (if h.gap ≠ 0 then 16 else 0) + (if s.vaFlag then 32 else 0) + (if h.stretch then 64 else 0)
  let t := s.reg (Reg.tlTemp n)
  let rail (v old : Nat) : List Byte := if h.railN = 0 then h.bytes old 4 else leBytes 4 (f32OfRat ((v : Rat) * 200 / 65536)).toNat
  leBytes 8 s.heat ++ leBytes 8 (s.heat - 2) ++ leBytes 2 flags ++ leBytes 1 h.bank.toNat ++ leBytes 1 swapped.toNat ++
    leBytes 1 (if s.present n then 255 else 0) ++ leBytes 1 (bits fun k => (route k).isSome) ++
    leBytes 1 (bits fun k => (route k).any (256 ≤ ·)) ++ leBytes 1 (bits fun k => ks.contains k && (s.laneAt k).gain == .zero) ++
    leBytes 2 (s.getF Reg.zmCtrl 24 16) ++ leBytes 2 (min h.gap 65535) ++ leBytes 4 (if h.first then 0 else h.cyc % 2 ^ 32) ++
    (if h.railN = 0 then h.bytes 32 4 else leBytes 4 (f32OfRat ((h.railSum : Rat) / h.railN * 200 / 65536)).toNat) ++
    rail h.railMin 36 ++ rail h.railMax 40 ++ leBytes 4 (s.battNow n).toNat ++ leBytes 4 (f32Units (signed 16 (fld t 15 0)) 16).toNat ++
    leBytes 4 (f32Units (signed 16 (fld t 31 16)) 16).toNat ++ leBytes 8 0

/-- The heat block is written, with the edge statistics of each lane, and what it takes of the last heat starts again. -/
def State.heatBlock (s : State) (n : Nat) (swapped : BitVec 8) : State :=
  let edge := (State.lpLanes n).flatMap fun k => bytesOfWords (((s.laneAt k).edge ++ List.replicate 4 0#32).take 4)
  let p := (s.lpAt n).putBytes 0 (s.heatHead n swapped ++ edge ++ List.replicate 64 0#8)
  s.setLp n p

/-- The link's measures of the last heat are taken: `TLn_RAIL_NOW`, and event 0x79 for missing sense frames (R227, R305, R324). -/
def State.lpMeasured (s : State) (n : Nat) : State :=
  let h := s.lpAt n
  let s := if h.railN = 0 then s else s.setReg (Reg.tlRailNow n) (f32OfRat ((h.railSum : Rat) / h.railN * 200 / 65536))
  if h.gap = 0 then s else s.emit (144 + n) 0x79 (syn12 0x79 0xFFF h.gap)

/-- The input gather of zone bus heat `c` (R238 step 2); a lane that a forced test runs has its programme input at zero (R350). -/
def State.gather (s : State) (n c : Nat) : State :=
  forUpto 8 (fun l s =>
    let k := n * 8 + l
    let (s, ws) := s.laneInput k c
    let off := !s.present n || s.tests.any fun t => t.running && t.lane == k && t.was.isSome
    s.setLp n ((s.lpAt n).putWords (0x100 + l * 192) (if off then List.replicate 48 0#32 else to48 0#32 ws))) s

/-- Once an output of a started program is sent, its lanes ramp in (R250, R251). -/
def State.lpRampDue (s : State) (n : Nat) : State :=
  let h := s.lpAt n
  if h.rampDue && h.send != 0#8 then (s.setLp n { h with rampDue := false }).lpLanesIn n else s

/-- The heat of LP `n` starts on zone bus heat `c`: areas switch, banks swap, the heat block and the input are there, the standard program
takes its newly active blocks, and the program is in the heat. -/
def State.lpBegins (s : State) (n c : Nat) : State :=
  let h := s.lpAt n
  let swapped := h.swap
  let s := ((s.setLp n { h with senseB := !h.senseB, outB := !h.outB }).bankSwap n).showBatt n
  let s := s.lpMeasured n
  let runs := s.lpRuns n || h.startDue
  let s := if runs then s.heatBlock n swapped else s
  let first := (s.lpAt n).first
  let s := s.setLp n { s.lpAt n with railSum := 0, railN := 0, railMin := 0xFFFF, railMax := 0, gap := 0, stretch := s.bit Reg.pcrStatus 7 }
  let s := s.gather n c
  let s := s.setLp n { s.lpAt n with zbHeat := c, senseHeat := (s.lpAt n).fillHeat }
  if !runs then s
  else
    let s := match (s.loadOf n).filter fun _ => h.startDue with
      | some x => s.loadStep x n s.heat true
      | none => s
    let s := s.setLp n { s.lpAt n with cyc := 0, mFree := 0, startDue := false, first := false }
    let s := ((s.setBit (Reg.lpnStatus n) 8 true).blocksCheck n first swapped).programHeat n
    (s.lpRampDue n).lpFetch n

/-! ### The pool's ranks (R289) -/

/-- A zone with an active VA layer, or whose bus a lane plays for the partner; and the highest priority of its active layers. -/
def State.zoneRank (s : State) (z : Nat) : Bool × Int :=
  let ls := (s.zoneLayers z).filter (·.active)
  (ls.any (·.va) || (List.range 128).any (fun n => (s.routeAt n).zone == some (256 + z)), ls.foldl (fun a l => max a (l.prio : Int)) (-1))

/-! ### The boundary -/

/-- Microphone groups write the block of the heat that has ended, where it is not written yet (R122), with the flags `fl`, from the levels of the data
lines in that heat. -/
def State.pdmHeat (s : State) (fl : Nat) (lines : List (List Bool)) : State :=
  forUpto 4 (fun g s =>
    let due := match (s.pdmAt g).closed with
      | some d => decide (d + 1 < s.heat)
      | none => true
    if due && decide (s.firstHeat < s.heat) then s.pdmBlock g (s.heat - 1) fl lines else s) s

/-- The audio of a boundary: what the zone mixer finishes of heat `c`, the voter's blocks being there, and the bindings, frames, pool and lane processors that
take it (R30, R155, R176, R238, R289, R396). -/
def State.audioHeat (s : State) (c : Nat) : State :=
  let rows (op : Nat) : Option Row := (rowOf { opcode := BitVec.ofNat 16 op } []).map fun r =>
    { r with commit := fun e s => (memberRow e).commit e s }
  let s := s.buildZones rows c
  let s := (s.txlHeat c).txlSend c
  let s := s.shadowWrite c
  s.poolEval s.zoneRank

/-- Every heat-driven block starts heat `s.heat` (R30, R58). -/
def State.heatStart (s : State) (lines : List (List Bool)) : State :=
  let s := s.fNote.countHeat.pdmHeat 0 lines
  let s := s.presentTiles.foldl (fun s n => (s.lpControl n).lpEnds n) s
  let s := if s.firstHeat + 2 ≤ s.heat then s.voteBlocks (s.heat - 2) else s
  let s := forUpto 16 (fun t s => s.evidence t) s.groupsHeat
  let s := if s.firstHeat + 2 ≤ s.heat then s.audioHeat (s.heat - 2) else s
  let s := s.blockCommits.loadsBegin s.heat
  let s := s.tilesHeat
  let s := s.presentTiles.foldl (fun s n => s.lpBegins n (s.heat - 2)) s
  let s := s.railsHeat
  let s := (s.testsRead (s.heat - 1)).testsAdmit
  let s := ((List.range 128).filter fun n => s.present (n / 8)).foldl (fun s n => s.showLane n) s
  s.quitHeat.revertHeat.coresHeat.drainCores

/-- A step has the pacer jumped, and the new grid's first heat has not started. -/
def State.jumped (s : State) : Bool := match s.pacer.step with
  | some x => x.phase == .jumped
  | none => false

/-- HEAT_BOUNDARY (R58): the pacer crosses into the next heat; `lines` are the levels of the PDM data lines in the heat that ends, at the rising and the
falling edges of their clocks in turn (R119). While a step has the pacer jumped no boundary comes; at the boundary where the step jumps, the jump
takes the heat's place, and the blocks of the PDM groups close (R55). -/
def execHeatBoundary (lines : List (List Bool)) (s : State) : Host.Outcome State Fault Refusal :=
  act s fun s =>
    if s.jumped then s
    else
      let s := (s.pacerToHeat true).stepHeat
      if s.atJump then s.pdmHeat (bfShort ||| bfDisc ||| bfStep) lines else s.heatStart lines

/-- An update that waits on the new grid of a step, whose first heat is `h` (R56): what the step skipped over, and what names no time (`now`), commits
in that heat, and a time that lies in the future is waited for. The deadline of one that waits for its sources runs on. -/
def Sched.regrid (now : Bool) (h : Nat) (e : Sched) : Sched :=
  let own := if now then h else e.asked
  let at_ := max own h
  { e with heat := at_, sample := if h ≤ own ∧ !now then e.askedSample else 0,
           asked := if e.ready.isSome then min e.asked h else at_,
           askedSample := if h ≤ own ∧ !now then e.askedSample else 0 }

def GroupH.regrid (h : Nat) (g : GroupH) : GroupH :=
  let now := (g.members.head?.map fun e => e.desc.body.whenF) == some 0
  { g with members := g.members.map (Sched.regrid now h) }

/-- STEP_RESUME (R55 step 4, R56, R57): the first heat of the new grid starts. -/
def execStepResume (s : State) : Host.Outcome State Fault Refusal :=
  act s fun s =>
    match s.pacer.step with
    | none => s
    | some x =>
      if x.phase ≠ .jumped then s
      else
        let s := s.pacerToHeat false
        let h := s.heat
        let s := { s with firstHeat := h, pacer := { s.pacer with step := some { x with phase := .rampIn, h0 := h } }
                          sched := s.sched.map fun (e : Sched) => e.regrid (e.desc.body.whenF == 0) h
                          groups := s.groups.map (GroupH.regrid h) }
        let s := s.heatStart []
        if x.warm then s.stepDone else s

end Sys2Proof.Machine
end

