-- ==== Sys2Proof/Machine/Pacer.lean ====
section
/-! DEFINITION. The commands of the pacer, its reference input, the audio synthesiser, crossings and core-rail droop
(02_pacer_heats_clocks.md). -/

namespace Sys2Proof.Machine

/-! ### Registers (R47 to R54) -/

/-- PCR_TIME_LO_READ (R47): the words of time and heat are frozen for the master. -/
def execPcrTimeLoRead (m : Master) (s : State) : Host.Outcome State Fault Refusal :=
  act s fun s =>
    let ns := s.pacer.ns.toNat
    let w (off : Nat) : Word :=
      if off = Reg.pcrTimeHi then BitVec.ofNat 32 (ns / 2 ^ 32) else if off = Reg.pcrTimeFrac then s.pacer.frac
      else if off = Reg.pcrHeatLo then BitVec.ofNat 32 s.heat else BitVec.ofNat 32 (s.heat / 2 ^ 32)
    { s.latchWords m [Reg.pcrTimeHi, Reg.pcrTimeFrac, Reg.pcrHeatLo, Reg.pcrHeatHi] w with rdata := BitVec.ofNat 32 ns }

def execPcrAdjFreqWrite (m : Master) (v : Word) (s : State) : Host.Outcome State Fault Refusal :=
  act s fun s => s.gated m Reg.pcrAdjFreq fun s => s.adjFreqWrite v

def execPcrSlewWrite (m : Master) (v : Word) (s : State) : Host.Outcome State Fault Refusal :=
  act s fun s => s.gated m Reg.pcrSlew fun s => s.addSlew v.toInt

def execPcrStepHiWrite (m : Master) (v : Word) (s : State) : Host.Outcome State Fault Refusal :=
  act s fun s => s.gated m Reg.pcrStepHi fun s => s.stepWrite v

/-- PCR_SERVO_OFFSET_WRITE (R49, R50): the offset reported, which makes PTP usable. -/
def execPcrServoOffsetWrite (m : Master) (v : Word) (s : State) : Host.Outcome State Fault Refusal :=
  act s fun s => s.gated m Reg.pcrServoOffset fun s =>
    let s := s.reportOffset v
    ({ s with pacer := { s.pacer with ptpOk := true, ptpSince := true } }).discipline

/-! ### Discipline (R50, R51) -/

/-- DISC_SRC_CHANGE: a write of `PCR_CTRL`. -/
def execDiscSrcChange (m : Master) (v : Word) (s : State) : Host.Outcome State Fault Refusal :=
  act s fun s => s.gated m Reg.pcrCtrl fun s => s.pcrCtrlWrite v

/-- HOLD_FORCE: a write of `PCR_CTRL` that sets or clears HOLD_FORCE alone. -/
def execHoldForce (m : Master) (on : Bool) (s : State) : Host.Outcome State Fault Refusal :=
  act s fun s => s.gated m Reg.pcrCtrl fun s => s.pcrCtrlWrite (setBitAt (s.reg Reg.pcrCtrl) 6 on)

/-- REF_1PPS_EDGE: an edge whose pacer time lies `off` ns after the second it marks (R49, R50). -/
def execRef1ppsEdge (off : Word) (s : State) : Host.Outcome State Fault Refusal := act s fun s => s.ppsEdge off

def execRef10mLoss (s : State) : Host.Outcome State Fault Refusal :=
  act s fun s => (s.setBit Reg.pcrStatus 5 false).discipline

def execRef10mReturn (s : State) : Host.Outcome State Fault Refusal :=
  act s fun s => (s.setBit Reg.pcrStatus 5 true).discipline

def execRef1ppsTimeout (s : State) : Host.Outcome State Fault Refusal :=
  act s fun s => (s.setBit Reg.pcrStatus 6 false).discipline

/-- SERVO_WATCHDOG_EXPIRY: SERVO_WD × 16 heats without an offset; no watchdog while SERVO_WD is 0. -/
def execServoWatchdogExpiry (s : State) : Host.Outcome State Fault Refusal :=
  act s fun s =>
    if s.getF Reg.pcrCtrl 15 8 = 0 then s else ({ s with pacer := { s.pacer with ptpOk := false } }).discipline

/-- LOCK_GAINED: every offset reported for LOCK_S seconds lay inside the window (R51). -/
def execLockGained (s : State) : Host.Outcome State Fault Refusal :=
  act s fun s => if s.pcrSt = pcAcquire ∧ s.ranLong s.pacer.inSince then (s.setPcrSt pcLocked).pacerEvent 0x01 0 else s

/-- LOCK_LOST: every offset reported for LOCK_S seconds lay outside it. -/
def execLockLost (s : State) : Host.Outcome State Fault Refusal :=
  act s fun s => if s.pcrSt = pcLocked ∧ s.ranLong s.pacer.outSince then (s.setPcrSt pcAcquire).pacerEvent 0x02 0 else s

def execHoldoverLimitReached (s : State) : Host.Outcome State Fault Refusal :=
  act s fun s => if s.pcrSt = pcHoldover then s.pacerEvent 0x04 0 else s

/-! ### Steps (R55) -/

/-- STEP_JUMP: at the boundary that ends the ramp-out (R55 step 3, R57). -/
def execStepJump (s : State) : Host.Outcome State Fault Refusal :=
  act s fun s => match s.pacer.step with
    | some x => if x.phase = .rampOut ∧ s.atJump then (s.stepJump x).timersEval else s
    | none => s

def execStepApplied (s : State) : Host.Outcome State Fault Refusal :=
  act s fun s => match s.pacer.step with
    | some x => if x.phase = .rampIn then s.stepDone else s
    | none => s

/-! ### The audio master (R64) -/

/-- The synthesiser loses lock: source 195, and the lanes the pipeline feeds ramp out. -/
def State.synthLost (s : State) : State :=
  (({ s with pacer := { s.pacer with synthLost := true } }).lanesOut).emit 195 0x01 (syn16 0x01 0 0)

def execSynthLockLoss (s : State) : Host.Outcome State Fault Refusal := act s fun s => s.synthLost

/-- SYNTH_RELOCK: re-phased to the heat grid, and the lanes ramp back in. -/
def execSynthRelock (s : State) : Host.Outcome State Fault Refusal :=
  act s fun s => if s.pacer.synthLost then ({ s with pacer := { s.pacer with synthLost := false } }).lanesIn else s

/-! ### Crossings (R68, R508) -/

/-- CROSSING_ABANDONED between a matrix master and a block: an abandoned read returns zero, an abandoned write is discarded. -/
def execCrossingAbandoned (master : Fin 32) (read : Bool) (s : State) : Host.Outcome State Fault Refusal :=
  act s fun s =>
    let s := if read then { s with rdata := 0 } else s
    (s.bump Reg.mxAbandonCnt 32).emit 213 0x03 (vatSyn 0x03 (if read then 1 else 0) master.val)

/-! ### Core-rail droop (R79 to R81) -/

/-- DROOP_DETECTED: the stretched clocks run at half frequency. -/
def execDroopDetected (s : State) : Host.Outcome State Fault Refusal :=
  act s fun s =>
    let s := forUpto 16 (fun n s => s.setLp n { s.lpAt n with stretch := true }) s
    ((s.setBit Reg.pcrStatus 7 true).bump Reg.pcrDroopCnt 32).emit 227 0x01 (syn16 0x01 0 0)

/-- DROOP_END: full frequency, after `us` µs of stretch in this heat. -/
def execDroopEnd (us : BitVec 10) (s : State) : Host.Outcome State Fault Refusal :=
  act s fun s =>
    let n := s.pacer.stretched + us.toNat
    let s := ({ s with pacer := { s.pacer with stretched := n } }).setBit Reg.pcrStatus 7 false
    if (s.reg Reg.pcrDroopMax).toNat < n then s.setReg Reg.pcrDroopMax (BitVec.ofNat 32 n) else s

/-- DROOP_STRETCH_EXCEEDED: `us` µs stretched in one heat. U_US outside 10 to 1,000 is used as written: the spec gives no effect of such a value
(log entry 138). -/
def execDroopStretchExceeded (us : BitVec 10) (s : State) : Host.Outcome State Fault Refusal :=
  act s fun s =>
    if us.toNat ≤ s.getF Reg.pcrDroopCfg 15 0 then s
    else
      let s := if (s.reg Reg.pcrDroopMax).toNat < us.toNat then s.setReg Reg.pcrDroopMax (BitVec.ofNat 32 us.toNat) else s
      s.emit 227 0x02 (syn16 0x02 0 us.toNat)

end Sys2Proof.Machine
end

