-- ==== Sys2Proof/Machine/Islands.lean ====
section
/-! DEFINITION. Doorbells (R217, R412, R440), engine reads on a host port that end in error (R410, R446), and clock islands out of
tolerance (R65, R66, R71). -/

namespace Sys2Proof.Machine

/-! ### Doorbells -/

/-- The players whose playlist ring is `r` leave the lost state, their port being usable again (R217). -/
def State.playlistBack (s : State) (r : Nat) : State :=
  if !s.usable (s.ringPort r) then s
  else
    (s.players.filter fun x => x.2.ring == r && s.plyLost x.1).foldl (fun s x =>
      ((s.setPlayer x.1 { s.playerAt x.1 with failedReads := 0, flr := false }).setBit (Reg.plyPState x.1) 5 false).showPlayer x.1) s

/-- DOORBELL_WRITE: a 4-byte write to the low half of `DB_r` carries an index; any other write is discarded (R440). -/
def execDoorbellWrite (m : Master) (r : Fin 32768) (low : Bool) (idx : Word) (s : State) : Host.Outcome State Fault Refusal :=
  act s fun s =>
    if !low then s
    else
      let s' := s.ringDoorbell m r.val idx
      if s.ringType r.val == 3 && s.doorbellTaken m r.val idx then s'.playlistBack r.val else s'

/-! ### Reads on a host port that end in error -/

/-- COMPLETION_TIMEOUT (R410): a read on port `p` ends in error, after CTO ms or with an Unsupported Request or poisoned completion;
the read of a ring the engine fetches from stops that ring, a playlist ring excepted (R446). -/
def execCompletionTimeout (p : Fin 3) (timeout : Bool) (ring : Option (Fin 32768)) (s : State) : Host.Outcome State Fault Refusal :=
  act s fun s =>
    let code := if timeout then 0x04 else 0x05
    let s := s.emit (214 + p.val) code (batonSyn code p.val 1)
    match ring with
    | none => s
    | some r =>
      if s.ringEn r.val && s.ringPort r.val == p.val && !engineProduced (s.ringType r.val) && s.ringType r.val != 3 then
        s.ringStop r.val 0x11
      else s

/-! ### Clock islands -/

/-- The pacer goes on with the local oscillator. While a step is under way STATE stays STEPPING, and the source is judged again when the step is
done: the spec does not say which of the two STATE shows (log entry 137). -/
def State.islandPacer (s : State) (i : Nat) : State :=
  (if s.pcrSt = pcStepping ∨ s.pcrSt = pcHoldover then s else s.enterHoldover).pacerEvent 0x0F i

def State.islandStream (s : State) (st : Stream) : State :=
  if s.streamLost st then s else (s.loseStream st).streamEvent st 0x06 0x35

/-- TILE_SAFE_n of every tile is asserted. -/
def State.tilePinsSafe (s : State) : State := { s with pins := { s.pins with tileSafe := 0xFFFF#16 } }

/-- Controller islands 0 to 39: what their loss does. -/
def State.islandPort (s : State) (i : Nat) : State :=
  if i = 0 then s.tilePinsSafe.emit 213 0x0F (syn16 0x0F 0 0)
  else if i = 1 then forUpto 16 (fun n s => s.emit (196 + n) 0x0F (syn16 0x0F 0 0)) s.tilePinsSafe
  else if i < 5 then s.pcieDown (i - 2)
  else if i < 7 then s.pktLinkDown (i - 5)
  else if i = 7 then s.islandPacer i
  else if i < 24 then s.islandStream (.tdm (Fin.ofNat 16 (i - 8)))
  else if i < 32 then s.islandStream (.aes (Fin.ofNat 8 (i - 24)))
  else if i < 36 then (s.setBit (Reg.aesTxStatus (i - 32)) 0 false).serialEvent (184 + (i - 32)) 0x17 0xFF 1
  else s.islandStream (.pdm (Fin.ofNat 4 (i - 36)))

/-- Controller islands 40 to 80. -/
def State.islandUnit (s : State) (i : Nat) : State :=
  if i < 56 then s.linkLost (i - 40)
  else if i < 72 then (s.lpMuteLanes (i - 56)).emit (144 + (i - 56)) 0x0F (syn12 0x0F 0xFFF 1)
  else if i = 72 then s.emit 222 0x0F (syn16 0x0F 0 0)
  else if i < 77 then s.emit (223 + (i - 73)) 0x0F (syn16 0x0F 0 0)
  else if i = 77 then { s with fc := { s.fc with oscStopped := true } }
  else if i = 78 then s.blockLockLost
  else if i = 79 then s.islandPacer i
  else s.synthLost

/-- The island of a tile: a lane goes SAFE-LOW, sense or housekeeping takes all eight, and housekeeping the relays too (R71, R300). -/
def State.islandTile (s : State) (t i : Nat) : State :=
  let s := (s.setBit (Reg.tlClkmon t) i true).setTile t { s.tileAt t with islOut := (s.tileAt t).islOut ||| (1#11 <<< i) }
  if i < 8 then (s.setHold (t * 8 + i) hcClk true 0xB5).laneEvent (t * 8 + i) 0xB5 0
  else if i = 8 then s.showFault t
  else
    let s := if i = 10 then s.relaysOff t else s
    ((s.holdTile t hcHk true 0xC6).showFault t).tileEvent t 0xC6 i

/-- A controller island: its bit, and what its loss does. -/
def State.islandCtl (s : State) (k : Nat) : State :=
  let s := { s with islOut := s.islOut ||| (1#81 <<< k) }.setBit (Reg.pcrClkmon (k / 32)) (k % 32) true
  if k < 40 then s.islandPort k else s.islandUnit k

/-- A controller island is back in tolerance: the pacer's discipline is judged again (R51). -/
def State.islandCtlBack (s : State) (k : Nat) : State :=
  let s := { s with islOut := s.islOut &&& ~~~(1#81 <<< k) }
  if k = 7 ∨ k = 79 then s.discipline else s

/-- An island of a tile is back in tolerance; the cause it set clears by its own rule (R300, R310). -/
def State.islandTileBack (s : State) (t i : Nat) : State :=
  (s.setTile t { s.tileAt t with islOut := (s.tileAt t).islOut &&& ~~~(1#11 <<< i) }).showFault t

/-- ISLAND_OUT_OF_TOLERANCE (R71): a monitor finds an island out of tolerance, or, with `out` false, in tolerance again: until then its bit sets
again at once when it is cleared. -/
def execIslandOutOfTolerance (x : IslandReading) (s : State) : Host.Outcome State Fault Refusal :=
  match x.island with
  | .ctl k => act s fun s => if x.out then s.islandCtl k.val else s.islandCtlBack k.val
  | .tile t k => onTile s t.val fun s => if x.out then s.islandTile t.val k.val else s.islandTileBack t.val k.val

end Sys2Proof.Machine
end

