-- ==== Sys2Proof/Machine/Registers.lean ====
section
/-! DEFINITION. Register reads and writes that have no row of their own (R8 to R14, R409, R411, R553, R554), the rules a block sets for
its own registers, and the writes of a host through BAR2. A register whose writes have a row of their own takes the effect of that row. -/

namespace Sys2Proof.Machine

/-! ### MSI-X (R408, R409) -/

/-- Vectors held pending are sent once neither the function nor they are masked. -/
def State.msixFlush (s : State) (p : Nat) : State :=
  let h := s.hpAt p
  if !h.msixEn || h.fmask || !s.usable p then s
  else
    h.pba.foldl (fun s w =>
      forUpto 32 (fun i s =>
        let v := w.1 * 32 + i
        let h := s.hpAt p
        if bitAt w.2 i && !bitAt (h.tableWord (v * 4 + 3)) 0 then
          s.setHp p { h with pba := Sparse.set 0 h.pba w.1 (setBitAt (Sparse.get 0 h.pba w.1) i false),
                             sent := h.sent + 1, lastVec := some v }
        else s) s) s

/-- The bytes of `v` that the byte enables name, over those of `old`. -/
def mergeBytes (old v : Word) (be : BitVec 4) : Word :=
  (List.range 4).foldl (fun w i => if be.getLsbD i then setFld w (8 * i + 7) (8 * i) (fld v (8 * i + 7) (8 * i)) else w) old

/-- A port writes its own MSI-X table, whether or not it holds the baton. -/
def State.msixWrite (s : State) (p o : Nat) (be : BitVec 4) (v : Word) : State :=
  let h := s.hpAt p
  (s.setHp p { h with table := Sparse.set (msixDefault o) h.table o (mergeBytes (h.tableWord o) v be) }).msixFlush p

/-- A port's configuration space: bus master enable, MSI-X enable and function mask. -/
def State.configWrite (s : State) (p : Nat) (bme msixEn fmask : Bool) : State :=
  ((s.setBit (Reg.hpStatus p) 8 bme).setHp p { s.hpAt p with msixEn := msixEn, fmask := fmask }).msixFlush p

/-! ### Registers that rows of the table write -/

/-- `off` is element `i` of an array of `n` registers `stride` apart from `base`. -/
def indexIn (base stride n off : Nat) : Option Nat :=
  if base ≤ off ∧ (off - base) % stride = 0 ∧ (off - base) / stride < n then some ((off - base) / stride) else none

def inArray (base stride n off : Nat) : Bool := (indexIn base stride n off).isSome

/-- The table gives writes of this register rows of their own. -/
def ownRow (off : Nat) : Bool :=
  [Reg.gblReset, Reg.gblLock, Reg.gblSysCtrl, Reg.gblBatonClaim, Reg.gblBatonLease, Reg.gblBatonPass, Reg.gblBatonAccept,
    Reg.gblFtmUnlock, Reg.gblFtmInj, Reg.fcAck, Reg.fcPfClear, Reg.pcrAdjFreq, Reg.pcrSlew, Reg.pcrStepHi, Reg.pcrServoOffset,
    Reg.coreHostboot, Reg.coreOtpCmd, Reg.coreCryCmd].contains off ||
  inArray 0x10010 4 8 off || inArray (Reg.gblShadow 0) 4 64 off || inArray (Reg.tdmFrame 0) 0x1000 16 off ||
  inArray (Reg.tdmRxMaskNext 0) 0x1000 16 off || inArray (Reg.tdmTxMaskNext 0) 0x1000 16 off ||
  inArray (Reg.aesRxCfg 0) 0x100 8 off || inArray (Reg.aesTxCfg 0) 0x100 4 off || inArray (Reg.aesTxCsCommit 0) 0x100 4 off ||
  inArray (Reg.pdmGrpCfg 0) 0x100 4 off || inArray (Reg.pdmGrpMicEn 0) 0x100 4 off || inArray (Reg.lpnCtrl 0) 0x1000 16 off ||
  inArray Reg.lpDiagAdmit1 4 5 off || inArray (Reg.ringCfg 0) 0x40 32768 off || (0x400000 ≤ off && off < 0x440000) ||
  inArray (Reg.coreAcCtrl 0) 0x20 4 off || inArray (Reg.coreAcDqPush 0) 0x20 4 off || inArray (Reg.coreAcCqPop 0) 0x20 4 off ||
  inArray (Reg.coreMboxBell 0) 8 5 off || inArray (Reg.coreMboxCtrl 0) 8 5 off || inArray (Reg.coreKick 0) 0x20 5 off ||
  inArray (Reg.tlDefCtrl 0) 0x4000 16 off

/-- The effect of a command of the controller on everything but the queue. -/
abbrev RowAct := State → Host.Outcome State Fault Refusal

/-- The command of the one register at `r`. -/
def rowAt (off r : Nat) (f : RowAct) : Option RowAct := if off = r then some f else none

/-- The command of a register only a host port writes. -/
def hostRow (m : Master) (off r : Nat) (f : Fin 3 → RowAct) : Option RowAct :=
  match m with
  | .host p => rowAt off r (f p)
  | _ => none

/-- The command of each of `n` registers `stride` apart. -/
def rowsAt (off base stride n : Nat) (f : Nat → RowAct) : Option RowAct := (indexIn base stride n off).map f

/-- The rows of the global block that a register write takes. -/
def globalRows (m : Master) (off : Nat) (v : Word) : List (Option RowAct) :=
  [rowAt off Reg.gblReset (execSoftwareResetKey m v), rowAt off Reg.gblLock (execGblLockWrite m v),
    rowAt off Reg.gblSysCtrl (execGblSysCtrlWrite m v), hostRow m off Reg.gblBatonClaim (fun p => execGblBatonClaimWrite p v),
    rowAt off Reg.gblBatonLease (execGblBatonLeaseWrite m v), rowAt off Reg.gblBatonPass (execGblBatonPassWrite m v),
    hostRow m off Reg.gblBatonAccept (fun p => execGblBatonAcceptWrite p v), rowAt off Reg.gblFtmUnlock (execGblFtmUnlockWrite m v),
    rowAt off Reg.gblFtmInj (fun s => act s fun s => s.injWrite m v),
    rowsAt off (Reg.gblShadow 0) 4 64 fun k => execGblShadowWrite m (Fin.ofNat 64 k) v]

/-- The rows of the collector that a register write takes. -/
def faultsRows (m : Master) (off : Nat) (v : Word) : List (Option RowAct) :=
  [rowAt off Reg.fcAck (execFcAckWrite m v), rowAt off Reg.fcPfClear (execFcPfClearWrite m v),
    rowsAt off (Reg.fcFsw 0) 4 8 fun w => execFcFswClear m (Fin.ofNat 8 w) v]

/-- The rows of the pacer that a register write takes. -/
def pacerRows (m : Master) (off : Nat) (v : Word) : List (Option RowAct) :=
  [rowAt off Reg.pcrAdjFreq (execPcrAdjFreqWrite m v), rowAt off Reg.pcrSlew (execPcrSlewWrite m v),
    rowAt off Reg.pcrStepHi (execPcrStepHiWrite m v), rowAt off Reg.pcrServoOffset (execPcrServoOffsetWrite m v)]

/-- The rows of the ports that a register write takes. -/
def portsRows (m : Master) (off : Nat) (v : Word) : List (Option RowAct) :=
  [rowsAt off (Reg.tdmFrame 0) 0x1000 16 fun n => execTdmFrameWrite m (Fin.ofNat 16 n) v,
    rowsAt off (Reg.tdmRxMaskNext 0) 0x1000 16 fun n => execRxMaskNextWrite m (Fin.ofNat 16 n) v,
    rowsAt off (Reg.tdmTxMaskNext 0) 0x1000 16 fun n => execTxMaskNextWrite m (Fin.ofNat 16 n) v,
    rowsAt off (Reg.aesRxCfg 0) 0x100 8 fun n => execAesRxEnable m (Fin.ofNat 8 n) v,
    rowsAt off (Reg.aesTxCfg 0) 0x100 4 fun n => execAesTxEnable m (Fin.ofNat 4 n) v,
    rowsAt off (Reg.aesTxCsCommit 0) 0x100 4 fun n => execAesTxCsCommit m (Fin.ofNat 4 n) v,
    rowsAt off (Reg.pdmGrpCfg 0) 0x100 4 fun g => execPdmGroupEnable m (Fin.ofNat 4 g) v,
    rowsAt off (Reg.pdmGrpMicEn 0) 0x100 4 fun g => execPdmMicEnWrite m (Fin.ofNat 4 g) v]

/-- The rows of the lane processors and tiles that a register write takes. -/
def lanesRows (m : Master) (off : Nat) (v : Word) : List (Option RowAct) :=
  [rowsAt off (Reg.lpnCtrl 0) 0x1000 16 fun n => execLpEnWrite m (Fin.ofNat 16 n) v,
    rowsAt off Reg.lpDiagAdmit1 4 5 fun k => execLpDiagAdmitWrite m (Fin.ofNat 5 k) v,
    rowsAt off (Reg.tlDefCtrl 0) 0x4000 16 fun t => execTlDefCommit m (Fin.ofNat 16 t) v]

/-- The rows of the cores, the OTP and the crypto unit that a register write takes. -/
def coresRows (m : Master) (off : Nat) (v : Word) : List (Option RowAct) :=
  [rowAt off Reg.coreHostboot (execCoreHostbootGo m v),
    rowAt off Reg.coreOtpCmd (if fld v 1 0 = 1 then execOtpRead m else if fld v 1 0 = 2 then execOtpProgram m else fun s =>
      act s fun s => s),
    rowAt off Reg.coreCryCmd (if bitAt v 31 && fld v 1 0 == 1 then execCryptoSha384 m else if bitAt v 31 && fld v 1 0 == 2 then
      execCryptoEcdsaVerify m else fun s => act s fun s => s),
    rowsAt off (Reg.coreAcCtrl 0) 0x20 4 fun n => execCoreAcReset m (Fin.ofNat 4 n) v,
    rowsAt off (Reg.coreAcCqPop 0) 0x20 4 fun n => execCoreCqPop m (Fin.ofNat 4 n) v,
    rowsAt off (Reg.coreMboxBell 0) 8 5 fun c => execCoreMboxBell m (Fin.ofNat 5 c),
    rowsAt off (Reg.coreMboxCtrl 0) 8 5 fun c => execCoreMboxRaise m (Fin.ofNat 5 c) v,
    rowsAt off (Reg.coreKick 0) 0x20 5 fun c => execCoreKickWrite m (Fin.ofNat 5 c) v]

/-- The rows of the rings that a register write takes. -/
def ringsRows (m : Master) (off : Nat) (v : Word) : List (Option RowAct) :=
  [rowsAt off (Reg.ringCfg 0) 0x40 32768 fun r =>
      if bitAt v 31 then execRingEnable m (Fin.ofNat 32768 r) v else execRingDisable m (Fin.ofNat 32768 r) v,
    rowsAt off 0x400000 8 32768 fun r => execDoorbellWrite m (Fin.ofNat 32768 r) true v,
    rowsAt off 0x400004 8 32768 fun r => execDoorbellWrite m (Fin.ofNat 32768 r) false v]

/-- The command whose row the table gives a full-word write of `v` to the register at `off`, none where it gives none. A push of a core's queue needs
what a read returns, which this command does not carry. -/
def rowCommand (m : Master) (off : Nat) (v : Word) : Option RowAct :=
  (if off < 0x10000 then globalRows m off v else if off < 0x20000 then faultsRows m off v else if off < 0x40000 then pacerRows m off v
    else if off < 0x80000 then portsRows m off v else if off < 0x140000 then lanesRows m off v
    else if off < 0x160000 then coresRows m off v else if off < 0x440000 then ringsRows m off v else []).findSome? id

/-! ### Rules of the blocks -/

/-- The registers of a packet port (R162). -/
def State.pktRegWrite (s : State) (p off : Nat) (v : Word) : State :=
  let c := Reg.pktPCtrl p
  let en := s.bit c 0
  if off = c then
    let old := s.reg c
    (if en then s.setReg c ((old &&& ~~~0x803#32) ||| (v &&& 0x803#32))
    else s.rawWrite c (if fld v 9 8 = 3 then setFld v 9 8 (fld old 9 8) else v)).showSending
  else if en then s else s.rawWrite off v

/-- A base register of a lane processor (R262). -/
def State.lpRegWrite (s : State) (n o off : Nat) (v : Word) : State :=
  let en := s.bit (Reg.lpnCtrl n) 0
  let alloc : Bool := 0x40 ≤ o ∧ o < 0x80 ∧ o % 8 = 4
  if o = 0x24 then if s.bit (Reg.lpnStatus n) 9 || s.lpSt n == lpSwitching then s else s.rawWrite off v
  else if o = 0x28 || (0x40 ≤ o && o < 0x80) then if en || (alloc && 48048 < fld v 15 0) then s else s.rawWrite off v
  else s.rawWrite off v

/-- A register of a tile (R335): the controller's own bits at once, an SSVW register over the SSV's private path, any other in a mailbox
write of OP 1, which is dropped while the link is not up. -/
def State.tileRegWrite (s : State) (t off : Nat) (ssvw : Bool) (v : Word) : State :=
  let o := off - 0x100000 - t * 0x4000
  if o = 0 then s.rawWrite off v
  else if o = 0x2108 || o = 0x210C then (s.rawWrite off v).showBatt t
  else if !s.bit (Reg.tlLinkStatus t) 1 then s.setBit (Reg.tlLinkStatus t) 7 true
  else if ssvw then s.ssvTileWrite t o v
  else
    let h := s.tileAt t
    s.setTile t { h with mbox := h.mbox ++ [{ op := 1, off := o, data := v }] }

/-- A source's configuration in the collector (R474, R476): that of a reserved source is discarded, and so is a mask that adds a block
reset to a source without one, with CFG_BAD. -/
def State.fcSrcWrite (s : State) (src o off : Nat) (v : Word) : State :=
  if srcReserved src then s
  else if o = 4 && addsReset src v then s.setBit Reg.fcStatus 4 true
  else s.rawWrite off v

/-- An event ring is of type 5 and of its port (R495). -/
def State.evringWrite (s : State) (p : Nat) (v : Word) : State :=
  let r := fld v 14 0
  if bitAt v 31 && !(s.ringType r == 5 && s.ringPort r == p) then s.setBit Reg.fcStatus 4 true
  else s.rawWrite (Reg.fcEvring p) v

/-- A ring's base (R437). -/
def State.ringBaseWrite (s : State) (r off : Nat) (v : Word) : State :=
  if s.ringEn r then s.setBit (Reg.ringStatus r) 6 true else s.rawWrite off v

/-- `GBL_VOTE_CFG` (R433): EN is locked by LOCK, and WINDOW reads as the value taken. -/
def State.voteCfgWrite (s : State) (v : Word) : State :=
  let old := s.reg Reg.gblVoteCfg
  let en := if bitAt old 31 then bitAt old 7 else bitAt v 7
  s.setReg Reg.gblVoteCfg (BitVec.ofNat 32 ((if bitAt old 31 || bitAt v 31 then 2 ^ 31 else 0) + (if en then 128 else 0) +
    clampWindow (fld v 6 0)))

/-- A watchdog of a core (R526): it starts as it is enabled; the SSV's stays enabled once it is. -/
def State.wdogWrite (s : State) (c : Nat) (v : Word) : State :=
  let r := Reg.coreWdog c
  let s := if s.bit r 31 then s else s.setCore c { s.coreAt c with wdogHeats := 0 }
  s.rawWrite r (if c = 4 && s.bit r 31 then setBitAt v 31 true else v)

/-- The pairing unit's settings (R407). -/
def State.txlRegWrite (s : State) (off : Nat) (v : Word) : State :=
  if off = Reg.txlCtrl then
    let s := s.rawWrite off v
    (if bitAt v 0 then s else s.txlDown).showArmed
  else if off = Reg.txlCfg then s.setReg off (txlCfgTaken v)
  else if off = Reg.txlLevCfg then s.setReg off (txlLevTaken v)
  else s.rawWrite off v

/-- A write of `TDMn_CH_MAX` (R89). -/
def State.chMaxWrite (s : State) (n : Nat) (v : Word) : State :=
  let ok (x : Nat) : Bool := 1 ≤ x && x ≤ 32
  if s.getF (Reg.tdmCtrl n) 1 0 = 0 && ok (fld v 5 0) && ok (fld v 13 8) then s.rawWrite (Reg.tdmChMax n) v else s.cfgBusy n

/-- The registers of the serial ports that no row writes. -/
def State.serialRegWrite (s : State) (off : Nat) (v : Word) : State :=
  let o := off % 0x1000
  if off < 0x50000 then
    let n := (off - 0x40000) / 0x1000
    if o = 0 then s.tdmCtrlWrite n v
    else if o = 0x18 then s.chMaxWrite n v
    else if o = 0x30 then s.rawWrite off (BitVec.ofNat 32 (zcTaken (fld v 8 0)))
    else s.rawWrite off v
  else if (off < 0x61000 && off % 0x100 = 0x14) || (0x70000 ≤ off && off % 0x100 = 0x18) then
    s.rawWrite off (BitVec.ofNat 32 (zcTaken (fld v 8 0)))
  else s.rawWrite off v

/-- The registers of the cores' block that no row writes: the machine timer follows its compare value (R524). -/
def State.coreRegWrite (s : State) (off : Nat) (v : Word) : State :=
  match indexIn (Reg.coreWdog 0) 0x20 5 off, indexIn (Reg.coreMtimecmpLo 0) 0x20 5 off, indexIn (Reg.coreMtimecmpHi 0) 0x20 5 off with
  | some c, _, _ => s.wdogWrite c v
  | _, some c, _ => (s.rawWrite off v).timerEval c
  | _, _, some c => (s.rawWrite off v).timerEval c
  | _, _, _ => s.rawWrite off v

/-- The global registers that no row writes. -/
def State.globalRegWrite (s : State) (off : Nat) (v : Word) : State :=
  if off = Reg.gblVoteCfg then s.voteCfgWrite v
  else if off = Reg.gblModeCfg then (s.rawWrite off v).batFollow
  else s.rawWrite off v

/-- A write of `PCR_CLKMONw`: a bit cleared sets again at once while its island is out of tolerance (R71). -/
def State.clkmonWrite (s : State) (w : Nat) (v : Word) : State :=
  let s := s.rawWrite (Reg.pcrClkmon w) v
  s.setReg (Reg.pcrClkmon w) (s.reg (Reg.pcrClkmon w) ||| (s.islOut >>> (32 * w)).setWidth 32)

/-- The effect of a full-word write of a register by a master that may write it, by block. -/
def State.blockWrite (s : State) (off : Nat) (ssvw : Bool) (v : Word) : State :=
  if off < 0x10000 then s.globalRegWrite off v
  else if off < 0x20000 then
    match indexIn 0x100C0 4 3 off with
    | some p => s.evringWrite p v
    | none => if 0x11000 ≤ off ∧ off < 0x12000 then s.fcSrcWrite ((off - 0x11000) / 0x10) (off % 0x10) off v else s.rawWrite off v
  else if off = Reg.pcrCtrl then s.pcrCtrlWrite v
  else if off = Reg.pcrSlewRate then s.slewRateWrite v
  else if inArray (Reg.pcrClkmon 0) 4 3 off then s.clkmonWrite ((off - Reg.pcrClkmon 0) / 4) v
  else if off < 0x40000 then s.rawWrite off v
  else if off < 0x80000 then s.serialRegWrite off v
  else if off < 0x80800 then s.pktRegWrite ((off - 0x80000) / 0x400) off v
  else if off = Reg.pktCsSel then (s.rawWrite off v).showPktCs
  else if off = Reg.zmCtrl then s.rawWrite off (setFld v 24 16 (zcTaken (fld v 24 16)))
  else if off = Reg.zmBusBase then if s.bit Reg.zmCtrl 0 then s else s.rawWrite off v
  else if off = Reg.plyCacheBase ∨ off = Reg.plyCachePages ∨ off = Reg.plyBufBase then
    if s.bit Reg.plyCtrl 0 then s else s.rawWrite off v
  else if 0xE0000 ≤ off ∧ off < 0xF0000 then s.lpRegWrite ((off - 0xE0000) / 0x1000) (off % 0x1000) off v
  else if 0x100000 ≤ off ∧ off < 0x140000 then s.tileRegWrite ((off - 0x100000) / 0x4000) off ssvw v
  else if 0x140000 ≤ off ∧ off < 0x150000 then s.txlRegWrite off v
  else if 0x150000 ≤ off ∧ off < 0x160000 then s.coreRegWrite off v
  else if 0x200000 ≤ off ∧ off < 0x400000 ∧ off % 0x40 < 8 then s.ringBaseWrite ((off - 0x200000) / 0x40) off v
  else s.rawWrite off v

/-- A full-word write of the register at `off`: nothing in a hole, or by a master an SSVW register does not admit (R12, R554). -/
def State.plainWrite (s : State) (m : Master) (off : Nat) (v : Word) : State :=
  match regRow off with
  | none => s
  | some r => if ownRow off || (r.ssvw && m ≠ .ssv) then s else s.blockWrite off r.ssvw v

/-- A write of `HPn_STATUS` or `HPn_CTRL`, which port n writes whether or not it holds the baton (R411, R433). -/
def State.hpWrite (s : State) (m : Master) (n off : Nat) (v : Word) : State :=
  let mine : Bool := match m with
    | .host p => p.val == n
    | _ => false
  if mine then s.rawWrite off v
  else s.gated m off fun s => if off = Reg.hpCtrl n then s else s.rawWrite off v

/-- A word written at BAR0 offset `off` with byte enables. A write from 0x0044_0000 upwards is discarded with no event (R9). -/
def State.bar0Write (s : State) (m : Master) (off : Nat) (be : BitVec 4) (v : Word) : State :=
  match m, decide (0x8000 ≤ off ∧ off < 0x10000) with
  | .host p, true => s.msixWrite p.val ((off - 0x8000) / 4) be v
  | _, _ =>
    if be ≠ 0xF#4 ∨ 0x440000 ≤ off then s
    else match indexIn 0x700 0x40 3 (off / 8 * 8) with
      | some n => s.hpWrite m n off v
      | none => s.gated m off fun s => s.plainWrite m off v

/-! ### Addresses outside register space (R505, R509, R516) -/

/-- The number of a master in the matrix (R499); another master brings its own. -/
def masterId (m : Master) (id : Nat) : Nat :=
  match m with
  | .host p => p.val
  | .ssv => 8
  | .ac n => 9 + n.val
  | .other => id

/-- A decode error (R505); an application core's access raises 0x02 on its own source too (R522). -/
def State.decodeError (s : State) (m : Master) (id : Nat) (write : Bool) (addr : Word) : State :=
  let i := masterId m id
  let s := (s.setReg Reg.mxErrInfo (BitVec.ofNat 32 ((if write then 2 ^ 31 else 0) + i % 32 * 2 ^ 16))).setReg Reg.mxErrAddr addr
  let s := (s.bump Reg.mxDecerrCnt 32).emit 213 0x01 (syn16 0x01 i (addr.toNat / 65536))
  match m with
  | .ac n => s.emit (223 + n.val) 0x02 (syn16 0x02 0 0)
  | _ => s

/-- The block that issues a store under a matrix master number (R499). -/
def blockWriter (id : Nat) : VatWriter :=
  if id = 3 then .ring
  else if id = 4 then .ingress
  else if id = 6 then .eth
  else if id = 7 then .player
  else if id = 13 then .collector
  else if 16 ≤ id then .lp (id - 16)
  else .egress

/-- A word store at an address of the matrix map: the vat, core SRAM, its alias in the remap window, and a core's own memory take
it; register space takes it as a register write; anything else is a decode error. -/
def State.matrixWrite (s : State) (m : Master) (addr : Word) (id : Nat) (be : BitVec 4) (v : Word) : State :=
  let a := addr.toNat / 4 * 4
  let bad := s.decodeError m id true addr
  let bs := (List.range 4).filterMap fun i => if be.getLsbD i then some (i, BitVec.ofNat 8 (fld v (8 * i + 7) (8 * i))) else none
  let sram (o : Nat) : State :=
    let e := s.csramH.find (o / 8)
    if o < (s.reg Reg.mxCsramSsv).toNat ∧ m ≠ .ssv then bad
    else if (e.map (·.double)).getD false then s.csramFound (e.getD {})
    else { s with csramH := s.csramH.drop (o / 8), csram := bs.foldl (fun mem p => Sparse.set 0 mem (o + p.1) p.2) s.csram }
  let core : Bool := match m with
    | .ssv => true
    | .ac _ => true
    | _ => false
  if 0x40000000 ≤ a ∧ a < 0x48000000 then
    let w : VatWriter := match m with
      | .host p => .host p.val
      | .ssv => .ssv
      | .ac n => .ac n.val
      | .other => blockWriter id
    bs.foldl (fun s p => s.vatWrite w (a - 0x40000000 + p.1) [p.2]) s
  else if 0x20000000 ≤ a ∧ a < 0x22000000 then s.bar0Write m (a - 0x20000000) be v
  else if csramBase ≤ a ∧ a < csramBase + 0x100000 then sram (a - csramBase)
  else if a < 0x100000 ∧ core ∧ s.bit Reg.gblSysCtrl 0 then sram a
  else
    match m, decide (tcmBase ≤ a ∧ a < tcmBase + 0x40000) with
    | .ac n, true =>
      let h := s.coreAt n.val
      s.setCore n.val { h with tcm := bs.foldl (fun mem p => Sparse.set 0 mem (a - tcmBase + p.1) p.2) h.tcm }
    | _, _ => bad

/-- The BAR0 offset a register write names, in BAR0 or in the matrix's register space; none elsewhere. -/
def targetOffset : RegTarget → Option Nat
  | .bar0 off => some (off / 4 * 4)
  | .config _ _ _ => none
  | .matrix addr _ => if 0x20000000 ≤ addr.toNat ∧ addr.toNat < 0x22000000 then some ((addr.toNat - 0x20000000) / 4 * 4) else none

/-- The command whose row a register write takes, none where it has no row of its own. -/
def targetRow (m : Master) (a : RegTarget) (be : BitVec 4) (v : Word) : Option RowAct :=
  if be = 0xF#4 then (targetOffset a).bind fun off => rowCommand m off v else none

/-- REGISTER_WRITE (R12): a write of a word, under the access type of its register, its block's rules, the locks and the baton. -/
def execRegisterWrite (m : Master) (a : RegTarget) (be : BitVec 4) (v : Word) (s : State) : Host.Outcome State Fault Refusal :=
  match targetRow m a be v with
  | some f => f s
  | none => act s fun s =>
    match a, m with
    | .bar0 off, m => s.bar0Write m (off / 4 * 4) be v
    | .config bme msixEn fmask, .host p => s.configWrite p.val bme msixEn fmask
    | .config _ _ _, _ => s
    | .matrix addr id, m => s.matrixWrite m addr id.val be v

/-! ### Reads (R14, R408, R524, R559, R560) -/

/-- The locks, as `GBL_LOCK_STATUS` shows them. -/
def State.lockStatus (s : State) : Word :=
  let b (on : Bool) (i : Nat) : Nat := if on then 2 ^ i else 0
  BitVec.ofNat 32 (b (s.bit Reg.fcLock 0) 0 + b (s.bit Reg.mxLock 0) 1 + b (s.bit Reg.coreLock 0) 2 + b (s.bit Reg.gblHpLock 0) 3 +
    b (s.bit Reg.gblVoteCfg 31) 4 + b (s.bit Reg.lpGctrl 31) 5 +
    ((List.range 16).map fun t => b (s.bit (Reg.tlRindCtrl t) 31) (16 + t)).sum)

/-- `GBL_TILES`: the PRESENT and TRAINED bits of every tile. -/
def State.tilesWord (s : State) : Word :=
  BitVec.ofNat 32 ((List.range 16).map fun t =>
    (if s.bit (Reg.tlLinkStatus t) 0 then 2 ^ t else 0) + (if s.bit (Reg.tlLinkStatus t) 2 then 2 ^ (16 + t) else 0)).sum

/-- What a read of the word at `off` returns to a master. A word of the pacer's snapshot reads its reset value until the master first latches it (R47). -/
def State.readWord (s : State) (m : Master) (off : Nat) : Word :=
  let ns := s.pacer.ns.toNat
  let msix : Option Word := match m with
    | .host p =>
      let h := s.hpAt p.val
      if 0x8000 ≤ off ∧ off < 0x10000 then some (h.tableWord ((off - 0x8000) / 4))
      else if 0x7F00 ≤ off ∧ off < 0x8000 then some (Sparse.get 0 h.pba ((off - 0x7F00) / 4)) else none
    | _ => none
  match msix, regRow off with
  | some w, _ => w
  | none, none => 0#32
  | none, some r =>
    if r.wo then 0#32
    else if off = Reg.gblTiles then s.tilesWord
    else if off = Reg.gblWhoami then BitVec.ofNat 32 (masterCode m)
    else if off = Reg.gblLockStatus then s.lockStatus
    else if off = Reg.pcrTimeLo ∨ off = Reg.coreMtimeLo then BitVec.ofNat 32 ns
    else s.latched m off
      (if off = Reg.coreMtimeHi then BitVec.ofNat 32 (ns / 2 ^ 32)
       else if off = Reg.pcrSlewLeft then s.slewLeft
       else s.reg off)

/-- An RC register clears when the baton owner or the SSV reads it (R14). -/
def State.mayClear (s : State) (m : Master) : Bool :=
  match m with
  | .ssv => true
  | .host p => s.owns p.val
  | _ => false

/-- RC_REGISTER_READ (R14). -/
def execRcRegisterRead (m : Master) (off : BitVec 25) (s : State) : Host.Outcome State Fault Refusal :=
  act s fun s =>
    let o := off.toNat / 4 * 4
    let s' := { s with rdata := s.readWord m o }
    match regRow o with
    | some r => if r.rc && s.mayClear m then s'.clearReg o else s'
    | none => s'

/-! ### BAR2 (R408, R411, R515) -/

/-- HOST_BAR2_WRITE (R411): bytes written by a host port at a byte offset of the vat. -/
def execHostBar2Write (p : Fin 3) (off : BitVec 27) (bytes : List Byte) (s : State) : Host.Outcome State Fault Refusal :=
  act s fun s => if s.owns p.val then s.vatWrite (.host p.val) off.toNat bytes else s.dropWrite p.val

end Sys2Proof.Machine
end

