-- ==== Sys2Proof/Machine/Returns.lean ====
section
/-! DEFINITION. Returns of the zone buses (01_engine_tiles_lanes.md R36, R37): frames of TDM and AES3 transmitters (03_serial_ports.md
R96, R101, R115 to R118) and packets of transmit flows (04_packet_audio_voting.md R148 to R152). -/

namespace Sys2Proof.Machine

/-- Sample `k` of zone bus `z` in heat `c` at a tap, 0 post and 1 pre; none where the block is absent or late (R31, R101). A zone that
holds nothing plays zeros. -/
def State.busSample (s : State) (z tap c k : Nat) : Option Word :=
  match (s.zoneAt z).done.find? fun b => b.1 == c with
  | some b => if b.2.2.2 then none else some ((if tap = 0 then b.2.1 else b.2.2.1).getD k 0)
  | none => if (s.zoneAt z).done.isEmpty then some 0#32 else none

/-- The zone and tap a return register names, none where it is unmapped (R187). -/
def retMap (w : Word) : Option (Nat × Nat) := if fld w 15 0 < 256 then some (fld w 15 0, fld w 16 16) else none

/-- A sample as a two's complement word of `bits` bits, rounded to nearest and saturated (R85). -/
def pcmWord (bits : Nat) (x : Word) : Word :=
  let q := sampleVal x * ((2 ^ (bits - 1) : Nat) : Rat)
  let m := divEven q.num.natAbs q.den
  let v : Int := if q < 0 then -(m : Int) else (m : Int)
  BitVec.ofNat 32 (pattern bits (clampInt (-(2 ^ (bits - 1) : Nat)) ((2 ^ (bits - 1) : Nat) - 1) v))

/-- Bus samples in the window of a return's filter: those of the last 64 output periods of a transmit converter, of the last 500 µs of an
interpolation filter of a group delay of 250 µs (R37). -/
def retWindow (rate : Nat) : Nat := if rate = 4 || rate = 6 then 24 else ceilDiv (64 * 480) (rate10 rate)

/-- The taps of the filter between a bus and a return at a rate code. -/
def retTaps (rate : Nat) : Nat := if rate = 4 || rate = 6 then 24 else 64

/-- The sample a converted or interpolated return sends at pacer time `t` ns (R37): the filter's output over the bus samples whose ingress time
stamps end at t − 2,000 µs, so that a sample stands at the middle of the window 32 output periods, or 250 µs, after its own 2,000 µs. None
where the newest of them is absent or late; an older one that is counts as zero, and zeros give zero. -/
def State.retConverted (s : State) (z tap rate : Nat) (t : Rat) : Option Word :=
  let u := t - 2000000
  let j := (u * 48 / 1000000).floor.toNat
  let at_ (i : Nat) : Option Word := s.busSample z tap (i / 48) (i % 48)
  if u < 0 then none
  else
    match at_ j with
    | none => none
    | some _ =>
      let w := (List.range (retWindow rate)).map fun i => if j < i then 0#32 else (at_ (j - i)).getD 0#32
      some (if w.all f32IsZero then 0#32 else Config.filterOut (retTaps rate) (u * 48 / 1000000 - (j : Rat)) w)

/-! ### TDM (R83, R86, R96, R101, R103) -/

/-- The next transmit mask takes effect at a frame sync (R96). -/
def State.tdmTxMask (s : State) (n : Nat) : State :=
  let h := s.tdmTxAt n
  if h.maskDue then (s.setReg (Reg.tdmTxMask n) (s.reg (Reg.tdmTxMaskNext n))).setTdmTx n { h with maskDue := false } else s

/-- The bits of a word of `bits` bits that begins at bit clock `lo`, MSB first, laid into a data line. -/
def lineWord (lo bits v : Nat) (line : BitVec 1024) : BitVec 1024 :=
  forUpto bits (fun i l => if v / 2 ^ (bits - 1 - i) % 2 = 1 then l ||| (1#1024 <<< (lo + i)) else l) line

/-- The data line of a frame and the bit clocks at which it is driven (R83): the words of the slots in the mask, each in the first WORD bit clocks of
its slot; with TX_HIZ only those, else the whole frame. -/
def tdmLine (c f mask : Word) (sent : List Word) : BitVec 1024 × BitVec 1024 :=
  let at_ (q : Nat) : Nat := fld f 15 8 + q * (fld f 7 3 + 16)
  let qs := (List.range (fld f 20 16 + 1)).filter fun q => bitAt mask q
  let line := qs.foldl (fun l q => lineWord (at_ q) (tdmWordBits f) (sent.getD q 0).toNat l) 0
  let words := qs.foldl (fun l q => lineWord (at_ q) (tdmWordBits f) (2 ^ tdmWordBits f - 1) l) 0
  (line, if bitAt c 2 then words else lineWord 0 (fld f 31 21) (2 ^ fld f 31 21 - 1) 0)

/-- The words of a frame go out on the data line, which changes on the edge opposite to RX_EDGE (R86). -/
def State.tdmOut (s : State) (n : Nat) (out : List Word) : State :=
  let c := s.reg (Reg.tdmCtrl n)
  let l := tdmLine c (s.reg (Reg.tdmFrame n)) (s.reg (Reg.tdmTxMask n)) out
  s.setTdmTx n { s.tdmTxAt n with sent := out, line := l.1, driven := l.2, falling := !bitAt c 4 }

/-- Frame `k` of the heat on transmit port `n`: a whole frame of zeros where a return's block is not ready or the clock runs ahead. -/
def State.tdmSend (s : State) (n k : Nat) (ahead : Bool) : State :=
  let s := s.tdmTxMask n
  let c := s.reg (Reg.tdmCtrl n)
  let f := s.reg (Reg.tdmFrame n)
  let mask := s.reg (Reg.tdmTxMask n)
  let slots := List.range (fld f 20 16 + 1)
  let t := s.pacer.ns.toNat
  let src (q : Nat) : Option Word :=
    if !bitAt mask q then some 0#32
    else match retMap (s.reg (Reg.zmRtdmS n q)) with
      | none => some 0#32
      | some (z, tap) => if tdmSync c then s.busSample z tap (s.heat - 2) k else s.retConverted z tap (fld c 11 8) (t : Rat)
  if ahead || slots.any fun q => (src q).isNone then
    ((s.tdmOut n (slots.map fun _ => 0#32)).bump (Reg.tdmUndCnt n) 32).serialEvent (160 + n) 0x03 0xFF 1
  else
    let (s, out) := slots.foldl (fun (a : State × List Word) q =>
      if !bitAt mask q then (a.1, a.2 ++ [0#32])
      else
        let (s, y) := a.1.throughChan (1024 + n * 32 + q) t ((src q).getD 0)
        (s, a.2 ++ [pcmWord (tdmWordBits f) y])) (s, [])
    s.tdmOut n out

/-- TDM_TX_FRAME: frame `k` of this heat begins on transmit port `n`; `ahead` says that a slave-mode clock runs ahead of its data. -/
def execTdmTxFrame (n : Fin 16) (k : Fin 48) (ahead : Bool) (s : State) : Host.Outcome State Fault Refusal :=
  act s fun s => if s.bit (Reg.tdmCtrl n.val) 1 && !s.inReset (160 + n.val) then s.tdmSend n.val k.val ahead else s

/-! ### AES3 (R115 to R118) -/

/-- Frames per heat of a transmitter at 48, 96 or 192 kHz. -/
def aesPerHeat (rate : Nat) : Nat := rate10 rate / 10

/-- The sample count since the epoch of frame `k` of heat `h`. -/
def aesCount (rate h k : Nat) : Nat := h * rate10 rate / 10 + k

/-- A channel-status block as it is sent: the template with the fills its configuration asks for (R117). -/
def aesStatus (cfg : Word) (rate count : Nat) (ws : List Word) : List Word :=
  let bs := bytesOfWords ((ws ++ List.replicate 6 0#32).take 6)
  let bs := if bitAt cfg 2 then patch bs 14 (leBytes 4 count) else bs
  let bs := if bitAt cfg 3 then patch bs 18 (leBytes 4 (count % (rate10 rate * 100 * 86400))) else bs
  let bs := if bitAt cfg 1 then patch bs 23 (leBytes 1 (crcc bs)) else bs
  wordsOf 6 bs

/-- At a Z preamble the committed templates are taken, and the block's status is formed (R116, R117). -/
def State.aesZ (s : State) (n rate count : Nat) : State :=
  let h := s.aesTxAt n
  let cfg := s.reg (Reg.aesTxCfg n)
  let t (r : Nat → Nat → Nat) : List Word := (List.range 6).map fun i => s.reg (r n i)
  let ta := if h.csDue then t Reg.aesTxCsA else h.tmplA
  let tb := if h.csDue then t Reg.aesTxCsB else h.tmplB
  let h := { h with csDue := false, tmplA := ta, tmplB := tb, csA := aesStatus cfg rate count ta, csB := aesStatus cfg rate count tb }
  (s.setAesTx n h).setBit (Reg.aesTxStatus n) 1 false

/-- A heard layer of the zone plays a source entry whose input is lost and that plays no fallback (R118). -/
def State.zoneLost (s : State) (z : Nat) : Bool :=
  (List.range 8).any fun l =>
    let h := s.layerAt z l
    h.heard && h.srcType == 1 && (s.srcAt h.srcId).lost && (s.srcAt h.srcId).fb == .off

/-- Frame `k` of this heat on AES3 transmitter `n`: its time is that of its sample count since the epoch. -/
def State.aesSend (s : State) (n k : Nat) : State :=
  let rate := s.getF (Reg.aesTxCfg n) 15 12
  let count := aesCount rate s.heat k
  let z := count % 192 == 0
  let s := if z then s.aesZ n rate count else s
  let t : Rat := (count : Rat) * periodNs rate
  let src (c : Nat) : Option Word :=
    match retMap (s.reg (Reg.zmRaesC n c)) with
    | none => some 0#32
    | some (z, tap) => if rate = 2 then s.busSample z tap (s.heat - 2) (k % 48) else s.retConverted z tap rate t
  let lost (c : Nat) : Bool := match retMap (s.reg (Reg.zmRaesC n c)) with
    | some (z, _) => s.zoneLost z
    | none => false
  if [0, 1].any fun c => (src c).isNone then
    ((s.setAesTx n { s.aesTxAt n with sent := [0#32, 0#32], invalid := [true, true], zSent := z }).bump (Reg.aesTxUndCnt n) 32).serialEvent
      (184 + n) 0x03 0xFF 1
  else
    s.setAesTx n { s.aesTxAt n with sent := [0, 1].map fun c => pcmWord 24 ((src c).getD 0), invalid := [0, 1].map lost, zSent := z }

/-- AES_TX_FRAME: frame `k` of this heat is sent by transmitter `n`; user bits are zero. -/
def execAesTxFrame (n : Fin 4) (k : Fin 192) (s : State) : Host.Outcome State Fault Refusal :=
  act s fun s => if s.bit (Reg.aesTxCfg n.val) 0 && s.bit (Reg.aesTxStatus n.val) 0 && !s.inReset (184 + n.val) then s.aesSend n.val k.val else s

/-! ### Transmit flows (R150 to R152) -/

/-- The one's complement sum of 16-bit big-endian words, complemented. -/
def inetSum (bs : List Byte) : Nat :=
  let t := ((List.range ((bs.length + 1) / 2)).map fun i => beAt (bs ++ [0#8]) (2 * i) 2).sum
  let t := t % 65536 + t / 65536
  let t := t % 65536 + t / 65536
  65535 - t

/-- The IPv4 header with DF and its checksum; `ident` is the identification field. -/
def ipHeader (en : List Byte) (src ident len : Nat) : List Byte :=
  let a := [0x45#8] ++ leBytes 1 (leAt en 29 1 * 4) ++ beBytes 2 (20 + len) ++ beBytes 2 ident ++ beBytes 2 0x4000 ++ leBytes 1 (leAt en 30 1) ++
    leBytes 1 17
  let b := beBytes 4 src ++ beBytes 4 (leAt en 8 4)
  a ++ beBytes 2 (inetSum (a ++ beBytes 2 0 ++ b)) ++ b

/-- The UDP datagram with its checksum over the pseudo-header. -/
def udpDatagram (en : List Byte) (src : Nat) (body : List Byte) : List Byte :=
  let len := 8 + body.length
  let hd := beBytes 2 (leAt en 14 2) ++ beBytes 2 (leAt en 12 2) ++ beBytes 2 len
  let c := inetSum (beBytes 4 src ++ beBytes 4 (leAt en 8 4) ++ beBytes 2 17 ++ beBytes 2 len ++ hd ++ beBytes 2 0 ++ body)
  hd ++ beBytes 2 (if c = 0 then 65535 else c) ++ body

/-- The RTP packet: version 2, marker 0, sequence number, timestamp and SSRC (R150). -/
def rtpPacket (en : List Byte) (seq ts : Nat) (pay : List Byte) : List Byte :=
  [0x80#8] ++ leBytes 1 (leAt en 27 1 % 128) ++ beBytes 2 seq ++ beBytes 4 ts ++ beBytes 4 (leAt en 16 4) ++ pay

/-- The Ethernet frame of a flow on a port: its addresses, VLAN tag and packet. -/
def State.flowFrame (s : State) (en : List Byte) (p ident : Nat) (rtp : List Byte) : List Byte :=
  let src := (s.reg (Reg.pktPIpv4 p)).toNat
  let mac := leBytes 4 (s.reg (Reg.pktPMacLo p)).toNat ++ leBytes 2 (s.reg (Reg.pktPMacHi p)).toNat
  let vlan := leAt en 6 2
  let tag := if vlan / 4096 % 2 = 1 then beBytes 2 0x8100 ++ beBytes 2 (vlan / 8192 * 8192 + vlan % 4096) else []
  let udp := udpDatagram en src rtp
  withFcs (en.take 6 ++ mac ++ tag ++ beBytes 2 0x0800 ++ ipHeader en src ident udp.length ++ udp)

/-- The samples of a packet by frame and channel, none where a block of its zones is not ready. -/
def State.flowSamples (s : State) (en : List Byte) (first n : Nat) : Option (List Word) :=
  let xs := (List.range n).flatMap fun i => (List.range (txChans en)).map fun c =>
    s.busSample (leAt en 24 1 + c) 0 ((first + i - 96) / 48) ((first + i - 96) % 48)
  if xs.all Option.isSome then some (xs.map fun x => x.getD 0) else none

/-- The packet whose last sample's successor has come to its media time. A port sends while its link is up and EN and TX_EN are set; the packets of
a leg whose link is down are counted (R152, R162). -/
def State.flowSend (s : State) (f : Nat) : State :=
  let h := s.txFlowAt f
  let en := h.entry
  let n := txS en
  let first := s.pacer.ns.toNat * 48 / 1000000 / n * n - n
  let bytes := encBytes (fmtEnc (txFmt en))
  let xs := s.flowSamples en first n
  let pay := (xs.getD (List.replicate (n * txChans en) 0#32)).flatMap fun x => beBytes bytes (pcmWord (8 * bytes) x).toNat
  let ts := (first + leAt en 20 4) % 2 ^ 32
  let rtp := rtpPacket en h.seq.toNat ts pay
  let ident := s.freeVal.toNat % 65536
  let s := s.take
  let s := if xs.isNone then (s.bump (Reg.pktTxfUndCnt f) 32).packetEvent (if txLeg en 0 then 0 else 1) 0x3A f else s
  let leg (s : State) (p : Nat) : State :=
    if !txLeg en p then s
    else if !s.bit (Reg.pktPStatus p) 0 then s.bump (Reg.pktTxfDropCnt f) 32
    else if !s.portSends p then s
    else
      let h := s.txFlowAt f
      let fr := s.flowFrame en p ident rtp
      (s.setTxFlow f (if p = 0 then { h with last0 := fr } else { h with last1 := fr })).bump (Reg.pktTxfPktCnt f) 32
  let s := leg (leg s 0) 1
  s.setTxFlow f { s.txFlowAt f with seq := h.seq + 1 }

/-- FLOW_PACKET_SEND: transmit flow `f` sends the packet that has come due. -/
def execFlowPacketSend (f : Fin 512) (s : State) : Host.Outcome State Fault Refusal :=
  act s fun s => if s.bit (Reg.pktTxfState f.val) 0 then s.flowSend f.val else s

end Sys2Proof.Machine
end

