-- ==== Sys2Proof/Machine/TestDone.lean ====
section
/-! DEFINITION. What tests and the continuous pilot find (10_line_diagnostics.md R338 to R343, R355 to R364): TEST_DONE with the results of each
kind, the proving correlator, the earth converter's results, and the verdicts of pilot windows. -/

namespace Sys2Proof.Machine

/-! ### TEST_DONE (R355 to R364) -/

/-- The lane program has done the test, as the copy of its record shows (R346). -/
def State.progDone (s : State) (t : TestH) : Bool :=
  (s.copyWord t.lane 100).toNat == t.seq && fld (s.copyWord t.lane 104) 31 24 == 1

/-- SPECTRO: the head record and 22 records of the points. -/
def State.spectroDone (s : State) (t : TestH) : State :=
  let pts := (t.pts ++ List.replicate 148 (0#32, 0#32)).take 148
  let d := t.upd.desc.body
  let level := f32OfRat (if d.pl 4 2 = 0 then -40 else (d.pls 4 : Rat) / 100)
  let idx := pts.zipIdx
  let low := idx.foldl (fun (a : Option (Word × Nat)) p =>
    match a with
    | none => some (p.1.1, p.2)
    | some x => if f32Finite p.1.1 && (!f32Finite x.1 || f32ToRat p.1.1 < f32ToRat x.1) then some (p.1.1, p.2) else a) none
  let high := idx.foldl (fun (a : Option (Word × Nat)) p =>
    if !f32Finite p.1.1 then a
    else match a with
      | none => some (p.1.1, p.2)
      | some x => if f32ToRat x.1 < f32ToRat p.1.1 then some (p.1.1, p.2) else a) none
  let pair (a : Option (Word × Nat)) : List Word := match a with
    | some x => [x.1, pointFreq x.2]
    | none => [0#32, 0#32]
  let recs := (List.range 22).map fun j =>
    (bytesOfWords (((pts.drop (7 * j)).take 7).flatMap fun p => [p.1, p.2]) ++ List.replicate 56 0#8).take 56
  s.testRecord t rsDone 0 (level :: 148#32 :: (pair low ++ pair high)) recs

/-- TWEETER: ΔG, the count of live tweeters, and event 0xD5 below TW_N. -/
def State.tweeterDone (s : State) (t : TestH) : State :=
  let d := t.upd.desc.body
  let ga := s.copyWord t.lane 116
  let gb := s.copyWord t.lane 120
  let base := BitVec.ofNat 32 (d.pl 20 4)
  let dg := s.copyWord t.lane 124
  let judged := sampleVal base != 0
  let cnt := if judged then (clampInt 0 255 (roundRat ((d.byte 3 : Rat) * sampleVal dg / sampleVal base))).toNat else 0
  let pass := judged && decide (d.byte 3 ≤ cnt)
  let s := if judged && !pass then s.emit t.lane 0xD5 (diagSyn 0xD5 t.kind cnt) else s
  s.testRecord t rsDone (if pass then 64 else 0) [ga, gb, dg, base, BitVec.ofNat 32 cnt, BitVec.ofNat 32 (d.byte 3)] []

/-- 10 kΩ and 10 MΩ as binary32. -/
abbrev f32TenK : Word := 0x461C4000#32
abbrev f32TenM : Word := 0x4B189680#32

/-- R_ins in Ω, infinite where no current is in phase, and C_leak in F, from the demodulated sums; none without a voltage (R358). -/
def EarthH.result (h : EarthH) : Option (Option Rat × Rat) :=
  let vv := h.v.1 * h.v.1 + h.v.2 * h.v.2
  let re := h.i.1 * h.v.1 + h.i.2 * h.v.2
  let im := h.v.2 * h.i.1 - h.v.1 * h.i.2
  if vv = 0 then none else some (if re ≤ 0 then none else some (near 27 (vv / re)), near 28 (im / (34 * piVal * vv)))

/-- The peak of a demodulated quantity. -/
def EarthH.peak (h : EarthH) (x : Rat × Rat) : Rat := 2 * near 29 (sqrtOf (x.1 * x.1 + x.2 * x.2)) / (max 1 h.taken : Nat)

/-- EARTH: the insulation, reported between 10 kΩ and 10 MΩ, with event 0xD6 below EARTH_MIN and 0xD7 on the next pass. Where the converter finds no
voltage the results are free. -/
def State.earthDone (s : State) (t : TestH) (h : EarthH) : State :=
  let n := t.lane
  let (s, res) := match h.result with
    | some r => (s, r)
    | none => (s.take.take, (some (((s.freeVal.toNat : Nat) : Rat)), sampleVal (s.take.freeVal)))
  let low := res.1.any fun r => decide (r < 10000)
  let high := res.1.all fun r => decide (10000000 < r)
  let r : Rat := if low then 10000 else if high then 10000000 else res.1.getD 0
  let min_ : Rat := ((t.upd.desc.body.pl 14 2 * 1000 : Nat) : Rat)
  let pass := decide (min_ ≤ r)
  let kilo := (r / 1000).floor.toNat
  let bad := (s.admitAt n).earthBad
  let s := s.setAdmit n { s.admitAt n with earthBad := !pass }
  let s := if !pass then s.emit n 0xD6 (diagSyn 0xD6 t.kind kilo) else if bad then s.emit n 0xD7 (diagSyn 0xD7 t.kind kilo) else s
  let fl := (if high then 16 else 0) + (if low then 8 else 0)
  let s := s.setReg (Reg.tlEarthStat (n / 8)) (BitVec.ofNat 32 ((if high then 64 else 0) + (if low then 32 else 0) + n % 8))
  let s := (s.setReg (Reg.tlEarthR (n / 8)) (f32OfRat r)).setReg (Reg.tlEarthC (n / 8)) (f32OfRat res.2)
  s.testRecord t rsDone ((if pass then 64 else 0) + fl)
    [f32OfRat r, f32OfRat res.2, f32OfRat (h.peak h.v), f32OfRat (near 30 (h.peak h.i / sqrtOf 2)), f32OfRat min_] []

/-! ### The proving correlator (R361) -/

/-- What PROVE finds at one microphone (R361, R364): the confirmed bands, the delay in µs, seven gains and the smallest confirmed
signal-to-noise ratio in dB, binary32. -/
structure MicResult where
  mic : Nat := 0
  bands : Nat := 0
  delay : Word := 0
  gains : List Word := []
  snr : Word := 0
deriving DecidableEq, Repr, Inhabited

/-- What is taken off a microphone's time to find the ingress time of what it would hear at once: 3,180 µs and the lane delay, in ns. -/
def State.proveLag (s : State) (n : Nat) : Rat :=
  3180000 + ((Sparse.get {} (s.lpAt (n / 8)).dly (n % 8)).delay : Rat) * 1000000 / 48

/-- The samples a microphone gave during the test, oldest first, each with that ingress time in ns (R123). -/
def micSamples (lag : Rat) (blks : List (Nat × List Word)) : List (Rat × Rat) :=
  blks.reverse.flatMap fun b => b.2.zipIdx.map fun x => (sampleTime b.1 x.2 48 - 250000 - lag, sampleVal x.1)

/-- The demodulation at `f` of the samples that lie from `a` to `b`, in ns: the phasor of a sine, its angle the phase by which it lags. -/
def demodulate (f a b : Rat) (xs : List (Rat × Rat)) : Rat × Rat :=
  let ys := xs.filter fun x => decide (a ≤ x.1) && decide (x.1 < b)
  let n : Rat := (max 1 ys.length : Nat)
  let p (g : Rat → Rat) : Rat := cut (2 / n * (ys.map fun x => cut (x.2 * g (f * x.1 / 1000000000))).sum)
  (p sinTurn, -p cosTurn)

/-- What a band gives: the power heard and the noise, and the power injected. -/
structure BandPowers where
  sig : Rat := 0
  noise : Rat := 0
  inj : Rat := 0
deriving DecidableEq, Repr, Inhabited

/-- A band is confirmed at 10 dB. -/
def BandPowers.heard (p : BandPowers) : Bool := decide (0 < p.sig) && decide (10 * p.noise ≤ p.sig)
def BandPowers.snr (p : BandPowers) : Word := if p.noise = 0 then f32Inf false else primOf (near 9 (powerDb (p.sig / p.noise)))

/-- The powers of band `b` from the tones of its pair, played from 250 ms on one after the other, at amplitude `a`. -/
def toneBand (a t0 : Rat) (xs : List (Rat × Rat)) (b : Nat) : BandPowers :=
  let pw (j : Nat) (from_ : Rat) : Rat := magSq (demodulate (proveFreq j) from_ (from_ + 250000000) xs) / 2
  let at_ (j : Nat) : Rat := t0 + 250000000 * ((j + 1 : Nat) : Rat)
  { sig := (pw (2 * b) (at_ (2 * b)) + pw (2 * b + 1) (at_ (2 * b + 1))) / 2, noise := (pw (2 * b) t0 + pw (2 * b + 1) t0) / 2,
    inj := a * a * 2401 / 5000 }

/-- The delay in ns that the phase difference of a band's pair shows, up to 1 / (the pair's distance). -/
def pairDelay (t0 : Rat) (xs : List (Rat × Rat)) (b : Nat) : Rat × Rat :=
  let ph (j : Nat) : Rat := degrees (demodulate (proveFreq j) (t0 + 250000000 * ((j + 1 : Nat) : Rat)) (t0 + 250000000 * ((j + 2 : Nat) : Rat)) xs) / 360
  let d := ph (2 * b + 1) - ph (2 * b)
  let span := 1000000000 / (proveFreq (2 * b + 1) - proveFreq (2 * b))
  ((d - (d.floor : Rat)) * span, span)

/-- The lowest confirmed band's delay, moved to the nearest that the highest confirmed band's agrees with. -/
def toneDelay (t0 : Rat) (xs : List (Rat × Rat)) (bands : List Nat) : Rat :=
  match bands.head?, bands.getLast? with
  | some lo, some hi =>
    let c := (pairDelay t0 xs lo).1
    if lo = hi then c
    else
      let (d, span) := pairDelay t0 xs hi
      d + (roundRat ((c - d) / span) : Rat) * span
  | _, _ => 0

/-- The noise that PROVE has injected, sample by sample from its start. -/
def speechInjected (t : TestH) (level : Rat) : List Word :=
  let r : RunH := { kind := tkProve, level := level, start := 0, lfsr := 0x20000000 + t.lane }
  ((List.range 4250).foldl (fun (a : RunH × List (List Word)) h =>
    let (r, ws) := a.1.proveGo true h (List.range 48)
    (r, ws :: a.2)) (r, [])).2.reverse.flatten

/-- Blocks of 48 of a list of samples. -/
def blocksOf (xs : List Word) : List (List Word) := (List.range (xs.length / 48)).map fun j => (xs.drop (48 * j)).take 48

/-- The mean band power of blocks. -/
def meanBand (bs : List (List Word)) (b : Nat) : Rat := (bs.map fun x => octavePower x b).sum / (max 1 bs.length : Nat)

def speechBand (inj : List Word) (t0 lag : Rat) (blks : List (Nat × List Word)) (b : Nat) : BandPowers :=
  let quiet (x : Nat × List Word) : Bool := decide (sampleTime x.1 0 48 - 250000 - lag < t0 + 250000000)
  { sig := meanBand ((blks.filter fun x => !quiet x).map (·.2)) b, noise := meanBand ((blks.filter quiet).map (·.2)) b,
    inj := meanBand ((blocksOf inj).drop 250) b }

/-- The lag in samples, of 0 to 24,000, at which two signals correlate best. -/
def bestLag (inj mic : List Rat) : Nat :=
  ((List.range 24001).foldl (fun (a : Nat × Rat) l =>
    let c := ((inj.zip (mic.drop l)).map fun x => x.1 * x.2).sum
    if a.2 < c ∨ l = 0 then (l, c) else a) (0, 0)).1

/-- The delay in ns of a speech-shaped test: the correlation peak. -/
def speechDelay (inj : List Word) (t0 : Rat) (xs : List (Rat × Rat)) : Rat :=
  let skip := xs.dropWhile fun x => decide (x.1 < t0)
  let first := (skip.head?.map (·.1)).getD t0
  let lead := ((first - t0) * 48 / 1000000).floor.toNat
  let mic := List.replicate lead 0 ++ skip.map (·.2)
  ((bestLag (inj.map sampleVal) mic : Nat) : Rat) * 1000000 / 48 + (first - t0 - (lead : Rat) * 1000000 / 48)

/-- What PROVE finds at microphone `i`. -/
def State.micProve (s : State) (t : TestH) (level : Rat) (inj : List Word) (i : Nat) : MicResult :=
  let blks := Sparse.get [] t.heard i
  let lag := s.proveLag t.lane
  let t0 : Rat := ((t.start.getD 0 : Nat) : Rat) * 1000000
  let xs := micSamples lag blks
  let speech := t.upd.desc.body.byte 2 / 2 % 2 == 1
  let ps := (List.range 7).map fun b => if speech then speechBand inj t0 lag blks b else toneBand (exp10 (level / 20)) t0 xs b
  let bands := (List.range 7).filter fun b => (ps.getD b {}).heard
  let snrs := bands.map fun b => (ps.getD b {}).snr
  let delay := if bands.isEmpty then 0 else if speech then speechDelay inj t0 xs else toneDelay t0 xs bands
  { mic := i, bands := bitsOf bands.contains 7, delay := primOf (near 31 (delay / 1000)),
    gains := ps.map fun p => if p.inj = 0 then 0#32 else primOf (near 32 (p.sig / p.inj)),
    snr := snrs.foldl (fun a x => if f32Finite x && (!f32Finite a || decide (f32ToRat x < f32ToRat a)) then x else a) (f32Inf false) }

/-- WRITE_TF: a microphone's gains go into the transfer table, in the lane's entry or the first unused one (R362). -/
def State.writeTf (s : State) (n : Nat) (m : MicResult) : State × Bool :=
  let at_ (e : Nat) : Nat := (s.reg Reg.zmAmbTfBase).toNat + (m.mic * 16 + e) * 32
  let lane (e : Nat) : Nat := leAt (s.vatBytes (at_ e) 2) 0 2
  let e := ((List.range 16).find? fun e => lane e == n).orElse fun _ => (List.range 16).find? fun e => lane e == 0xFFFF
  match e with
  | some e =>
    (s.vatWrite .egress (at_ e) (leBytes 2 n ++ leBytes 2 0 ++ bytesOfWords ((m.gains ++ List.replicate 7 0#32).take 7)), true)
  | none => (s, false)

def bandCount (b : Nat) : Nat := ((List.range 7).filter b.testBit).length

/-- PROVE: which microphones heard the lane, with event 0xD8 if none did; ABORTED when all of them are absent (R361, R362). -/
def State.proveDone (s : State) (t : TestH) : State :=
  let named := t.mics
  let d := t.upd.desc.body
  let level : Rat := if d.pl 4 2 = 0 then -40 else (d.pls 4 : Rat) / 100
  let inj := if d.byte 2 / 2 % 2 = 1 then speechInjected t level else []
  let ms := (named.filter fun i => s.micReady i && !(s.micAt i).stuck).map (s.micProve t level inj)
  if ms.isEmpty then s.testRecord t rsAborted 0 [] []
  else
    let all := named.map fun i => (ms.find? fun m => m.mic == i).getD { mic := i }
    let heard := ms.filter fun m => 3 ≤ bandCount m.bands
    let mask := heard.foldl (fun a m => a ||| 2 ^ m.mic) 0
    let bands := ms.foldl (fun a m => a ||| m.bands) 0
    let tf := d.byte 2 / 4 % 2 == 1
    let (s, full) := ms.foldl (fun (a : State × Bool) m =>
      if tf then
        let (s, ok) := a.1.writeTf t.lane m
        (s, a.2 || !ok)
      else a) (s, false)
    let below (x y : Word) : Bool := f32Finite x && (!f32Finite y || decide (f32ToRat x < f32ToRat y))
    let best := heard.foldl (fun (a : Option MicResult) m => match a with
      | none => some m
      | some x => if below x.snr m.snr then some m else a) none
    let low := heard.foldl (fun (a : Option Word) m => match a with
      | none => some m.snr
      | some x => if below m.snr x then some m.snr else a) none
    let s := if heard.isEmpty then s.emit t.lane 0xD8 (diagSyn 0xD8 t.kind bands) else s
    let mrec (m : MicResult) : List Byte :=
      leBytes 1 m.mic ++ leBytes 1 m.bands ++ leBytes 2 0 ++ leBytes 4 m.delay.toNat ++
        bytesOfWords ((m.gains ++ List.replicate 7 0#32).take 7) ++ leBytes 4 m.snr.toNat ++ leBytes 16 0
    s.testRecord t rsDone ((if heard.isEmpty then 0 else 32) + (if full then 4 else 0))
      [(best.map (·.delay)).getD 0, BitVec.ofNat 32 mask, BitVec.ofNat 32 bands, low.getD 0, f32OfRat level] (all.map mrec)

/-- CAL: the means become the offsets of the sense calibration of each member of the lane's group (R363, result 21 of R378). -/
def State.calDone (s : State) (t : TestH) : State :=
  let s := (s.bondLanes t.lane).foldl (fun s k =>
    let h := s.laneAt k
    match h.cal with
    | some c => s.setLane k { h with offV := (c.v : Rat) / (max 1 c.len : Nat), offI := (c.i : Rat) / (max 1 c.len : Nat) }
    | none => s) s
  let h := s.laneAt t.lane
  s.testRecord t rsDone 0 [f32OfRat (h.offV * 200 / 8388608), f32OfRat (h.offI * 25 / 8388608)] []

/-- The tile has averaged what a CAL of the lane's group asks for. -/
def State.calFull (s : State) (n : Nat) : Bool := (s.bondLanes n).all fun k => (s.laneAt k).cal.any fun c => 960 + c.len ≤ c.taken

/-- TEST_DONE: the test running on lane `n` has measured all it measures, and writes its records. -/
def execTestDone (n : Fin 128) (_r : Measured) (s : State) : Host.Outcome State Fault Refusal :=
  act s fun s =>
    match s.tests.find? fun t => t.running && t.lane == n.val with
    | none => s
    | some t =>
      let end_ (s : State) : State := ((s.testOff t).dropTest t).showDiag n.val
      if t.kind = tkEarth then
        match (s.laneAt n.val).earth.filter fun e => 2 * e.frames ≤ e.taken with
        | some e => end_ (s.earthDone t e)
        | none => s
      else if t.kind = tkCal then (if s.calFull n.val then end_ (s.calDone t) else s)
      else if !s.progDone t then s
      else end_ (if t.kind = tkSpectro then s.spectroDone t else if t.kind = tkTweeter then s.tweeterDone t else s.proveDone t)

/-! ### The continuous pilot (R338 to R343) -/

abbrev vdOk : Nat := 1
abbrev vdOpen : Nat := 2
abbrev vdShort : Nat := 3
abbrev vdChanged : Nat := 4
abbrev vdBlind : Nat := 5

/-- A binary32 field of the SUPERVISION section of a block. -/
def supF (b : List Byte) (off : Nat) : Rat := sampleVal (BitVec.ofNat 32 (leAt b (0xE00 + off) 4))

/-- A phase difference in degrees, between 0 and 180. -/
def phaseDiff (a b : Rat) : Rat :=
  let d := absRat (a - b)
  if 180 < d then absRat (360 - d) else d

/-- The verdict of a valid window (R340); NONE without a baseline. -/
def verdictOf (b : List Byte) (z ph i : Word) : Nat :=
  let zm := f32ToRat z
  let base := supF b 0x10
  if leAt b 0xE02 1 / 2 % 2 = 0 then 0
  else if sampleVal i < 1 / 100000 ∨ !f32Finite z ∨ supF b 0x20 * base < zm then vdOpen
  else if zm < supF b 0x24 * base then vdShort
  else if supF b 0x18 < absRat (zm / base - 1) ∨ supF b 0x1C < phaseDiff (sampleVal ph) (supF b 0x14) then vdChanged
  else vdOk

/-- The event of a verdict. -/
def verdictCode (v : Nat) : Option Nat := [none, some 0xD3, some 0xD0, some 0xD1, some 0xD2, some 0xD4].getD v none

/-- The verdict in force, in the telemetry record. -/
def State.verdict (s : State) (n : Nat) : Nat := fld (s.telWord n 96) 7 4

/-- SUP_WORD of the record follows the lane's pilot. -/
def State.showSup (s : State) (n verdict : Nat) : State :=
  let d := s.diagAt n
  let w := s.telWord n 96
  s.telPut n 96 (leBytes 4 (d.since % 256 * 2 ^ 24 + d.run % 256 * 2 ^ 16 + d.cand % 16 * 2 ^ 8 + verdict % 16 * 2 ^ 4 + w.toNat % 16))

/-- The verdict in force changes: its event, and a supervision record (R341, R364). -/
def State.newVerdict (s : State) (n v : Nat) : State :=
  let old := s.verdict n
  let z := s.telWord n 80
  let ohm := if v = vdBlind then 0 else if f32Finite z then (f32ToRat z).floor.toNat else 65535
  let s := match verdictCode v with
    | some c => s.emit n c (diagSyn c v ohm)
    | none => s
  let s := s.showSup n v
  let r := s.reg Reg.lpDiagRing
  if !bitAt r 15 then s
  else
    let body := recordBody 0 0 s.heat n 0 rsDone 0 0 0
      [z, s.telWord n 84, BitVec.ofNat 32 (old * 16 + v), s.telWord n 88, s.telWord n 92]
    s.ringWrite (fld r 14 0) false fun ph lost seq _ => telHeader 2 0 ph lost seq ++ body

/-- The pilot's voltage and current phasors over the window, peak (R339). -/
def State.pilotPair (s : State) (n : Nat) : (Rat × Rat) × (Rat × Rat) :=
  ((s.lockAt (n / 8) (16 + 2 * (n % 8))).phasor, (s.lockAt (n / 8) (17 + 2 * (n % 8))).phasor)

/-- A valid window's |Z| in ohms, its phase in degrees, and the pilot's voltage and current in rms; |Z| is infinite where no current flows. -/
def pilotWords (v i : Rat × Rat) : Word × Word × Word × Word :=
  let z := phasorDiv v i
  ((z.map fun z => primOf (mag z)).getD (f32Inf false), primOf ((z.map degrees).getD 0), primOf (mag v / sqrtOf 2), primOf (mag i / sqrtOf 2))

/-- PILOT_WINDOW_END: the pilot window of lane `n` is full, and gives Z and a verdict where it was valid (R339 to R343, R346). -/
def execPilotWindowEnd (n : Fin 128) (_valid _z _ph _v _i : Measured) (s : State) : Host.Outcome State Fault Refusal :=
  act s fun s =>
    let n := n.val
    let d := s.diagAt n
    let b := d.good.getD []
    let st := s.diagState n
    if st = dsFaulted ∨ st = dsMuted ∨ s.relayOn n then s.setDiag n { d with run := 0, cand := 0, win := 0 }
    else if !s.pilotOn n ∨ d.win < (supF b 0x0C).floor.toNat ∨ d.win = 0 then s
    else if !d.winOk then (s.setDiag n { d with since := min 255 (d.since + 1), win := 0 }).showSup n (s.verdict n)
    else
      let (v, i) := s.pilotPair n
      let (z, ph, vr, ir) := pilotWords v i
      let old := s.verdict n
      let vd := verdictOf b z ph ir
      let run := if vd = old then 0 else if vd = d.cand ∧ !d.blind ∧ 0 < d.run then d.run + 1 else 1
      let d' := { d with since := 0, blind := false, cand := if vd = old then 0 else vd, run := run, win := 0, noWin := 0 }
      let s := (s.telPut n 80 (bytesOfWords [z, ph, vr, ir])).setAdmit n { s.admitAt n with valid := true }
      if vd ≠ old ∧ leAt b 0xE03 1 ≤ run then (s.setDiag n { d' with cand := 0, run := 0 }).newVerdict n vd
      else (s.setDiag n d').showSup n old

/-- PILOT_BLIND: no valid window has completed on lane `n` for 2,000 ms (R342). -/
def execPilotBlind (n : Fin 128) (s : State) : Host.Outcome State Fault Refusal :=
  act s fun s =>
    let n := n.val
    if !s.pilotBase n || s.verdict n == vdBlind || decide ((s.diagAt n).noWin < 2000) then s
    else (s.setDiag n { s.diagAt n with blind := true, cand := 0, run := 0 }).newVerdict n vdBlind

/-- PILOT_BLIND_LONG: the lane has been blind for 100,000 ms (R342). -/
def execPilotBlindLong (n : Fin 128) (s : State) : Host.Outcome State Fault Refusal :=
  act s fun s =>
    if s.pilotBase n.val && s.verdict n.val == vdBlind && decide (102000 ≤ (s.diagAt n.val).noWin) then
      s.emit n.val 0xD9 (diagSyn 0xD9 vdBlind 0) else s

end Sys2Proof.Machine
end

