-- ==== Sys2Proof/Machine/Dispatch.lean ====
section
/-! DEFINITION. What each command does: one arm for each constructor of `Instr`, a direct call of its meaning. -/

namespace Sys2Proof.Machine

def exec (i : Instr) (s : State) : Host.Outcome State Fault Refusal :=
  match i with
  | .powerOn straps => Sys2Proof.Machine.execPowerOn straps s
  | .powerFail => Sys2Proof.Machine.execPowerFail s
  | .linkTrainingWindowEnd probes => Sys2Proof.Machine.execLinkTrainingWindowEnd probes s
  | .linkTrainedOnAbsentPort t => Sys2Proof.Machine.execLinkTrainedOnAbsentPort t s
  | .tileLinkLost t => Sys2Proof.Machine.execTileLinkLost t s
  | .firmwareBoot img => Sys2Proof.Machine.execFirmwareBoot img s
  | .heatBoundary lines => Sys2Proof.Machine.execHeatBoundary lines s
  | .pcrTimeLoRead m => Sys2Proof.Machine.execPcrTimeLoRead m s
  | .pcrAdjFreqWrite m v => Sys2Proof.Machine.execPcrAdjFreqWrite m v s
  | .pcrSlewWrite m v => Sys2Proof.Machine.execPcrSlewWrite m v s
  | .pcrStepHiWrite m v => Sys2Proof.Machine.execPcrStepHiWrite m v s
  | .pcrServoOffsetWrite m v => Sys2Proof.Machine.execPcrServoOffsetWrite m v s
  | .discSrcChange m v => Sys2Proof.Machine.execDiscSrcChange m v s
  | .holdForce m on => Sys2Proof.Machine.execHoldForce m on s
  | .ref1ppsEdge off => Sys2Proof.Machine.execRef1ppsEdge off s
  | .ref10mLoss => Sys2Proof.Machine.execRef10mLoss s
  | .ref1ppsTimeout => Sys2Proof.Machine.execRef1ppsTimeout s
  | .servoWatchdogExpiry => Sys2Proof.Machine.execServoWatchdogExpiry s
  | .lockGained => Sys2Proof.Machine.execLockGained s
  | .lockLost => Sys2Proof.Machine.execLockLost s
  | .holdoverLimitReached => Sys2Proof.Machine.execHoldoverLimitReached s
  | .stepJump => Sys2Proof.Machine.execStepJump s
  | .stepResume => Sys2Proof.Machine.execStepResume s
  | .stepApplied => Sys2Proof.Machine.execStepApplied s
  | .synthLockLoss => Sys2Proof.Machine.execSynthLockLoss s
  | .synthRelock => Sys2Proof.Machine.execSynthRelock s
  | .islandOutOfTolerance x => Sys2Proof.Machine.execIslandOutOfTolerance x s
  | .crossingAbandoned master read => Sys2Proof.Machine.execCrossingAbandoned master read s
  | .droopDetected => Sys2Proof.Machine.execDroopDetected s
  | .droopEnd us => Sys2Proof.Machine.execDroopEnd us s
  | .droopStretchExceeded us => Sys2Proof.Machine.execDroopStretchExceeded us s
  | .rateJump st => Sys2Proof.Machine.execRateJump st s
  | .converterRelockDone st => Sys2Proof.Machine.execConverterRelockDone st s
  | .ratioOutOfRange st => Sys2Proof.Machine.execRatioOutOfRange st s
  | .portClockLoss st => Sys2Proof.Machine.execPortClockLoss st s
  | .portClockReturn st => Sys2Proof.Machine.execPortClockReturn st s
  | .tdmRxFrame n len line glitch full => Sys2Proof.Machine.execTdmRxFrame n len line glitch full s
  | .rxBlockClose st lines => Sys2Proof.Machine.execRxBlockClose st lines s
  | .tdmTxFrame n k ahead => Sys2Proof.Machine.execTdmTxFrame n k ahead s
  | .tdmFrameWrite m n v => Sys2Proof.Machine.execTdmFrameWrite m n v s
  | .tdmEnable m n v => Sys2Proof.Machine.execTdmEnable m n v s
  | .tdmDisable m n v => Sys2Proof.Machine.execTdmDisable m n v s
  | .rxMaskNextWrite m n v => Sys2Proof.Machine.execRxMaskNextWrite m n v s
  | .txMaskNextWrite m n v => Sys2Proof.Machine.execTxMaskNextWrite m n v s
  | .channelZeroCrossing c => Sys2Proof.Machine.execChannelZeroCrossing c s
  | .zcTimeoutExpiry c => Sys2Proof.Machine.execZcTimeoutExpiry c s
  | .aesRxFrame n a b glitch => Sys2Proof.Machine.execAesRxFrame n a b glitch s
  | .aesCsBlock n ch bytes early => Sys2Proof.Machine.execAesCsBlock n ch bytes early s
  | .aesRateDetect n hz above => Sys2Proof.Machine.execAesRateDetect n hz above s
  | .aesRxCsRead m n ch => Sys2Proof.Machine.execAesRxCsRead m n ch s
  | .aesRxEnable m n v => Sys2Proof.Machine.execAesRxEnable m n v s
  | .aesTxEnable m n v => Sys2Proof.Machine.execAesTxEnable m n v s
  | .aesTxFrame n k => Sys2Proof.Machine.execAesTxFrame n k s
  | .aesTxCsCommit m n v => Sys2Proof.Machine.execAesTxCsCommit m n v s
  | .pdmGroupEnable m g v => Sys2Proof.Machine.execPdmGroupEnable m g v s
  | .pdmMicEnWrite m g v => Sys2Proof.Machine.execPdmMicEnWrite m g v s
  | .pdmWarmingEnd k => Sys2Proof.Machine.execPdmWarmingEnd k s
  | .pdmMicStuckLong k => Sys2Proof.Machine.execPdmMicStuckLong k s
  | .pktRxFrame p fcsOk bytes => Sys2Proof.Machine.execPktRxFrame p fcsOk bytes s
  | .legDown f p => Sys2Proof.Machine.execLegDown f p s
  | .pktLinkDown p => Sys2Proof.Machine.execPktLinkDown p s
  | .pktLinkUp p fast fec => Sys2Proof.Machine.execPktLinkUp p fast fec s
  | .pktHostFrameSend p entry => Sys2Proof.Machine.execPktHostFrameSend p entry s
  | .flowPacketSend f => Sys2Proof.Machine.execFlowPacketSend f s
  | .pktCsRead x => Sys2Proof.Machine.execPktCsRead x s
  | .zoneSet ph o d => Sys2Proof.Machine.execZoneSet ph o d s
  | .layerSet ph o d => Sys2Proof.Machine.execLayerSet ph o d s
  | .layerAssert ph o d => Sys2Proof.Machine.execLayerAssert ph o d s
  | .layerRelease ph o d => Sys2Proof.Machine.execLayerRelease ph o d s
  | .laneRoute ph o d => Sys2Proof.Machine.execLaneRoute ph o d s
  | .returnSet ph o d => Sys2Proof.Machine.execReturnSet ph o d s
  | .ambSet ph o d => Sys2Proof.Machine.execAmbSet ph o d s
  | .layerZeroCrossing t => Sys2Proof.Machine.execLayerZeroCrossing t s
  | .stepZcTimeout t => Sys2Proof.Machine.execStepZcTimeout t s
  | .readyDeadline o => Sys2Proof.Machine.execReadyDeadline o s
  | .silentJoin z l => Sys2Proof.Machine.execSilentJoin z l s
  | .zoneBlockLate z => Sys2Proof.Machine.execZoneBlockLate z s
  | .activityHoldExpiry z l => Sys2Proof.Machine.execActivityHoldExpiry z l s
  | .playerSet ph o d => Sys2Proof.Machine.execPlayerSet ph o d s
  | .playerFlush o d => Sys2Proof.Machine.execPlayerFlush o d s
  | .clipLoad o d => Sys2Proof.Machine.execClipLoad o d s
  | .clipLoadDone o rd => Sys2Proof.Machine.execClipLoadDone o rd s
  | .clipPin o d => Sys2Proof.Machine.execClipPin o d s
  | .clipDrop o d => Sys2Proof.Machine.execClipDrop o d s
  | .playlistFetchDone p rd => Sys2Proof.Machine.execPlaylistFetchDone p rd s
  | .clipFetchDone p ix rd => Sys2Proof.Machine.execClipFetchDone p ix rd s
  | .entryEnd p => Sys2Proof.Machine.execEntryEnd p s
  | .playerStarved p => Sys2Proof.Machine.execPlayerStarved p s
  | .playerResume p => Sys2Proof.Machine.execPlayerResume p s
  | .playlistHostLost p => Sys2Proof.Machine.execPlaylistHostLost p s
  | .fnop n f1 => Sys2Proof.Machine.execFnop n f1 s
  | .fadd n f1 => Sys2Proof.Machine.execFadd n f1 s
  | .fsub n f1 => Sys2Proof.Machine.execFsub n f1 s
  | .fmul n f1 => Sys2Proof.Machine.execFmul n f1 s
  | .fma n f1 => Sys2Proof.Machine.execFma n f1 s
  | .fms n f1 => Sys2Proof.Machine.execFms n f1 s
  | .fmin n f1 => Sys2Proof.Machine.execFmin n f1 s
  | .fmax n f1 => Sys2Proof.Machine.execFmax n f1 s
  | .fabs n f1 => Sys2Proof.Machine.execFabs n f1 s
  | .fneg n f1 => Sys2Proof.Machine.execFneg n f1 s
  | .fsel n f1 => Sys2Proof.Machine.execFsel n f1 s
  | .fclamp n f1 => Sys2Proof.Machine.execFclamp n f1 s
  | .frcp n f1 => Sys2Proof.Machine.execFrcp n f1 s
  | .frsq n f1 => Sys2Proof.Machine.execFrsq n f1 s
  | .flog2 n f1 => Sys2Proof.Machine.execFlog2 n f1 s
  | .fexp2 n f1 => Sys2Proof.Machine.execFexp2 n f1 s
  | .fcvti n f1 => Sys2Proof.Machine.execFcvti n f1 s
  | .fcvtf n f1 => Sys2Proof.Machine.execFcvtf n f1 s
  | .fli n f1 => Sys2Proof.Machine.execFli n f1 s
  | .mnop n => Sys2Proof.Machine.execMnop n s
  | .ldf n => Sys2Proof.Machine.execLdf n s
  | .stf n => Sys2Proof.Machine.execStf n s
  | .ldfp n => Sys2Proof.Machine.execLdfp n s
  | .stfp n => Sys2Proof.Machine.execStfp n s
  | .lda n => Sys2Proof.Machine.execLda n s
  | .sta n => Sys2Proof.Machine.execSta n s
  | .vld n => Sys2Proof.Machine.execVld n s
  | .vst n => Sys2Proof.Machine.execVst n s
  | .vatTransferDone n ix => Sys2Proof.Machine.execVatTransferDone n ix s
  | .dlyx n => Sys2Proof.Machine.execDlyx n s
  | .cnop n => Sys2Proof.Machine.execCnop n s
  | .br n => Sys2Proof.Machine.execBr n s
  | .bz n => Sys2Proof.Machine.execBz n s
  | .bnz n => Sys2Proof.Machine.execBnz n s
  | .blt n => Sys2Proof.Machine.execBlt n s
  | .call n => Sys2Proof.Machine.execCall n s
  | .ret n => Sys2Proof.Machine.execRet n s
  | .loop n => Sys2Proof.Machine.execLoop n s
  | .amov n => Sys2Proof.Machine.execAmov n s
  | .aadd n => Sys2Proof.Machine.execAadd n s
  | .aaddr n => Sys2Proof.Machine.execAaddr n s
  | .ashl n => Sys2Proof.Machine.execAshl n s
  | .mvfa n => Sys2Proof.Machine.execMvfa n s
  | .mvaf n => Sys2Proof.Machine.execMvaf n s
  | .odone n => Sys2Proof.Machine.execOdone n s
  | .hend n => Sys2Proof.Machine.execHend n s
  | .syncv n => Sys2Proof.Machine.execSyncv n s
  | .biq n => Sys2Proof.Machine.execBiq n s
  | .firb n => Sys2Proof.Machine.execFirb n s
  | .poly8 n => Sys2Proof.Machine.execPoly8 n s
  | .env n => Sys2Proof.Machine.execEnv n s
  | .tbl n => Sys2Proof.Machine.execTbl n s
  | .lia n => Sys2Proof.Machine.execLia n s
  | .liard n => Sys2Proof.Machine.execLiard n s
  | .ncoset n => Sys2Proof.Machine.execNcoset n s
  | .ramp n => Sys2Proof.Machine.execRamp n s
  | .heatAbandoned n => Sys2Proof.Machine.execHeatAbandoned n s
  | .lpHang n => Sys2Proof.Machine.execLpHang n s
  | .paramShadowWrite => Sys2Proof.Machine.execParamShadowWrite s
  | .laneParam ph o d rd => Sys2Proof.Machine.execLaneParam ph o d rd s
  | .laneParamInline ph o d => Sys2Proof.Machine.execLaneParamInline ph o d s
  | .laneDelay ph o d => Sys2Proof.Machine.execLaneDelay ph o d s
  | .lpLoad ph o d rd => Sys2Proof.Machine.execLpLoad ph o d rd s
  | .imageAccepted o => Sys2Proof.Machine.execImageAccepted o s
  | .lpSwitchHalt n => Sys2Proof.Machine.execLpSwitchHalt n s
  | .lpSwitchStart n => Sys2Proof.Machine.execLpSwitchStart n s
  | .lpRunStart ph o d => Sys2Proof.Machine.execLpRunStart ph o d s
  | .lpRunStop ph o d => Sys2Proof.Machine.execLpRunStop ph o d s
  | .lpEnWrite m n v => Sys2Proof.Machine.execLpEnWrite m n v s
  | .lpReloadDone n => Sys2Proof.Machine.execLpReloadDone n s
  | .modelSecondUpdate n vr vi ir ii c1 c2 g => Sys2Proof.Machine.execModelSecondUpdate n vr vi ir ii c1 c2 g s
  | .rindSet ph o d => Sys2Proof.Machine.execRindSet ph o d s
  | .rindClear ph o d => Sys2Proof.Machine.execRindClear ph o d s
  | .battSet ph o d => Sys2Proof.Machine.execBattSet ph o d s
  | .poolSet ph o d => Sys2Proof.Machine.execPoolSet ph o d s
  | .rindTrip n irms dc vs v => Sys2Proof.Machine.execRindTrip n irms dc vs v s
  | .rindRestart n => Sys2Proof.Machine.execRindRestart n s
  | .tdieWarning t celsius => Sys2Proof.Machine.execTdieWarning t celsius s
  | .tdieTrip t celsius => Sys2Proof.Machine.execTdieTrip t celsius s
  | .tdieRestart x => Sys2Proof.Machine.execTdieRestart x s
  | .rindAckTimeout t => Sys2Proof.Machine.execRindAckTimeout t s
  | .fastPathLimit n x => Sys2Proof.Machine.execFastPathLimit n x s
  | .tilePowerUp t => Sys2Proof.Machine.execTilePowerUp t s
  | .tlDownstreamFrame t k rails => Sys2Proof.Machine.execTlDownstreamFrame t k rails s
  | .downstreamFrameMissing x => Sys2Proof.Machine.execDownstreamFrameMissing x s
  | .tlUpstreamFrame t k m => Sys2Proof.Machine.execTlUpstreamFrame t k m s
  | .laneRelease n gateOk => Sys2Proof.Machine.execLaneRelease n gateOk s
  | .laneRunStart ph o d => Sys2Proof.Machine.execLaneRunStart ph o d s
  | .laneRunStop ph o d => Sys2Proof.Machine.execLaneRunStop ph o d s
  | .laneRunMute ph o d => Sys2Proof.Machine.execLaneRunMute ph o d s
  | .laneRunUnmute ph o d => Sys2Proof.Machine.execLaneRunUnmute ph o d s
  | .laneRampDone n => Sys2Proof.Machine.execLaneRampDone n s
  | .scClear ph o d => Sys2Proof.Machine.execScClear ph o d s
  | .relaySet ph o d => Sys2Proof.Machine.execRelaySet ph o d s
  | .ilimHit n mA consecutive => Sys2Proof.Machine.execIlimHit n mA consecutive s
  | .probeStart n => Sys2Proof.Machine.execProbeStart n s
  | .probeDone n z => Sys2Proof.Machine.execProbeDone n z s
  | .laneClockFault n => Sys2Proof.Machine.execLaneClockFault n s
  | .laneClockRecovered n => Sys2Proof.Machine.execLaneClockRecovered n s
  | .tileSafeAssert t => Sys2Proof.Machine.execTileSafeAssert t s
  | .tileSafeRelease t => Sys2Proof.Machine.execTileSafeRelease t s
  | .railOvervoltage t decivolts => Sys2Proof.Machine.execRailOvervoltage t decivolts s
  | .railOvClear x => Sys2Proof.Machine.execRailOvClear x s
  | .railUndervoltage t decivolts => Sys2Proof.Machine.execRailUndervoltage t decivolts s
  | .railUvClear x => Sys2Proof.Machine.execRailUvClear x s
  | .railAdcFault t decivolts => Sys2Proof.Machine.execRailAdcFault t decivolts s
  | .gateSupplyLow n => Sys2Proof.Machine.execGateSupplyLow n s
  | .gateSupplyRecovered n => Sys2Proof.Machine.execGateSupplyRecovered n s
  | .hkFaultClear t => Sys2Proof.Machine.execHkFaultClear t s
  | .aux12Low t => Sys2Proof.Machine.execAux12Low t s
  | .relayCoilFault t r mA => Sys2Proof.Machine.execRelayCoilFault t r mA s
  | .bondImbalance n mA => Sys2Proof.Machine.execBondImbalance n mA s
  | .tdcCalibration t => Sys2Proof.Machine.execTdcCalibration t s
  | .testReq ph o d => Sys2Proof.Machine.execTestReq ph o d s
  | .testCancel ph o d => Sys2Proof.Machine.execTestCancel ph o d s
  | .testgenSet ph o d => Sys2Proof.Machine.execTestgenSet ph o d s
  | .testDone n r => Sys2Proof.Machine.execTestDone n r s
  | .testStop n => Sys2Proof.Machine.execTestStop n s
  | .testExpired n k => Sys2Proof.Machine.execTestExpired n k s
  | .pilotWindowEnd n valid z ph v ix => Sys2Proof.Machine.execPilotWindowEnd n valid z ph v ix s
  | .pilotBlind n => Sys2Proof.Machine.execPilotBlind n s
  | .pilotBlindLong n => Sys2Proof.Machine.execPilotBlindLong n s
  | .lpDiagAdmitWrite m k v => Sys2Proof.Machine.execLpDiagAdmitWrite m k v s
  | .modeSetVa ph o d => Sys2Proof.Machine.execModeSetVa ph o d s
  | .modeSetBat ph o d => Sys2Proof.Machine.execModeSetBat ph o d s
  | .modeSetWup ph o d => Sys2Proof.Machine.execModeSetWup ph o d s
  | .modeSetMnt ph o d => Sys2Proof.Machine.execModeSetMnt ph o d s
  | .modeSetFtm ph o d => Sys2Proof.Machine.execModeSetFtm ph o d s
  | .batAutoEnter => Sys2Proof.Machine.execBatAutoEnter s
  | .batAutoLeave => Sys2Proof.Machine.execBatAutoLeave s
  | .mntTimeout => Sys2Proof.Machine.execMntTimeout s
  | .gblFtmUnlockWrite m v => Sys2Proof.Machine.execGblFtmUnlockWrite m v s
  | .unlockWindowExpiry entry => Sys2Proof.Machine.execUnlockWindowExpiry entry s
  | .ftmInjSource m v => Sys2Proof.Machine.execFtmInjSource m v s
  | .ftmInjHoldCause m v => Sys2Proof.Machine.execFtmInjHoldCause m v s
  | .ftmInjLinkFrames m v => Sys2Proof.Machine.execFtmInjLinkFrames m v s
  | .ftmInjVatEcc m v => Sys2Proof.Machine.execFtmInjVatEcc m v s
  | .injectedCauseExpiry n cause => Sys2Proof.Machine.execInjectedCauseExpiry n cause s
  | .crossoverZeroCrossing n timeout => Sys2Proof.Machine.execCrossoverZeroCrossing n timeout s
  | .crossoverApply n => Sys2Proof.Machine.execCrossoverApply n s
  | .crossoverComplete => Sys2Proof.Machine.execCrossoverComplete s
  | .troxlinkControlFrame bytes => Sys2Proof.Machine.execTroxlinkControlFrame bytes s
  | .troxlinkBusFrame bytes => Sys2Proof.Machine.execTroxlinkBusFrame bytes s
  | .blockLockLoss => Sys2Proof.Machine.execBlockLockLoss s
  | .heartbeatTimeout => Sys2Proof.Machine.execHeartbeatTimeout s
  | .partnerAliveCheck => Sys2Proof.Machine.execPartnerAliveCheck s
  | .partnerBusMissing n => Sys2Proof.Machine.execPartnerBusMissing n s
  | .takeoverRecheck n => Sys2Proof.Machine.execTakeoverRecheck n s
  | .takeoverRelease n => Sys2Proof.Machine.execTakeoverRelease n s
  | .takeoverComplete n => Sys2Proof.Machine.execTakeoverComplete n s
  | .returnSilence n => Sys2Proof.Machine.execReturnSilence n s
  | .maxHoldExpiry n => Sys2Proof.Machine.execMaxHoldExpiry n s
  | .returnMute n => Sys2Proof.Machine.execReturnMute n s
  | .returnRelayClear n => Sys2Proof.Machine.execReturnRelayClear n s
  | .returnRestore n => Sys2Proof.Machine.execReturnRestore n s
  | .returnComplete n => Sys2Proof.Machine.execReturnComplete n s
  | .pairBind ph o d => Sys2Proof.Machine.execPairBind ph o d s
  | .pairBus ph o d => Sys2Proof.Machine.execPairBus ph o d s
  | .pairReturn ph o d => Sys2Proof.Machine.execPairReturn ph o d s
  | .gblBatonClaimWrite p v => Sys2Proof.Machine.execGblBatonClaimWrite p v s
  | .batonWithdraw p => Sys2Proof.Machine.execBatonWithdraw p s
  | .gblBatonLeaseWrite m v => Sys2Proof.Machine.execGblBatonLeaseWrite m v s
  | .gblBatonPassWrite m v => Sys2Proof.Machine.execGblBatonPassWrite m v s
  | .gblBatonAcceptWrite p v => Sys2Proof.Machine.execGblBatonAcceptWrite p v s
  | .electionWindowClose => Sys2Proof.Machine.execElectionWindowClose s
  | .leaseExpiry => Sys2Proof.Machine.execLeaseExpiry s
  | .passTimeout => Sys2Proof.Machine.execPassTimeout s
  | .handoverComplete => Sys2Proof.Machine.execHandoverComplete s
  | .batonAdoptDiscard o d => Sys2Proof.Machine.execBatonAdoptDiscard o d s
  | .batonAdoptAdopt o d rds => Sys2Proof.Machine.execBatonAdoptAdopt o d rds s
  | .voteMark ph o d => Sys2Proof.Machine.execVoteMark ph o d s
  | .voteTimeout o => Sys2Proof.Machine.execVoteTimeout o s
  | .gblShadowWrite m k v => Sys2Proof.Machine.execGblShadowWrite m k v s
  | .shadowLag k => Sys2Proof.Machine.execShadowLag k s
  | .functionLevelReset p burst => Sys2Proof.Machine.execFunctionLevelReset p burst s
  | .pcieLinkDown p => Sys2Proof.Machine.execPcieLinkDown p s
  | .pcieLinkUp p speed width bme msixEn fmask => Sys2Proof.Machine.execPcieLinkUp p speed width bme msixEn fmask s
  | .completionTimeout p timeout ring => Sys2Proof.Machine.execCompletionTimeout p timeout ring s
  | .doorbellWrite m r low idx => Sys2Proof.Machine.execDoorbellWrite m r low idx s
  | .ringEnable m r v => Sys2Proof.Machine.execRingEnable m r v s
  | .ringDisable m r v => Sys2Proof.Machine.execRingDisable m r v s
  | .ringReadDone r ds => Sys2Proof.Machine.execRingReadDone r ds s
  | .ringWriteError r => Sys2Proof.Machine.execRingWriteError r s
  | .ringStallLong r => Sys2Proof.Machine.execRingStallLong r s
  | .irqCoalesceTimeout r => Sys2Proof.Machine.execIrqCoalesceTimeout r s
  | .nop ph o d => Sys2Proof.Machine.execNop ph o d s
  | .barrier o d => Sys2Proof.Machine.execBarrier o d s
  | .barrierRelease r => Sys2Proof.Machine.execBarrierRelease r s
  | .srcBind ph o d => Sys2Proof.Machine.execSrcBind ph o d s
  | .srcFallback ph o d => Sys2Proof.Machine.execSrcFallback ph o d s
  | .streamSet ph o d => Sys2Proof.Machine.execStreamSet ph o d s
  | .chGain ph o d => Sys2Proof.Machine.execChGain ph o d s
  | .flowRxSet ph o d => Sys2Proof.Machine.execFlowRxSet ph o d s
  | .flowEntryFetched o rd => Sys2Proof.Machine.execFlowEntryFetched o rd s
  | .flowTxSet ph o d => Sys2Proof.Machine.execFlowTxSet ph o d s
  | .vsrcSet ph o d => Sys2Proof.Machine.execVsrcSet ph o d s
  | .faultEventLatch evs => Sys2Proof.Machine.execFaultEventLatch evs s
  | .blockResetDone src => Sys2Proof.Machine.execBlockResetDone src s
  | .shadowClose src => Sys2Proof.Machine.execShadowClose src s
  | .blockResetOverdue src => Sys2Proof.Machine.execBlockResetOverdue src s
  | .engineReset => Sys2Proof.Machine.execEngineReset s
  | .intHoldoffEnd p => Sys2Proof.Machine.execIntHoldoffEnd p s
  | .fcAckWrite m v => Sys2Proof.Machine.execFcAckWrite m v s
  | .fcPfClearWrite m v => Sys2Proof.Machine.execFcPfClearWrite m v s
  | .fcFswClear m w v => Sys2Proof.Machine.execFcFswClear m w v s
  | .fcFsw0Read m => Sys2Proof.Machine.execFcFsw0Read m s
  | .fcHistTimeLoRead m k => Sys2Proof.Machine.execFcHistTimeLoRead m k s
  | .faultAck o d => Sys2Proof.Machine.execFaultAck o d s
  | .faultClear o d => Sys2Proof.Machine.execFaultClear o d s
  | .faultPfClear o d => Sys2Proof.Machine.execFaultPfClear o d s
  | .faultReact ph o d => Sys2Proof.Machine.execFaultReact ph o d s
  | .collectorOscillatorStop => Sys2Proof.Machine.execCollectorOscillatorStop s
  | .scrubLineRead bank bad => Sys2Proof.Machine.execScrubLineRead bank bad s
  | .gblSysCtrlWrite m v => Sys2Proof.Machine.execGblSysCtrlWrite m v s
  | .lockstepMismatch => Sys2Proof.Machine.execLockstepMismatch s
  | .coreWatchdogExpiry c => Sys2Proof.Machine.execCoreWatchdogExpiry c s
  | .coreKickWrite m c v => Sys2Proof.Machine.execCoreKickWrite m c v s
  | .machineTimer c => Sys2Proof.Machine.execMachineTimer c s
  | .coreMtimeLoRead m => Sys2Proof.Machine.execCoreMtimeLoRead m s
  | .coreDqPush m n v rd => Sys2Proof.Machine.execCoreDqPush m n v rd s
  | .coreCqPop m n v => Sys2Proof.Machine.execCoreCqPop m n v s
  | .coreMboxBell m c => Sys2Proof.Machine.execCoreMboxBell m c s
  | .coreMboxRaise m c v => Sys2Proof.Machine.execCoreMboxRaise m c v s
  | .coreAcReset m n v => Sys2Proof.Machine.execCoreAcReset m n v s
  | .coreHostbootGo m v => Sys2Proof.Machine.execCoreHostbootGo m v s
  | .otpRead m => Sys2Proof.Machine.execOtpRead m s
  | .otpProgram m => Sys2Proof.Machine.execOtpProgram m s
  | .otpProgramDone ok => Sys2Proof.Machine.execOtpProgramDone ok s
  | .cryptoSha384 m => Sys2Proof.Machine.execCryptoSha384 m s
  | .cryptoEcdsaVerify m => Sys2Proof.Machine.execCryptoEcdsaVerify m s
  | .cryptoDone => Sys2Proof.Machine.execCryptoDone s
  | .tlDefCommit m t v => Sys2Proof.Machine.execTlDefCommit m t v s
  | .tlDefStoreDone t => Sys2Proof.Machine.execTlDefStoreDone t s
  | .softwareResetKey m v => Sys2Proof.Machine.execSoftwareResetKey m v s
  | .gblLockWrite m v => Sys2Proof.Machine.execGblLockWrite m v s
  | .dieTemperatureCrossing celsius => Sys2Proof.Machine.execDieTemperatureCrossing celsius s
  | .thermalShutdown => Sys2Proof.Machine.execThermalShutdown s
  | .thermalRelease => Sys2Proof.Machine.execThermalRelease s
  | .registerWrite m a be v => Sys2Proof.Machine.execRegisterWrite m a be v s
  | .tileLinkReturn t => Sys2Proof.Machine.execTileLinkReturn t s
  | .tileFaultNLow t => Sys2Proof.Machine.execTileFaultNLow t s
  | .ref10mReturn => Sys2Proof.Machine.execRef10mReturn s
  | .aux12Restored t => Sys2Proof.Machine.execAux12Restored t s
  | .rcRegisterRead m off => Sys2Proof.Machine.execRcRegisterRead m off s
  | .hostBar2Write p off bytes => Sys2Proof.Machine.execHostBar2Write p off bytes s

end Sys2Proof.Machine
end

