-- ==== Sys2Proof/Safety.lean ====
section
/-! DEFINITION. What the statements are stated in: the end of a command, the invariants of the block, and the conditions under which
a descriptor is taken and carried out. -/

namespace Sys2Proof.Machine

/-! ### The end of a command -/

/-- What a command that found `s` and whose own effect leaves `u` ends in: the collector latches the events that wait (R472, R482), the
pins and the shown bits follow (R493, R494, R498), and the queue of commands is as the command found it. -/
def State.closed (s u : State) : State := { (State.drain drainFuel u).settle with pending := s.pending }

/-- Command `i` completes at `s`, its own effect leaving `u`. -/
def Does (i : Instr) (s u : State) : Prop := exec i s = .next (s.closed u)

/-! ### A descriptor that is carried out -/

/-- The descriptor an opcode and a body make. -/
abbrev descOf (op : Nat) (d : Body) : Desc := { opcode := BitVec.ofNat 16 op, body := d }

/-- Update `e`, accepted from the descriptor `d` of opcode `op` that stood at `o`, waits in the schedule, and its commit has come
(R449). -/
abbrev State.Due (s : State) (row : Row) (op : Nat) (o : Origin) (d : Body) (e : Sched) : Prop :=
  s.hold = .run ∧
  s.sched.find? (fun e => decide (e.org = o) && decide (e.desc = descOf op d) && s.canCommit row e) = some e

/-- The state once the entry that stands first at `o` has been taken (R444, R527). -/
def State.front (s : State) : Origin → State
  | .ring r _ => (s.fetchOne r.val).setBit (Reg.ringStatus r.val) 2 false
  | .core n _ =>
    let h := s.coreAt n.val
    State.putF (s.setCore n.val { h with resv := h.resv + 1, dqTaken := h.dqTaken + 1 }) Reg.rngStatus 16 0
      (State.getF (s.setCore n.val { h with resv := h.resv + 1, dqTaken := h.dqTaken + 1 }) Reg.rngStatus 16 0 + 1)

/-- Where the entry taken at `o` stood. -/
def State.frontAt (s : State) : Origin → Origin
  | .ring r _ => .ring r (s.reg (Reg.ringCons r.val))
  | .core n _ => .core n (BitVec.ofNat 32 (s.coreAt n.val).dqTaken)

/-- What kind of queue `o` is. -/
def State.cameFrom (s : State) : Origin → Came
  | .ring r _ => if (s.front (.ring r 0)).ringType r.val = 1 then .vote else .command
  | .core n _ => .core n.val

/-- The engine may take the entry at `o` (R444 to R446, R527): a ring is fetched and does not stall, and is no shadow ring; a core's
queue is empty before it. -/
abbrev State.MayTake (s : State) : Origin → Prop
  | .ring r i => s.mayFetch r.val = true ∧ s.stalls r.val = false ∧
      ((s.front (.ring r i)).ringType r.val = 1 ∨
        ((s.front (.ring r i)).shadowPair r.val = none ∧ ((s.front (.ring r i)).ringAt r.val).group = none))
  | .core n _ => s.mayTakeCore n.val = true ∧ (s.coreAt n.val).dq = []

/-- The descriptor `d` of opcode `op` stands first at `o`, passes every check and is no member of a group and no voted copy (R448,
R450): `t` is the state once it is counted as accepted, `e` its update. -/
abbrev State.Accepts (s : State) (row : Row) (op : Nat) (o : Origin) (d : Body) (rd : ReadResult) (t : State) (e : Sched) : Prop :=
  s.hold = .run ∧ s.MayTake o ∧ d.chain = false ∧ d.policy = 0 ∧
  (s.front o).refusal (some row) (s.cameFrom o) (descOf op d) = none ∧
  ((s.front o).bit Reg.gblVoteCfg 7 && (s.front o).votedEligible (descOf op d).opcode.toNat d) = false ∧
  t = (s.front o).bump Reg.rngAcceptCnt 32 ∧ e = (s.front o).newSched row (s.frontAt o) (descOf op d) rd

/-- A descriptor of a command ring is noted in the shadow pairs that mirror the ring (R428). -/
def State.noted (s : State) (o : Origin) (x : Desc) (u : State) : State :=
  match o with
  | .ring r _ => if s.cameFrom o = .command then u.mirrorNote r.val x else u
  | .core _ _ => u

/-- The command `c`, at its acceptance, schedules the update of its descriptor (R444, R450). -/
def Schedules (c : Origin → Body → Instr) (row : Row) (op : Nat) (rd : ReadResult) : Prop :=
  ∀ (o : Origin) (d : Body) (s t : State) (e : Sched), s.Accepts row op o d rd t e →
    Does (c o d) s (s.noted o (descOf op d) (row.onAccept e (t.schedule e)))

/-- The command `c`, at its acceptance, completes a descriptor that meets a condition of refusal with that status, at the present heat
(R448, R459, R605). -/
def Refuses (c : Origin → Body → Instr) (row : Row) (op : Nat) : Prop :=
  ∀ (o : Origin) (d : Body) (s : State) (st v : Nat), s.hold = .run → s.MayTake o → d.chain = false →
    (s.front o).refusal (some row) (s.cameFrom o) (descOf op d) = some (st, v) →
    Does (c o d) s (s.noted o (descOf op d) ((s.front o).completeAt (s.frontAt o)
      { status := st, opcode := BitVec.ofNat 16 op, tag := d.tag, time := (s.front o).heat, value := v, irq := d.irq }))

/-! ### A lane processor's slot that issues -/

/-- F slot `f1` of LP `n` issues `op` (R229 to R231): `w` is its word and `h` the processor once its sources are written. -/
def State.FIssues (s : State) (n : Nat) (f1 : Bool) (op : Nat) (srcs : Word → List Nat) (w : Word) (h : LpH) : Prop :=
  s.hold = .run ∧ s.canIssue n (fSlot f1) op = true ∧ w = (s.lpAt n).slotWord (fSlot f1) ∧ h = (s.lpAt n).waitAll (srcs w)

/-- The F slot's result is under way to FD, and the slot has issued; one free value has been taken. -/
def State.fResult (s : State) (n : Nat) (f1 : Bool) (w : Word) (h : LpH) (lat : Nat) (v : Word) : State :=
  (s.setLp n ((h.result (fSlot f1) (fFD w) lat v).mark (fSlot f1))).take

/-- The M slot of LP `n` issues `op`, once DLYX has left the slot and its sources are written. -/
def State.MIssues (s : State) (n op : Nat) (srcs : Word → List Nat) (w : Word) (h : LpH) : Prop :=
  s.hold = .run ∧ s.canIssue n 2 op = true ∧ w = (s.lpAt n).slotWord 2 ∧
  h = ((s.lpAt n).stallTo (s.lpAt n).mFree).waitAll (srcs w)

/-- A DMEM range that may be accessed: inside the memory, aligned, and of no transfer in flight (R233, R234). -/
abbrev LpH.Free (h : LpH) (a len : Nat) : Prop := dmemBad a len = none ∧ h.busyRange a len = false

/-- The C slot of LP `n` issues `op`, the other slots of the bundle being done (R229 to R231). -/
def State.CIssues (s : State) (n op : Nat) (srcs : Word → List Nat) (w : Word) (h : LpH) : Prop :=
  s.hold = .run ∧ s.canClose n op = true ∧ w = (s.lpAt n).slotWord 3 ∧ h = (s.lpAt n).waitAll (srcs w)

/-- The C slot of LP `n` issues the block primitive `op` (R236): `p` holds the addresses and the count of its registers. -/
def State.PIssues (s : State) (n op : Nat) (w : Word) (h : LpH) (p : PrimArgs) : Prop :=
  ∃ h0, s.CIssues n op (fun w => [pAS w, pAK w, pAD w, pAN w]) w h0 ∧ h = h0.stallTo h0.mFree ∧
    p = { as_ := (h.reg (pAS w)).toNat, ak := (h.reg (pAK w)).toNat, ad := (h.reg (pAD w)).toNat, n := (h.reg (pAN w)).toNat }

/-! ### What acts while the controller is held -/

/-- The commands that do not need the controller: power, the events of a tile, the collector's own, and the die sensor's (R28, R71,
R586, R599). -/
def actsWhileHeld : Instr → Bool
  | .islandOutOfTolerance x => match x.island with
    | .tile .. => true
    | .ctl _ => false
  | .powerOn .. | .powerFail | .rindTrip .. | .rindRestart .. | .tdieWarning .. | .tdieTrip .. | .tdieRestart ..
  | .fastPathLimit .. | .tilePowerUp .. | .tlDownstreamFrame .. | .downstreamFrameMissing .. | .tlUpstreamFrame ..
  | .laneRelease .. | .laneRampDone .. | .ilimHit .. | .probeStart .. | .probeDone .. | .laneClockFault ..
  | .laneClockRecovered .. | .tileSafeAssert .. | .tileSafeRelease .. | .railOvervoltage .. | .railOvClear ..
  | .railUndervoltage .. | .railUvClear .. | .railAdcFault .. | .gateSupplyLow .. | .gateSupplyRecovered .. | .hkFaultClear ..
  | .aux12Low .. | .relayCoilFault .. | .bondImbalance .. | .tdcCalibration .. | .injectedCauseExpiry ..
  | .crossoverZeroCrossing .. | .crossoverApply .. | .faultEventLatch .. | .blockResetDone .. | .shadowClose ..
  | .blockResetOverdue .. | .intHoldoffEnd .. | .collectorOscillatorStop | .dieTemperatureCrossing .. | .thermalRelease
  | .aux12Restored .. => true
  | _ => false

/-! ### Invariants -/

/-- The pins and the bits that show them are as the rules of R493, R494 and R498 give them. -/
abbrev State.PinsAgree (s : State) : Prop :=
  s.pins.va = s.vaLevel ∧ s.pins.genLow = (!s.fc.running || s.genHeld) ∧
  s.bit Reg.fcStatus 0 = s.pins.genLow ∧ s.bit Reg.fcStatus 1 = (s.pins.va == .low) ∧
  s.bit Reg.fcStatus 2 = !s.fc.shadows.isEmpty ∧ s.bit Reg.fcStatus 3 = s.bitVecGet Reg.fcFsw 255 ∧
  s.reg Reg.fcShadow = BitVec.ofNat 32 (s.fc.shadows.length * 2 ^ 16 + (s.fc.shadows.head?.map (·.src)).getD 0)

end Sys2Proof.Machine
end

