-- ==== Sys2Proof/WellFormed.lean ====
section
/-! DEFINITION. Which commands are well formed: the sizes the spec gives to what a sender supplies (a descriptor's 40 payload
bytes, a burst of at most 16 descriptors, a whole host frame), and one entry for one physical thing. A value that the spec has
the block check itself is not checked here. -/

namespace Sys2Proof

/-- No entry twice. -/
def distinct {α : Type} [DecidableEq α] (l : List α) : Bool := decide l.Nodup

/-- 40 payload bytes (R447). -/
def Body.wf (d : Body) : Bool := d.payload.length == 40

/-- Data of at most 2^32 bytes: every length the spec gives a read is a 32-bit number or smaller (R250, R447, R469). -/
def ReadResult.wf : ReadResult → Bool
  | .data bs => decide (bs.length < 2 ^ 32)
  | .error => true

/-- 32 sense codes, two samples of the earth converter, two line-evidence samples of each lane (R327, R389). -/
def TileMeasure.wf (m : TileMeasure) : Bool :=
  m.sense.length == 32 && m.earth.length == 2 && m.lev.length == 16

/-- A word of BAR0 is aligned and inside its 32 MiB (R505, R553). -/
def RegTarget.wf : RegTarget → Bool
  | .bar0 off => off % 4 == 0 && decide (off < 2 ^ 25)
  | .config _ _ _ => true
  | .matrix addr _ => addr.toNat % 4 == 0

/-- A command as its sender can present it. -/
def Instr.wf (i : Instr) : Bool :=
  match i with
  | .linkTrainingWindowEnd probes => distinct (probes.map (·.tile))
  | .firmwareBoot img => decide (img.bytes.length < 2 ^ 32)
  | .aesCsBlock _ _ bytes _ => bytes.length == 24
  | .pktRxFrame _ _ bytes => decide (4 ≤ bytes.length) && decide (bytes.length < 2 ^ 16)
  | .pktHostFrameSend _ entry => entry.length == 2048
  | .clipLoadDone _ rd => rd.wf
  | .playlistFetchDone _ rd => rd.wf
  | .clipFetchDone _ _ rd => rd.wf
  | .laneParam _ _ d rd => d.wf && rd.wf
  | .lpLoad _ _ d rd => d.wf && rd.wf
  | .tlUpstreamFrame _ _ m => m.wf
  | .batonAdoptAdopt _ d rds => d.wf && rds.all (·.wf)
  | .ringReadDone _ ds => decide (ds.length ≤ 16) && ds.all fun x => x.1.body.wf && x.2.all (·.wf)
  | .flowEntryFetched _ rd => rd.wf
  | .faultEventLatch evs => distinct (evs.map (·.src))
  | .scrubLineRead _ bad => distinct (bad.map (·.1))
  | .coreDqPush _ _ _ rd => rd.wf
  | .registerWrite _ a _ _ => a.wf
  | .hostBar2Write _ off bytes => !bytes.isEmpty && decide (off.toNat + bytes.length ≤ 2 ^ 27)
  | .zoneSet _ _ d | .layerSet _ _ d | .layerAssert _ _ d | .layerRelease _ _ d | .laneRoute _ _ d | .returnSet _ _ d
    | .ambSet _ _ d | .playerSet _ _ d | .playerFlush _ d | .clipLoad _ d | .clipPin _ d | .clipDrop _ d
    | .laneParamInline _ _ d | .laneDelay _ _ d | .lpRunStart _ _ d | .lpRunStop _ _ d | .rindSet _ _ d
    | .rindClear _ _ d | .battSet _ _ d | .poolSet _ _ d | .laneRunStart _ _ d | .laneRunStop _ _ d
    | .laneRunMute _ _ d | .laneRunUnmute _ _ d | .scClear _ _ d | .relaySet _ _ d | .testReq _ _ d | .testCancel _ _ d
    | .testgenSet _ _ d | .modeSetVa _ _ d | .modeSetBat _ _ d | .modeSetWup _ _ d | .modeSetMnt _ _ d
    | .modeSetFtm _ _ d | .pairBind _ _ d | .pairBus _ _ d | .pairReturn _ _ d | .batonAdoptDiscard _ d
    | .voteMark _ _ d | .nop _ _ d | .barrier _ d | .srcBind _ _ d | .srcFallback _ _ d | .streamSet _ _ d
    | .chGain _ _ d | .flowRxSet _ _ d | .flowTxSet _ _ d | .vsrcSet _ _ d | .faultAck _ d | .faultClear _ d
    | .faultPfClear _ d | .faultReact _ _ d => d.wf
  | .powerOn _ | .powerFail | .linkTrainedOnAbsentPort _ | .tileLinkLost _ | .heatBoundary _ | .pcrTimeLoRead _
    | .pcrAdjFreqWrite _ _ | .pcrSlewWrite _ _ | .pcrStepHiWrite _ _ | .pcrServoOffsetWrite _ _ | .discSrcChange _ _
    | .holdForce _ _ | .ref1ppsEdge _ | .ref10mLoss | .ref1ppsTimeout | .servoWatchdogExpiry | .lockGained | .lockLost
    | .holdoverLimitReached | .stepJump | .stepResume | .stepApplied | .synthLockLoss | .synthRelock
    | .islandOutOfTolerance _ | .crossingAbandoned _ _ | .droopDetected | .droopEnd _ | .droopStretchExceeded _
    | .rateJump _ | .converterRelockDone _ | .ratioOutOfRange _ | .portClockLoss _ | .portClockReturn _
    | .tdmRxFrame _ _ _ _ _ | .rxBlockClose _ _ | .tdmTxFrame _ _ _ | .tdmFrameWrite _ _ _ | .tdmEnable _ _ _
    | .tdmDisable _ _ _ | .rxMaskNextWrite _ _ _ | .txMaskNextWrite _ _ _ | .channelZeroCrossing _ | .zcTimeoutExpiry _
    | .aesRxFrame _ _ _ _ | .aesRateDetect _ _ _ | .aesRxCsRead _ _ _ | .aesRxEnable _ _ _ | .aesTxEnable _ _ _
    | .aesTxFrame _ _ | .aesTxCsCommit _ _ _ | .pdmGroupEnable _ _ _ | .pdmMicEnWrite _ _ _ | .pdmWarmingEnd _
    | .pdmMicStuckLong _ | .legDown _ _ | .pktLinkDown _ | .pktLinkUp _ _ _ | .flowPacketSend _ | .pktCsRead _
    | .layerZeroCrossing _ | .stepZcTimeout _ | .readyDeadline _ | .silentJoin _ _ | .zoneBlockLate _
    | .activityHoldExpiry _ _ | .entryEnd _ | .playerStarved _ | .playerResume _ | .playlistHostLost _ | .fnop _ _
    | .fadd _ _ | .fsub _ _ | .fmul _ _ | .fma _ _ | .fms _ _ | .fmin _ _ | .fmax _ _ | .fabs _ _ | .fneg _ _
    | .fsel _ _ | .fclamp _ _ | .frcp _ _ | .frsq _ _ | .flog2 _ _ | .fexp2 _ _ | .fcvti _ _ | .fcvtf _ _ | .fli _ _
    | .mnop _ | .ldf _ | .stf _ | .ldfp _ | .stfp _ | .lda _ | .sta _ | .vld _ | .vst _ | .vatTransferDone _ _
    | .dlyx _ | .cnop _ | .br _ | .bz _ | .bnz _ | .blt _ | .call _ | .ret _ | .loop _ | .amov _ | .aadd _ | .aaddr _
    | .ashl _ | .mvfa _ | .mvaf _ | .odone _ | .hend _ | .syncv _ | .biq _ | .firb _ | .poly8 _ | .env _ | .tbl _
    | .lia _ | .liard _ | .ncoset _ | .ramp _ | .heatAbandoned _ | .lpHang _ | .paramShadowWrite | .imageAccepted _
    | .lpSwitchHalt _ | .lpSwitchStart _ | .lpEnWrite _ _ _ | .lpReloadDone _ | .modelSecondUpdate _ _ _ _ _ _ _ _
    | .rindTrip _ _ _ _ _ | .rindRestart _ | .tdieWarning _ _ | .tdieTrip _ _ | .tdieRestart _ | .rindAckTimeout _
    | .fastPathLimit _ _ | .tilePowerUp _ | .tlDownstreamFrame _ _ _ | .downstreamFrameMissing _ | .laneRelease _ _
    | .laneRampDone _ | .ilimHit _ _ _ | .probeStart _ | .probeDone _ _ | .laneClockFault _ | .laneClockRecovered _
    | .tileSafeAssert _ | .tileSafeRelease _ | .railOvervoltage _ _ | .railOvClear _ | .railUndervoltage _ _
    | .railUvClear _ | .railAdcFault _ _ | .gateSupplyLow _ | .gateSupplyRecovered _ | .hkFaultClear _ | .aux12Low _
    | .relayCoilFault _ _ _ | .bondImbalance _ _ | .tdcCalibration _ | .testDone _ _ | .testStop _ | .testExpired _ _
    | .pilotWindowEnd _ _ _ _ _ _ | .pilotBlind _ | .pilotBlindLong _ | .lpDiagAdmitWrite _ _ _ | .batAutoEnter
    | .batAutoLeave | .mntTimeout | .gblFtmUnlockWrite _ _ | .unlockWindowExpiry _ | .ftmInjSource _ _
    | .ftmInjHoldCause _ _ | .ftmInjLinkFrames _ _ | .ftmInjVatEcc _ _ | .injectedCauseExpiry _ _
    | .crossoverZeroCrossing _ _ | .crossoverApply _ | .crossoverComplete | .troxlinkControlFrame _
    | .troxlinkBusFrame _ | .blockLockLoss | .heartbeatTimeout | .partnerAliveCheck | .partnerBusMissing _
    | .takeoverRecheck _ | .takeoverRelease _ | .takeoverComplete _ | .returnSilence _ | .maxHoldExpiry _
    | .returnMute _ | .returnRelayClear _ | .returnRestore _ | .returnComplete _ | .gblBatonClaimWrite _ _
    | .batonWithdraw _ | .gblBatonLeaseWrite _ _ | .gblBatonPassWrite _ _ | .gblBatonAcceptWrite _ _
    | .electionWindowClose | .leaseExpiry | .passTimeout | .handoverComplete | .voteTimeout _ | .gblShadowWrite _ _ _
    | .shadowLag _ | .functionLevelReset _ _ | .pcieLinkDown _ | .pcieLinkUp _ _ _ _ _ _ | .completionTimeout _ _ _
    | .doorbellWrite _ _ _ _ | .ringEnable _ _ _ | .ringDisable _ _ _ | .ringWriteError _ | .ringStallLong _
    | .irqCoalesceTimeout _ | .barrierRelease _ | .blockResetDone _ | .shadowClose _ | .blockResetOverdue _
    | .engineReset | .intHoldoffEnd _ | .fcAckWrite _ _ | .fcPfClearWrite _ _ | .fcFswClear _ _ _ | .fcFsw0Read _
    | .fcHistTimeLoRead _ _ | .collectorOscillatorStop | .gblSysCtrlWrite _ _ | .lockstepMismatch
    | .coreWatchdogExpiry _ | .coreKickWrite _ _ _ | .machineTimer _ | .coreMtimeLoRead _ | .coreCqPop _ _ _
    | .coreMboxBell _ _ | .coreMboxRaise _ _ _ | .coreAcReset _ _ _ | .coreHostbootGo _ _ | .otpRead _ | .otpProgram _
    | .otpProgramDone _ | .cryptoSha384 _ | .cryptoEcdsaVerify _ | .cryptoDone | .tlDefCommit _ _ _ | .tlDefStoreDone _
    | .softwareResetKey _ _ | .gblLockWrite _ _ | .dieTemperatureCrossing _ | .thermalShutdown | .thermalRelease
    | .tileLinkReturn _ | .tileFaultNLow _ | .ref10mReturn | .aux12Restored _ | .rcRegisterRead _ _ => true

end Sys2Proof
end

