-- ==== Sys2Proof/Certificates/Slice0/Obligations.lean ====
section
/-! DEFINITION. The statements about the block, for the provers. `Does i s u` says that command `i` completes at `s`, its own effect
leaving `u`, which the collector then closes (`State.closed`). -/

open Sys2Proof Sys2Proof.Machine

/-- While the controller runs, a read of PCR_TIME_LO by a master returns the low word of the nanoseconds, and from then on that
master reads PCR_TIME_HI, PCR_TIME_FRAC, PCR_HEAT_LO and PCR_HEAT_HI as they stood at the read. The latched words of every
master with another code, at every offset of BAR0, stay as they were, and nothing else of the state changes before the
collector closes the command. Completes, with its own effect: pcrTimeLoRead. (R47) -/
def Obligations.PacerSnapshot : Prop :=
  (∀ (m : Master) (s : State), s.hold = .run →
    ∃ u : State, Does (.pcrTimeLoRead m) s u ∧ u.rdata = BitVec.ofNat 32 s.pacer.ns.toNat ∧
      (∀ live, u.latched m Reg.pcrTimeHi live = BitVec.ofNat 32 (s.pacer.ns.toNat / 2 ^ 32) ∧
        u.latched m Reg.pcrTimeFrac live = s.pacer.frac ∧
        u.latched m Reg.pcrHeatLo live = BitVec.ofNat 32 s.heat ∧
        u.latched m Reg.pcrHeatHi live = BitVec.ofNat 32 (s.heat / 2 ^ 32)) ∧
      (∀ m' off live, masterCode m' ≠ masterCode m → off < 2 ^ 25 → u.latched m' off live = s.latched m' off live) ∧
      u = { s with latch := u.latch, rdata := u.rdata })

/-- A permitted write of PCR_ADJ_FREQ inside ±500 ppm stores the value; outside it stores the limit and sets ADJ_CLAMP. A
permitted write of PCR_SLEW adds its signed value in ns to the outstanding slew, or in HOLDOVER to what is held pending. A
permitted write of PCR_STEP_HI with STEP_EN clear or the VA flag set sets STEP_REFUSED and raises event 0x06; with STEP_EN
set, the VA flag clear, no step pending and the state not HOLDOVER it arms a step of the 64-bit value and moves the pacer to
STEPPING, changing two registers and the pacer only. A permitted write of PCR_SERVO_OFFSET stores the offset, makes PTP
usable, and the state machine is evaluated; an offset inside ±THRESH continues or begins the run of offsets inside the
window, any other the run outside it. (Choices of the model it may rest on: log entries 24, 26, 136, 138.) Completes, with
its own effect: pcrAdjFreqWrite, pcrSlewWrite, pcrStepHiWrite, pcrServoOffsetWrite. (R48, R49, R52, R53, R54, R51) -/
def Obligations.PacerWrites : Prop :=
  (∀ (m : Master) (v : Word) (s : State), s.hold = .run → s.may m Reg.pcrAdjFreq = true →
    -500000000 ≤ v.toInt → v.toInt ≤ 500000000 → Does (.pcrAdjFreqWrite m v) s (s.setReg Reg.pcrAdjFreq v)) ∧
  (∀ (m : Master) (v : Word) (s : State), s.hold = .run → s.may m Reg.pcrAdjFreq = true → 500000000 < v.toInt →
    Does (.pcrAdjFreqWrite m v) s ((s.setReg Reg.pcrAdjFreq 500000000#32).setBit Reg.pcrStatus 4 true)) ∧
  (∀ (m : Master) (v : Word) (s : State), s.hold = .run → s.may m Reg.pcrAdjFreq = true → v.toInt < -500000000 →
    Does (.pcrAdjFreqWrite m v) s ((s.setReg Reg.pcrAdjFreq (BitVec.ofInt 32 (-500000000))).setBit Reg.pcrStatus 4 true)) ∧
  (∀ (m : Master) (v : Word) (s : State), s.hold = .run → s.may m Reg.pcrSlew = true → s.pcrSt ≠ pcHoldover →
    Does (.pcrSlewWrite m v) s
      { s with pacer := { s.pacer with slew := s.pacer.slew + v.toInt * 1000000000000 } }) ∧
  (∀ (m : Master) (v : Word) (s : State), s.hold = .run → s.may m Reg.pcrSlew = true → s.pcrSt = pcHoldover →
    Does (.pcrSlewWrite m v) s { s with pacer := { s.pacer with pendSlew := s.pacer.pendSlew + v.toInt } }) ∧
  (∀ (m : Master) (v : Word) (s : State), s.hold = .run → s.may m Reg.pcrStepHi = true →
    (s.bit Reg.pcrCtrl 7 = false ∨ s.vaFlag = true) →
    Does (.pcrStepHiWrite m v) s
      ((s.setBit Reg.pcrStatus 3 true).emit 194 0x06
        (syn8 6 s.discSrc 0 (s.setBit Reg.pcrStatus 3 true).pcrSt))) ∧
  (∀ (m : Master) (v : Word) (s : State), s.hold = .run → s.may m Reg.pcrStepHi = true → s.bit Reg.pcrCtrl 7 = true →
    s.vaFlag = false → s.pacer.step = none → s.pcrSt ≠ pcHoldover →
    ∃ u : State, Does (.pcrStepHiWrite m v) s u ∧ u.pcrSt = pcStepping ∧ u.reg Reg.pcrStepHi = v ∧
      u.pacer = { s.pacer with step := some { value := v ++ s.reg Reg.pcrStepLo }, inSince := none, outSince := none } ∧
      (∀ o, o ≠ Reg.pcrStepHi → o ≠ Reg.pcrStatus → u.reg o = s.reg o) ∧
      u = { s with regs := u.regs, pacer := u.pacer }) ∧
  (∀ (m : Master) (v : Word) (s u : State), s.hold = .run → s.may m Reg.pcrServoOffset = true → u = s.reportOffset v →
    Does (.pcrServoOffsetWrite m v) s
      (State.discipline { u with pacer := { u.pacer with ptpOk := true, ptpSince := true } })) ∧
  (∀ (v : Word) (s : State), v.toInt.natAbs ≤ s.getF Reg.pcrLockCfg 15 0 →
    s.reportOffset v = State.setReg { s with pacer := { s.pacer with
      inSince := some (s.pacer.inSince.getD s.pacer.ns.toNat), outSince := none } } Reg.pcrServoOffset v) ∧
  (∀ (v : Word) (s : State), s.getF Reg.pcrLockCfg 15 0 < v.toInt.natAbs →
    s.reportOffset v = State.setReg { s with pacer := { s.pacer with
      inSince := none, outSince := some (s.pacer.outSince.getD s.pacer.ns.toNat) } } Reg.pcrServoOffset v)

/-- In ACQUIRE a run of offsets inside ±THRESH that has lasted LOCK_S seconds moves the pacer to LOCKED with event 0x01; in
LOCKED a run outside it that has lasted as long moves it to ACQUIRE with event 0x02; in HOLDOVER the limit raises event
0x04. Losing or regaining the 10 MHz input, a 1PPS timeout and the servo watchdog (while SERVO_WD is not 0) change the
usability they stand for, and the state machine is evaluated. In LOCKED on a usable reference input an edge inside the lock
window is reported, counted in the seconds, slewed out and clears the run of misses, changing registers and the pacer only.
A permitted change of DISC_SRC in LOCKED leads to ACQUIRE, and HOLD_FORCE sets its bit alone. The evaluation takes FREE to
ACQUIRE with a usable source, ACQUIRE and LOCKED to HOLDOVER with f frozen at its average when the source is lost or
HOLD_FORCE is set, and HOLDOVER to ACQUIRE with the pending slew applied. (Choices of the model it may rest on: log entries
24, 25, 136, 137, 138, 150.) Completes, with its own effect: lockGained, lockLost, holdoverLimitReached, ref10mLoss,
ref10mReturn, ref1ppsTimeout, servoWatchdogExpiry, ref1ppsEdge, discSrcChange, holdForce. (R50, R51, R52, R49, R603) -/
def Obligations.PacerDiscipline : Prop :=
  (∀ (t : Nat) (s : State), s.hold = .run → s.pcrSt = pcAcquire → s.pacer.inSince = some t →
    t + s.getF Reg.pcrLockCfg 23 16 * 1000000000 ≤ s.pacer.ns.toNat →
    Does .lockGained s ((s.setPcrSt pcLocked).pacerEvent 0x01 0)) ∧
  (∀ (t : Nat) (s : State), s.hold = .run → s.pcrSt = pcLocked → s.pacer.outSince = some t →
    t + s.getF Reg.pcrLockCfg 23 16 * 1000000000 ≤ s.pacer.ns.toNat →
    Does .lockLost s ((s.setPcrSt pcAcquire).pacerEvent 0x02 0)) ∧
  (∀ s : State, s.hold = .run → s.pcrSt = pcHoldover →
    Does .holdoverLimitReached s (s.pacerEvent 0x04 0)) ∧
  (∀ s : State, s.hold = .run → Does .ref10mLoss s (s.setBit Reg.pcrStatus 5 false).discipline) ∧
  (∀ s : State, s.hold = .run → Does .ref10mReturn s (s.setBit Reg.pcrStatus 5 true).discipline) ∧
  (∀ s : State, s.hold = .run → Does .ref1ppsTimeout s (s.setBit Reg.pcrStatus 6 false).discipline) ∧
  (∀ s : State, s.hold = .run → s.getF Reg.pcrCtrl 15 8 ≠ 0 →
    Does .servoWatchdogExpiry s (State.discipline { s with pacer := { s.pacer with ptpOk := false } })) ∧
  (∀ (off : Word) (s u : State), s.hold = .run → s.discSrc = 3 → off.toInt.natAbs ≤ s.getF Reg.pcrLockCfg 15 0 →
    u = (s.set64 Reg.pcrRefSecLo Reg.pcrRefSecHi
      ((s.get64 Reg.pcrRefSecLo Reg.pcrRefSecHi + 1) % 0x1000000000000)).reportOffset off →
    Does (.ref1ppsEdge off) s ((State.addSlew
      (State.setBit { u with pacer := { u.pacer with ppsBad := 0 } } Reg.pcrStatus 6 true) (-off.toInt)).discipline)) ∧
  (∀ (m : Master) (v : Word) (s u : State), s.hold = .run → s.may m Reg.pcrCtrl = true → u = s.rawWrite Reg.pcrCtrl v →
    u.discSrc ≠ s.discSrc → u.pcrSt = pcLocked →
    Does (.discSrcChange m v) s
      (State.discipline (State.setPcrSt { u with pacer := { u.pacer with ptpSince := false } } pcAcquire))) ∧
  (∀ (m : Master) (on : Bool) (s u : State), s.hold = .run → s.may m Reg.pcrCtrl = true →
    u = s.rawWrite Reg.pcrCtrl (setBitAt (s.reg Reg.pcrCtrl) 6 on) → u.discSrc = s.discSrc →
    Does (.holdForce m on) s u.discipline) ∧
  (∀ s : State, s.pcrSt = pcFree → s.discUsable = true → s.holdForce = false → s.discipline = s.setPcrSt pcAcquire) ∧
  (∀ s : State, (s.pcrSt = pcAcquire ∨ s.pcrSt = pcLocked) → (s.discUsable = false ∨ s.holdForce = true) →
    s.discipline.pcrSt = pcHoldover ∧ s.discipline.pacer.frozen = s.fAverage) ∧
  (∀ s : State, s.pcrSt = pcHoldover → s.discUsable = true → s.holdForce = false →
    s.discipline = State.setPcrSt
      { s with pacer := { s.pacer with slew := s.pacer.slew + s.pacer.pendSlew * 1000000000000, pendSlew := 0 } } pcAcquire)

/-- A heat boundary outside a jump takes the pacer to the next whole millisecond, moves a pending step on and starts the heat.
The jump adds the 64-bit step value to the nanoseconds once the blocks of the old grid are discarded. At the boundary where
the jump takes the place of the heat the blocks of the PDM groups close. The first heat of the new grid is the one the pacer
then reaches; waiting updates and groups with WHEN 0 move to it, and so do those whose own time it has passed, while one
whose time is still to come waits for it. The end of the ramp-in drops the step, returns to ACQUIRE with event 0x05, and
evaluates the discipline. What heatStart and the moves of WHEN 0 updates take from the model are its own order of work
inside a boundary (log entry 30). (Choices of the model it may rest on: log entries 23, 28, 29.) Completes, with its own
effect: heatBoundary, stepJump, stepResume, stepApplied. (R55, R56, R57, R58, R51) -/
def Obligations.HeatsAndSteps : Prop :=
  (∀ (c : List (List Bool)) (s : State), s.hold = .run → s.jumped = false → ((s.pacerToHeat true).stepHeat).atJump = false →
    Does (.heatBoundary c) s (((s.pacerToHeat true).stepHeat).heatStart c)) ∧
  (∀ (c : List (List Bool)) (s : State), s.hold = .run → s.jumped = false → ((s.pacerToHeat true).stepHeat).atJump = true →
    Does (.heatBoundary c) s (((s.pacerToHeat true).stepHeat).pdmHeat (bfShort ||| bfDisc ||| bfStep) c)) ∧
  (∀ (x : StepH) (s : State), s.hold = .run → s.pacer.step = some x → x.phase = .rampOut → s.atJump = true →
    Does .stepJump s (State.timersEval
      { s.discardBlocks with pacer :=
          { s.discardBlocks.pacer with ns := s.discardBlocks.pacer.ns + x.value, step := some { x with phase := .jumped } } })) ∧
  (∀ (x : StepH) (s u : State), s.hold = .run → s.pacer.step = some x → x.phase = .jumped → x.warm = false →
    u = s.pacerToHeat false →
    Does .stepResume s (State.heatStart
      { u with
        firstHeat := u.heat
        pacer := { u.pacer with step := some { x with phase := .rampIn, h0 := u.heat } }
        sched := u.sched.map fun e => e.regrid (e.desc.body.whenF == 0) u.heat
        groups := u.groups.map (GroupH.regrid u.heat) } [])) ∧
  (∀ (e : Sched) (h : Nat), (e.regrid true h).heat = h ∧ (h ≤ e.asked → (e.regrid false h).heat = e.asked ∧
    (e.regrid false h).sample = e.askedSample) ∧ (e.asked < h → (e.regrid false h).heat = h ∧ (e.regrid false h).sample = 0)) ∧
  (∀ (x : StepH) (s : State), s.hold = .run → s.pacer.step = some x → x.phase = .rampIn →
    Does .stepApplied s (State.discipline
      ((State.setPcrSt { s with pacer := { s.pacer with step := none } } pcAcquire).pacerEvent 0x05 0)))

/-- Loss of the audio synthesiser ramps the lanes out with event 0x01 of source 195, its relock ramps them in. An abandoned
crossing is counted with event 0x03 of source 213, and an abandoned read returns zero. A droop sets STRETCH, counts, marks
every lane processor as stretched and raises event 0x01 of source 227; its end clears STRETCH, adds the stretched time of
the heat and raises PCR_DROOP_MAX where that is passed; a heat stretched beyond U_US raises event 0x02. An island out of
tolerance sets its bit in PCR_CLKMON and stops the collector oscillator (77), or asserts TILE_SAFE of every tile (0); a lane
island of a tile holds its lane in SAFE-LOW with event 0xB5. An island that is back in tolerance is remembered as such, and
a pacer island back in tolerance has the discipline judged again. (Choices of the model it may rest on: log entries 27, 54,
96, 137.) Completes, with its own effect: synthLockLoss, synthRelock, crossingAbandoned, droopDetected, droopEnd,
droopStretchExceeded, islandOutOfTolerance. (R64, R65, R66, R68, R71, R79, R81) -/
def Obligations.ClocksAndDroop : Prop :=
  (∀ s : State, s.hold = .run → Does .synthLockLoss s
    ((State.lanesOut { s with pacer := { s.pacer with synthLost := true } }).emit 195 0x01 (syn16 0x01 0 0))) ∧
  (∀ s : State, s.hold = .run → s.pacer.synthLost = true →
    Does .synthRelock s (State.lanesIn { s with pacer := { s.pacer with synthLost := false } })) ∧
  (∀ (m : Fin 32) (s : State), s.hold = .run → Does (.crossingAbandoned m true) s
    ((State.bump { s with rdata := 0 } Reg.mxAbandonCnt 32).emit 213 0x03 (vatSyn 0x03 1 m.val))) ∧
  (∀ (m : Fin 32) (s : State), s.hold = .run → Does (.crossingAbandoned m false) s
    ((s.bump Reg.mxAbandonCnt 32).emit 213 0x03 (vatSyn 0x03 0 m.val))) ∧
  (∀ s : State, s.hold = .run → ∃ u : State, u.reg Reg.pcrStatus = setBitAt (s.reg Reg.pcrStatus) 7 true ∧
    (s.getF Reg.pcrDroopCnt 31 0 + 1 < 2 ^ 32 → u.getF Reg.pcrDroopCnt 31 0 = s.getF Reg.pcrDroopCnt 31 0 + 1) ∧
    (∀ n, n < 16 → u.lpAt n = { s.lpAt n with stretch := true }) ∧
    (∀ o, o ≠ Reg.pcrStatus → o ≠ Reg.pcrDroopCnt → u.reg o = s.reg o) ∧
    u = { s with regs := u.regs, lps := u.lps } ∧
    Does .droopDetected s (u.emit 227 0x01 (syn16 0x01 0 0))) ∧
  (∀ (us : BitVec 10) (s : State), s.hold = .run → (s.reg Reg.pcrDroopMax).toNat < s.pacer.stretched + us.toNat →
    Does (.droopEnd us) s
      ((State.setBit { s with pacer := { s.pacer with stretched := s.pacer.stretched + us.toNat } } Reg.pcrStatus 7 false).setReg
        Reg.pcrDroopMax (BitVec.ofNat 32 (s.pacer.stretched + us.toNat)))) ∧
  (∀ (us : BitVec 10) (s : State), s.hold = .run → s.pacer.stretched + us.toNat ≤ (s.reg Reg.pcrDroopMax).toNat →
    Does (.droopEnd us) s
      (State.setBit { s with pacer := { s.pacer with stretched := s.pacer.stretched + us.toNat } } Reg.pcrStatus 7 false)) ∧
  (∀ (us : BitVec 10) (s : State), s.hold = .run → s.getF Reg.pcrDroopCfg 15 0 < us.toNat →
    us.toNat ≤ (s.reg Reg.pcrDroopMax).toNat →
    Does (.droopStretchExceeded us) s (s.emit 227 0x02 (syn16 0x02 0 us.toNat))) ∧
  (∀ (k : Fin 81) (s : State), s.hold = .run → k.val = 77 → Does (.islandOutOfTolerance ⟨.ctl k, true⟩) s
    { (s.setBit (Reg.pcrClkmon 2) 13 true) with islOut := s.islOut ||| (1#81 <<< 77), fc := { s.fc with oscStopped := true } }) ∧
  (∀ (k : Fin 81) (s : State), s.hold = .run → k.val = 0 → Does (.islandOutOfTolerance ⟨.ctl k, true⟩) s
    (State.emit { (s.setBit (Reg.pcrClkmon 0) 0 true) with
      islOut := s.islOut ||| 1#81, pins := { s.pins with tileSafe := 0xFFFF#16 } } 213 0x0F (syn16 0x0F 0 0))) ∧
  (∀ (k : Fin 81) (s : State), s.hold = .run → k.val ≠ 7 → k.val ≠ 79 → Does (.islandOutOfTolerance ⟨.ctl k, false⟩) s
    { s with islOut := s.islOut &&& ~~~(1#81 <<< k.val) }) ∧
  (∀ (k : Fin 81) (s : State), s.hold = .run → (k.val = 7 ∨ k.val = 79) → Does (.islandOutOfTolerance ⟨.ctl k, false⟩) s
    (State.discipline { s with islOut := s.islOut &&& ~~~(1#81 <<< k.val) })) ∧
  (∀ (t : Fin 16) (k : Fin 11) (s u : State), k.val < 8 →
    u = (s.setBit (Reg.tlClkmon t.val) k.val true).setTile t.val
      { s.tileAt t.val with islOut := (s.tileAt t.val).islOut ||| (1#11 <<< k.val) } →
    Does (.islandOutOfTolerance ⟨.tile t k, true⟩) s
      (((u.setHold (t.val * 8 + k.val) hcClk true 0xB5).laneEvent (t.val * 8 + k.val) 0xB5 0).showFault t.val))

/-- A rate jump (two measured ratios of a converter more than 2 % apart) makes its stream re-lock: LOCKED off, RELOCKING on, the
re-lock counted, the next block flagged, the measurements begun anew, with its event. The end of the re-lock fades the
sources of the stream in over 64 samples. A measured ratio more than 12.5 % from nominal, or a lost clock, of a stream not
yet lost loses it, with its event; a stream lost stays so declared and is not lost again. A lost stream with 16 good frames
returns; that of a TDM port without a converter is LOCKED again and its sources return from the next block on, with its
event. (Choices of the model it may rest on: log entries 46, 151.) Completes, with its own effect: rateJump,
converterRelockDone, ratioOutOfRange, portClockLoss, portClockReturn. (R72, R77, R78, R126, R161) -/
def Obligations.ClockedStreams : Prop :=
  (∀ (st : Stream) (i c : Nat) (s : State), s.hold = .run → c = streamCode st → s.asrcOf c = some i →
    (s.convAt c).jumped = true → s.relocking c = false →
    Does (.rateJump st) s (State.streamEvent
      ((((s.streamBits st false (s.streamLost st) true).bump (Reg.pcrAsrcRelock i) 32).nextFlag st 3).setConv c
        { (((s.streamBits st false (s.streamLost st) true).bump (Reg.pcrAsrcRelock i) 32).nextFlag st 3).convAt c with
          hist := [], last := none, prev := 0 }) st 0x04 0x37)) ∧
  (∀ h : ConvH, h.jumped = (h.prev != 0 && decide (h.prev.toNat < 50 * ((h.ratio.toNat : Int) - h.prev.toNat).natAbs))) ∧
  (∀ (st : Stream) (s : State), s.hold = .run → s.relocking (streamCode st) = true →
    Does (.converterRelockDone st) s
      ((s.streamBits st true (s.streamLost st) false).mapStream st fun h => { h with fadeIn := 64 })) ∧
  (∀ (st : Stream) (i : Nat) (s : State), s.hold = .run → s.streamLost st = false → s.asrcOf (streamCode st) = some i →
    (s.convAt (streamCode st)).outOfRange (s.convRate (streamCode st)) = true →
    Does (.ratioOutOfRange st) s ((s.loseStream st).streamEvent st 0x05 0x38)) ∧
  (∀ (h : ConvH) (code : Nat), h.ratio ≠ 0 →
    (h.outOfRange code = true ↔ nominalRatio code < 8 * ((h.ratio.toNat : Int) - nominalRatio code).natAbs)) ∧
  (∀ (st : Stream) (s : State), s.hold = .run → s.streamLost st = false →
    Does (.portClockLoss st) s ((s.loseStream st).streamEvent st 0x06 0x35)) ∧
  (∀ (n : Fin 16) (s : State), (s.loseStream (.tdm n)).streamLost (.tdm n) = true) ∧
  (∀ (n : Fin 8) (s : State), (s.loseStream (.aes n)).streamLost (.aes n) = true) ∧
  (∀ (g : Fin 4) (s : State), (s.loseStream (.pdm g)).streamLost (.pdm g) = true) ∧
  (∀ (f : Fin 2048) (s : State), (s.loseStream (.flow f)).streamLost (.flow f) = true) ∧
  (∀ (n : Fin 16) (s : State), s.hold = .run → s.streamLost (.tdm n) = true → s.asrcOf (streamCode (.tdm n)) = none →
    16 ≤ (s.tdmRxAt n.val).good →
    Does (.portClockReturn (.tdm n)) s (State.streamEvent
      (((s.streamBits (.tdm n) true false false).nextFlag (.tdm n) 5).mapStream (.tdm n)
        (SrcH.regain (((s.streamBits (.tdm n) true false false).nextFlag (.tdm n) 5).heat + 1))) (.tdm n) 0x07 0x36)) ∧
  (∀ (st : Stream) (s : State), s.hold = .run → s.streamLost st = true → s.streamGood st = true →
    Does (.portClockReturn st) s (s.streamBack st)) ∧
  (∀ (st : Stream) (s : State), s.hold = .run → s.streamLost st = true → Does (.portClockLoss st) s s)

/-- On an enabled TDM port that is not in reset, with a block of this heat open and no mask change due, the leading edge of
frame sync, by FS_POL, begins a frame, whose data is taken on the edge RX_EDGE selects; the other edge changes nothing. A
frame of the right length with no glitch and room in the block is converted slot by slot as R85 says and joins the open
block with one more good frame, with the time stamp of the block being that of its first frame; the word of slot k lies at
OFFSET + k × SLOT_W, MSB first, and a slot the frame does not have reads as zero. A glitch or a wrong length in slave mode
drops the frame, marks the block and counts it as a glitch and as dropped with event 0x01; a full FIFO drops it with event
0x02. At the end of a heat the block of the heat before is closed, for a TDM port, an AES3 receiver, a microphone group and
a flow. (Choices of the model it may rest on: log entries 57, 129, 131, 152.) Completes, with its own effect: tdmRxFrame,
rxBlockClose. (R83, R85, R86, R90, R91, R99, R77, R124) -/
def Obligations.TdmReceive : Prop :=
  (∀ (n : Fin 16) (high : Bool) (len : BitVec 11) (rise fall : BitVec 1024) (glitch full : Bool) (s : State) (b : OpenBlk),
    s.hold = .run → s.bit (Reg.tdmCtrl n.val) 0 = true → s.inReset (160 + n.val) = false → high ≠ s.bit (Reg.tdmCtrl n.val) 5 →
    (s.tdmRxAt n.val).blk = some b → b.heat = s.heat → (s.tdmRxAt n.val).maskDue = false →
    Does (.tdmRxFrame n len ⟨high, rise, fall⟩ glitch full) s
      (s.tdmTake n.val len.toNat (if s.bit (Reg.tdmCtrl n.val) 4 then fall else rise) glitch full)) ∧
  (∀ (n : Fin 16) (high : Bool) (len : BitVec 11) (rise fall : BitVec 1024) (glitch full : Bool) (s : State), s.hold = .run →
    high = s.bit (Reg.tdmCtrl n.val) 5 → Does (.tdmRxFrame n len ⟨high, rise, fall⟩ glitch full) s s) ∧
  (∀ (n len : Nat) (line : BitVec 1024) (s : State) (b : OpenBlk), (s.tdmRxAt n).blk = some b →
    len = s.getF (Reg.tdmFrame n) 31 21 → b.frames.length < frames112 (s.getF (Reg.tdmCtrl n) 11 8) →
    ∃ out, ((s.tdmTake n len line false false).tdmRxAt n) =
      { s.tdmRxAt n with
        blk := some { b with
          time := if b.frames.isEmpty then s.pacer.ns else b.time
          frames := b.frames ++ [out]
          raws := b.raws ++ [((List.range 32).filter fun k => bitAt b.mask k).map
            fun k => pcmSample (tdmWordBits (s.reg (Reg.tdmFrame n))) (tdmWord (s.reg (Reg.tdmFrame n)) line k)] }
        good := (s.tdmRxAt n).good + 1 }) ∧
  (∀ (f : Word) (line : BitVec 1024) (k i : Nat), k ≤ fld f 20 16 → i < tdmWordBits f →
    (tdmWord f line k).testBit (tdmWordBits f - 1 - i) = line.getLsbD (fld f 15 8 + k * (fld f 7 3 + 16) + i)) ∧
  (∀ (f : Word) (line : BitVec 1024) (k : Nat), fld f 20 16 < k → tdmWord f line k = 0) ∧
  (∀ (n len : Nat) (line : BitVec 1024) (glitch full : Bool) (s : State) (b : OpenBlk), (s.tdmRxAt n).blk = some b →
    s.bit (Reg.tdmCtrl n) 3 = false → (glitch = true ∨ len ≠ s.getF (Reg.tdmFrame n) 31 21) →
    s.tdmTake n len line glitch full =
      (((s.setTdmRx n { s.tdmRxAt n with
          blk := some { b with glitch := b.glitch + 1, overrun := b.overrun + 1, flags := b.flags ||| bfDisc }, good := 0 }).bump
        (Reg.tdmGlitchCnt n) 32).bump (Reg.tdmOvrCnt n) 32).serialEvent (160 + n) 0x01 0xFF 1) ∧
  (∀ (n len : Nat) (line : BitVec 1024) (s : State) (b : OpenBlk), (s.tdmRxAt n).blk = some b → s.bit (Reg.tdmCtrl n) 3 = true →
    s.tdmTake n len line false true =
      ((s.setTdmRx n { s.tdmRxAt n with blk := some { b with overrun := b.overrun + 1, flags := b.flags ||| bfDisc } }).bump
        (Reg.tdmOvrCnt n) 32).serialEvent (160 + n) 0x02 0xFF 1) ∧
  (∀ (n : Fin 16) (c : List (List Bool)) (s : State) (b : OpenBlk), s.hold = .run → s.bit (Reg.tdmCtrl n.val) 0 = true →
    (s.tdmRxAt n.val).blk = some b → b.heat < s.heat →
    Does (.rxBlockClose (.tdm n) c) s (s.tdmClose n.val (s.heat - 1) false)) ∧
  (∀ (n : Fin 8) (c : List (List Bool)) (s : State) (b : OpenBlk), s.hold = .run → s.bit (Reg.aesRxCfg n.val) 0 = true →
    (s.aesRxAt n.val).blk = some b → b.heat < s.heat →
    Does (.rxBlockClose (.aes n) c) s (s.aesClose n.val (s.heat - 1) false)) ∧
  (∀ (g : Fin 4) (c : List (List Bool)) (s : State), s.hold = .run → 0 < s.heat → (s.pdmAt g.val).closed = none →
    Does (.rxBlockClose (.pdm g) c) s (s.pdmBlock g.val (s.heat - 1) 0 c)) ∧
  (∀ (f : Fin 2048) (c : List (List Bool)) (s : State), s.hold = .run → 0 < s.heat → s.bit (Reg.pktRxfState f.val) 0 = true →
    (s.flowAt f.val).closed = none → Does (.rxBlockClose (.flow f) c) s (s.flowClose f.val (s.heat - 1) 0))

/-- A permitted write of TDMn_FRAME with the port disabled and an accepted value is stored; while a direction is enabled, or
with a value R84 does not accept, it only sets CFG_BUSY. Enabling the receiver of a disabled slave-mode port writes the
register and starts the receiver; a reserved rate code, or a master-mode port that R87 does not admit, sets CFG_BUSY and
does nothing else. Disabling the receiver writes the enables and stops it, unless the write carries a reserved rate code. A
port in master mode drives its clocks as R87 says while a direction is enabled. A next mask within CH_MAX is stored and
taken at the next frame sync, at once while its direction is disabled; one with too many channels is refused with
MASK_REFUSED and event 0x08. A frame on an enabled transmitter is sent, and where the clock runs ahead a whole frame of
zeros is sent, counted, with event 0x03. A channel change that waits is applied at the zero crossing, which is a zero sample
or a change of sign, or at the timeout with a 64-sample ramp from the gain and mute before. (Choices of the model it may
rest on: log entries 50, 128, 132, 173.) Completes, with its own effect: tdmFrameWrite, tdmEnable, tdmDisable,
rxMaskNextWrite, txMaskNextWrite, tdmTxFrame, channelZeroCrossing, zcTimeoutExpiry. (R84, R87, R89, R96, R98, R101, R104,
R105) -/
def Obligations.TdmControl : Prop :=
  (∀ (m : Master) (n : Fin 16) (v : Word) (s : State), s.hold = .run → s.may m (Reg.tdmFrame n.val) = true →
    s.getF (Reg.tdmCtrl n.val) 1 0 = 0 → tdmFrameOk v = true →
    Does (.tdmFrameWrite m n v) s (s.rawWrite (Reg.tdmFrame n.val) v)) ∧
  (∀ (m : Master) (n : Fin 16) (v : Word) (s : State), s.hold = .run → s.may m (Reg.tdmFrame n.val) = true →
    (s.getF (Reg.tdmCtrl n.val) 1 0 ≠ 0 ∨ tdmFrameOk v = false) →
    Does (.tdmFrameWrite m n v) s (s.setBit (Reg.tdmStatus n.val) 6 true)) ∧
  (∀ (m : Master) (n : Fin 16) (v : Word) (s : State), s.hold = .run → s.may m (Reg.tdmCtrl n.val) = true →
    s.getF (Reg.tdmCtrl n.val) 1 0 = 0 → fld v 11 8 < 7 → bitAt v 3 = false → bitAt v 0 = true →
    s.bit (Reg.tdmCtrl n.val) 0 = false →
    Does (.tdmEnable m n v) s
      ((((s.rawWrite (Reg.tdmCtrl n.val) v).tdmRxOn n.val).setBit (Reg.tdmStatus n.val) 1 (bitAt v 1)).tdmDrive n.val)) ∧
  (∀ (m : Master) (n : Fin 16) (v : Word) (s : State), s.hold = .run → s.may m (Reg.tdmCtrl n.val) = true →
    s.getF (Reg.tdmCtrl n.val) 1 0 = 0 → fld v 11 8 < 7 → bitAt v 3 = true → fld v 1 0 ≠ 0 →
    tdmMasterOk v (s.reg (Reg.tdmFrame n.val)) = false →
    Does (.tdmEnable m n v) s (s.setBit (Reg.tdmStatus n.val) 6 true)) ∧
  (∀ (m : Master) (n : Fin 16) (v : Word) (s : State), s.hold = .run → s.may m (Reg.tdmCtrl n.val) = true → 7 ≤ fld v 11 8 →
    Does (.tdmEnable m n v) s (s.setBit (Reg.tdmStatus n.val) 6 true)) ∧
  (∀ (m : Master) (n : Fin 16) (v w : Word) (s : State), s.hold = .run → s.may m (Reg.tdmCtrl n.val) = true →
    w = setFld (s.reg (Reg.tdmCtrl n.val)) 1 0 (fld v 1 0) → fld v 11 8 < 7 →
    (v ^^^ s.reg (Reg.tdmCtrl n.val)) &&& 0x01FF0FFC#32 = 0#32 → s.getF (Reg.tdmCtrl n.val) 1 0 ≠ 0 → bitAt w 0 = false →
    s.bit (Reg.tdmCtrl n.val) 0 = true →
    Does (.tdmDisable m n v) s
      ((((s.rawWrite (Reg.tdmCtrl n.val) w).tdmRxOff n.val).setBit (Reg.tdmStatus n.val) 1 (bitAt w 1)).tdmDrive n.val)) ∧
  (∀ (m : Master) (n : Fin 16) (v : Word) (s : State), s.hold = .run → s.may m (Reg.tdmCtrl n.val) = true → 7 ≤ fld v 11 8 →
    Does (.tdmDisable m n v) s (s.setBit (Reg.tdmStatus n.val) 6 true)) ∧
  (∀ (n : Nat) (s : State), s.bit (Reg.tdmCtrl n) 3 = true → s.getF (Reg.tdmCtrl n) 1 0 ≠ 0 →
    Sparse.get {} (s.tdmDrive n).tdmPins n =
      { drive := true, clocks := s.getF (Reg.tdmFrame n) 31 21
        fsActive := if s.bit (Reg.tdmCtrl n) 6 then s.getF (Reg.tdmCtrl n) 24 16 else 1, fsLow := s.bit (Reg.tdmCtrl n) 5 }) ∧
  (∀ (m : Master) (n : Fin 16) (v : Word) (s : State), s.hold = .run → s.may m (Reg.tdmRxMaskNext n.val) = true →
    popCount v ≤ s.getF (Reg.tdmChMax n.val) 5 0 → s.bit (Reg.tdmCtrl n.val) 0 = true →
    Does (.rxMaskNextWrite m n v) s
      ((s.setReg (Reg.tdmRxMaskNext n.val) v).setTdmRx n.val { s.tdmRxAt n.val with maskDue := true })) ∧
  (∀ (m : Master) (n : Fin 16) (v : Word) (s : State), s.hold = .run → s.may m (Reg.tdmRxMaskNext n.val) = true →
    popCount v ≤ s.getF (Reg.tdmChMax n.val) 5 0 → s.bit (Reg.tdmCtrl n.val) 0 = false →
    Does (.rxMaskNextWrite m n v) s ((s.setReg (Reg.tdmRxMaskNext n.val) v).setReg (Reg.tdmRxMask n.val) v)) ∧
  (∀ (m : Master) (n : Fin 16) (v : Word) (s : State), s.hold = .run → s.may m (Reg.tdmRxMaskNext n.val) = true →
    s.getF (Reg.tdmChMax n.val) 5 0 < popCount v →
    Does (.rxMaskNextWrite m n v) s
      ((s.setBit (Reg.tdmStatus n.val) 7 true).serialEvent (160 + n.val) 0x08 0xFF 1)) ∧
  (∀ (m : Master) (n : Fin 16) (v : Word) (s : State), s.hold = .run → s.may m (Reg.tdmTxMaskNext n.val) = true →
    popCount v ≤ s.getF (Reg.tdmChMax n.val) 13 8 → s.bit (Reg.tdmCtrl n.val) 1 = true →
    Does (.txMaskNextWrite m n v) s
      ((s.setReg (Reg.tdmTxMaskNext n.val) v).setTdmTx n.val { s.tdmTxAt n.val with maskDue := true })) ∧
  (∀ (m : Master) (n : Fin 16) (v : Word) (s : State), s.hold = .run → s.may m (Reg.tdmTxMaskNext n.val) = true →
    popCount v ≤ s.getF (Reg.tdmChMax n.val) 13 8 → s.bit (Reg.tdmCtrl n.val) 1 = false →
    Does (.txMaskNextWrite m n v) s ((s.setReg (Reg.tdmTxMaskNext n.val) v).setReg (Reg.tdmTxMask n.val) v)) ∧
  (∀ (n : Fin 16) (k : Fin 48) (ahead : Bool) (s : State), s.hold = .run → s.bit (Reg.tdmCtrl n.val) 1 = true →
    s.inReset (160 + n.val) = false → Does (.tdmTxFrame n k ahead) s (s.tdmSend n.val k.val ahead)) ∧
  (∀ (n k : Nat) (s : State), (s.tdmTxAt n).maskDue = false →
    s.tdmSend n k true =
      ((s.tdmOut n ((List.range (s.getF (Reg.tdmFrame n) 20 16 + 1)).map fun _ => 0#32)).bump
        (Reg.tdmUndCnt n) 32).serialEvent (160 + n) 0x03 0xFF 1) ∧
  (∀ (c : Chan) (w : GainWait) (h : ChanH) (s : State), s.hold = .run → h = (s.chanAt (chanKey c)).ready s.pacer.ns.toNat →
    h.wait = some w → h.cross = true →
    Does (.channelZeroCrossing c) s
      (s.setChan (chanKey c) { h with gain := w.gain, mute := w.mute, wait := none, ramp := none })) ∧
  (∀ (c : Chan) (w : GainWait) (h : ChanH) (s : State), s.hold = .run → h = (s.chanAt (chanKey c)).ready s.pacer.ns.toNat →
    h.wait = some w →
    Does (.zcTimeoutExpiry c) s
      (s.setChan (chanKey c) { h with gain := w.gain, mute := w.mute, wait := none, ramp := some (h.gain, h.mute, 0) })) ∧
  (∀ (h : ChanH) (t : Nat) (x : Word), (∀ w ∈ h.due, t < w.start) →
    (h.arrive t x).last = x ∧ (h.arrive t x).cross = (f32IsZero x || f32Neg x != f32Neg h.last) ∧
    (∀ w, h.wait = some w → (f32IsZero x || f32Neg x != f32Neg h.last) = true →
      (h.arrive t x).gain = w.gain ∧ (h.arrive t x).mute = w.mute ∧ (h.arrive t x).wait = none))

/-- On an enabled AES3 receiver with a block of this heat open, a glitch drops the frame with event 0x01, and a frame of good
parity joins the block, each subframe taken under the validity policy. A channel-status block cut short is counted with
event 0x13; a good one is shown in the six status words, decides what the channel plays and sets the professional and non-
audio bits. With automatic rate detection the nearest nominal rate is shown; one above MAX_RATE loses the stream. A read of
word 0 of a channel status latches words 1 to 5 for its master. Enabling a receiver starts its blocks and channel status
afresh. A transmitter at 48 kHz runs at once; at 32 kHz with no converter free it stays disabled with its error bit set. A
commit of the templates is taken at the next Z preamble, and a running transmitter sends its frame. (Choices of the model it
may rest on: log entries 48, 52, 53, 130, 153, 173.) Completes, with its own effect: aesRxFrame, aesCsBlock, aesRateDetect,
aesRxCsRead, aesRxEnable, aesTxEnable, aesTxCsCommit, aesTxFrame. (R106, R107, R108, R110, R111, R112, R113, R114, R115,
R116, R117) -/
def Obligations.AesPorts : Prop :=
  (∀ (n : Fin 8) (a b : SubFrame) (s : State) (k : OpenBlk), s.hold = .run → s.bit (Reg.aesRxCfg n.val) 0 = true →
    s.inReset (176 + n.val) = false → (s.aesRxAt n.val).blk = some k → k.heat = s.heat →
    Does (.aesRxFrame n a b true) s
      ((s.setAesRx n.val { s.aesRxAt n.val with
          blk := some { k with glitch := k.glitch + 1, overrun := k.overrun + 1, flags := k.flags ||| bfDisc },
          good := 0 }).serialEvent (176 + n.val) 0x01 0xFF 1)) ∧
  (∀ (n : Fin 8) (a b : SubFrame) (s : State) (k : OpenBlk), s.hold = .run → s.bit (Reg.aesRxCfg n.val) 0 = true →
    s.inReset (176 + n.val) = false → (s.aesRxAt n.val).blk = some k → k.heat = s.heat → a.parityOk = true → b.parityOk = true →
    ∃ (u : State) (fr : List Word), Does (.aesRxFrame n a b false) s u ∧
      u.aesRxAt n.val = { s.aesRxAt n.val with
        blk := some { k with
          time := if k.frames.isEmpty then s.pacer.ns else k.time
          frames := k.frames ++ [fr]
          raws := k.raws ++ [[((s.csAt (aesCs n.val 0)).sample (s.getF (Reg.aesRxCfg n.val) 5 4) a).2.1,
            ((s.csAt (aesCs n.val 1)).sample (s.getF (Reg.aesRxCfg n.val) 5 4) b).2.1]]
          invalid := k.invalid + ((if a.invalid then 1 else 0) + (if b.invalid then 1 else 0)) }
        good := (s.aesRxAt n.val).good + 1 }) ∧
  (∀ (n : Fin 8) (c : Fin 2) (bs : List Byte) (s : State), s.hold = .run → s.bit (Reg.aesRxCfg n.val) 0 = true →
    Does (.aesCsBlock n c bs true) s
      ((s.bump (Reg.aesRxCsErr n.val) 32).serialEvent (176 + n.val) 0x13 c.val 1)) ∧
  (∀ (n : Fin 8) (bs : List Byte) (s : State), s.hold = .run → s.bit (Reg.aesRxCfg n.val) 0 = true →
    ((bs.getD 0 0).getLsbD 0 = false ∨ crcc bs = leAt bs 23 1) → ((s.csAt (aesCs n.val 0)).good bs).nonAudio = false →
    ∃ u : State, Does (.aesCsBlock n 0 bs false) s u ∧
      (∀ i, i < 6 → u.reg (Reg.aesRxCsA n.val i) = BitVec.ofNat 32 (leAt bs (4 * i) 4)) ∧
      u.csAt (aesCs n.val 0) = (s.csAt (aesCs n.val 0)).good bs ∧
      u.bit (Reg.aesRxStatus n.val) 4 = (bs.getD 0 0).getLsbD 0 ∧ u.bit (Reg.aesRxStatus n.val) 2 = false ∧
      u = { s with regs := u.regs, cs := u.cs }) ∧
  (∀ (n : Fin 8) (hz : Nat) (s : State), s.hold = .run → s.bit (Reg.aesRxCfg n.val) 0 = true →
    s.bit (Reg.aesRxCfg n.val) 3 = true → aboveMax hz (s.getF (Reg.aesRxCfg n.val) 15 12) = true →
    s.bit (Reg.aesRxStatus n.val) 1 = false →
    Does (.aesRateDetect n hz ()) s ((s.loseStream (.aes n)).streamEvent (.aes n) 0x05 0x38)) ∧
  (∀ (n : Fin 8) (hz : Nat) (s : State), s.hold = .run → s.bit (Reg.aesRxCfg n.val) 0 = true →
    s.bit (Reg.aesRxCfg n.val) 3 = true → aboveMax hz (s.getF (Reg.aesRxCfg n.val) 15 12) = false →
    s.getF (Reg.aesRxStatus n.val) 9 6 = nearestRate hz → s.asrcOf (16 + n.val) = none →
    Does (.aesRateDetect n hz ()) s (s.putF (Reg.aesRxStatus n.val) 9 6 (nearestRate hz))) ∧
  (∀ (hz k : Nat), k < 7 → nearestRate hz < 7 ∧
    (hz - (rate10 (nearestRate hz) * 100 : Int)).natAbs ≤ (hz - (rate10 k * 100 : Int)).natAbs) ∧
  (∀ (m : Master) (n : Fin 8) (c : Fin 2) (s : State), s.hold = .run →
    ∃ u : State, Does (.aesRxCsRead m n c) s u ∧
      u.rdata = s.reg (if c.val = 0 then Reg.aesRxCsA n.val 0 else Reg.aesRxCsB n.val 0) ∧
      (∀ i live, 1 ≤ i → i ≤ 5 →
        u.latched m (if c.val = 0 then Reg.aesRxCsA n.val i else Reg.aesRxCsB n.val i) live =
          s.reg (if c.val = 0 then Reg.aesRxCsA n.val i else Reg.aesRxCsB n.val i)) ∧
      u = { s with latch := u.latch, rdata := u.rdata }) ∧
  (∀ (m : Master) (n : Fin 8) (v : Word) (s : State), s.hold = .run → s.may m (Reg.aesRxCfg n.val) = true →
    bitAt v 0 = true → s.bit (Reg.aesRxCfg n.val) 0 = false → s.asrcOf (16 + n.val) = none →
    ∃ u : State, Does (.aesRxEnable m n v) s u ∧ u.reg (Reg.aesRxCfg n.val) = (s.rawWrite (Reg.aesRxCfg n.val) v).reg (Reg.aesRxCfg n.val) ∧
      (u.aesRxAt n.val).blk = none ∧ (u.aesRxAt n.val).seq = 0 ∧ u.csAt (aesCs n.val 0) = {} ∧ u.csAt (aesCs n.val 1) = {}) ∧
  (∀ (m : Master) (n : Fin 4) (v : Word) (s : State), s.hold = .run → s.may m (Reg.aesTxCfg n.val) = true →
    s.bit (Reg.aesTxCfg n.val) 0 = false → bitAt v 0 = true → fld v 15 12 = 2 →
    Does (.aesTxEnable m n v) s ((s.rawWrite (Reg.aesTxCfg n.val) v).setBit (Reg.aesTxStatus n.val) 0 true)) ∧
  (∀ (m : Master) (n : Fin 4) (v : Word) (s : State), s.hold = .run → s.may m (Reg.aesTxCfg n.val) = true →
    s.bit (Reg.aesTxCfg n.val) 0 = false → bitAt v 0 = true → fld v 15 12 = 0 →
    s.asrcTake (48 + n.val) 2 2 2 0 0 = none →
    Does (.aesTxEnable m n v) s
      ((s.rawWrite (Reg.aesTxCfg n.val) (setBitAt v 0 false)).setBit (Reg.aesTxStatus n.val) 2 true)) ∧
  (∀ (m : Master) (n : Fin 4) (v : Word) (s : State), s.hold = .run → s.may m (Reg.aesTxCsCommit n.val) = true → bitAt v 0 = true →
    Does (.aesTxCsCommit m n v) s
      ((s.setAesTx n.val { s.aesTxAt n.val with csDue := true }).setBit (Reg.aesTxStatus n.val) 1 true)) ∧
  (∀ (n : Fin 4) (k : Fin 192) (s : State), s.hold = .run → s.bit (Reg.aesTxCfg n.val) 0 = true →
    s.bit (Reg.aesTxStatus n.val) 0 = true → s.inReset (184 + n.val) = false →
    Does (.aesTxFrame n k) s (s.aesSend n.val k.val))

/-- Enabling a microphone group restarts its block count, and its eight microphones warm for the blocks of the next 10 ms. An
added microphone warms; the others are as they were. The end of warming and a microphone stuck for 64 heats, with event
0x22, have their effects. Microphone 2d takes its bits from line d at the rising edges, 2d + 1 at the falling ones. A heat
with a constant bit marks a microphone stuck; it is no longer so after 16 moving heats in a row. (Choices of the model it
may rest on: log entries 46, 130, 133.) Completes, with its own effect: pdmGroupEnable, pdmMicEnWrite, pdmWarmingEnd,
pdmMicStuckLong. (R119, R124, R125) -/
def Obligations.PdmGroups : Prop :=
  (∀ (m : Master) (g : Fin 4) (v : Word) (s : State), s.hold = .run → s.may m (Reg.pdmGrpCfg g.val) = true →
    bitAt v 0 = true → s.bit (Reg.pdmGrpCfg g.val) 0 = false →
    ∃ u : State, Does (.pdmGroupEnable m g v) s (u.mapStream (.pdm g) (SrcH.regain (s.heat + 1))) ∧
      u.pdmAt g.val = { s.pdmAt g.val with seq := 0, warm := s.warmBlocks } ∧
      (∀ i, i < 8 → u.micAt (g.val * 8 + i) = { s.micAt (g.val * 8 + i) with warm := s.warmBlocks, bits := [] })) ∧
  (∀ (m : Master) (g : Fin 4) (v : Word) (s : State), s.hold = .run → s.may m (Reg.pdmGrpMicEn g.val) = true →
    ∃ u : State, Does (.pdmMicEnWrite m g v) s u ∧
      u.regs = (s.rawWrite (Reg.pdmGrpMicEn g.val) v).regs ∧
      (∀ i, i < 8 → bitAt v i = true → s.bit (Reg.pdmGrpMicEn g.val) i = false →
        u.micAt (g.val * 8 + i) = { s.micAt (g.val * 8 + i) with warm := s.warmBlocks, stuckRun := 0, bits := [] }) ∧
      (∀ i, i < 8 → (bitAt v i = false ∨ s.bit (Reg.pdmGrpMicEn g.val) i = true) →
        u.micAt (g.val * 8 + i) = s.micAt (g.val * 8 + i))) ∧
  (∀ (k : Fin 32) (s u : State), s.hold = .run → u = s.setMic k.val { s.micAt k.val with warm := 0 } →
    ((List.range 8).all fun i => (u.micAt (k.val / 8 * 8 + i)).warm == 0) = false → Does (.pdmWarmingEnd k) s u) ∧
  (∀ (k : Fin 32) (s u : State), s.hold = .run → u = s.setMic k.val { s.micAt k.val with warm := 0 } →
    ((List.range 8).all fun i => (u.micAt (k.val / 8 * 8 + i)).warm == 0) = true →
    Does (.pdmWarmingEnd k) s (u.setPdm (k.val / 8) { u.pdmAt (k.val / 8) with warm := 0 })) ∧
  (∀ (k : Fin 32) (s : State), s.hold = .run → 64 ≤ (s.micAt k.val).stuckHeats →
    Does (.pdmMicStuckLong k) s (s.serialEvent (188 + k.val / 8) 0x22 k.val 1)) ∧
  (∀ s : State, s.warmBlocks = if s.pacer.ns.toNat % 1000000 = 0 then 10 else 11) ∧
  (∀ (lines : List (List Bool)) (m d : Nat), d < 16 → micBits lines (2 * d) =
      ((lines.getD d []).zipIdx.filter fun p => p.2 % 2 == 0).map (·.1) ∧
    (m < 32 → m % 2 = 1 → micBits lines m = ((lines.getD (m / 2) []).zipIdx.filter fun p => p.2 % 2 == 1).map (·.1))) ∧
  (∀ h : MicH, (h.heat true).stuck = true ∧ (h.heat true).stuckRun = h.stuckRun + 1 ∧
    (h.heat true).stuckHeats = h.stuckHeats + 1) ∧
  (∀ h : MicH, h.okRun + 1 < 16 → (h.heat false).stuck = h.stuck) ∧
  (∀ h : MicH, 16 ≤ h.okRun + 1 → (h.heat false).stuck = false)

/-- On an enabled port with its link up a frame with a bad FCS is counted and dropped, one longer than 1,518 bytes is dropped,
and a broadcast frame of another EtherType goes to the host ring with reason 3. A packet of a flow whose payload type
differs is counted as an error and ends the run of usable packets of its leg. The last leg of a single-leg flow going down
loses its stream, with its event. A link going down clears the status with event 0x31, one coming up without autonegotiation
takes the configured speed and correction with event 0x32. A good host frame is padded, given its FCS, sent, counted and
completed. A read of word 0 of a channel of the window latches words 1 to 5 of that channel for its master, and no word of
the other. A packet sent on a transmit flow advances its sequence number by one; the identification of its IPv4 header is a
free value. (Choices of the model it may rest on: log entries 59, 60, 61, 64, 75, 134, 135, 151.) Completes, with its own
effect: pktRxFrame, legDown, pktLinkDown, pktLinkUp, pktHostFrameSend, pktCsRead, flowPacketSend. (R132, R137, R143, R71,
R130, R147, R138, R150, R161) -/
def Obligations.PacketPorts : Prop :=
  (∀ (p : Fin 2) (bs : List Byte) (s : State), s.hold = .run → s.inReset (192 + p.val) = false →
    s.bit (Reg.pktPCtrl p.val) 0 = true → s.bit (Reg.pktPStatus p.val) 0 = true →
    Does (.pktRxFrame p false bs) s (s.bump (Reg.pktPFcsErr p.val) 32)) ∧
  (∀ (p : Fin 2) (bs : List Byte) (s : State), s.hold = .run → s.inReset (192 + p.val) = false →
    s.bit (Reg.pktPCtrl p.val) 0 = true → s.bit (Reg.pktPStatus p.val) 0 = true → 1518 < bs.length →
    Does (.pktRxFrame p true bs) s (s.bump (Reg.pktPRxDrop p.val) 32)) ∧
  (∀ (p : Fin 2) (bs : List Byte) (s : State), s.hold = .run → s.inReset (192 + p.val) = false →
    s.bit (Reg.pktPCtrl p.val) 0 = true → s.bit (Reg.pktPStatus p.val) 0 = true → bs.length ≤ 1518 →
    beAt bs 12 2 ≠ 0x8100 → beAt bs 12 2 ≠ 0x0800 → bs.take 6 = List.replicate 6 0xFF#8 →
    Does (.pktRxFrame p true bs) s (s.frameToRing p.val 3 false bs)) ∧
  (∀ (f : Nat) (p : Nat) (udp : List Byte) (ts pt ssrc : Nat) (pay : List Byte) (s : State),
    rtpOf udp = some (ts, pt, ssrc, pay) → pt ≠ leAt (s.flowAt f).entry 32 1 →
    s.flowPacket f p udp = ((s.bump (Reg.pktPFlowPkts p) 32).legBad f p).bump (Reg.pktRxfErrCnt f) 32) ∧
  (∀ (f : Fin 2048) (p : Fin 2) (s : State), s.hold = .run → s.bit (Reg.pktRxfState f.val) 0 = true →
    rxLeg (s.flowAt f.val).entry p.val = true → rxTwoLegs (s.flowAt f.val).entry = false → s.streamLost (.flow f) = false →
    (s.flowAt f.val).leg0.up = false → (s.flowAt f.val).leg1.up = false →
    ∃ u : State, u.flowAt f.val = (if p.val = 0 then { s.flowAt f.val with leg0 := {} } else { s.flowAt f.val with leg1 := {} }) ∧
      u.bit (Reg.pktRxfState f.val) (3 + p.val) = false ∧
      Does (.legDown f p) s ((u.loseStream (.flow f)).streamEvent (.flow f) 0x06 0x35)) ∧
  (∀ (p : Fin 2) (s : State), s.hold = .run → s.bit (Reg.pktPStatus p.val) 0 = true →
    s.flows = [] → Does (.pktLinkDown p) s
      (((s.setReg (Reg.pktPStatus p.val) 0).packetEvent p.val 0x31 0xFFF).showSending)) ∧
  (∀ (p : Fin 2) (fast : Bool) (fec : Fin 3) (s : State), s.hold = .run → s.bit (Reg.pktPCtrl p.val) 0 = true →
    s.bit (Reg.pktPCtrl p.val) 4 = false → s.bit (Reg.pktPCtrl p.val) 2 = true →
    Does (.pktLinkUp p fast fec) s
      (((s.setReg (Reg.pktPStatus p.val) (BitVec.ofNat 32 (s.getF (Reg.pktPCtrl p.val) 9 8 * 64 + 33))).packetEvent
        p.val 0x32 0xFFF).showSending)) ∧
  (∀ (p : Fin 2) (en : List Byte) (s u : State) (r : Nat), s.hold = .run → s.inReset (192 + p.val) = false →
    r = s.getF (Reg.pktPRings p.val) 30 16 → s.bit (Reg.pktPRings p.val) 31 = true → s.bit (Reg.pktPCtrl p.val) 0 = true →
    s.bit (Reg.pktPCtrl p.val) 1 = true → s.ringEn r = true → s.ringErr r = false → s.ringType r = 8 → s.ringOcc r ≠ 0 →
    s.stalls r = false → u = (s.fetchOne r).setBit (Reg.ringStatus r) 2 false → 14 ≤ leAt en 0 2 → leAt en 0 2 ≤ 1518 →
    leAt en 2 1 = 0 → firstNonzero en 3 5 = none → firstNonzero en 16 48 = none → u.bit (Reg.pktPStatus p.val) 0 = true →
    Does (.pktHostFrameSend p en) s
      ((State.bump { u with frameTx := Sparse.set [] u.frameTx p.val (withFcs ((en.drop 64).take (leAt en 0 2))) }
          (Reg.pktPTxFrames p.val) 32).completeAt (.ring (Fin.ofNat 32768 r) (s.reg (Reg.ringCons r)))
        { status := stOk, tag := BitVec.ofNat 64 (leAt en 8 8), time := u.heat })) ∧
  (∀ (m : Master) (c : Fin 2) (s : State), s.hold = .run →
    ∃ u : State, Does (.pktCsRead ⟨m, c⟩) s u ∧ u.rdata = s.reg (if c.val = 0 then Reg.pktCsA 0 else Reg.pktCsB 0) ∧
      (∀ i live, 1 ≤ i → i ≤ 5 → u.latched m (if c.val = 0 then Reg.pktCsA i else Reg.pktCsB i) live =
        s.reg (if c.val = 0 then Reg.pktCsA i else Reg.pktCsB i)) ∧
      (∀ i live, i ≤ 5 → u.latched m (if c.val = 0 then Reg.pktCsB i else Reg.pktCsA i) live =
        s.latched m (if c.val = 0 then Reg.pktCsB i else Reg.pktCsA i) live) ∧
      u = { s with latch := u.latch, rdata := u.rdata }) ∧
  (∀ (f : Fin 512) (s : State), s.hold = .run → s.bit (Reg.pktTxfState f.val) 0 = true →
    ∃ u : State, Does (.flowPacketSend f) s (u.setTxFlow f.val { u.txFlowAt f.val with seq := (s.txFlowAt f.val).seq + 1 }) ∧
      u.freeCtr = s.freeCtr + 1)

/-- With no input in the electorate nothing plays (event 0x45), with one that input plays (0x44). Of three, inputs that agree
outvote the one that does not: the primary plays if it is among those that agree, else the lowest of them; all equal plays
the primary. With no two equal the primary plays with event 0x43. (Choices of the model it may rest on: log entries 65,
154.) (R157) -/
def Obligations.VoterBallot : Prop :=
  (∀ p : Nat, ballot p [] = { event := 0x45 }) ∧
  (∀ (p i : Nat) (x : List Word), ballot p [(i, x)] = { out := some i, event := 0x44 }) ∧
  (∀ (p : Nat) (x y z : List Word), x = y → y = z → p ≤ 2 →
    ballot p [(0, x), (1, y), (2, z)] = { out := some p, agree := [0, 1, 2] }) ∧
  (∀ (x y z : List Word), x = y → y ≠ z →
    ballot 2 [(0, x), (1, y), (2, z)] = { out := some 0, agree := [0, 1] }) ∧
  (∀ (x y z : List Word), x = y → y ≠ z →
    ballot 1 [(0, x), (1, y), (2, z)] = { out := some 1, agree := [0, 1] }) ∧
  (∀ (p : Nat) (x y z : List Word), x ≠ y → y = z → x ≠ z → p = 0 →
    ballot p [(0, x), (1, y), (2, z)] = { out := some 1, agree := [1, 2] }) ∧
  (∀ (p : Nat) (x y z : List Word), x ≠ y → y ≠ z → x ≠ z → p ≤ 2 →
    ballot p [(0, x), (1, y), (2, z)] = { out := some p, event := 0x43 }) ∧
  (∀ (i j : Nat) (x y : List Word), i ≠ j → x ≠ y →
    ballot i [(i, x), (j, y)] = { out := some i, event := 0x43 })

/-- CH_GAIN gives its channel a gain and mute that wait for a crossing from its commit time on; SRC_BIND binds a free entry to a
live TDM slot, and completes bad where the entry is bound already; SRC_FALLBACK sets the fallback of an entry back on its
own input; STREAM_SET gives an AES3 receiver its converter, or is short of resources where the history does not fit;
FLOW_RX_SET drops a flow, or brings a fetched and checked entry into force; the end of its fetch records the data, or
completes it FAULTED; FLOW_TX_SET drops or sets a transmit flow; VSRC_SET drops a voted source, and refuses one with fewer
than two bound inputs. (Choices of the model it may rest on: log entries 49, 58, 62, 132, 154.) Completes, with its own
effect: chGain, srcBind, srcFallback, streamSet, flowRxSet, flowEntryFetched, flowTxSet, vsrcSet. (R466, R467, R468, R469,
R136, R149, R154, R75, R72) -/
def Obligations.SourceDescriptors : Prop :=
  (∀ (o : Origin) (d : Body) (s t : State) (e : Sched), s.Due chGainRow 0x0603 o d e → t = s.unschedule e.id →
    Does (.chGain .commit o d) s ((t.setChan (chanOf (d.byte 0) (d.byte 1) (d.byte 2))
      (ChanH.ready { t.chanAt (chanOf (d.byte 0) (d.byte 1) (d.byte 2)) with
        due := (t.chanAt (chanOf (d.byte 0) (d.byte 1) (d.byte 2))).due ++ [{
          gain := d.pls 4, mute := d.byte 3 == 1, start := e.heat * 1000000 + ceilDiv (e.sample * 1000000) 48 }] }
        t.pacer.ns.toNat)).complete e stOk)) ∧
  (∀ (h : ChanH) (w : GainWait) (t : Nat), h.due = [w] → t < w.start → h.ready t = h) ∧
  (∀ (h : ChanH) (w : GainWait) (t : Nat), h.due = [w] → w.start ≤ t → h.wait = none →
    h.ready t = { h with due := [], wait := some w }) ∧
  (∀ (o : Origin) (d : Body) (s t : State) (e : Sched), s.Due srcBindRow 0x0600 o d e → t = s.unschedule e.id →
    d.byte 2 = 1 → (t.srcAt (d.pl 0 2)).bind = .none → t.inputLive (.tdm (d.byte 3) (d.byte 4)) = true →
    Does (.srcBind .commit o d) s ((t.setSrc (d.pl 0 2) { t.srcAt (d.pl 0 2) with
      bind := .tdm (d.byte 3) (d.byte 4), fallback := fallbackOf (d.pl 6 2), lost := false, fb := .off, own := .on,
      fadeIn := 64 }).complete e stOk)) ∧
  (∀ (o : Origin) (d : Body) (s t : State) (e : Sched), s.Due srcBindRow 0x0600 o d e → t = s.unschedule e.id →
    d.byte 2 = 1 → (t.srcAt (d.pl 0 2)).bind ≠ .none → Does (.srcBind .commit o d) s (t.complete e stBad 24)) ∧
  (∀ (o : Origin) (d : Body) (s t : State) (e : Sched), s.Due srcFallbackRow 0x0601 o d e → t = s.unschedule e.id →
    (t.srcAt (d.pl 0 2)).goHome.lost = false →
    Does (.srcFallback .commit o d) s ((t.setSrc (d.pl 0 2)
      { (t.srcAt (d.pl 0 2)).goHome with fallback := fallbackOf (d.pl 2 2) }).complete e stOk)) ∧
  (∀ (o : Origin) (d : Body) (s t : State) (e : Sched), s.Due streamSetRow 0x0602 o d e → t = s.unschedule e.id →
    d.byte 0 = 2 → d.pl 4 2 < historyNeed (d.byte 2) (t.getF (Reg.aesRxCfg (d.byte 1)) 15 12) →
    Does (.streamSet .commit o d) s (t.complete e stShort)) ∧
  (∀ (o : Origin) (d : Body) (s t u : State) (e : Sched), s.Due streamSetRow 0x0602 o d e → t = s.unschedule e.id →
    d.byte 0 = 2 → d.byte 1 < 8 → historyNeed (d.byte 2) (t.getF (Reg.aesRxCfg (d.byte 1)) 15 12) ≤ d.pl 4 2 →
    t.asrcTake (16 + d.byte 1) 2 2 (d.byte 2) (t.aesRate (d.byte 1)) (d.pl 4 2) = some u →
    t.wupPath = false → t.bit (Reg.aesRxCfg (d.byte 1)) 0 = false →
    Does (.streamSet .commit o d) s ((u.setAesRx (d.byte 1)
      { u.aesRxAt (d.byte 1) with conv := some (d.byte 2, d.pl 4 2) }).complete e stOk)) ∧
  (∀ (o : Origin) (d : Body) (s t : State) (e : Sched), s.Due flowRxSetRow 0x0610 o d e → t = s.unschedule e.id →
    d.byte 2 = 0 → Does (.flowRxSet .commit o d) s (((t.dropFlow (d.pl 0 2)).showFlows).complete e stOk)) ∧
  (∀ (o : Origin) (d : Body) (s t u : State) (e : Sched) (en : List Byte), s.Due flowRxSetRow 0x0610 o d e →
    t = s.unschedule e.id → d.byte 2 = 1 → t.flowFetch.contains e.id = false → fetchedEntry e = some en →
    t.rxEntryBad (d.pl 0 2) en = false → t.rxResources (d.pl 0 2) en = some u →
    Does (.flowRxSet .commit o d) s (((u.setFlowEntry (d.pl 0 2) en).showFlows).complete e stOk)) ∧
  (∀ (o : Origin) (s : State) (e : Sched) (bs : List Byte), s.hold = .run →
    s.sched.find? (fun e => decide (e.org = o) && s.flowFetch.contains e.id) = some e →
    fetchedEntry { e with fetched := .data bs } ≠ none → decide (e.org = o) = true → s.flowFetch.contains e.id = true →
    Does (.flowEntryFetched o (.data bs)) s
      { s with
        flowFetch := s.flowFetch.filter (· != e.id)
        sched := s.sched.map fun x => if (decide (x.org = o) && s.flowFetch.contains x.id) = true then
          { x with fetched := .data bs } else x }) ∧
  (∀ (o : Origin) (s : State) (e : Sched), s.hold = .run →
    s.sched.find? (fun e => decide (e.org = o) && s.flowFetch.contains e.id) = some e →
    Does (.flowEntryFetched o .error) s
      ((State.unschedule { s with flowFetch := s.flowFetch.filter (· != e.id) } e.id).completeWith e s.heat stFaulted 0)) ∧
  (∀ (o : Origin) (d : Body) (s t : State) (e : Sched), s.Due flowTxSetRow 0x0611 o d e → t = s.unschedule e.id →
    d.byte 2 = 0 → Does (.flowTxSet .commit o d) s
      ((((t.setTxFlow (d.pl 0 2) {}).setReg (Reg.pktTxfState (d.pl 0 2)) 0).showFlows).complete e stOk)) ∧
  (∀ (o : Origin) (d : Body) (s t : State) (e : Sched), s.Due flowTxSetRow 0x0611 o d e → t = s.unschedule e.id →
    d.byte 2 = 1 → t.txPortsOk (d.pl 0 2) (txEntry d) = true → t.bit (Reg.pktTxfState (d.pl 0 2)) 0 = false →
    Does (.flowTxSet .commit o d) s ((((t.setTxFlow (d.pl 0 2) { t.txFlowAt (d.pl 0 2) with entry := txEntry d, seq := 0 }).setReg
      (Reg.pktTxfState (d.pl 0 2)) 3#32).showFlows.showSending).complete e stOk)) ∧
  (∀ (o : Origin) (d : Body) (s t : State) (e : Sched), s.Due vsrcSetRow 0x0612 o d e → t = s.unschedule e.id →
    vsEn (vsEntry d) = false → Does (.vsrcSet .commit o d) s ((t.dropVsrc (d.byte 0)).complete e stOk)) ∧
  (∀ (o : Origin) (d : Body) (s t : State) (e : Sched), s.Due vsrcSetRow 0x0612 o d e → t = s.unschedule e.id →
    vsEn (vsEntry d) = true → (vsBound (vsEntry d)).length < 2 → Does (.vsrcSet .commit o d) s (t.complete e stBad 34))

/-- When an F slot of an LP in a heat issues one of its nineteen operations, the bundle waits for the sources, FNOP only marks
its slot, and every other operation puts the value of the table, computed from the source registers, under way to FD with
the latency of the table. Nothing but the LP and the count of free values changes before the command is closed. (Choices of
the model it may rest on: log entries 76, 79.) Completes, with its own effect: fnop, fadd, fsub, fmul, fma, fms, fmin, fmax,
fabs, fneg, fsel, fclamp, frcp, frsq, flog2, fexp2, fcvti, fcvtf, fli. (R232, R230, R231) -/
def Obligations.LpFloatSlots : Prop :=
  ∀ (n : Fin 16) (f1 : Bool) (s : State) (w : Word) (h : LpH),
  (s.hold = .run → s.canIssue n.val (fSlot f1) 0x00 = true →
    Does (.fnop n f1) s (s.setLp n.val ((s.lpAt n.val).mark (fSlot f1)))) ∧
  (s.FIssues n.val f1 0x01 srcs2 w h → Does (.fadd n f1) s (s.fResult n.val f1 w h 4 (addVal s.freeVal (h.reg (fFA w)) (h.reg (fFB w))))) ∧
  (s.FIssues n.val f1 0x02 srcs2 w h → Does (.fsub n f1) s (s.fResult n.val f1 w h 4 (subVal s.freeVal (h.reg (fFA w)) (h.reg (fFB w))))) ∧
  (s.FIssues n.val f1 0x03 srcs2 w h → Does (.fmul n f1) s (s.fResult n.val f1 w h 4 (mulVal s.freeVal (h.reg (fFA w)) (h.reg (fFB w))))) ∧
  (s.FIssues n.val f1 0x04 srcs3 w h → Does (.fma n f1) s (s.fResult n.val f1 w h 4 (fmaVal s.freeVal false (h.reg (fFA w)) (h.reg (fFB w)) (h.reg (fFC w))))) ∧
  (s.FIssues n.val f1 0x05 srcs3 w h → Does (.fms n f1) s (s.fResult n.val f1 w h 4 (fmaVal s.freeVal true (h.reg (fFA w)) (h.reg (fFB w)) (h.reg (fFC w))))) ∧
  (s.FIssues n.val f1 0x06 srcs2 w h → Does (.fmin n f1) s (s.fResult n.val f1 w h 1 (minVal s.freeVal (h.reg (fFA w)) (h.reg (fFB w))))) ∧
  (s.FIssues n.val f1 0x07 srcs2 w h → Does (.fmax n f1) s (s.fResult n.val f1 w h 1 (maxVal s.freeVal (h.reg (fFA w)) (h.reg (fFB w))))) ∧
  (s.FIssues n.val f1 0x08 srcs1 w h → Does (.fabs n f1) s (s.fResult n.val f1 w h 1 (absVal s.freeVal (h.reg (fFA w))))) ∧
  (s.FIssues n.val f1 0x09 srcs1 w h → Does (.fneg n f1) s (s.fResult n.val f1 w h 1 (negVal s.freeVal (h.reg (fFA w))))) ∧
  (s.FIssues n.val f1 0x0A srcs3 w h → Does (.fsel n f1) s (s.fResult n.val f1 w h 1 (selVal s.freeVal (h.reg (fFA w)) (h.reg (fFB w)) (h.reg (fFC w))))) ∧
  (s.FIssues n.val f1 0x0B srcs2 w h → Does (.fclamp n f1) s (s.fResult n.val f1 w h 1 (clampVal s.freeVal (h.reg (fFA w)) (h.reg (fFB w))))) ∧
  (s.FIssues n.val f1 0x0C srcs1 w h → Does (.frcp n f1) s (s.fResult n.val f1 w h 6 (rcpVal s.freeVal (h.reg (fFA w))))) ∧
  (s.FIssues n.val f1 0x0D srcs1 w h → Does (.frsq n f1) s (s.fResult n.val f1 w h 6 (rsqVal s.freeVal (h.reg (fFA w))))) ∧
  (s.FIssues n.val f1 0x0E srcs1 w h → Does (.flog2 n f1) s (s.fResult n.val f1 w h 8 (log2Val s.freeVal (h.reg (fFA w))))) ∧
  (s.FIssues n.val f1 0x0F srcs1 w h → Does (.fexp2 n f1) s (s.fResult n.val f1 w h 8 (exp2Val s.freeVal (h.reg (fFA w))))) ∧
  (s.FIssues n.val f1 0x10 srcs1 w h → Does (.fcvti n f1) s (s.fResult n.val f1 w h 2 (cvtiVal (h.reg (fFA w))))) ∧
  (s.FIssues n.val f1 0x11 srcs1 w h → Does (.fcvtf n f1) s (s.fResult n.val f1 w h 2 (cvtfVal (h.reg (fFA w))))) ∧
  (s.FIssues n.val f1 0x12 noSrcs w h → Does (.fli n f1) s (s.fResult n.val f1 w h 1 (BitVec.ofNat 32 (fld w 19 4 * 65536))))

/-- On finite operands a sum, a product and a fused product and sum are the exact result of the flushed operands, rounded once
to nearest even and flushed, where that result is not zero. A NaN operand of a sum, a product, a fused operation, FABS,
FNEG, FRCP, FRSQ, FLOG2 or FEXP2 gives a NaN, and FCVTF gives 0 for it. FMIN and FMAX give the other operand for a NaN, else
the smaller and the larger. FSEL takes FA for FC of plus or minus zero, and FB for a negative FC. FCVTF saturates. A
subnormal is flushed to a zero of its sign. (Choices of the model it may rest on: log entry 76.) (R232) -/
def Obligations.LpFloatValues : Prop :=
  (∀ fr a b : Word, f32Finite a = true → f32Finite b = true → f32ToRat (flush a) + f32ToRat (flush b) ≠ 0 →
    addVal fr a b = flush (f32OfRat (f32ToRat (flush a) + f32ToRat (flush b)))) ∧
  (∀ fr a b : Word, f32Finite a = true → f32Finite b = true → f32ToRat (flush a) * f32ToRat (flush b) ≠ 0 →
    mulVal fr a b = flush (f32OfRat (f32ToRat (flush a) * f32ToRat (flush b)))) ∧
  (∀ fr a b c : Word, f32Finite a = true → f32Finite b = true → f32Finite c = true →
    f32ToRat (flush a) * f32ToRat (flush b) + f32ToRat (flush c) ≠ 0 →
    fmaVal fr false a b c = flush (f32OfRat (f32ToRat (flush a) * f32ToRat (flush b) + f32ToRat (flush c)))) ∧
  (∀ fr a b c : Word, f32Finite a = true → f32Finite b = true → f32Finite c = true →
    f32ToRat (flush c) - f32ToRat (flush a) * f32ToRat (flush b) ≠ 0 →
    fmaVal fr true a b c = flush (f32OfRat (f32ToRat (flush c) - f32ToRat (flush a) * f32ToRat (flush b)))) ∧
  (∀ fr a b c : Word, f32IsNan a = true ∨ f32IsNan b = true → f32IsNan (addVal fr a b) = true ∧
    f32IsNan (subVal fr a b) = true ∧ f32IsNan (mulVal fr a b) = true ∧ f32IsNan (fmaVal fr false a b c) = true ∧
    f32IsNan (fmaVal fr true a b c) = true) ∧
  (∀ fr a : Word, f32IsNan a = true → f32IsNan (absVal fr a) = true ∧ f32IsNan (negVal fr a) = true ∧
    f32IsNan (rcpVal fr a) = true ∧ f32IsNan (rsqVal fr a) = true ∧ f32IsNan (log2Val fr a) = true ∧
    f32IsNan (exp2Val fr a) = true ∧ cvtfVal a = 0#32) ∧
  (∀ fr a b : Word, f32IsNan a = true → f32IsNan b = false →
    minVal fr a b = flush b ∧ minVal fr b a = flush b ∧ maxVal fr a b = flush b ∧ maxVal fr b a = flush b) ∧
  (∀ fr a b : Word, f32IsNan a = false → f32IsNan b = false → f32Key (flush a) < f32Key (flush b) →
    minVal fr a b = flush a ∧ minVal fr b a = flush a ∧ maxVal fr a b = flush b ∧ maxVal fr b a = flush b) ∧
  (∀ fr a b : Word, f32IsNan a = false → selVal fr a b 0x80000000#32 = flush a ∧ selVal fr a b 0#32 = flush a) ∧
  (∀ fr a b c : Word, f32IsNan b = false → f32IsNan c = false → f32Neg c = true → f32IsZero (flush c) = false →
    selVal fr a b c = flush b) ∧
  (∀ a : Word, f32Finite a = true → 2147483647 ≤ f32ToRat (flush a) → cvtfVal a = 0x7FFFFFFF#32) ∧
  (∀ a : Word, f32Finite a = true → f32ToRat (flush a) ≤ -2147483648 → cvtfVal a = 0x80000000#32) ∧
  (∀ w : Word, f32Exp w = 0 → flush w = (if f32Neg w then 0x80000000#32 else 0#32)) ∧
  (∀ w : Word, f32Exp w ≠ 0 → flush w = w)

/-- A bundle that waits for a register goes on only when no earlier bundle has a result under way to it, and then finds that
result, in the cycle it is due; with nothing under way it waits for nothing. a0 reads zero and discards what is written to
it, any other register holds what is written, and no other changes. Of two results for one register due in one cycle, the
later slot in the order F0, F1, M, C wins, whichever issued first. A taken branch costs three cycles, a bundle without one
costs one, the end of a hardware loop costs none more and goes back to the first bundle of the body until the runs are used
up. (Choices of the model it may rest on: log entry 79.) (R225, R230, R231, R235) -/
def Obligations.LpIssueTiming : Prop :=
  (∀ (h : LpH) (r : Nat), (∀ x ∈ h.wb, h.cyc < x.due) → ∀ x ∈ (h.wait r).wb, x.cur = true ∨ x.reg ≠ r) ∧
  (∀ (h : LpH) (x : WriteBack), h.wb = [x] → x.cur = false → h.cyc < x.due → x.reg ≠ 64 →
    (h.wait x.reg).reg x.reg = x.val ∧ (h.wait x.reg).cyc = x.due ∧ (h.wait x.reg).wb = []) ∧
  (∀ (h : LpH) (r : Nat), h.wb = [] → h.wait r = h) ∧
  (∀ (h : LpH) (v : Word), h.putReg 64 v = h ∧ h.reg 64 = 0#32) ∧
  (∀ (h : LpH) (r : Nat) (v : Word), r ≠ 64 → (h.putReg r v).reg r = v) ∧
  (∀ (h : LpH) (r r' : Nat) (v : Word), r' ≠ r → (h.putReg r v).reg r' = h.reg r') ∧
  (∀ (h : LpH) (i j r l : Nat) (v v' : Word), h.wb = [] → i < j → r ≠ 64 →
    ({ (h.result i r l v).result j r l v' with cyc := h.cyc + l }).retire.reg r = v' ∧
    ({ (h.result j r l v').result i r l v with cyc := h.cyc + l }).retire.reg r = v') ∧
  (∀ (h : LpH) (t : Nat), (h.endBundle (some t) 0).cyc = h.cyc + 3 ∧ (h.endBundle (some t) 0).pc = t) ∧
  (∀ h : LpH, h.loops = [] → (h.endBundle none 0).cyc = h.cyc + 1 ∧ (h.endBundle none 0).pc = h.pc + 1) ∧
  (∀ (h : LpH) (l : HwLoop) (ls : List HwLoop), h.loops = l :: ls → l.last = h.pc → 1 < l.left →
    (h.endBundle none 0).cyc = h.cyc + 1 ∧ (h.endBundle none 0).pc = l.first ∧
    (h.endBundle none 0).loops = { l with left := l.left - 1 } :: ls) ∧
  (∀ (h : LpH) (l : HwLoop), h.loops = [l] → l.last = h.pc → l.left ≤ 1 →
    (h.endBundle none 0).pc = h.pc + 1 ∧ (h.endBundle none 0).loops = [])

/-- When the M slot of an LP in a heat issues, a load puts the addressed word of DMEM under way with latency 3, a store writes
it at once, the post-increment forms also put AB plus IMM words under way, VLD and VST start a transfer of IMM times 64
bytes, and DLYX puts 48 samples into the delay line of its lane and returns the 48 delayed ones at A + 192, holding the slot
for 110 cycles. A VLD that completes writes DMEM from the bank of the LP, a VST the bank from DMEM. An access that is not
aligned or leaves DMEM, and a transfer that leaves the bank, are program faults of causes 3, 2 and 7. (Choices of the model
it may rest on: log entry 78.) Completes, with its own effect: mnop, ldf, stf, ldfp, stfp, lda, sta, vld, vst,
vatTransferDone, dlyx. (R233, R234, R226, R246, R261) -/
def Obligations.LpMemorySlot : Prop :=
  (∀ (n : Fin 16) (s : State), s.hold = .run → s.canIssue n.val 2 0x00 = true →
    Does (.mnop n) s (s.setLp n.val ((s.lpAt n.val).mark 2))) ∧
  (∀ (n : Fin 16) (s : State) (w : Word) (h : LpH) (a : Nat), s.MIssues n.val 0x01 (fun w => [mAB w]) w h → a = addrOf (h.reg (mAB w)) (mImm w) → h.Free a 4 →
    Does (.ldf n) s (s.setLp n.val ((h.result 2 (mF w) 3 (h.word a)).mark 2))) ∧
  (∀ (n : Fin 16) (s : State) (w : Word) (h : LpH) (a : Nat), s.MIssues n.val 0x02 (fun w => [mAB w, mF w]) w h → a = addrOf (h.reg (mAB w)) (mImm w) → h.Free a 4 →
    Does (.stf n) s (s.setLp n.val ((h.putWord a (h.reg (mF w))).mark 2))) ∧
  (∀ (n : Fin 16) (s : State) (w : Word) (h : LpH) (a : Nat), s.MIssues n.val 0x03 (fun w => [mAB w]) w h → a = (h.reg (mAB w)).toNat → h.Free a 4 →
    Does (.ldfp n) s (s.setLp n.val (((h.result 2 (mF w) 3 (h.word a)).result 2 (mAB w) 1 (BitVec.ofNat 32 (addrOf (h.reg (mAB w)) (mImm w)))).mark 2))) ∧
  (∀ (n : Fin 16) (s : State) (w : Word) (h : LpH) (a : Nat), s.MIssues n.val 0x04 (fun w => [mAB w, mF w]) w h → a = (h.reg (mAB w)).toNat → h.Free a 4 →
    Does (.stfp n) s (s.setLp n.val (((h.putWord a (h.reg (mF w))).result 2 (mAB w) 1 (BitVec.ofNat 32 (addrOf (h.reg (mAB w)) (mImm w)))).mark 2))) ∧
  (∀ (n : Fin 16) (s : State) (w : Word) (h : LpH) (a : Nat), s.MIssues n.val 0x05 (fun w => [mAB w]) w h → a = addrOf (h.reg (mAB w)) (mImm w) → h.Free a 4 →
    Does (.lda n) s (s.setLp n.val ((h.result 2 (mA w) 3 (h.word a)).mark 2))) ∧
  (∀ (n : Fin 16) (s : State) (w : Word) (h : LpH) (a : Nat), s.MIssues n.val 0x06 (fun w => [mAB w, mA w]) w h → a = addrOf (h.reg (mAB w)) (mImm w) → h.Free a 4 →
    Does (.sta n) s (s.setLp n.val ((h.putWord a (h.reg (mA w))).mark 2))) ∧
  (∀ (n : Fin 16) (s : State) (w : Word) (h : LpH), s.MIssues n.val 0x07 (fun w => [mA w, mAB w]) w h → 1 ≤ mImmU w → mImmU w ≤ 4096 →
    (h.reg (mA w)).toNat % 64 = 0 → (h.reg (mAB w)).toNat % 64 = 0 → (h.reg (mA w)).toNat + mImmU w * 64 ≤ 0x40000 →
    (h.reg (mAB w)).toNat + mImmU w * 64 ≤ 0x800000 → h.xfers.length < 4 →
    h.busyRange (h.reg (mA w)).toNat (mImmU w * 64) = false →
    Does (.vld n) s (s.setLp n.val (LpH.mark { h with xfers := h.xfers ++
      [{ load := true, dmem := (h.reg (mA w)).toNat, off := (h.reg (mAB w)).toNat, len := mImmU w * 64 }] } 2))) ∧
  (∀ (n : Fin 16) (s : State) (w : Word) (h : LpH), s.MIssues n.val 0x08 (fun w => [mA w, mAB w]) w h → 1 ≤ mImmU w → mImmU w ≤ 4096 →
    (h.reg (mA w)).toNat % 64 = 0 → (h.reg (mAB w)).toNat % 64 = 0 → (h.reg (mA w)).toNat + mImmU w * 64 ≤ 0x40000 →
    (h.reg (mAB w)).toNat + mImmU w * 64 ≤ 0x800000 → h.xfers.length < 4 →
    h.busyRange (h.reg (mA w)).toNat (mImmU w * 64) = false →
    Does (.vst n) s (s.setLp n.val (LpH.mark { h with xfers := h.xfers ++
      [{ load := false, dmem := (h.reg (mA w)).toNat, off := (h.reg (mAB w)).toNat, len := mImmU w * 64 }] } 2))) ∧
  (∀ (n : Fin 16) (i : Fin 4) (s : State) (x : Transfer), s.hold = .run → (s.lpAt n.val).xfers[i.val]? = some x → x.load = true →
    Does (.vatTransferDone n i) s ((s.vatTouch (.privateLp n.val) (bankByte n.val x.off) x.len).setLp n.val
      (LpH.putBytes { s.lpAt n.val with xfers := (s.lpAt n.val).xfers.eraseIdx i.val } x.dmem
        (s.vatBytes (bankByte n.val x.off) x.len)))) ∧
  (∀ (n : Fin 16) (i : Fin 4) (s : State) (x : Transfer), s.hold = .run → (s.lpAt n.val).xfers[i.val]? = some x → x.load = false →
    Does (.vatTransferDone n i) s
      ((s.setLp n.val { s.lpAt n.val with xfers := (s.lpAt n.val).xfers.eraseIdx i.val }).vatWrite (.privateLp n.val)
        (bankByte n.val x.off) ((s.lpAt n.val).bytes x.dmem x.len))) ∧
  (∀ (n : Fin 16) (s t : State) (w : Word) (h : LpH) (a : Nat) (ys : List Word),
    s.MIssues n.val 0x09 (fun w => [mA w]) w h → a = (h.reg (mA w)).toNat → h.Free a 384 →
    bankBad (s.getF (Reg.lpnDlyBase n.val (mImmU w % 8)) 22 0) (s.getF (Reg.lpnDlyAlloc n.val (mImmU w % 8)) 15 0 * 4) = false →
    s.delayLine n.val (mImmU w % 8) (h.words a 48) = (t, ys) →
    Does (.dlyx n) s (t.setLp n.val (LpH.mark (LpH.putWords
      { h with mFree := h.cyc + 110, dly := (t.lpAt n.val).dly } (a + 192) ys) 2))) ∧
  (∀ (n l base len : Nat) (s t : State) (xs : List Word) (ln : DelayLn), n < 16 → l < 8 →
    base = s.getF (Reg.lpnDlyBase n l) 22 0 → len = s.getF (Reg.lpnDlyAlloc n l) 15 0 → ln = Sparse.get {} (s.lpAt n).dly l →
    ln.fade = none → ln.delay + 48 ≤ len →
    t = xs.zipIdx.foldl (fun s p =>
      s.vatWrite (.privateLp n) (delayByte n base len (ln.pos + p.2)) (leBytes 4 p.1.toNat)) s →
    (s.delayLine n l xs).2 = (List.range 48).map (fun i => t.delayed n base len (ln.pos + i) ln.delay) ∧
    (s.delayLine n l xs).1 = (t.setLp n { t.lpAt n with
      dly := Sparse.set {} (s.lpAt n).dly l { ln with pos := (ln.pos + 48) % len } }).showDelay n l) ∧
  (∀ (n : Fin 16) (s : State) (w : Word) (h : LpH), s.MIssues n.val 0x01 (fun w => [mAB w]) w h →
    addrOf (h.reg (mAB w)) (mImm w) % 4 ≠ 0 → addrOf (h.reg (mAB w)) (mImm w) + 4 ≤ 0x40000 →
    Does (.ldf n) s (s.lpFault n.val 3)) ∧
  (∀ (n : Fin 16) (s : State) (w : Word) (h : LpH), s.MIssues n.val 0x02 (fun w => [mAB w, mF w]) w h →
    0x40000 < addrOf (h.reg (mAB w)) (mImm w) + 4 → Does (.stf n) s (s.lpFault n.val 2)) ∧
  (∀ (n : Fin 16) (s : State) (w : Word) (h : LpH), s.MIssues n.val 0x07 (fun w => [mA w, mAB w]) w h → 1 ≤ mImmU w →
    mImmU w ≤ 4096 → (h.reg (mA w)).toNat % 64 = 0 → (h.reg (mAB w)).toNat % 64 = 0 →
    (h.reg (mA w)).toNat + mImmU w * 64 ≤ 0x40000 → 0x800000 < (h.reg (mAB w)).toNat + mImmU w * 64 →
    Does (.vld n) s (s.lpFault n.val 7))

/-- When the C slot issues, a branch taken goes to T and any other bundle on to the next one; CALL and RET push and pop the
hardware stack, a stack full or empty being a program fault of cause 4; LOOP with a count opens a loop level, with a count
of 0 skips the body, and at a fifth level is a program fault of cause 5; the address operations put their value under way
with a latency of one cycle; ODONE marks lanes; SYNCV goes on only with no transfer in flight; HEND ends the heat of the
program with every lane complete and ends the run of missed heats. (Choices of the model it may rest on: log entry 79.)
Completes, with its own effect: cnop, br, bz, bnz, blt, call, ret, loop, amov, aadd, aaddr, ashl, mvfa, mvaf, odone, hend,
syncv. (R235, R261, R231) -/
def Obligations.LpControlSlot : Prop :=
  (∀ (n : Fin 16) (s : State) (w : Word) (h : LpH), s.CIssues n.val 0x00 noSrcs w h → Does (.cnop n) s (s.lpClose n.val h none 0)) ∧
  (∀ (n : Fin 16) (s : State) (w : Word) (h : LpH), s.CIssues n.val 0x01 noSrcs w h → Does (.br n) s (s.lpClose n.val h (some (fld w 11 0)) 0)) ∧
  (∀ (n : Fin 16) (s : State) (w : Word) (h : LpH), s.CIssues n.val 0x02 (fun w => [cA w]) w h → h.reg (cA w) = 0#32 → Does (.bz n) s (s.lpClose n.val h (some (fld w 11 0)) 0)) ∧
  (∀ (n : Fin 16) (s : State) (w : Word) (h : LpH), s.CIssues n.val 0x02 (fun w => [cA w]) w h → h.reg (cA w) ≠ 0#32 → Does (.bz n) s (s.lpClose n.val h none 0)) ∧
  (∀ (n : Fin 16) (s : State) (w : Word) (h : LpH), s.CIssues n.val 0x03 (fun w => [cA w]) w h → h.reg (cA w) ≠ 0#32 → Does (.bnz n) s (s.lpClose n.val h (some (fld w 11 0)) 0)) ∧
  (∀ (n : Fin 16) (s : State) (w : Word) (h : LpH), s.CIssues n.val 0x03 (fun w => [cA w]) w h → h.reg (cA w) = 0#32 → Does (.bnz n) s (s.lpClose n.val h none 0)) ∧
  (∀ (n : Fin 16) (s : State) (w : Word) (h : LpH), s.CIssues n.val 0x04 (fun w => [cA w, cB w]) w h → (h.reg (cA w)).toInt < (h.reg (cB w)).toInt → Does (.blt n) s (s.lpClose n.val h (some (fld w 11 0)) 0)) ∧
  (∀ (n : Fin 16) (s : State) (w : Word) (h : LpH), s.CIssues n.val 0x04 (fun w => [cA w, cB w]) w h → (h.reg (cB w)).toInt ≤ (h.reg (cA w)).toInt → Does (.blt n) s (s.lpClose n.val h none 0)) ∧
  (∀ (n : Fin 16) (s : State) (w : Word) (h : LpH), s.CIssues n.val 0x05 noSrcs w h → h.stack.length < 8 → Does (.call n) s (s.lpClose n.val { h with stack := (h.pc + 1) :: h.stack } (some (fld w 11 0)) 0)) ∧
  (∀ (n : Fin 16) (s : State) (w : Word) (h : LpH), s.CIssues n.val 0x05 noSrcs w h → 8 ≤ h.stack.length → Does (.call n) s (s.lpFault n.val 4)) ∧
  (∀ (n : Fin 16) (s : State) (w : Word) (h : LpH) (t : Nat) (ts : List Nat), s.CIssues n.val 0x06 noSrcs w h → h.stack = t :: ts → Does (.ret n) s (s.lpClose n.val { h with stack := ts } (some t) 0)) ∧
  (∀ (n : Fin 16) (s : State) (w : Word) (h : LpH), s.CIssues n.val 0x06 noSrcs w h → h.stack = [] → Does (.ret n) s (s.lpFault n.val 4)) ∧
  (∀ (n : Fin 16) (s : State) (w : Word) (h : LpH) (k : Nat), s.CIssues n.val 0x07 (fun w => [cA w]) w h →
    k = (if cA w = 64 then fld w 21 12 else (h.reg (cA w)).toNat) → k ≠ 0 → h.loops.length < 4 →
    Does (.loop n) s ((s.setLp n.val { h.endBundle none 0 with
      pc := h.pc + 1, loops := { first := h.pc + 1, last := fld w 11 0, left := k } :: h.loops }).lpFetch n.val)) ∧
  (∀ (n : Fin 16) (s : State) (w : Word) (h : LpH), s.CIssues n.val 0x07 (fun w => [cA w]) w h →
    (if cA w = 64 then fld w 21 12 else (h.reg (cA w)).toNat) = 0 →
    Does (.loop n) s ((s.setLp n.val { h.endBundle none 0 with pc := fld w 11 0 + 1 }).lpFetch n.val)) ∧
  (∀ (n : Fin 16) (s : State) (w : Word) (h : LpH), s.CIssues n.val 0x07 (fun w => [cA w]) w h → (if cA w = 64 then fld w 21 12 else (h.reg (cA w)).toNat) ≠ 0 →
    4 ≤ h.loops.length → Does (.loop n) s (s.lpFault n.val 5)) ∧
  (∀ (n : Fin 16) (s : State) (w : Word) (h : LpH), s.CIssues n.val 0x08 noSrcs w h → Does (.amov n) s (s.lpClose n.val (h.result 3 (cA w) 1 (BitVec.ofInt 32 (signed 16 (fld w 15 0)))) none 0)) ∧
  (∀ (n : Fin 16) (s : State) (w : Word) (h : LpH), s.CIssues n.val 0x09 (fun w => [cB w]) w h → Does (.aadd n) s (s.lpClose n.val (h.result 3 (cA w) 1 (h.reg (cB w) + BitVec.ofInt 32 (signed 18 (fld w 17 0)))) none 0)) ∧
  (∀ (n : Fin 16) (s : State) (w : Word) (h : LpH), s.CIssues n.val 0x0A (fun w => [cB w, cC w]) w h → Does (.aaddr n) s (s.lpClose n.val (h.result 3 (cA w) 1 (h.reg (cB w) + h.reg (cC w))) none 0)) ∧
  (∀ (n : Fin 16) (s : State) (w : Word) (h : LpH), s.CIssues n.val 0x0B (fun w => [cB w]) w h → Does (.ashl n) s (s.lpClose n.val (h.result 3 (cA w) 1 (h.reg (cB w) <<< fld w 4 0)) none 0)) ∧
  (∀ (n : Fin 16) (s : State) (w : Word) (h : LpH), s.CIssues n.val 0x0C (fun w => [cF w]) w h → Does (.mvfa n) s (s.lpClose n.val (h.result 3 (cA w) 1 (h.reg (cF w))) none 0)) ∧
  (∀ (n : Fin 16) (s : State) (w : Word) (h : LpH), s.CIssues n.val 0x0D (fun w => [cA w]) w h → Does (.mvaf n) s (s.lpClose n.val (h.result 3 (cF w) 1 (h.reg (cA w))) none 0)) ∧
  (∀ (n : Fin 16) (s : State) (w : Word) (h : LpH), s.CIssues n.val 0x0E noSrcs w h → Does (.odone n) s (s.lpClose n.val { h with odone := h.odone ||| BitVec.ofNat 8 (fld w 7 0) } none 0)) ∧
  (∀ (n : Fin 16) (s : State) (w : Word) (h : LpH), s.CIssues n.val 0x0F noSrcs w h → h.loops = [] →
    ((h.endBundle none 0).stallTo ((h.endBundle none 0).wb.foldl (fun c w => max c w.due) (h.endBundle none 0).cyc)).bundleBad
      = none →
    ∃ u : State, Does (.hend n) s u ∧ u.inHeat n.val = false ∧ (u.lpAt n.val).odone = 0xFF#8 ∧ (u.lpAt n.val).hangRun = 0 ∧
      (u.lpAt n.val).pc = h.pc + 1 ∧ u.getF (Reg.lpnStatus n.val) 15 12 = 0 ∧
      u.reg (Reg.lpnEndLast n.val) = BitVec.ofNat 32 (s.pacer.ns.toNat % 1000000 / 1000) ∧
      (u.lpAt n.val).dmem = h.dmem) ∧
  (∀ (n : Fin 16) (s : State) (w : Word) (h : LpH), s.CIssues n.val 0x10 noSrcs w h → h.xfers = [] → Does (.syncv n) s (s.lpClose n.val h none 0)) ∧
  (∀ (n : Fin 16) (s : State) (w : Word) (h : LpH), s.CIssues n.val 0x10 noSrcs w h → h.xfers ≠ [] → Does (.syncv n) s s)

/-- A block primitive that issues with a count of 1 to 4,096 and with its ranges inside DMEM, aligned and of no transfer in
flight computes its result from what the memory then holds, writes it where the table says, and ends the bundle after the
cycles of the table; the first finite output of a biquad is b0 x + s1. TBL takes its position from an NCO, or from the
values at AS clamped to 0 to 1. A count of 0 or above 4,096 is a program fault of cause 8. RAMP keeps its gain until its
start sample, and a ramp of one sample lands on TARGET there. (Choices of the model it may rest on: log entries 77, 146.)
Completes, with its own effect: biq, firb, poly8, env, tbl, lia, liard, ncoset, ramp. (R236, R237, R229, R261) -/
def Obligations.LpPrimitives : Prop :=
  (∀ (n : Fin 16) (s : State) (w : Word) (h : LpH) (p : PrimArgs) (ys : List Word) (c : Nat) (s1 s2 : Word), s.PIssues n.val 0x20 w h p →
    1 ≤ p.n → p.n ≤ 4096 → h.Free p.as_ (4 * p.n) → h.Free p.ak 28 →
    biqGo ((h.words p.ak 5).map valOf) (h.words p.as_ p.n) s.freeCtr (h.word (p.ak + 20)) (h.word (p.ak + 24)) = (ys, c, s1, s2) →
    Does (.biq n) s (State.lpClose { s with freeCtr := c } n.val (((h.putWords p.as_ ys).putWord (p.ak + 20) s1).putWord (p.ak + 24) s2) none (3 * p.n + 6 - 1))) ∧
  (∀ (n : Fin 16) (s : State) (w : Word) (h : LpH) (p : PrimArgs) (k : Nat) (ys : List Word) (c : Nat), s.PIssues n.val 0x21 w h p →
    1 ≤ p.n → p.n ≤ 4096 → 1 ≤ k → k ≤ 1024 → k = (h.word p.ak).toNat →
    h.Free p.ak (4 + 4 * k) → h.Free p.as_ (4 * (k - 1 + p.n)) → h.Free p.ad (4 * p.n) →
    primWords s.freeCtr ((List.range p.n).map fun i =>
      firSum (h.words (p.ak + 4) k) (fun j => h.word (p.as_ + 4 * j)) (i + k - 1)) = (ys, c) →
    Does (.firb n) s (State.lpClose { s with freeCtr := c } n.val (h.putWords p.ad ys) none (ceilDiv (k * p.n) 2 + 12 - 1))) ∧
  (∀ (n : Fin 16) (s : State) (w : Word) (h : LpH) (p : PrimArgs) (ys : List Word) (c : Nat), s.PIssues n.val 0x22 w h p →
    1 ≤ p.n → p.n ≤ 4096 → h.Free p.ak 512 → h.Free p.as_ (4 * (15 + p.n)) → h.Free p.ad (32 * p.n) →
    primWords s.freeCtr ((List.range (8 * p.n)).map fun j =>
      firSum ((List.range 16).map fun k => h.word (p.ak + 4 * (j % 8 + 8 * k))) (fun i => h.word (p.as_ + 4 * i)) (j / 8 + 15)) =
      (ys, c) →
    Does (.poly8 n) s (State.lpClose { s with freeCtr := c } n.val (h.putWords p.ad ys) none (64 * p.n + 10 - 1))) ∧
  (∀ (n : Fin 16) (s : State) (w : Word) (h : LpH) (p : PrimArgs) (v : Word) (c : Nat), s.PIssues n.val 0x23 w h p →
    1 ≤ p.n → p.n ≤ 4096 → h.Free p.as_ (4 * p.n) → h.Free p.ak 12 →
    envGo (bitAt w 0) (valOf (h.word (p.ak + 4))) (valOf (h.word (p.ak + 8))) (h.words p.as_ p.n) s.freeCtr (h.word p.ak) = (v, c) →
    Does (.env n) s (State.lpClose { s with freeCtr := c } n.val (h.putWord p.ak v) none (p.n + 4 - 1))) ∧
  (∀ (n : Fin 16) (s : State) (w : Word) (h : LpH) (p : PrimArgs) (k : Nat) (ys : List Word) (c : Nat), s.PIssues n.val 0x24 w h p →
    1 ≤ p.n → p.n ≤ 4096 → k = (h.word p.ak).toNat → 4 ≤ k → k ≤ 12 → bitAt w 3 = true → bitAt w 1 = false →
    h.Free p.ak (4 + 4 * (2 ^ k + 1)) → h.Free p.ad (4 * p.n) → h.Free p.as_ (4 * p.n) →
    primWords s.freeCtr ((List.range p.n).map fun i => tblAt h p ((valOf (h.word (p.as_ + 4 * i))).map fun v =>
      if v < 0 then 0 else if 1 < v then 1 else v)) = (ys, c) →
    Does (.tbl n) s (State.lpClose { s with freeCtr := c } n.val (h.putWords p.ad ys) none (2 * p.n + 8 - 1))) ∧
  (∀ (n : Fin 16) (s : State) (w : Word) (h : LpH) (p : PrimArgs) (k : Nat) (ys : List Word) (c : Nat), s.PIssues n.val 0x24 w h p →
    1 ≤ p.n → p.n ≤ 4096 → k = (h.word p.ak).toNat → 4 ≤ k → k ≤ 12 → bitAt w 3 = false → bitAt w 1 = false →
    h.Free p.ak (4 + 4 * (2 ^ k + 1)) → h.Free p.ad (4 * p.n) →
    primWords s.freeCtr ((List.range p.n).map fun i =>
      tblAt h p (h.phase (fld w 9 4) (sampleTime h.zbHeat i (if bitAt w 2 then 384 else 96)))) = (ys, c) →
    Does (.tbl n) s (State.lpClose { s with freeCtr := c } n.val (h.putWords p.ad ys) none (2 * p.n + 8 - 1))) ∧
  (∀ (n : Fin 16) (s : State) (w : Word) (h : LpH) (p : PrimArgs) (l : LockIn) (c : Nat), s.PIssues n.val 0x25 w h p →
    1 ≤ p.n → p.n ≤ 4096 → fld w 9 4 < 48 → h.Free p.as_ (4 * p.n) →
    h.lockGo (fld w 9 4) (h.words p.as_ p.n) 0 s.freeCtr (Sparse.get {} h.lock (fld w 9 4)) = (l, c) →
    Does (.lia n) s (State.lpClose { s with freeCtr := c } n.val ({ h with lock := Sparse.set {} h.lock (fld w 9 4) l }) none (p.n + 8 - 1))) ∧
  (∀ (h : LpH) (ch i c : Nat) (x : Word) (xs : List Word) (l : LockIn),
    h.lockGo ch (x :: xs) i c l = h.lockGo ch xs (i + 1) (l.add c (valOf x) (h.phase ch (sampleTime h.senseHeat i 96))).2
      (l.add c (valOf x) (h.phase ch (sampleTime h.senseHeat i 96))).1 ∧
    (l.add c (valOf x) (h.phase ch (sampleTime h.senseHeat i 96))).1.count = l.count + 1) ∧
  (∀ (n : Fin 16) (s : State) (w : Word) (h : LpH) (p : PrimArgs) (l : LockIn) (x y : Rat), s.PIssues n.val 0x26 w h p →
    fld w 9 4 < 48 → h.Free p.ad 12 → l = Sparse.get {} h.lock (fld w 9 4) →
    f64Val l.i = some x → f64Val l.q = some y → bitAt w 3 = false →
    Does (.liard n) s (State.lpClose { s with freeCtr := s.freeCtr } n.val (h.putWords p.ad [f32OfRat x, f32OfRat y, BitVec.ofNat 32 l.count]) none (4 - 1))) ∧
  (∀ (n : Fin 16) (s : State) (w : Word) (h : LpH) (p : PrimArgs) (h2 : LpH) (l : LockIn) (x y : Rat), s.PIssues n.val 0x26 w h p →
    fld w 9 4 < 48 → h.Free p.ad 12 → l = Sparse.get {} h.lock (fld w 9 4) →
    f64Val l.i = some x → f64Val l.q = some y → bitAt w 3 = true →
    h2 = h.putWords p.ad [f32OfRat x, f32OfRat y, BitVec.ofNat 32 l.count] →
    Does (.liard n) s (State.lpClose { s with freeCtr := s.freeCtr } n.val ({ h2 with lock := Sparse.set {} h2.lock (fld w 9 4) { l with i := 0, q := 0, count := 0 } }) none (4 - 1))) ∧
  (∀ (n : Fin 16) (s : State) (w : Word) (h : LpH) (p : PrimArgs) (l : LockIn), s.PIssues n.val 0x27 w h p →
    fld w 9 4 < 48 → h.Free p.ak 8 → l = Sparse.get {} h.lock (fld w 9 4) →
    Does (.ncoset n) s (State.lpClose { s with freeCtr := s.freeCtr } n.val ({ h with lock := Sparse.set {} h.lock (fld w 9 4) { l with freq := h.word p.ak, phase := h.word (p.ak + 4) } }) none (2 - 1))) ∧
  (∀ (n : Fin 16) (s : State) (w : Word) (h : LpH) (p : PrimArgs) (ys : List Word) (r : RampBlk) (c : Nat), s.PIssues n.val 0x28 w h p →
    1 ≤ p.n → p.n ≤ 4096 → h.Free p.as_ (4 * p.n) → h.Free p.ak 32 → 1 ≤ (rampBlk h p.ak).len →
    (rampBlk h p.ak).len ≤ 480000 → (rampBlk h p.ak).shape ≤ 2 →
    rampGo h.zbHeat (h.words p.as_ p.n) (fld w 9 4) s.freeCtr (rampBlk h p.ak) = (ys, r, c) →
    Does (.ramp n) s (State.lpClose { s with freeCtr := c } n.val (((h.putWords p.as_ ys).putWord p.ak r.g).putWords (p.ak + 24) [r.g0, BitVec.ofNat 32 r.pos]) none (p.n + 6 - 1))) ∧
  (∀ (n : Fin 16) (s : State) (w : Word) (h : LpH) (p : PrimArgs), s.PIssues n.val 0x20 w h p → p.n = 0 ∨ 4096 < p.n →
    Does (.biq n) s (s.lpFault n.val 8)) ∧
  (∀ (n : Fin 16) (s : State) (w : Word) (h : LpH) (p : PrimArgs), s.PIssues n.val 0x25 w h p → p.n = 0 ∨ 4096 < p.n →
    Does (.lia n) s (s.lpFault n.val 8)) ∧
  (∀ (cf : List (Option Rat)) (k : Nat → Rat) (c : Nat) (s1 s2 x : Word), (∀ i, i < 5 → cf.getD i none = some (k i)) →
    f32Finite x = true → f32Finite s1 = true →
    (biqStep cf c s1 s2 x).1.1 = primOf (k 0 * f32ToRat x + f32ToRat s1)) ∧
  (∀ (c heat k : Nat) (r : RampBlk), heat + k / 48 < 2 ^ 32 → heat + k / 48 = r.heat → k % 48 = r.sample → r.len = 1 →
    (rampStep c heat k r).1 = { r with g0 := r.g, g := r.target, pos := 1 }) ∧
  (∀ (c heat k : Nat) (r : RampBlk), (heat + k / 48) % 2 ^ 32 ≠ r.heat → r.pos = 0 → rampStep c heat k r = (r, c))

/-- At its acceptance the data of a parameter update go into a free entry of the pending area; at its commit they are written
into the shadow bank of its lane, and the banks swap; it is completed FAULTED where its data did not arrive; 500 µs into a
heat the updates for the heat before are written. LANE_DELAY sets the delay where the allocated memory holds it and is short
of resources else. A load is due from its commit, and begins at a boundary once its image is accepted and none of its LPs is
in RESET; a refused image completes FAULTED; the LP halts and loads from staging after the ramp, and starts or stays in
STANDBY 9 ms after. LP_RUN starts an enabled LP in STANDBY, is refused in warm-up, and stops running LPs through a ramp, as
clearing EN does. A heat without HEND is abandoned with the program forced to its entry; 16 such heats reset the LP with
event 0x73; a reset LP reloads, and starts again where it ran, or faults with event 0x78 where the hash differs. (Choices of
the model it may rest on: log entries 80, 81, 82, 139, 140, 141.) Completes, with its own effect: laneParamInline,
laneParam, paramShadowWrite, laneDelay, lpLoad, imageAccepted, lpSwitchHalt, lpSwitchStart, lpRunStart, lpRunStop,
lpEnWrite, heatAbandoned, lpHang, lpReloadDone. (R241, R243, R244, R246, R248, R249, R250, R251, R253, R240, R260, R262) -/
def Obligations.LpPrograms : Prop :=
  (∀ (o : Origin) (d : Body) (s t : State) (e : Sched) (n l : Nat) (bs : List Byte) (h : LpH), s.Due laneParamInlineRow 0x0201 o d e → t = s.unschedule e.id →
    n = d.byte 0 / 8 → l = d.byte 0 % 8 → t.paramHeat ≠ e.heat → e.pend = none → bs = (d.payload.drop 8).take (d.pl 4 2) → h = (t.lpAt n).patch (bankAddr l (!(t.lpAt n).bank.getLsbD l) + d.pl 2 2) bs → Does (.laneParamInline .commit o d) s ((State.showPend { t.setLp n { h with swap := h.swap ||| (1#8 <<< l) } with
      paramHeat := e.heat, paramCnt := 1 } n).complete e stOk)) ∧
  (∀ (o : Origin) (d : Body) (s t : State) (e : Sched) (rd : ReadResult), s.Due laneParamRow 0x0200 o d e → t = s.unschedule e.id →
    paramData e = none → Does (.laneParam .commit o d rd) s ((t.showPend (d.byte 0 / 8)).complete e stFaulted)) ∧
  (∀ (o : Origin) (d : Body) (s t : State) (e : Sched) (rd : ReadResult) (n l k a : Nat) (bs : List Byte) (h : LpH) (v : State), s.Due laneParamRow 0x0200 o d e → t = s.unschedule e.id →
    n = d.byte 0 / 8 → l = d.byte 0 % 8 → t.paramHeat ≠ e.heat → paramData e = some bs → e.pend = some k → a = bankByte n (t.pendOffset n k) → v = t.vatTouch (.privateLp n) a (min bs.length 4096) → h = (v.lpAt n).patch (bankAddr l (!(v.lpAt n).bank.getLsbD l) + d.pl 2 2) (t.vatBytes a (min bs.length 4096)) → Does (.laneParam .commit o d rd) s ((State.showPend { v.setLp n { h with swap := h.swap ||| (1#8 <<< l) } with
      paramHeat := e.heat, paramCnt := 1 } n).complete e stOk)) ∧
  (∀ (s : State) (e : Sched) (n k : Nat) (bs : List Byte), n = e.desc.body.byte 0 / 8 → paramData e = some bs →
    (List.range 32).find? (fun k => !((s.pending_ n).filterMap (·.pend)).contains k) = some k →
    paramAccept e s = ((s.schedUpd e.id fun e => { e with pend := some k }).bankWrite n (s.pendOffset n k) bs).showPend n) ∧
  (∀ (s : State) (e : Sched), s.hold = .run → 0 < s.heat → s.paramsDue (s.heat - 1) = [e] →
    Does .paramShadowWrite s ((s.unschedule e.id).commitUpd laneParamRow e)) ∧
  (∀ (o : Origin) (d : Body) (s t : State) (e : Sched) (n l : Nat), s.Due laneDelayRow 0x0202 o d e → t = s.unschedule e.id →
    n = d.byte 0 / 8 → l = d.byte 0 % 8 → t.getF (Reg.lpnDlyAlloc n l) 15 0 < d.pl 4 4 + 48 → Does (.laneDelay .commit o d) s (t.complete e stShort)) ∧
  (∀ (o : Origin) (d : Body) (s t : State) (e : Sched) (n l : Nat), s.Due laneDelayRow 0x0202 o d e → t = s.unschedule e.id →
    n = d.byte 0 / 8 → l = d.byte 0 % 8 → d.pl 4 4 + 48 ≤ t.getF (Reg.lpnDlyAlloc n l) 15 0 → Does (.laneDelay .commit o d) s (((t.setLp n { t.lpAt n with dly := Sparse.set {} (t.lpAt n).dly l ((Sparse.get {} (t.lpAt n).dly l).change (d.pl 4 4)) }).showDelay
      n l).complete e stOk)) ∧
  (∀ (o : Origin) (d : Body) (s t : State) (e : Sched) (rd : ReadResult) (x : LpLoad), s.Due lpLoadRow 0x0210 o d e → t = s.unschedule e.id →
    t.vaRefuses = false → t.lpLoads.find? (fun x => x.upd.id == e.id) = some x → x.verdict = some true → Does (.lpLoad .commit o d rd) s (t.setLoads (fun x => { x with due := true, upd := e }) e.id)) ∧
  (∀ (o : Origin) (d : Body) (s t : State) (e : Sched) (rd : ReadResult) (x : LpLoad), s.Due lpLoadRow 0x0210 o d e → t = s.unschedule e.id →
    t.vaRefuses = false → t.lpLoads.find? (fun x => x.upd.id == e.id) = some x → x.verdict = some false → Does (.lpLoad .commit o d rd) s ((t.dropLoad e.id).complete e stFaulted)) ∧
  (∀ (s : State) (x : LpLoad) (hc : Nat), s.lpLoads = [x] → x.due = true → x.begun = false → x.verdict = some true →
    (∀ n ∈ lpsOf x.mask, s.lpSt n ≠ lpReset) → s.loadsBegin hc = s.loadBegin x hc) ∧
  (∀ (o : Origin) (s : State) (x : LpLoad) (n : Nat), s.hold = .run →
    s.lpLoads.find? (fun x => decide (x.upd.org = o) && x.verdict.isNone) = some x → lpsOf x.mask = [n] →
    x.image.length = x.upd.desc.body.pl 4 4 → imgSigned x.image = false → ((s.setBit (Reg.lpnStatus n) 9 false)).imageOk x.image = true →
    Does (.imageAccepted o) s
      (((s.setBit (Reg.lpnStatus n) 9 false).setLp n { s.lpAt n with stageLen := x.image.length, hash := sha384 x.image }).setLoads
        (fun x => { x with verdict := some true }) x.upd.id)) ∧
  (∀ (n : Fin 16) (s : State) (x : LpLoad), s.hold = .run → s.loadOf n.val = some x → s.lpSt n.val ≠ lpReset →
    Does (.lpSwitchHalt n) s
      (((s.vatTouch (.privateLp n.val) (s.stageByte n.val) x.image.length).setLp n.val
        ((s.lpAt n.val).loadImage (s.vatBytes (s.stageByte n.val) x.image.length))).setBit (Reg.lpnStatus n.val) 8 false)) ∧
  (∀ (n : Fin 16) (s : State), s.hold = .run → s.loadOf n.val = none → (s.lpAt n.val).stopping = true → s.lpStops = [] →
    Does (.lpSwitchHalt n) s
      (((s.setLp n.val { (s.lpAt n.val).idle with stopping := false, odone := 0, first := true }).setLpSt n.val lpStandby).setBit
        (Reg.lpnStatus n.val) 8 false)) ∧
  (∀ (n : Fin 16) (s : State) (x : LpLoad), s.hold = .run → s.loadOf n.val = some x → s.lpSt n.val ≠ lpReset → x.start = true →
    (s.showImage n.val x.image).bit (Reg.lpnCtrl n.val) 0 = true → s.wup = false →
    (s.showImage n.val x.image).wup = false →
    Does (.lpSwitchStart n) s (((s.showImage n.val x.image).lpStart n.val).loadStep x n.val (x.hc + 9) true)) ∧
  (∀ (n : Fin 16) (s : State) (x : LpLoad), s.hold = .run → s.loadOf n.val = some x → s.lpSt n.val ≠ lpReset → x.start = false →
    Does (.lpSwitchStart n) s (((s.showImage n.val x.image).setLpSt n.val lpStandby).loadStep x n.val (x.hc + 9) true)) ∧
  (∀ (o : Origin) (d : Body) (s t : State) (e : Sched) (n : Nat), s.Due lpRunStartRow 0x0211 o d e → t = s.unschedule e.id →
    t.wup = false → lpsOf (lpMask d) = [n] → t.lpSt n = lpStandby → t.bit (Reg.lpnCtrl n) 0 = true → Does (.lpRunStart .commit o d) s ((t.lpStart n).complete e stOk)) ∧
  (∀ (o : Origin) (d : Body) (s t : State) (e : Sched), s.Due lpRunStartRow 0x0211 o d e → t = s.unschedule e.id →
    t.wup = true → Does (.lpRunStart .commit o d) s (t.complete e stMode)) ∧
  (∀ (o : Origin) (d : Body) (s t : State) (e : Sched), s.Due lpRunStopRow 0x0211 o d e → t = s.unschedule e.id →
    t.vaRefuses = false → (lpsOf (lpMask d)).filter (fun n => t.lpSt n == lpRunning) = [] → Does (.lpRunStop .commit o d) s (t.complete e stOk)) ∧
  (∀ (o : Origin) (d : Body) (s t : State) (e : Sched) (n : Nat), s.Due lpRunStopRow 0x0211 o d e → t = s.unschedule e.id →
    t.vaRefuses = false → (lpsOf (lpMask d)).filter (fun n => t.lpSt n == lpRunning) = [n] → Does (.lpRunStop .commit o d) s ({ t.lpStop n with lpStops := (t.lpStop n).lpStops ++ [{ upd := e, left := 1#16 <<< n }] })) ∧
  (∀ (m : Master) (n : Fin 16) (v : Word) (s : State), s.hold = .run → s.may m (Reg.lpnCtrl n.val) = true →
    (s.bit (Reg.lpnCtrl n.val) 0 = false ∨ bitAt v 0 = true) →
    Does (.lpEnWrite m n v) s (s.rawWrite (Reg.lpnCtrl n.val) v)) ∧
  (∀ (m : Master) (n : Fin 16) (v : Word) (s : State), s.hold = .run → s.may m (Reg.lpnCtrl n.val) = true →
    s.bit (Reg.lpnCtrl n.val) 0 = true → bitAt v 0 = false → s.vaRefuses = false →
    Does (.lpEnWrite m n v) s ((s.rawWrite (Reg.lpnCtrl n.val) v).lpStop n.val)) ∧
  (∀ (n : Fin 16) (s : State), s.hold = .run → s.inHeat n.val = true →
    ∃ u : State, Does (.heatAbandoned n) s u ∧ u.inHeat n.val = false ∧ (u.lpAt n.val).pc = s.getF (Reg.lpnEntry n.val) 11 0 ∧
      (u.lpAt n.val).ovrPrev = true ∧ (u.lpAt n.val).hangRun = (s.lpAt n.val).hangRun + 1 ∧
      u.reg (Reg.lpnEndLast n.val) = 0x3FF#32 ∧ (u.lpAt n.val).dmem = (s.lpAt n.val).dmem) ∧
  (∀ (n : Fin 16) (s : State), s.hold = .run → 16 ≤ (s.lpAt n.val).hangRun →
    Does (.lpHang n) s (s.lpFails n.val 0x73 (s.lpAt n.val).hangRun)) ∧
  (∀ (n : Fin 16) (s t u : State) (bs : List Byte), s.hold = .run → s.lpSt n.val = lpReset → s.fc.held.contains (144 + n.val) = false →
    bs = s.vatBytes (s.stageByte n.val) (s.lpAt n.val).stageLen →
    t = s.vatTouch (.privateLp n.val) (s.stageByte n.val) (s.lpAt n.val).stageLen → sha384 bs ≠ (s.lpAt n.val).hash →
    u = (t.setLpSt n.val lpFaulted).emit (144 + n.val) 0x78 (syn12 0x78 0xFFF 0) → u.lpLoads = [] →
    Does (.lpReloadDone n) s u) ∧
  (∀ (n : Fin 16) (s t u : State) (bs : List Byte), s.hold = .run → s.lpSt n.val = lpReset → s.fc.held.contains (144 + n.val) = false →
    bs = s.vatBytes (s.stageByte n.val) (s.lpAt n.val).stageLen →
    t = s.vatTouch (.privateLp n.val) (s.stageByte n.val) (s.lpAt n.val).stageLen → sha384 bs = (s.lpAt n.val).hash →
    (s.lpAt n.val).was = lpRunning → u = (t.setLp n.val ((t.lpAt n.val).loadImage bs)).showImage n.val bs → u.lpLoads = [] →
    Does (.lpReloadDone n) s (u.lpStart n.val))

/-- At its commit ZONE_SET with RAMP starts a ramp from the level in force, without one leaves the step waiting for a zero
crossing; LAYER_SET is refused where the zone graph would come back or grow deeper than four edges, and else its fields come
into force at the commit sample once its source is ready; an assert whose source is not ready at a deadline of zero is
abandoned with event 0x54 or started silent with event 0x53; an assert opens the gate, a release closes it; LANE_ROUTE
changes the route of each bonded lane, or what a lane on its partner zone keeps stored; RETURN_SET binds or frees a return,
a capture ring taking one zone; AMB_SET restarts the ambient entry. (Choices of the model it may rest on: log entries 30,
31, 171, 172.) Completes, with its own effect: zoneSet, layerSet, layerAssert, layerRelease, laneRoute, returnSet, ambSet.
(R194, R195, R196, R186, R187, R188, R197, R183, R178, R179, R173, R24) -/
def Obligations.ZoneDescriptors : Prop :=
  (∀ (o : Origin) (d : Body) (s t : State) (e : Sched) (z : Nat) (h : ZoneH), s.Due zoneSetRow 0x0100 o d e → t = s.unschedule e.id →
    z = d.pl 0 2 → h = t.zoneAt z → d.pl 4 2 ≠ 0 → h.en = (d.byte 8 % 2 == 1) → levelOf (d.pls 2) (d.byte 8 / 2 % 2 == 1) ≠ levelOf h.gain h.mute → Does (.zoneSet .commit o d) s (((t.setZone z { h with
      zcT := d.pl 6 2, ambEn := d.byte 8 / 4 % 2 == 1, gain := d.pls 2, mute := d.byte 8 / 2 % 2 == 1,
      ramp := some (rampTo h.level (d.pls 2) (d.byte 8 / 2 % 2 == 1) (d.pl 4 2)), wait := none }).showZone z).complete e stOk)) ∧
  (∀ (o : Origin) (d : Body) (s t : State) (e : Sched) (z : Nat) (h : ZoneH), s.Due zoneSetRow 0x0100 o d e → t = s.unschedule e.id →
    z = d.pl 0 2 → h = t.zoneAt z → d.pl 4 2 = 0 → d.pls 2 ≠ h.gain → Does (.zoneSet .commit o d) s (((t.setZone z { h with
      zcT := d.pl 6 2, ambEn := d.byte 8 / 4 % 2 == 1,
      wait := some (d.pls 2, d.byte 8 / 2 % 2 == 1, d.byte 8 % 2 == 1) }).showZone z).complete e stOk)) ∧
  (∀ (o : Origin) (d : Body) (s t : State) (e : Sched), s.Due layerSetRow 0x0101 o d e → t = s.unschedule e.id →
    t.graphBad e = true → Does (.layerSet .commit o d) s (t.complete e stBad 30)) ∧
  (∀ (o : Origin) (d : Body) (s t : State) (e : Sched), s.Due layerSetRow 0x0101 o d e → t = s.unschedule e.id →
    t.graphBad e = false → t.playerTaken d = false → d.byte 3 % 2 = 0 → Does (.layerSet .commit o d) s ((t.updApply e none).complete e stOk)) ∧
  (∀ (o : Origin) (d : Body) (s t : State) (e : Sched), s.Due layerSetRow 0x0101 o d e → t = s.unschedule e.id →
    t.graphBad e = false → t.playerTaken d = false → d.byte 3 % 2 = 1 → t.updReady e e.heat = true → e.heat ≤ e.asked → Does (.layerSet .commit o d) s ((t.updApply e none).complete e stOk)) ∧
  (∀ (o : Origin) (d : Body) (s t : State) (e : Sched), s.Due (assertRow 1) 0x0102 o d e → t = s.unschedule e.id →
    d.byte 3 = 1 → t.updReady e e.heat = false → t.policyOf e = (0, true) → e.heat = e.asked → Does (.layerAssert .commit o d) s ((((t.setLayer (d.pl 0 2) (d.byte 2) { t.layerAt (d.pl 0 2) (d.byte 2) with retry := none }).policyEvent (d.pl 0 2) (d.byte 2)
      0x54).showLayer (d.pl 0 2) (d.byte 2)).complete e stNotReady)) ∧
  (∀ (o : Origin) (d : Body) (s t : State) (e : Sched), s.Due (assertRow 1) 0x0102 o d e → t = s.unschedule e.id →
    d.byte 3 = 1 → t.updReady e e.heat = false → t.policyOf e = (0, false) → e.heat = e.asked → voteOk e = true → Does (.layerAssert .commit o d) s ((State.policyEvent (t.updApply e (some (e.asked, e.askedSample))) (d.pl 0 2) (d.byte 2) 0x53).complete e stSilent)) ∧
  (∀ (o : Origin) (d : Body) (s t : State) (e : Sched), s.Due (assertRow 1) 0x0102 o d e → t = s.unschedule e.id →
    d.byte 3 = 1 → t.updReady e e.heat = true → e.heat ≤ e.asked → Does (.layerAssert .commit o d) s ((t.updApply e none).complete e stOk)) ∧
  (∀ (o : Origin) (d : Body) (s t : State) (e : Sched), s.Due (assertRow 0) 0x0102 o d e → t = s.unschedule e.id →
    d.byte 3 = 0 → Does (.layerRelease .commit o d) s ((t.updApply e none).complete e stOk)) ∧
  (∀ (s : State) (d : Body) (q : Bool) (h : LayerH), h = s.layerAt (d.pl 0 2) (d.byte 2) → d.byte 3 = 1 →
    (s.assertApply d q none).layerAt (d.pl 0 2) (d.byte 2) =
      { h with asserted := true, gate := true, wait := h.wait.map fun w => (w.1, w.2.1, true) }) ∧
  (∀ (s : State) (d : Body) (h : LayerH), h = s.layerAt (d.pl 0 2) (d.byte 2) → d.byte 3 = 0 →
    (s.assertApply d true none).layerAt (d.pl 0 2) (d.byte 2) =
      { h with asserted := false, gate := false, wait := h.wait.map fun w => (w.1, w.2.1, false) }) ∧
  (∀ (o : Origin) (d : Body) (s t : State) (e : Sched) (n : Nat), s.Due laneRouteRow 0x0103 o d e → t = s.unschedule e.id →
    t.bondLanes (d.pl 0 2) = [n] → d.pl 2 2 < 256 → (t.routeAt n).partner = false → Does (.laneRoute .commit o d) s (((t.setRoute n ((t.routeAt n).change (some (d.pl 2 2)))).showRoute n).complete e stOk)) ∧
  (∀ (o : Origin) (d : Body) (s t : State) (e : Sched) (n : Nat), s.Due laneRouteRow 0x0103 o d e → t = s.unschedule e.id →
    t.bondLanes (d.pl 0 2) = [n] → d.pl 2 2 = 0xFFFF → (t.routeAt n).partner = true → Does (.laneRoute .commit o d) s (((t.setRoute n { t.routeAt n with stored := some none }).showRoute n).complete e stOk)) ∧
  (∀ (o : Origin) (d : Body) (s t : State) (e : Sched), s.Due returnSetRow 0x0104 o d e → t = s.unschedule e.id →
    d.byte 0 = 1 → Does (.returnSet .commit o d) s ((t.setReg (Reg.zmRaesC (d.byte 1) (d.byte 2)) (BitVec.ofNat 32 (d.byte 3 * 2 ^ 16 + d.pl 4 2))).complete e stOk)) ∧
  (∀ (o : Origin) (d : Body) (s t : State) (e : Sched), s.Due returnSetRow 0x0104 o d e → t = s.unschedule e.id →
    d.byte 0 = 0 → d.pl 4 2 = 0xFFFF → Does (.returnSet .commit o d) s ((t.setReg (Reg.zmRtdmS (d.byte 1) (d.byte 2)) (BitVec.ofNat 32 (d.byte 3 * 2 ^ 16 + 0xFFFF))).complete e stOk)) ∧
  (∀ (o : Origin) (d : Body) (s t : State) (e : Sched), s.Due returnSetRow 0x0104 o d e → t = s.unschedule e.id →
    d.byte 0 = 2 → t.capBad e = true → Does (.returnSet .commit o d) s (t.complete e stBad 28)) ∧
  (∀ (o : Origin) (d : Body) (s t : State) (e : Sched), s.Due returnSetRow 0x0104 o d e → t = s.unschedule e.id →
    d.byte 0 = 2 → t.capBad e = false → d.pl 4 2 ≠ 0xFFFF → Does (.returnSet .commit o d) s ((t.setReg (Reg.zmRcap (d.pl 4 2)) (BitVec.ofNat 32 (2 ^ 31 + d.pl 6 2 * 2 ^ 16 + d.byte 3))).complete e stOk)) ∧
  (∀ (o : Origin) (d : Body) (s t : State) (e : Sched) (z : Nat), s.Due ambSetRow 0x0105 o d e → t = s.unschedule e.id →
    z = d.pl 0 2 → Does (.ambSet .commit o d) s (((t.setZone z { t.zoneAt z with amb := d.payload.take 21, pMeas := [], pPred := [], holdRun := false }).showZone z).complete e stOk))

/-- A zero crossing applies a waiting step, a join or a leave at once; a timeout starts its 64-sample ramp. The step of a layer
or zone brings its gain, mute and gate or enable into force. At its deadline an update with the ABANDON policy that is not
ready completes abandoned with event 0x54. A layer started silent joins its source once that is ready, with event 0x57. A
zone block that is late is marked, counted and raises event 0x51 once. A hold time that ends leaves its layer inactive. A
voice-alarm layer outranks every other, and within a kind the higher priority does; a layer is active by its activity rule.
(Choices of the model it may rest on: log entries 70, 75, 146, 171.) Completes, with its own effect: layerZeroCrossing,
stepZcTimeout, readyDeadline, silentJoin, zoneBlockLate, activityHoldExpiry. (R167, R169, R173, R172, R178, R179, R185, R77) -/
def Obligations.ZoneEvents : Prop :=
  (∀ (z : Fin 256) (l : Fin 8) (s : State), s.hold = .run → (s.layerAt z.val l.val).srcType ≠ 2 →
    Does (.layerZeroCrossing (.layerGain z l)) s ((s.setLayer z.val l.val (s.layerAt z.val l.val).cross).showLayer z.val l.val)) ∧
  (∀ (z : Fin 256) (s : State), s.hold = .run →
    Does (.layerZeroCrossing (.zone z)) s ((s.setZone z.val (s.zoneAt z.val).cross).showZone z.val)) ∧
  (∀ (n : Fin 128) (s : State), s.hold = .run →
    Does (.layerZeroCrossing (.routeJoin n)) s ((s.setRoute n.val { s.routeAt n.val with side := (s.routeAt n.val).side.cross }).showRoute n.val)) ∧
  (∀ (n : Fin 128) (s : State), s.hold = .run →
    Does (.layerZeroCrossing (.routeLeave n)) s ((s.setRoute n.val { s.routeAt n.val with oldSide := (s.routeAt n.val).oldSide.cross }).showRoute n.val)) ∧
  (∀ (z : Fin 256) (s : State), s.hold = .run →
    Does (.stepZcTimeout (.zone z)) s ((s.setZone z.val (s.zoneAt z.val).expire).showZone z.val)) ∧
  (∀ (n : Fin 128) (s : State), s.hold = .run →
    Does (.stepZcTimeout (.routeJoin n)) s ((s.setRoute n.val { s.routeAt n.val with side := (s.routeAt n.val).side.expire }).showRoute n.val)) ∧
  (Side.joinWait.cross = .on ∧ Side.leaveWait.cross = .off ∧ Side.joinWait.expire = .rampIn 0 ∧ Side.leaveWait.expire = .rampOut 0) ∧
  (∀ (h : LayerH) (g : Int) (m b : Bool), h.wait = some (g, m, b) → h.cross.gain = g ∧ h.cross.mute = m ∧ h.cross.gate = b ∧
    h.cross.wait = none ∧ h.cross.fade = none ∧ h.expire.gain = g ∧ h.expire.fade = some (h.gainFactor, 0)) ∧
  (∀ (h : ZoneH) (g : Int) (m b : Bool), h.wait = some (g, m, b) → h.cross.gain = g ∧ h.cross.mute = m ∧ h.cross.en = b ∧
    h.cross.wait = none ∧ h.cross.fade = none ∧ h.expire.gain = g ∧ h.expire.fade = some (h.factor, 0)) ∧
  (∀ (o : Origin) (s t : State) (e : Sched), s.hold = .run →
    s.sched.find? (fun e => decide (e.org = o) && needsReady e && !e.silent &&
      decide (e.asked + (s.policyOf e).1 + 1 ≤ s.heat)) = some e → (s.policyOf e).1 = 3 → e.heat = e.asked + 3 →
    t = s.unschedule e.id → t.policyOf { e with sample := 0 } = (3, true) →
    t.updReady { e with sample := 0 } e.heat = false → isAssert e = true →
    Does (.readyDeadline o) s
      ((((t.setLayer (e.desc.body.pl 0 2) (e.desc.body.byte 2)
        { t.layerAt (e.desc.body.pl 0 2) (e.desc.body.byte 2) with retry := none }).policyEvent (e.desc.body.pl 0 2)
          (e.desc.body.byte 2) 0x54).showLayer (e.desc.body.pl 0 2) (e.desc.body.byte 2)).complete { e with sample := 0 } stNotReady)) ∧
  (∀ (z : Fin 256) (l : Fin 8) (w : Nat × Nat) (s : State), s.hold = .run → (s.layerAt z.val l.val).silent = some w → (s.layerAt z.val l.val).voteWait = none → (s.layerAt z.val l.val).srcType ≠ 2 → s.srcReady (s.layerAt z.val l.val).srcType (s.layerAt z.val l.val).srcId (s.heat - 1) = true →
    Does (.silentJoin z l) s (((s.setLayer z.val l.val { s.layerAt z.val l.val with silent := none, side := .rampIn 0 }).emit 219 0x57
      (zoneSyn 0x57 z.val l.val 1)).showLayer z.val l.val)) ∧
  (∀ (z : Fin 256) (s : State), s.hold = .run → (s.zoneAt z.val).late = false →
    Does (.zoneBlockLate z) s ((((s.setZone z.val { s.zoneAt z.val with late := true }).bump Reg.zmLateCnt 32).setBit Reg.zmStatus 1 true).emit 219 0x51
      (zoneSyn 0x51 z.val 0xFF 1))) ∧
  (∀ (z : Fin 256) (l : Fin 8) (s : State), s.hold = .run →
    Does (.activityHoldExpiry z l) s (((s.setLayer z.val l.val { s.layerAt z.val l.val with holdLeft := 0 }).showLayer z.val l.val).showZone z.val)) ∧
  (∀ (k l : LayerH), (k.va = true ∧ l.va = false → k.outranks l = true) ∧ (k.va = false ∧ l.va = true → k.outranks l = false) ∧
    (k.va = l.va → (k.outranks l = true ↔ l.prio < k.prio))) ∧
  (∀ h : LayerH, h.voteWait = none → (h.act = 1 → h.active = h.asserted) ∧ (h.act = 2 → h.active = decide (0 < h.holdLeft)) ∧
    (h.act = 0 → h.active = (h.srcType != 0 && !h.mute)))

/-- PLAYER_SET enables a player with its rings and fallback clip, or flushes and disables it; PLAYER_FLUSH completes the entries
that do not play; CLIP_LOAD takes pages and starts its read, whose failure completes it FAULTED and whose data, with the
right length and CRC, become the valid contents of the clip; CLIP_PIN and CLIP_DROP act on a valid clip. A fetched playlist
entry joins the queue with a completion slot reserved, a further part of its clip joins its data; a repeating entry that
ends starts again; a player with nothing to play starves with its event, and a lost host is marked with event 0x64. (Choices
of the model it may rest on: log entries 66, 67, 68, 69, 170.) Completes, with its own effect: playerSet, playerFlush,
clipPin, clipDrop, clipLoad, clipLoadDone, playlistFetchDone, clipFetchDone, entryEnd, playerStarved, playerResume,
playlistHostLost. (R222, R219, R220, R221, R203, R210, R214, R215, R216) -/
def Obligations.Players : Prop :=
  (∀ (o : Origin) (d : Body) (s t : State) (e : Sched) (p : Nat) (u : State), s.Due playerSetRow 0x0300 o d e → t = s.unschedule e.id →
    p = d.byte 0 → t.plySt p = plyDisabled → d.byte 1 = 1 → d.pl 6 2 = 0xFFFF → u = (t.setPlayer p { t.playerAt p with ring := d.pl 2 2, cpl := d.pl 4 2, fallback := none }).setBit (Reg.plyPState p) 4 false → Does (.playerSet .commit o d) s ((((u.setPlySt p plyIdle).setBit (Reg.plyPState p) 5 false).showPlayer p).complete e stOk)) ∧
  (∀ (o : Origin) (d : Body) (s t : State) (e : Sched) (p : Nat) (u : State), s.Due playerSetRow 0x0300 o d e → t = s.unschedule e.id →
    p = d.byte 0 → t.plySt p = plyIdle → d.byte 1 = 0 → d.pl 6 2 < 1024 → u = ((t.plyFlush p).setPlayer p { (t.plyFlush p).playerAt p with
      ring := d.pl 2 2, cpl := d.pl 4 2, fallback := some (d.pl 6 2) }).setBit (Reg.plyPState p) 4 false → Does (.playerSet .commit o d) s ((((u.setPlySt p plyDisabled).setBit (Reg.plyPState p) 5 false).showPlayer p).complete e stOk)) ∧
  (∀ (o : Origin) (d : Body) (s t v : State) (e : Sched), s.Accepts playerFlushRow 0x0301 o d .error t e → v = { t with nextId := t.nextId + 1 } →
    Does (.playerFlush o d) s (s.noted o (descOf 0x0301 d) (((v.plyFlush (d.byte 0)).showPlayer (d.byte 0)).complete e stOk))) ∧
  (∀ (o : Origin) (d : Body) (s t v : State) (e : Sched), s.Accepts clipPinRow 0x0303 o d .error t e → v = { t with nextId := t.nextId + 1 } →
    Does (.clipPin o d) s (s.noted o (descOf 0x0303 d) ((State.showCache (v.setBit (Reg.plyClipInfo (d.pl 0 2)) 30 (d.byte 2 == 1))).complete e stOk))) ∧
  (∀ (o : Origin) (d : Body) (s t v : State) (e : Sched), s.Accepts clipDropRow 0x0304 o d .error t e → v = { t with nextId := t.nextId + 1 } →
    v.clipBusy (d.pl 0 2) = false → Does (.clipDrop o d) s (s.noted o (descOf 0x0304 d) ((v.dropClip (d.pl 0 2)).complete e stOk))) ∧
  (∀ (o : Origin) (d : Body) (s t v u : State) (e : Sched) (a b : List Nat), s.Accepts clipLoadRow 0x0302 o d .error t e →
    v = { t with nextId := t.nextId + 1 } →
    State.makeRoom (ceilDiv (loadBytes d) 4096) (loadCopy2 d) (v.evictable (d.pl 0 2)) v = some (u, a, b) →
    Does (.clipLoad o d) s (s.noted o (descOf 0x0302 d)
      (State.showCache { u with clipLoads := u.clipLoads ++ [{ upd := e, pages := a, pages2 := b }] }))) ∧
  (∀ (o : Origin) (s t : State) (x : LoadH), s.hold = .run → s.clipLoads.find? (fun x => decide (x.upd.org = o)) = some x →
    t = { s with clipLoads := s.clipLoads.filter fun y => y.upd.id != x.upd.id } →
    Does (.clipLoadDone o .error) s (((t.bump Reg.plyCrcErrCnt 32).showCache).complete x.upd stFaulted)) ∧
  (∀ (o : Origin) (bs : List Byte) (s t u : State) (x : LoadH) (c : Nat), s.hold = .run →
    s.clipLoads.find? (fun x => decide (x.upd.org = o)) = some x →
    t = { s with clipLoads := s.clipLoads.filter fun y => y.upd.id != x.upd.id } →
    c = x.upd.desc.body.pl 0 2 → bs.length = loadBytes x.upd.desc.body → crc32 bs = BitVec.ofNat 32 (x.upd.desc.body.pl 16 4) →
    t.clipBusy c = false → x.pages2 = [] →
    u = (((t.setClip c { pages := x.pages, pages2 := [], used := (t.clipAt c).used }).setReg (Reg.plyClipInfo c)
      (BitVec.ofNat 32 (2 ^ 31 + x.upd.desc.body.byte 2 % 2 * 2 ^ 30 + x.upd.desc.body.byte 2 / 2 % 2 * 2 ^ 29 +
        x.upd.desc.body.byte 2 / 4 % 2 * 2 ^ 27 + x.upd.desc.body.byte 3 % 16 * 2 ^ 16 + x.pages.length))).setReg (Reg.plyClipLen c)
      (BitVec.ofNat 32 (x.upd.desc.body.pl 4 4))) →
    Does (.clipLoadDone o (.data bs)) s ((((u.fillPages x.pages bs).fillPages [] bs).showCache).complete x.upd stOk)) ∧
  (∀ (p : Fin 64) (bs : List Byte) (s u : State) (h : PlayerH), s.hold = .run → h = s.playerAt p.val → s.bit Reg.plyCtrl 0 = true →
    s.plySt p.val = plyIdle → s.ringEn h.ring = true → s.ringType h.ring = 3 → s.ringOcc h.ring ≠ 0 → h.queue.length < 8 → h.dropping = false →
    s.usable (s.ringPort h.ring) = true → s.ringOcc h.cpl + (s.ringAt h.cpl).resv < s.ringSize h.cpl →
    u = (s.setReg (Reg.ringCons h.ring) (s.reg (Reg.ringCons h.ring) + 1)).bump (Reg.ringDoneCnt h.ring) 32 →
    Does (.playlistFetchDone p (.data bs)) s
      ((State.plyHead 16 p.val ((u.setRing h.cpl { u.ringAt h.cpl with resv := (u.ringAt h.cpl).resv + 1 }).setPlayer p.val
        { h with queue := h.queue ++ [{ bytes := bs, index := (s.reg (Reg.ringCons h.ring)).toNat }], failedReads := 0 })).showPlayer
        p.val)) ∧
  (∀ (p : Fin 64) (i : Fin 10) (bs : List Byte) (s u v : State) (x y : PEntry), s.hold = .run →
    (s.playerAt p.val).entries[i.val]? = some x → x.kind = 0 → x.fetched = false → x.bad = false →
    (x.data ++ bs).length < x.len * clipWordBytes x.fmt → s.plyFeed p.val x bs = (u, y) → v = u.setEntry p.val i.val y →
    Does (.clipFetchDone p i (.data bs)) s ((v.setPlayer p.val { v.playerAt p.val with failedReads := 0 }).showPlayer p.val)) ∧
  (∀ (p : Nat) (bs : List Byte) (s : State) (x : PEntry), (s.plyFeed p x bs).2 =
    { x with data := x.data ++ bs, reads := x.reads ++ [(x.data.length, (s.playerAt p).fed)] }) ∧
  (∀ (p : Fin 64) (s : State) (x : PEntry) (xs : List PEntry), s.hold = .run → (s.playerAt p.val).queue = x :: xs →
    s.plySt p.val = plyPlaying → s.entryPlay x ≤ x.at_ → lastPlay (s.plyLost p.val) x = false →
    Does (.entryEnd p) s ((s.setPlayer p.val
      { s.playerAt p.val with queue := { x with at_ := 0, rep := x.rep + 1 } :: xs }).showPlayer p.val)) ∧
  (∀ (p : Fin 64) (s : State), s.hold = .run → (s.playerAt p.val).queue = [] → (s.playerAt p.val).ended = false →
    s.plySt p.val = plyPlaying →
    Does (.playerStarved p) s
      (((((s.setPlayer p.val { s.playerAt p.val with fadeOut := 64, gap := 0, fadeIn := none }).setPlySt p.val plyStarved).bump
        (Reg.plyPStarveCnt p.val) 32).plyEvent p.val 0x60 0x61 0xFFFF).showPlayer p.val)) ∧
  (∀ (p : Fin 64) (s : State), s.hold = .run → s.plySt p.val = plyPlaying → (s.playerAt p.val).hold = true →
    Does (.playerResume p) s (((State.plyHead 16 p.val (s.setPlayer p.val { s.playerAt p.val with hold := false })).plyFallback p.val).showPlayer p.val)) ∧
  (∀ (p : Fin 64) (s u : State), s.hold = .run → s.plySt p.val = plyIdle → s.plyLost p.val = false → s.hostLost p.val = true → u = (s.setBit (Reg.plyPState p.val) 5 true).emit 220 0x64 (syn16 0x64 p.val 0xFFFF) → u.plySt p.val = plyIdle →
    Does (.playlistHostLost p) s (u.showPlayer p.val))

/-- RIND_SET is refused in a locked rind, and else the SSV sends each masked value to the tile and the lock is set where asked;
RIND_CLEAR ends a rind lockout and clears the count. A trip sets its cause, counts, holds the lane with its event, and the
third within 60 s is a lockout with event 0x94; after 1 s a lane that is not locked out is free. What exceeds a ceiling
follows from what the rind has measured, the lower code where more than one does. Values the tile has not acknowledged raise
event 0xA2. The die raises events 0xA0 and 0xA1, the latter holding every lane. A fast-path limit lowers the gain, with
event 0x98 on the first heat of a run. BATT_SET and POOL_SET set their values. Once per second the standard program keeps a
reading of Re where the current is large enough, and identifies; a value moves by at most its fraction. (Choices of the
model it may rest on: log entries 84, 85, 87, 88, 90, 99, 142, 143, 144, 146, 147, 148, 157, 158.) Completes, with its own
effect: rindSet, rindClear, battSet, poolSet, rindTrip, rindRestart, rindAckTimeout, tdieWarning, tdieTrip, tdieRestart,
fastPathLimit, modelSecondUpdate. (R280, R281, R282, R283, R279, R291, R285, R286, R288, R268, R272) -/
def Obligations.LoudspeakerProtection : Prop :=
  (∀ (o : Origin) (d : Body) (s t : State) (e : Sched), s.Due rindSetRow 0x0230 o d e → t = s.unschedule e.id →
    t.bit (Reg.tlRindCtrl (d.byte 0 / 8)) 31 = true → Does (.rindSet .commit o d) s (t.complete e stMode)) ∧
  (∀ (o : Origin) (d : Body) (s t : State) (e : Sched) (n : Nat), s.Due rindSetRow 0x0230 o d e → t = s.unschedule e.id →
    n = d.byte 0 → t.bit (Reg.tlRindCtrl (n / 8)) 31 = false → d.byte 1 = 1 → t.ssvHalted = false → Does (.rindSet .commit o d) s (((t.setTile (n / 8) { t.tileAt (n / 8) with mbox := (t.tileAt (n / 8)).mbox ++
      [{ op := 3, off := tileOff (Reg.tlRindVpk (n / 8) (n % 8)), data := BitVec.ofNat 32 (d.pl 2 2) }] }).setBit (rindReg n) 0
        false).complete e stOk)) ∧
  (∀ (o : Origin) (d : Body) (s t : State) (e : Sched), s.Due rindSetRow 0x0230 o d e → t = s.unschedule e.id →
    t.bit (Reg.tlRindCtrl (d.byte 0 / 8)) 31 = false → d.byte 1 = 128 → t.ssvHalted = false → Does (.rindSet .commit o d) s ((t.setBit (Reg.tlRindCtrl (d.byte 0 / 8)) 31 true).complete e stOk)) ∧
  (∀ (o : Origin) (d : Body) (s t : State) (e : Sched), s.Due rindClearRow 0x0231 o d e → t = s.unschedule e.id →
    (t.laneAt (d.byte 0)).rindLocked = false → Does (.rindClear .commit o d) s (t.complete e stOk)) ∧
  (∀ (o : Origin) (d : Body) (s t : State) (e : Sched) (n : Nat), s.Due rindClearRow 0x0231 o d e → t = s.unschedule e.id →
    n = d.byte 0 → (t.laneAt n).rindLocked = true → Does (.rindClear .commit o d) s (((((((t.setLane n { t.laneAt n with rindLocked := false, trips := [] }).setBit (rindReg n) 7 false).rindFree n).showTrips n).showFault
      (n / 8))).complete e stOk)) ∧
  (∀ (o : Origin) (d : Body) (s t : State) (e : Sched), s.Due battSetRow 0x0232 o d e → t = s.unschedule e.id →
    d.pl 0 2 = 0 → Does (.battSet .commit o d) s (t.complete e stOk)) ∧
  (∀ (o : Origin) (d : Body) (s t : State) (e : Sched), s.Due battSetRow 0x0232 o d e → t = s.unschedule e.id →
    d.pl 0 2 = 1 → Does (.battSet .commit o d) s (((t.setTile 0 { t.tileAt 0 with batt := some (d.pl 2 2) }).showBatt 0).complete e stOk)) ∧
  (∀ (o : Origin) (d : Body) (s t : State) (e : Sched), s.Due poolSetRow 0x0233 o d e → t = s.unschedule e.id →
    Does (.poolSet .commit o d) s (State.complete { t with pool := { t.pool with
      watts := d.pl 0 4, floor := d.pls 4, vaFloor := d.pls 6, tau := d.pl 8 2, en := d.byte 10 == 1 } } e stOk)) ∧
  (∀ (n : Fin 128) (c v : Nat) (s : State),
    s.rindOver n.val = (c, v) →
    c ≠ 0 →
    s.laneSt n.val = lsRunning ∨ s.laneSt n.val = lsProbe →
    Does (.rindTrip n () () () ()) s ((s.rindTrip n.val c (min 65535 v)).showFault (n.val / 8))) ∧
  (∀ (n : Fin 128) (s : State),
    (s.rindOver n.val).1 = 0 →
    Does (.rindTrip n () () () ()) s ((s).showFault (n.val / 8))) ∧
  (∀ (s : State) (n : Nat) (r : RindH) (c : Rat), r = (s.laneAt n).rind → c = (s.getF (Reg.tlRindIrms (n / 8) (n % 8)) 15 0 : Nat) →
    (c * c < r.ii.sum / 9600 * 1000000 → (s.rindOver n).1 = 1) ∧
    (r.ii.sum / 9600 * 1000000 ≤ c * c → 9600 ≤ r.dcRun → (s.rindOver n).1 = 2) ∧
    (r.ii.sum / 9600 * 1000000 ≤ c * c → r.dcRun < 9600 →
      ((s.rindOver n).1 = 3 ↔ ((s.getF (Reg.tlRindVs (n / 8) (n % 8)) 11 0 : Nat) : Rat) < absRat r.flux * 1000))) ∧
  (∀ (s : State) (n c v : Nat), (s.lastMinute (s.laneAt n).trips).length < 2 →
    s.rindTrip n c v = ((((((s.setLane n { s.laneAt n with
      trips := s.heat :: s.lastMinute (s.laneAt n).trips, rindLocked := false }).putF
      (rindReg n) 6 4 c).setBit (rindReg n) 2 true).bump (Reg.tlRindTripCnt (n / 8) (n % 8)) 32).showTrips n).setHold n hcRind true
        (0x90 + c)).laneEvent n (0x90 + c) v) ∧
  (∀ (s : State) (n c v : Nat), 2 ≤ (s.lastMinute (s.laneAt n).trips).length →
    s.rindTrip n c v = ((((((((s.setLane n { s.laneAt n with
      trips := s.heat :: s.lastMinute (s.laneAt n).trips, rindLocked := true }).putF
      (rindReg n) 6 4 c).setBit (rindReg n) 2 true).bump (Reg.tlRindTripCnt (n / 8) (n % 8)) 32).showTrips n).setHold n hcRind true
        (0x90 + c)).laneEvent n (0x90 + c) v).setBit (rindReg n) 7 true).laneEvent n 0x94
          ((s.lastMinute (s.laneAt n).trips).length + 1)) ∧
  (∀ (n : Fin 128) (s : State),
    (s.laneAt n.val).rindLocked = false →
    s.bit (rindReg n.val) 2 = true →
    Does (.rindRestart n) s ((s.rindFree n.val).showFault (n.val / 8))) ∧
  (∀ (n : Fin 128) (s : State),
    (s.laneAt n.val).rindLocked = true →
    Does (.rindRestart n) s ((s).showFault (n.val / 8))) ∧
  (∀ (t : Fin 16) (x : MboxOp) (xs : List MboxOp) (s : State), s.hold = .run → ((s.tileAt t.val).mbox ++ (s.tileAt t.val).resp.toList ++ (s.tileAt t.val).unsent).filter (fun x => x.op == 3) = x :: xs →
    Does (.rindAckTimeout t) s (s.emit (128 + t.val) 0xA2 (tileSyn 0xA2 0xFF x.data.toNat))) ∧
  (∀ (t : Fin 16) (c : BitVec 16) (s : State),
    (s.tdie t.val : Int) ≤ c.toInt + 10 →
    Does (.tdieWarning t c) s ((s.tileEvent t.val 0xA0 c.toNat).showFault t.val)) ∧
  (∀ (t : Fin 16) (c : BitVec 16) (s : State),
    (s.tdie t.val : Int) ≤ c.toInt →
    s.bit (laneReg (t.val * 8)) (16 + hcTdie) = false →
    Does (.tdieTrip t c) s ((((forUpto 8 (fun l s => s.putF (rindReg (t.val * 8 + l)) 6 4 4) s).holdTile t.val hcTdie true 0xA1).tileEvent t.val 0xA1 c.toNat).showFault t.val)) ∧
  (∀ (t : Fin 16) (c : BitVec 16) (s : State),
    c.toInt + 15 < (s.tdie t.val : Int) →
    Does (.tdieRestart ⟨t, c⟩) s ((s.holdTile t.val hcTdie false 0).showFault t.val)) ∧
  (∀ (n : Fin 128) (j : Fin 8) (rail : BitVec 16) (x most : Rat) (s : State),
    s.laneSt n.val = lsRunning →
    x = (((s.laneAt n.val).samples.getD j.val 0#32).toInt : Rat) / 2147483648 * s.vNom (n.val / 8) →
    most = (s.laneAt n.val).fastMost x (railVolts rail.toNat) →
    most < (s.laneAt n.val).fast →
    most < 1 →
    most ≤ (s.laneAt n.val).fastLow →
    (s.laneAt n.val).fastAct = false →
    (s.laneAt n.val).fastPrev = false →
    Does (.fastPathLimit n ⟨j, rail⟩) s (((s.setLane n.val { s.laneAt n.val with fast := most, fastAct := true, fastLow := most }).laneEvent n.val 0x98 (most * 65536).floor.toNat).showFault (n.val / 8))) ∧
  (∀ (n : Fin 128) (t l : Nat) (s u : State) (b : List Byte) (re : Rat), s.hold = .run → t = n.val / 8 → l = 2 * (n.val % 8) →
    (s.diagAt n.val).good = some b → s.standard t = true → s.modelsOn b = true → leAt b 2 1 = 0 → s.probes b = true →
    reReading (s.lockAt t (l + 1)) (s.lockAt t l) = some re → (leAt b 0xB02 1).testBit 4 = false →
    u = (s.lockClear t l).lockClear t (l + 1) →
    Does (.modelSecondUpdate n () () () () () () ()) s ((u.readingKept n.val b re).driftSecond n.val b)) ∧
  (∀ (n : Fin 128) (t l : Nat) (s u : State) (b : List Byte), s.hold = .run → t = n.val / 8 → l = 2 * (n.val % 8) →
    (s.diagAt n.val).good = some b → s.standard t = true → s.modelsOn b = true → leAt b 2 1 = 0 → s.probes b = true →
    reReading (s.lockAt t (l + 1)) (s.lockAt t l) = none → (leAt b 0xB02 1).testBit 4 = true →
    u = (s.lockClear t l).lockClear t (l + 1) →
    Does (.modelSecondUpdate n () () () () () () ()) s ((u.identify n.val b).driftSecond n.val b)) ∧
  (∀ v i : LockIn, magSq i.phasor < 2 / 1000000 → reReading v i = none) ∧
  (∀ (x target f : Rat), 0 ≤ f → absRat (stepTo x target f - x) ≤ absRat x * f)

/-- A link trained on an absent port is shown; a link lost raises event 0xC0 and clears UP, and one that returns raises 0xC2; a
tile that powers up takes its stored defaults with empty mailboxes and waiting relays. A missing downstream frame is counted
in its run. A released lane with good gates runs and ramps in, with a low gate it is held with event 0xB7. A ramp in that
ends completes its command. LANE_RUN start is refused where the rail forbids or in LOCKOUT, completes at once on a lane that
plays, and else sets RUN; stop and mute ramp a running lane out, and complete at once on another; unmute clears MUTE.
SC_CLEAR leaves LOCKOUT through SAFE_OFF; RELAY_SET carries the masked commands. The next state of a lane follows the table
of R309. (Choices of the model it may rest on: log entries 12, 13, 93, 158.) Completes, with its own effect:
linkTrainedOnAbsentPort, tileLinkLost, tileLinkReturn, tileFaultNLow, tilePowerUp, downstreamFrameMissing, laneRelease,
laneRampDone, laneRunStart, laneRunStop, laneRunMute, laneRunUnmute, scClear, relaySet. (R22, R23, R309, R311, R312, R315,
R317, R322, R323, R303, R304) -/
def Obligations.TileLanes : Prop :=
  (∀ (t : Fin 16) (s : State), s.hold = .run → s.present t.val = false →
    Does (.linkTrainedOnAbsentPort t) s (s.setBit (Reg.tlLinkStatus t.val) 2 true)) ∧
  (∀ (t : Fin 16) (s : State), s.hold = .run → s.bit (Reg.tlLinkStatus t.val) 1 = true →
    Does (.tileLinkLost t) s ((((s.setBit (Reg.tlLinkStatus t.val) 1 false).setBit (Reg.tlLinkStatus t.val) 2 false).bump (Reg.tlLinkLossCnt t.val) 32).emit
      (128 + t.val) 0xC0 (tileSyn 0xC0 0xFF (s.tileAt t.val).upMiss))) ∧
  (∀ (t : Fin 16) (s u : State), s.hold = .run → s.present t.val = true → s.bit (Reg.tlLinkStatus t.val) 1 = false →
    u = (s.setBit (Reg.tlLinkStatus t.val) 1 true).setBit (Reg.tlLinkStatus t.val) 2 true →
    Does (.tileLinkReturn t) s ((u.setTile t.val { u.tileAt t.val with upMiss := 0 }).emit (128 + t.val) 0xC2 (tileSyn 0xC2 0xFF 0))) ∧
  (∀ (t : Fin 16) (s : State), s.hold = .run → s.bit (Reg.tlLinkStatus t.val) 1 = false →
    Does (.tileFaultNLow t) s ((s.setBit (Reg.tlLinkStatus t.val) 3 true).emit (128 + t.val) 0xC0 (tileSyn 0xC0 0xFF 0))) ∧
  (∀ (t : Fin 16) (s : State), ∃ u : State, Does (.tilePowerUp t) s (u.showFault t.val) ∧
      (u.tileAt t.val).defs = (s.tileAt t.val).defs ∧ (u.tileAt t.val).defsUse = (s.tileAt t.val).defs ∧
      (u.tileAt t.val).fresh = 0xFFF#12 ∧ (u.tileAt t.val).mbox = [] ∧ u.pacer = s.pacer ∧ u.vat = s.vat) ∧
  (∀ (t : Fin 16) (rails : List (BitVec 16)) (s : State),
    Does (.downstreamFrameMissing ⟨t, rails⟩) s ((s.frameMissing t.val (rails.map (·.toNat))).showFault t.val)) ∧
  (∀ (t : Fin 16) (rails : List Nat) (s : State), s.getF (Reg.tlLinkStatus t.val) 15 8 = 1 → (s.tileAt t.val).missSeen = true →
    (s.frameMissing t.val rails).getF (Reg.tlLinkStatus t.val) 15 8 = 2 ∧ ((s.frameMissing t.val rails).tileAt t.val).good = 0) ∧
  (∀ (n : Fin 128) (u : State) (s : State),
    s.laneSt n.val = lsSafeLow →
    s.laneRun n.val = true →
    s.groupHold n.val = 0#11 →
    (s.tileAt (n.val / 8)).aux12 = true →
    s.groupLanes n.val = [n.val] →
    u = (s.setLane n.val { s.laneAt n.val with edges := { (s.laneAt n.val).edges with shaper := [] } }).putF (laneReg n.val) 2 0 lsRunning →
    u.silenced = false →
    Does (.laneRelease n true) s ((u.ramp n.val .rampIn).showFault (n.val / 8))) ∧
  (∀ (n : Fin 128) (u : State) (s : State),
    s.laneSt n.val = lsSafeLow →
    s.laneRun n.val = true →
    s.groupHold n.val = 0#11 →
    (s.tileAt (n.val / 8)).aux12 = true →
    s.groupLanes n.val = [n.val] →
    u = (s.setLane n.val { s.laneAt n.val with edges := { (s.laneAt n.val).edges with shaper := [] } }).putF (laneReg n.val) 2 0 lsRunning →
    (u.silenced && !u.bit (Reg.tlLinkStatus (n.val / 8)) 5) = true →
    Does (.laneRelease n true) s ((u).showFault (n.val / 8))) ∧
  (∀ (n : Fin 128) (s : State),
    s.laneSt n.val = lsSafeLow →
    s.laneRun n.val = true →
    s.groupHold n.val = 0#11 →
    (s.tileAt (n.val / 8)).aux12 = true →
    Does (.laneRelease n false) s (((s.setHold n.val hcGate true 0xB7).laneEvent n.val 0xB7 0).showFault (n.val / 8))) ∧
  (∀ (n : Fin 128) (e : Sched) (s : State),
    (s.laneAt n.val).gain = .rampIn →
    (s.laneAt n.val).rampPos = rampLen →
    (s.laneAt n.val).cmd = some e →
    Does (.laneRampDone n) s (((s.setLane n.val { s.laneAt n.val with gain := .full, cmd := none }).completeWith e e.heat stOk 0).showFault (n.val / 8))) ∧
  (∀ (o : Origin) (d : Body) (s t : State) (e : Sched), s.Due (laneRunRow 1 laneStart) 0x0220 o d e → t = s.unschedule e.id →
    t.railForbids (d.byte 0) = true ∨ t.laneSt (d.byte 0) = lsLockout → Does (.laneRunStart .commit o d) s (t.complete e stMode)) ∧
  (∀ (o : Origin) (d : Body) (s t : State) (e : Sched) (n : Nat), s.Due (laneRunRow 1 laneStart) 0x0220 o d e → t = s.unschedule e.id →
    n = d.byte 0 → t.railForbids n = false → t.laneSt n = lsRunning → (t.laneAt n).cmd = none → Does (.laneRunStart .commit o d) s (t.complete e stOk)) ∧
  (∀ (o : Origin) (d : Body) (s t u : State) (e : Sched) (n : Nat), s.Due (laneRunRow 1 laneStart) 0x0220 o d e →
    t = s.unschedule e.id → n = d.byte 0 → t.railForbids n = false → t.laneSt n = lsOff → u = (t.supersede n e).setRun n true →
    (u.setLane n { u.laneAt n with stopped := false }).laneSt n = lsOff →
    Does (.laneRunStart .commit o d) s ((u.setLane n { u.laneAt n with stopped := false }).setLane n
      { (u.setLane n { u.laneAt n with stopped := false }).laneAt n with cmd := some e })) ∧
  (∀ (o : Origin) (d : Body) (s t u : State) (e : Sched) (n : Nat), s.Due (laneRunRow 0 laneStop) 0x0220 o d e →
    t = s.unschedule e.id → n = d.byte 0 →
    u = (t.supersede n e).setLane n { (t.supersede n e).laneAt n with stopped := true } → u.laneSt n ≠ lsRunning →
    Does (.laneRunStop .commit o d) s ((u.setRun n false).complete e stOk)) ∧
  (∀ (o : Origin) (d : Body) (s t u : State) (e : Sched) (n : Nat), s.Due (laneRunRow 0 laneStop) 0x0220 o d e →
    t = s.unschedule e.id → n = d.byte 0 →
    u = (t.supersede n e).setLane n { (t.supersede n e).laneAt n with stopped := true } → u.laneSt n = lsRunning →
    Does (.laneRunStop .commit o d) s ((u.ramp n .rampOut).setLane n { (u.ramp n .rampOut).laneAt n with cmd := some e })) ∧
  (∀ (o : Origin) (d : Body) (s t : State) (e : Sched) (n : Nat), s.Due (laneRunRow 2 laneMute) 0x0220 o d e → t = s.unschedule e.id →
    n = d.byte 0 → (t.supersede n e).laneSt n ≠ lsRunning → Does (.laneRunMute .commit o d) s (((t.supersede n e).setMute n true).complete e stOk)) ∧
  (∀ (o : Origin) (d : Body) (s t : State) (e : Sched) (n : Nat), s.Due (laneRunRow 3 laneUnmute) 0x0220 o d e → t = s.unschedule e.id →
    n = d.byte 0 → t.laneSt n = lsOff → (t.supersede n e).laneSt n = lsOff → ((t.supersede n e).laneAt n).mute = true → ((t.supersede n e).setMute n false).laneSt n = lsOff → Does (.laneRunUnmute .commit o d) s (((t.supersede n e).setMute n false).complete e stOk)) ∧
  (∀ (o : Origin) (d : Body) (s t : State) (e : Sched), s.Due scClearRow 0x0221 o d e → t = s.unschedule e.id →
    t.laneSt (d.byte 0) ≠ lsLockout → Does (.scClear .commit o d) s (t.complete e stOk)) ∧
  (∀ (o : Origin) (d : Body) (s t : State) (e : Sched) (n : Nat) (u : State), s.Due scClearRow 0x0221 o d e → t = s.unschedule e.id →
    n = d.byte 0 → t.laneSt n = lsLockout → t.groupLanes n = [n] → u = (t.setBit (laneReg n) (16 + hcOc) false).putF (laneReg n) 2 0 lsSafeOff → Does (.scClear .commit o d) s ((((((u.setLane n { u.laneAt n with shorts := [] }).setReg (Reg.tlLaneSc (n / 8) (n % 8)) 0).laneEval n 0).showFault
      (n / 8))).complete e stOk)) ∧
  (∀ (o : Origin) (d : Body) (s t : State) (e : Sched) (n : Nat) (m v : BitVec 12), s.Due relaySetRow 0x0222 o d e → t = s.unschedule e.id →
    n = d.byte 0 → m = BitVec.ofNat 12 (d.byte 1 * 256) → v = BitVec.ofNat 12 (d.byte 2 * 256) → Does (.relaySet .commit o d) s ((t.setTile n { t.tileAt n with relayCmd := ((t.tileAt n).relayCmd &&& ~~~m) ||| (v &&& m), fresh := (t.tileAt n).fresh &&& ~~~m }).complete
      e stOk)) ∧
  (∀ (st : Nat) (run : Bool) (h off : BitVec 11) (o : Bool),
    laneNext lsLockout run h off o = lsLockout ∧
    (st ≠ lsLockout → st ≠ lsProbe → off ≠ 0#11 → laneNext st run h off o = lsSafeOff) ∧
    laneNext lsSafeOff run h 0#11 o = lsSafeLow ∧
    (h ≠ 0#11 → laneNext lsRunning run h 0#11 o = lsSafeLow) ∧ laneNext lsRunning true 0#11 0#11 o = lsRunning ∧
    laneNext lsRunning false 0#11 0#11 o = lsOff ∧ laneNext lsSafeLow false 0#11 0#11 o = lsOff ∧
    laneNext lsSafeLow true h 0#11 o = lsSafeLow ∧ laneNext lsOff true h 0#11 o = lsSafeLow ∧ laneNext lsOff false h 0#11 o = lsOff ∧
    laneNext lsProbe run h off false = lsProbe)

/-- An ILIM hit is counted on a lane that runs or probes, and trips the lane with event 0xB1 on N hits in a row or a peak past
its bound; a probe starts 500 ms after a trip with OC the only cause, and ends confirming the short or clearing it. Clock
faults, TILE_SAFE_n, rail over- and undervoltage, rail ADC faults, low gate supplies and AUX12 hold their lanes, each with
its event once per occurrence, and clear again. Bonded imbalance raises 0xB8 on the lowest lane. A downstream frame the link
omits counts as missing; one sent reaches the tile and leaves pacer, vat, players and zones as they were. A good upstream
frame is taken, a bad one counted, none while the link is down. A faulty relay coil de-energises its driver with event 0xC7.
(Choices of the model it may rest on: log entries 91, 94, 97, 99, 155, 156, 157.) Completes, with its own effect: ilimHit,
probeStart, probeDone, laneClockFault, laneClockRecovered, tileSafeAssert, tileSafeRelease, railOvervoltage, railOvClear,
railUndervoltage, railUvClear, railAdcFault, hkFaultClear, gateSupplyLow, gateSupplyRecovered, aux12Low, aux12Restored,
bondImbalance, tdcCalibration, tlDownstreamFrame, tlUpstreamFrame, relayCoilFault. (R319, R320, R321, R300, R316, R318,
R314, R310, R307, R324, R323, R326) -/
def Obligations.TileEvents : Prop :=
  (∀ (n : Fin 128) (a : BitVec 16) (c : Bool) (s : State),
    s.laneSt n.val = lsOff →
    Does (.ilimHit n a c) s ((s).showFault (n.val / 8))) ∧
  (∀ (n : Fin 128) (a : BitVec 16) (s t : State), s.laneSt n.val = lsRunning → s.laneIlim n.val ≤ a.toNat →
    (s.laneAt n.val).ilimHeat = true →
    t = (s.bump (Reg.tlLaneIlimCnt (n.val / 8) (n.val % 8)) 32).setLane n.val { s.laneAt n.val with
      ilimRun := 1, ilimHeat := true, ilimFrame := (s.laneAt n.val).ilimFrame + 1,
      edges := { (s.laneAt n.val).edges with ilim := (s.laneAt n.val).edges.ilim + 1 } } →
    1 < t.laneN n.val → a.toNat * 2 ≤ min (t.laneIlim n.val * 3) 48000 →
    Does (.ilimHit n a false) s (t.showFault (n.val / 8))) ∧
  (∀ (n : Fin 128) (a : BitVec 16) (s t : State), s.laneSt n.val = lsRunning → s.laneIlim n.val ≤ a.toNat →
    (s.laneAt n.val).ilimHeat = true →
    t = (s.bump (Reg.tlLaneIlimCnt (n.val / 8) (n.val % 8)) 32).setLane n.val { s.laneAt n.val with
      ilimRun := 1, ilimHeat := true, ilimFrame := (s.laneAt n.val).ilimFrame + 1,
      edges := { (s.laneAt n.val).edges with ilim := (s.laneAt n.val).edges.ilim + 1 } } →
    min (t.laneIlim n.val * 3) 48000 < a.toNat * 2 →
    Does (.ilimHit n a false) s ((((t.setLane n.val { t.laneAt n.val with ilimRun := 0 }).setHold n.val hcOc true 0xB1).laneEvent n.val
      0xB1 a.toNat).showFault (n.val / 8))) ∧
  (∀ (n : Fin 128) (s u : State), s.laneSt n.val = lsSafeOff → s.groupHold n.val = 0x100#11 → (s.tileAt (n.val / 8)).aux12 = true →
    s.groupLanes n.val = [n.val] → u = s.putF (laneReg n.val) 2 0 lsProbe →
    Does (.probeStart n) s (((u.setBit (Reg.tlLaneSc (n.val / 8) (n.val % 8)) 6 true).setLane n.val
      { u.laneAt n.val with probeHit := false, probe := {} }).showFault (n.val / 8))) ∧
  (∀ (n : Fin 128) (z : Word) (s t : State), s.laneSt n.val = lsProbe → probeLen ≤ (s.laneAt n.val).probe.taken →
    z = (s.laneAt n.val).probe.z →
    t = (s.setReg (Reg.tlLaneProbeZ (n.val / 8) (n.val % 8)) z).setBit (Reg.tlLaneSc (n.val / 8) (n.val % 8)) 6 false →
    f32Finite z = true → (s.laneAt n.val).probeHit = true ∨ f32ToRat z * 20 < (t.laneZmin n.val : Rat) →
    Does (.probeDone n ()) s ((t.shortConfirmed n.val (min 65535 (f32ToRat z * 10).floor.toNat)).showFault (n.val / 8))) ∧
  (∀ (n : Fin 128) (z : Word) (s t : State), s.laneSt n.val = lsProbe → probeLen ≤ (s.laneAt n.val).probe.taken →
    z = (s.laneAt n.val).probe.z →
    t = (s.setReg (Reg.tlLaneProbeZ (n.val / 8) (n.val % 8)) z).setBit (Reg.tlLaneSc (n.val / 8) (n.val % 8)) 6 false →
    f32Finite z = true → (s.laneAt n.val).probeHit = false → (t.laneZmin n.val : Rat) ≤ f32ToRat z * 20 →
    Does (.probeDone n ()) s ((t.shortCleared n.val (min 65535 (f32ToRat z * 10).floor.toNat)).showFault (n.val / 8))) ∧
  (∀ (n : Fin 128) (h : TileH) (s : State),
    h = s.tileAt (n.val / 8) →
    Does (.laneClockFault n) s (((((((s.setBit (Reg.tlClkmon (n.val / 8)) (n.val % 8) true).setTile (n.val / 8)
      { h with islOut := h.islOut ||| (1#11 <<< (n.val % 8)) }).setHold n.val hcClk true 0xB5).showFault (n.val / 8)).laneEvent n.val 0xB5 0)).showFault (n.val / 8))) ∧
  (∀ (n : Fin 128) (h : TileH) (s : State),
    h = s.tileAt (n.val / 8) →
    Does (.laneClockRecovered n) s ((((s.setTile (n.val / 8)
      { h with islOut := h.islOut &&& ~~~(1#11 <<< (n.val % 8)) }).setHold n.val hcClk false 0).showFault (n.val / 8)).showFault (n.val / 8))) ∧
  (∀ (t : Fin 16) (s : State),
    Does (.tileSafeAssert t) s ((s.tileSafeOn t.val).showFault t.val)) ∧
  (∀ (t : Fin 16) (s : State),
    Does (.tileSafeRelease t) s ((s.tileSafeOff t.val).showFault t.val)) ∧
  (∀ (t : Nat) (s : State), (s.tileSafeOn t).pins.tileSafe = s.pins.tileSafe ||| (1#16 <<< t) ∧ (s.tileSafeOff t).pins.tileSafe = s.pins.tileSafe &&& ~~~(1#16 <<< t)) ∧
  (∀ (t : Fin 16) (v : BitVec 16) (s : State),
    s.getF (Reg.tlRailOv t.val) 15 0 < v.toNat →
    s.bit (laneReg (t.val * 8)) (16 + hcOv) = false →
    Does (.railOvervoltage t v) s (((s.holdTile t.val hcOv true 0xC3).tileEvent t.val 0xC3 v.toNat).showFault t.val)) ∧
  (∀ (t : Fin 16) (v : BitVec 16) (s : State),
    s.getF (Reg.tlRailOv t.val) 15 0 < v.toNat →
    s.bit (laneReg (t.val * 8)) (16 + hcOv) = true →
    Does (.railOvervoltage t v) s ((s.holdTile t.val hcOv true 0xC3).showFault t.val)) ∧
  (∀ (t : Fin 16) (v : BitVec 16) (s : State),
    v.toNat + 50 < s.getF (Reg.tlRailOv t.val) 15 0 →
    Does (.railOvClear ⟨t, v⟩) s ((s.holdTile t.val hcOv false 0).showFault t.val)) ∧
  (∀ (t : Fin 16) (v : BitVec 16) (s : State),
    v.toNat < s.getF (Reg.tlRailUv t.val) 15 0 →
    s.bit (laneReg (t.val * 8)) (16 + hcUv) = false →
    Does (.railUndervoltage t v) s (((s.holdTile t.val hcUv true 0xC4).tileEvent t.val 0xC4 v.toNat).showFault t.val)) ∧
  (∀ (t : Fin 16) (v : BitVec 16) (s : State),
    s.getF (Reg.tlRailUv t.val) 15 0 + 20 < v.toNat →
    Does (.railUvClear ⟨t, v⟩) s ((s.holdTile t.val hcUv false 0).showFault t.val)) ∧
  (∀ (t : Fin 16) (v : BitVec 16) (s : State),
    s.bit (laneReg (t.val * 8)) (16 + hcHk) = false →
    Does (.railAdcFault t v) s (((s.holdTile t.val hcHk true 0xC8).tileEvent t.val 0xC8 v.toNat).showFault t.val)) ∧
  (∀ (t : Fin 16) (s : State),
    (s.tileAt t.val).islOut &&& 0x600#11 = 0#11 →
    Does (.hkFaultClear t) s (((s.holdTile t.val hcHk false 0).showFault t.val).showFault t.val)) ∧
  (∀ (n : Fin 128) (s : State),
    s.bit (laneReg n.val) (16 + hcGate) = false →
    Does (.gateSupplyLow n) s (((s.setHold n.val hcGate true 0xB7).laneEvent n.val 0xB7 0).showFault (n.val / 8))) ∧
  (∀ (n : Fin 128) (s : State),
    Does (.gateSupplyRecovered n) s ((s.setHold n.val hcGate false 0).showFault (n.val / 8))) ∧
  (∀ (t : Fin 16) (s : State),
    Does (.aux12Low t) s ((((s.setTile t.val { s.tileAt t.val with aux12 := false }).relaysOff t.val).tileEval t.val 0).showFault t.val)) ∧
  (∀ (t : Fin 16) (s : State),
    Does (.aux12Restored t) s (((s.setTile t.val { s.tileAt t.val with aux12 := true }).tileEval t.val 0).showFault t.val)) ∧
  (∀ (n : Fin 128) (s : State),
    9600 ≤ (s.laneAt n.val).uneven →
    Does (.bondImbalance n ()) s ((s.laneEvent (s.groupLow n.val) 0xB8 (s.lastMA n.val).natAbs).showFault (n.val / 8))) ∧
  (∀ (t : Fin 16) (s : State),
    Does (.tdcCalibration t) s ((s.setTile t.val { s.tileAt t.val with tdcCals := (s.tileAt t.val).tdcCals + 1 }).showFault t.val)) ∧
  (∀ (t : Fin 16) (k : Fin 48) (rails : List (BitVec 16)) (s : State), s.bit (Reg.tlLinkStatus t.val) 1 = true →
    0 < (s.tileAt t.val).omitFrames →
    Does (.tlDownstreamFrame t k rails) s (((s.setTile t.val { s.tileAt t.val with
      omitFrames := (s.tileAt t.val).omitFrames - 1 }).frameMissing t.val (rails.map (·.toNat))).showFault t.val)) ∧
  (∀ (t : Fin 16) (k : Fin 48) (rails : List (BitVec 16)) (s : State), s.bit (Reg.tlLinkStatus t.val) 1 = true →
    (s.tileAt t.val).omitFrames = 0 →
    ∃ (u : State) (frame : List Byte), Does (.tlDownstreamFrame t k rails) s ((u.setTile t.val { u.tileAt t.val with down := frame }).showFault t.val) ∧
      u.pacer = s.pacer ∧ u.vat = s.vat ∧ u.hold = s.hold ∧ u.players = s.players ∧ u.zones = s.zones) ∧
  (∀ (t : Fin 16) (k : Fin 48) (m : TileMeasure) (u : State) (s : State),
    u = s.tileMeasured t.val m →
    u.bit (Reg.tlLinkStatus t.val) 1 = true →
    m.good = true →
    Does (.tlUpstreamFrame t k m) s ((u.upstream t.val k.val m).showFault t.val)) ∧
  (∀ (t : Fin 16) (k : Fin 48) (m : TileMeasure) (u : State) (s : State),
    u = s.tileMeasured t.val m →
    u.bit (Reg.tlLinkStatus t.val) 1 = true →
    m.good = false →
    Does (.tlUpstreamFrame t k m) s ((u.upstreamBad t.val k.val (s.tileAt t.val).heard).showFault t.val)) ∧
  (∀ (t : Fin 16) (k : Fin 48) (m : TileMeasure) (u : State) (s : State),
    u = s.tileMeasured t.val m →
    u.bit (Reg.tlLinkStatus t.val) 1 = false →
    Does (.tlUpstreamFrame t k m) s ((u).showFault t.val)) ∧
  (∀ (s : State) (t : Nat), (s.tileAt t).evs = [] → s.deliver t = s.setTile t { s.tileAt t with evs := [] }) ∧
  (∀ (t : Fin 16) (r : Fin 12) (a : BitVec 16) (s u : State),
    u = (s.setBit (Reg.tlRelay t.val) (16 + r.val) true).setBit (Reg.tlRelay t.val) r.val false →
    Does (.relayCoilFault t r a) s (((u.setTile t.val { u.tileAt t.val with
      fresh := (u.tileAt t.val).fresh ||| (1#12 <<< r.val) }).tileEvent t.val 0xC7 a.toNat).showFault t.val))

/-- TEST_REQ is refused while diagnostics are off, starts an admitted test for which there is room, and queues another;
TEST_CANCEL stops a running test; TESTGEN_SET gives a generator its wave with a crossfade. A test that has measured all it
measures is recorded by its kind, taken off its lane and dropped; a change of the lane judges it; a queued test that waited
too long is dropped with event 0xDA. A window of a muted lane restarts the run of verdicts, an invalid one counts as
missing, a valid one gives its impedance to the record; a lane without a baseline has no verdict, a pilot current below 10
µA is an open load, an impedance below its bound a short. A lane without a valid window for 2 s is BLIND, and after 100 s
raises event 0xD9. A write of an admission register that would admit what its rule forbids only sets its error bit. (Choices
of the model it may rest on: log entries 100, 101, 149, 159, 160, 161, 162, 163.) Completes, with its own effect: testReq,
testCancel, testgenSet, testDone, testStop, testExpired, pilotWindowEnd, pilotBlind, pilotBlindLong, lpDiagAdmitWrite.
(R349, R350, R351, R355, R363, R364, R365, R366, R339, R340, R342, R343) -/
def Obligations.Diagnostics : Prop :=
  (∀ (o : Origin) (d : Body) (s t : State) (e : Sched), s.Due testReqRow 0x0400 o d e → t = s.unschedule e.id →
    d.byte 2 % 2 = 0 → t.bit Reg.lpDiagCtrl 0 = false → Does (.testReq .commit o d) s (t.complete e stMode)) ∧
  (∀ (o : Origin) (d : Body) (s t : State) (e : Sched) (n k : Nat), s.Due testReqRow 0x0400 o d e → t = s.unschedule e.id →
    n = d.byte 0 → k = d.byte 1 → d.byte 2 % 2 = 0 → t.bit Reg.lpDiagCtrl 0 = true → t.wup = false → t.admitEntry k (t.diagState n) false = adRun → t.tests = [] → t.testRoom { upd := e, lane := n, kind := k, forced := false } = true → Does (.testReq .commit o d) s ((State.testStart { t with tests := [{ upd := e, lane := n, kind := k, forced := false }] }
      { upd := e, lane := n, kind := k, forced := false } adRun).complete e stOk)) ∧
  (∀ (o : Origin) (d : Body) (s t : State) (e : Sched) (n k : Nat), s.Due testReqRow 0x0400 o d e → t = s.unschedule e.id →
    n = d.byte 0 → k = d.byte 1 → d.byte 2 % 2 = 0 → t.bit Reg.lpDiagCtrl 0 = true → t.wup = false → t.admitEntry k (t.diagState n) false ≠ adRefuse → t.admitEntry k (t.diagState n) false ≠ adRun → t.admitEntry k (t.diagState n) false ≠ adInaud → t.tests = [] → Does (.testReq .commit o d) s ((State.showDiag { t with tests := [{ upd := e, lane := n, kind := k, forced := false, queued := true, since := t.heat }] } n).complete e stDeferred)) ∧
  (∀ (o : Origin) (d : Body) (s t : State) (e : Sched), s.Due testCancelRow 0x0401 o d e → t = s.unschedule e.id →
    t.tests = [] → Does (.testCancel .commit o d) s (t.complete e stOk)) ∧
  (∀ (o : Origin) (d : Body) (s t : State) (e : Sched) (x : TestH), s.Due testCancelRow 0x0401 o d e → t = s.unschedule e.id →
    t.tests = [x] → x.lane = d.byte 0 → d.byte 1 = 0 → x.running = true → Does (.testCancel .commit o d) s ((t.testStop x false).complete e stOk)) ∧
  (∀ (o : Origin) (d : Body) (s t : State) (e : Sched) (g : Nat) (h : GenH), s.Due testgenSetRow 0x0402 o d e → t = s.unschedule e.id →
    g = d.byte 0 → h = { cur := { cfg := (d.payload ++ List.replicate 16 0#8).take 16, lfsr := 0x40000000 + g }, old := (Sparse.get {} t.gens g).cur, fade := some 0 } → Does (.testgenSet .commit o d) s (State.complete { t with gens := Sparse.set {} t.gens g h } e stOk)) ∧
  (∀ (n : Fin 128) (s : State) (x : TestH), s.hold = .run →
    s.tests.find? (fun t => t.running && t.lane == n.val) = some x → x.kind = tkCal → s.calFull n.val = true →
    Does (.testDone n ()) s ((((s.calDone x).testOff x).dropTest x).showDiag n.val)) ∧
  (∀ (n : Fin 128) (s : State) (x : TestH) (e : EarthH), s.hold = .run →
    s.tests.find? (fun t => t.running && t.lane == n.val) = some x → x.kind = tkEarth → (s.laneAt n.val).earth = some e →
    2 * e.frames ≤ e.taken → Does (.testDone n ()) s ((((s.earthDone x e).testOff x).dropTest x).showDiag n.val)) ∧
  (∀ (n : Fin 128) (s : State) (x : TestH), s.hold = .run →
    s.tests.find? (fun t => t.running && t.lane == n.val) = some x → s.progDone x = true →
    (x.kind = tkSpectro → Does (.testDone n ()) s ((((s.spectroDone x).testOff x).dropTest x).showDiag n.val)) ∧
    (x.kind = tkTweeter → Does (.testDone n ()) s ((((s.tweeterDone x).testOff x).dropTest x).showDiag n.val)) ∧
    (x.kind = tkProve → Does (.testDone n ()) s ((((s.proveDone x).testOff x).dropTest x).showDiag n.val))) ∧
  (∀ (n : Fin 128) (s : State) (x : TestH), s.hold = .run → s.tests.find? (fun t => t.running && t.lane == n.val) = some x →
    Does (.testStop n) s (s.testJudge x)) ∧
  (∀ (n : Fin 128) (k : Fin 6) (s u : State) (x : TestH), s.hold = .run →
    s.tests.find? (fun t => !t.running && t.lane == n.val && t.kind == k.val && t.upd.desc.body.pl 6 2 != 0 &&
      decide (t.since + t.upd.desc.body.pl 6 2 * 1000 ≤ s.heat)) = some x →
    u = ((s.testRecord x rsExpired 0 [] []).dropTest x).bump Reg.lpDiagExpCnt 32 →
    Does (.testExpired n k) s ((u.emit n.val 0xDA (diagSyn 0xDA x.kind 0)).showDiag n.val)) ∧
  (∀ (n : Fin 128) (s : State), s.hold = .run → s.diagState n.val = dsMuted →
    Does (.pilotWindowEnd n () () () () ()) s (s.setDiag n.val { s.diagAt n.val with run := 0, cand := 0, win := 0 })) ∧
  (∀ (n : Fin 128) (s : State), s.hold = .run → s.diagState n.val ≠ dsFaulted → s.diagState n.val ≠ dsMuted →
    s.relayOn n.val = false → s.pilotOn n.val = true → 0 < (s.diagAt n.val).win →
    (supF ((s.diagAt n.val).good.getD []) 0x0C).floor.toNat ≤ (s.diagAt n.val).win → (s.diagAt n.val).winOk = false →
    Does (.pilotWindowEnd n () () () () ()) s
      ((s.setDiag n.val { s.diagAt n.val with since := min 255 ((s.diagAt n.val).since + 1), win := 0 }).showSup n.val (s.verdict n.val))) ∧
  (∀ (n : Fin 128) (s u : State) (b : List Byte) (z ph v i : Word), s.hold = .run → s.diagState n.val ≠ dsFaulted →
    s.diagState n.val ≠ dsMuted → s.relayOn n.val = false → s.pilotOn n.val = true → 0 < (s.diagAt n.val).win →
    (s.diagAt n.val).good = some b → (supF b 0x0C).floor.toNat ≤ (s.diagAt n.val).win → (s.diagAt n.val).winOk = true →
    pilotWords (s.pilotPair n.val).1 (s.pilotPair n.val).2 = (z, ph, v, i) → verdictOf b z ph i = s.verdict n.val →
    u = (s.telPut n.val 80 (bytesOfWords [z, ph, v, i])).setAdmit n.val { s.admitAt n.val with valid := true } →
    Does (.pilotWindowEnd n () () () () ()) s ((u.setDiag n.val { s.diagAt n.val with
      since := 0, blind := false, cand := 0, run := 0, win := 0, noWin := 0 }).showSup n.val (s.verdict n.val))) ∧
  (∀ (b : List Byte) (z ph i : Word), leAt b 0xE02 1 / 2 % 2 = 1 → sampleVal i < 1 / 100000 → verdictOf b z ph i = vdOpen) ∧
  (∀ (b : List Byte) (z ph i : Word), leAt b 0xE02 1 / 2 % 2 = 0 → verdictOf b z ph i = 0) ∧
  (∀ (b : List Byte) (z ph i : Word), leAt b 0xE02 1 / 2 % 2 = 1 → 1 / 100000 ≤ sampleVal i → f32Finite z = true →
    f32ToRat z ≤ supF b 0x20 * supF b 0x10 → f32ToRat z < supF b 0x24 * supF b 0x10 → verdictOf b z ph i = vdShort) ∧
  (∀ (n : Fin 128) (s : State), s.hold = .run → s.pilotBase n.val = true → s.verdict n.val ≠ vdBlind → 2000 ≤ (s.diagAt n.val).noWin →
    Does (.pilotBlind n) s ((s.setDiag n.val { s.diagAt n.val with blind := true, cand := 0, run := 0 }).newVerdict n.val vdBlind)) ∧
  (∀ (n : Fin 128) (s : State), s.hold = .run → s.pilotBase n.val = true → s.verdict n.val = vdBlind → 102000 ≤ (s.diagAt n.val).noWin →
    Does (.pilotBlindLong n) s (s.emit n.val 0xD9 (diagSyn 0xD9 vdBlind 0))) ∧
  (∀ (m : Master) (k : Fin 5) (v : Word) (s : State), s.hold = .run → s.may m (admitReg (k.val + 1)) = true → admitBad (k.val + 1) (fld v 9 0) = true →
    Does (.lpDiagAdmitWrite m k v) s (s.setBit Reg.lpDiagCtrl 1 true)) ∧
  (∀ (m : Master) (k : Fin 5) (v : Word) (s : State), s.hold = .run → s.may m (admitReg (k.val + 1)) = true → admitBad (k.val + 1) (fld v 9 0) = false →
    Does (.lpDiagAdmitWrite m k v) s (s.rawWrite (admitReg (k.val + 1)) v))

/-- MODE_SET enters and leaves VA, battery and maintenance modes with their events, is refused maintenance under VA, cannot
enter warm-up, leaves it through a crossover once the mixer runs and the present LPs stand by, enters factory test only
UNLOCKED and outside VA, and cannot leave it. A limited maintenance mode times out. In the crossover a lane reaches zero at
its crossing or through a ramp, then takes its registers, and the last one ends warm-up with event 0xE8. (Choices of the
model it may rest on: log entries 98, 102, 164.) Completes, with its own effect: modeSetVa, modeSetBat, modeSetMnt,
modeSetWup, modeSetFtm, mntTimeout, crossoverZeroCrossing, crossoverApply, crossoverComplete. (R371, R373, R375, R376, R379,
R547, R548, R549) -/
def Obligations.Modes : Prop :=
  (∀ (o : Origin) (d : Body) (s t : State) (e : Sched), s.Due modeVaRow 0x0500 o d e → t = s.unschedule e.id →
    t.wup = false → d.byte 1 = 1 → t.vaFlag = false → Does (.modeSetVa .commit o d) s (((((t.setMode 1 true).modeEvent 0xE0 mdVa).testsJudge).complete e stOk))) ∧
  (∀ (o : Origin) (d : Body) (s t : State) (e : Sched), s.Due modeVaRow 0x0500 o d e → t = s.unschedule e.id →
    t.wup = false → d.byte 1 = 0 → t.vaFlag = true → Does (.modeSetVa .commit o d) s (((((t.setMode 1 false).modeEvent 0xE1 mdVa).testsJudge).complete e stOk))) ∧
  (∀ (o : Origin) (d : Body) (s t : State) (e : Sched), s.Due modeBatRow 0x0500 o d e → t = s.unschedule e.id →
    t.wup = false → d.byte 1 = 1 → t.batMode = false → (t.setMode 15 true).bit Reg.gblMode 15 = true → (t.setMode 15 true).batMode = false → Does (.modeSetBat .commit o d) s ((((((t.setMode 15 true).setMode 5 true).modeEvent 0xE2 mdBat).testsJudge).complete e stOk))) ∧
  (∀ (o : Origin) (d : Body) (s t : State) (e : Sched), s.Due modeMntRow 0x0500 o d e → t = s.unschedule e.id →
    t.wup = false → d.byte 1 = 1 → t.mnt = false → t.vaFlag = true → Does (.modeSetMnt .commit o d) s (t.complete e stMode)) ∧
  (∀ (o : Origin) (d : Body) (s t : State) (e : Sched), s.Due modeMntRow 0x0500 o d e → t = s.unschedule e.id →
    t.wup = false → d.byte 1 = 1 → t.mnt = false → t.vaFlag = false → Does (.modeSetMnt .commit o d) s (((State.setMode { t with modes := { t.modes with mntHeats := 0 } } 10 true).modeEvent 0xE4 mdMnt).complete e stOk)) ∧
  (∀ (o : Origin) (d : Body) (s t : State) (e : Sched), s.Due modeMntRow 0x0500 o d e → t = s.unschedule e.id →
    t.wup = false → d.byte 1 = 0 → t.mnt = true → Does (.modeSetMnt .commit o d) s ((t.mntLeave).complete e stOk)) ∧
  (∀ (o : Origin) (d : Body) (s t : State) (e : Sched), s.Due modeWupRow 0x0500 o d e → t = s.unschedule e.id →
    d.byte 1 = 1 → t.stepPending = false → Does (.modeSetWup .commit o d) s (t.complete e stMode)) ∧
  (∀ (o : Origin) (d : Body) (s t : State) (e : Sched), s.Due modeWupRow 0x0500 o d e → t = s.unschedule e.id →
    d.byte 1 = 0 → t.stepPending = false → t.wup = true → t.bit Reg.zmCtrl 0 = true → t.presentTiles.any (fun n => t.lpSt n != lpStandby) = false → Does (.modeSetWup .commit o d) s (t.crossover e)) ∧
  (∀ (o : Origin) (d : Body) (s t : State) (e : Sched), s.Due modeFtmRow 0x0500 o d e → t = s.unschedule e.id →
    d.byte 1 = 0 → t.stepPending = false → Does (.modeSetFtm .commit o d) s (t.complete e stMode)) ∧
  (∀ (o : Origin) (d : Body) (s t : State) (e : Sched), s.Due modeFtmRow 0x0500 o d e → t = s.unschedule e.id →
    d.byte 1 = 1 → t.wup = false → t.ftm = false → t.bit Reg.gblMode 18 = false → Does (.modeSetFtm .commit o d) s (t.complete e stMode)) ∧
  (∀ (o : Origin) (d : Body) (s t : State) (e : Sched) (u : State), s.Due modeFtmRow 0x0500 o d e → t = s.unschedule e.id →
    d.byte 1 = 1 → t.wup = false → t.ftm = false → t.bit Reg.gblMode 18 = true → t.vaFlag = false → u = ((t.setMode 11 true).setMode 18 false).modeEvent 0xE6 mdFtm → u.wup = false → Does (.modeSetFtm .commit o d) s (u.complete e stOk)) ∧
  (∀ (s : State), s.hold = .run → s.mnt = true → s.getF Reg.gblModeCfg 31 24 ≠ 0 → s.getF Reg.gblModeCfg 31 24 * 60000 ≤ s.modes.mntHeats →
    Does .mntTimeout s (s.mntLeave)) ∧
  (∀ (s : State), s.hold = .run → s.mnt = true → s.getF Reg.gblModeCfg 31 24 = 0 →
    Does .mntTimeout s (s)) ∧
  (∀ (n : Fin 128) (s : State),
    s.xover.lanes.contains (n.val, XPhase.waiting) = true →
    s.xover.since + 1000000 + zcTaken (s.getF Reg.zmCtrl 24 16) * 100000 ≤ s.pacer.ns.toNat →
    Does (.crossoverZeroCrossing n true) s (((s.setXphase n.val .fading).ramp n.val .rampOut).showFault (n.val / 8))) ∧
  (∀ (n : Fin 128) (s : State),
    s.xover.lanes.contains (n.val, XPhase.waiting) = true →
    s.xover.since + 1000000 ≤ s.pacer.ns.toNat →
    (s.laneAt n.val).crossed = true →
    Does (.crossoverZeroCrossing n false) s ((s.xoverZero n.val).showFault (n.val / 8))) ∧
  (∀ (n : Fin 128) (h : Nat) (s : State),
    s.xover.lanes = [(n.val, XPhase.zeroed h)] →
    h < s.heat →
    s.laneSt n.val ≠ lsRunning →
    Does (.crossoverApply n) s (((s.setXphase n.val .passed).setBit (Reg.tlLinkStatus (n.val / 8)) 5 false).showFault (n.val / 8))) ∧
  (∀ (s : State) (e : Sched), s.hold = .run → s.xover = { active := true, upd := some e, lanes := [] } →
    Does .crossoverComplete s (((s.wupOver).modeEvent 0xE8 mdWup).complete e stOk))

/-- A control frame of the wrong length or CRC is counted; one that names the partner is accepted, one that names another
engine, or this one, is discarded with its event; a bus frame that is not late is kept for its heat. The loss of block lock
takes the link down with event 0xF1; without accepted frames the heartbeat times out, and once a loss with a live line
raises event 0xF2. A takeover rechecks its line, closes the relay, releases the lane on the bus it takes and completes with
event 0xF3, or comes back with 0xF4; a missing partner bus moves the lane to its own zone with 0xF9. A return after silence,
the longest hold or PAIR_RETURN is scheduled four heats on, mutes, opens the relay, restores the route and completes with
0xF5. PAIR_BIND and PAIR_BUS set their bindings, a partner lane being named once. (Choices of the model it may rest on: log
entries 103, 104, 168, 169.) Completes, with its own effect: troxlinkControlFrame, troxlinkBusFrame, blockLockLoss,
heartbeatTimeout, partnerAliveCheck, partnerBusMissing, takeoverRecheck, takeoverRelease, takeoverComplete, returnSilence,
maxHoldExpiry, returnMute, returnRelayClear, returnRestore, returnComplete, pairBind, pairBus, pairReturn. (R390, R391,
R392, R394, R397, R398, R399, R400, R403, R404, R395, R405) -/
def Obligations.Troxlink : Prop :=
  (∀ (bs : List Byte) (s : State), s.hold = .run → s.inReset 221 = false → s.bit Reg.txlCtrl 0 = true → (s.setBit Reg.txlStatus 1 true).bit Reg.txlCtrl 0 = true → bs.length ≠ 128 →
    Does (.troxlinkControlFrame bs) s (State.bump { s.setBit Reg.txlStatus 1 true with txl := { s.txl with good := 0 } } Reg.txlCrcCnt 32)) ∧
  (∀ (bs : List Byte) (s t : State), s.hold = .run → s.inReset 221 = false → t = s.setBit Reg.txlStatus 1 true →
    t.bit Reg.txlCtrl 0 = true → bs.length = 128 → (crc32 (bs.take 124)).toNat = leAt bs 124 4 →
    leAt bs 8 1 % 64 = (t.putF Reg.txlPartner 13 8 (leAt bs 8 1 % 64)).getF Reg.txlCtrl 21 16 →
    leAt bs 8 1 % 64 ≠ t.straps.engineId.toNat →
    Does (.troxlinkControlFrame bs) s ((t.putF Reg.txlPartner 13 8 (leAt bs 8 1 % 64)).controlAccepted bs)) ∧
  (∀ (bs : List Byte) (s t : State), s.hold = .run → s.inReset 221 = false → t = s.setBit Reg.txlStatus 1 true →
    t.bit Reg.txlCtrl 0 = true → bs.length = 128 → (crc32 (bs.take 124)).toNat = leAt bs 124 4 →
    leAt bs 8 1 % 64 ≠ (t.putF Reg.txlPartner 13 8 (leAt bs 8 1 % 64)).getF Reg.txlCtrl 21 16 ∨
      leAt bs 8 1 % 64 = t.straps.engineId.toNat →
    Does (.troxlinkControlFrame bs) s ((t.putF Reg.txlPartner 13 8 (leAt bs 8 1 % 64)).wrongEngine (leAt bs 8 1 % 64))) ∧
  (∀ (bs : List Byte) (s t : State) (old new : List (Nat × List Word)), s.hold = .run → s.inReset 221 = false →
    t = s.setBit Reg.txlStatus 1 true → t.bit Reg.txlCtrl 0 = true → bs.length = 208 → (crc32 (bs.take 204)).toNat = leAt bs 204 4 → t.heat < leAt bs 0 8 + 2 →
    old = (Sparse.get [] t.pbus (leAt bs 8 1)).filter (fun x => x.1 != leAt bs 0 8) →
    new = ((leAt bs 0 8, wordsOf 48 ((bs.drop 12).take 192)) :: old).take 8 →
    Does (.troxlinkBusFrame bs) s { t with pbus := Sparse.set [] t.pbus (leAt bs 8 1) new }) ∧
  (∀ (s : State), s.hold = .run →
    Does .blockLockLoss s ((s.setBit Reg.txlStatus 1 false).txlDown)) ∧
  (∀ s : State, s.bit Reg.txlStatus 2 = true → s.bound = [] →
    s.txlDown = (State.setBit { s with txl := { s.txl with good := 0, lostFor := some 0, checked := false } } Reg.txlStatus 2
      false).txlEvent 0xF1 0xFF 0xFF s.txl.miss) ∧
  (∀ (s : State), s.hold = .run → s.txl.miss < s.hbTimeout →
    Does .heartbeatTimeout s (s)) ∧
  (∀ s t : State, s.hold = .run → s.hbTimeout ≤ s.txl.miss → t = (s.setBit Reg.txlStatus 3 true).txlDown → t.bound = [] →
    Does .heartbeatTimeout s t.freeOwnMutes) ∧
  (∀ s t : State, s.hold = .run → s.txl.checked = false → s.txl.lostFor.any (s.evidHeats ≤ ·) = true →
    t = { s with txl := { s.txl with checked := true } } → t.bound.any t.lineLive = true →
    Does .partnerAliveCheck s (t.txlEvent 0xF2 0xFF 0xFF 0)) ∧
  (∀ (n : Fin 128) (s t : State), s.hold = .run → 4 ≤ (s.pairLAt n.val).miss → s.bit (Reg.txlBstate n.val) 8 = true →
    s.groupLanes n.val = [n.val] →
    t = (s.setRoute n.val ((s.routeAt n.val).change (s.pairLAt n.val).home)).showRoute n.val →
    Does (.partnerBusMissing n) s ((t.setBit (Reg.txlBstate n.val) 8 false).pairEvent 0xF9 n.val (s.pairLAt n.val).miss)) ∧
  (∀ (n : Fin 128) (s : State), s.hold = .run → s.pairSt n.val = bsSwitchIn → (s.pairLAt n.val).step = .rampOut → s.pairSafe n.val = true → s.bit (Reg.txlBstate n.val) 9 = true →
    Does (.takeoverRecheck n) s ((s.setPairL n.val { s.pairLAt n.val with step := .relay, since := s.pacer.ns.toNat }).setRelay n.val true)) ∧
  (∀ (n : Fin 128) (s : State), s.hold = .run → s.pairSt n.val = bsSwitchIn → (s.pairLAt n.val).step = .rampOut → s.pairSafe n.val = true → s.bit (Reg.txlBstate n.val) 9 = false →
    Does (.takeoverRecheck n) s ((((s.freeRoute n.val).takeMute n.val false).pairEvent 0xF4 n.val 0).toWatch n.val)) ∧
  (∀ (n : Fin 128) (s : State), s.hold = .run → s.pairSt n.val = bsSwitchIn → (s.pairLAt n.val).step = .relay → s.settled n.val = true → s.relayShown n.val = true →
    Does (.takeoverRelease n) s (((s.setSource n.val (s.takeSource n.val)).setPairL n.val
      { s.pairLAt n.val with step := .rampIn, held := true, miss := 0 }).takeMute n.val false)) ∧
  (∀ (n : Fin 128) (s : State), s.hold = .run → s.pairSt n.val = bsSwitchIn → (s.pairLAt n.val).step = .relay → s.settled n.val = true → s.relayShown n.val = false →
    Does (.takeoverRelease n) s (s.pairRelease n.val)) ∧
  (∀ (n : Fin 128) (s : State), s.hold = .run → s.pairSt n.val = bsSwitchIn → (s.pairLAt n.val).step = .rampIn → s.pairFull n.val = true →
    Does (.takeoverComplete n) s ((((((s.setPairL n.val { s.pairLAt n.val with step := .none, silent := 0 }).setPairSt n.val bsTaken).setTakenBit n.val true).bump
      Reg.txlTakeCnt 32).pairEvent 0xF3 n.val 0))) ∧
  (∀ (n : Fin 128) (s : State), s.hold = .run → 2000 ≤ (s.pairLAt n.val).silent → s.pairSt n.val = bsReturnWait → s.pairVa n.val = false →
    Does (.returnSilence n) s ((s.setPairSt n.val bsSwitchOut).setPairL n.val { s.pairLAt n.val with step := .none, retHeat := s.heat + 4 })) ∧
  (∀ (n : Fin 128) (s : State), s.hold = .run → (s.pairLAt n.val).silent < 2000 →
    Does (.returnSilence n) s (s)) ∧
  (∀ (n : Fin 128) (s : State), s.hold = .run → clampNat 10 65535 (s.getF Reg.txlCfg 31 16) * 1000 ≤ (s.pairLAt n.val).waited → s.pairSt n.val = bsReturnWait → s.pairVa n.val = false →
    Does (.maxHoldExpiry n) s ((s.setPairSt n.val bsSwitchOut).setPairL n.val { s.pairLAt n.val with step := .none, retHeat := s.heat + 4 })) ∧
  (∀ (n : Fin 128) (s : State), s.hold = .run → s.pairSt n.val = bsSwitchOut → (s.pairLAt n.val).step = .none → (s.pairLAt n.val).retHeat ≤ s.heat →
    Does (.returnMute n) s ((s.setPairL n.val { s.pairLAt n.val with step := .rampOut }).takeMute n.val true)) ∧
  (∀ (n : Fin 128) (s : State), s.hold = .run → s.pairSt n.val = bsSwitchOut → (s.pairLAt n.val).step = .rampOut → s.pairSafe n.val = true →
    Does (.returnRelayClear n) s ((s.setPairL n.val { s.pairLAt n.val with step := .relay, held := false, since := s.pacer.ns.toNat }).setRelay n.val false)) ∧
  (∀ (n : Fin 128) (s : State), s.hold = .run → s.pairSt n.val = bsSwitchOut → (s.pairLAt n.val).step = .relay → s.relayShown n.val = false → s.settled n.val = true →
    Does (.returnRestore n) s ((((s.freeRoute n.val).setTakenBit n.val false).setPairL n.val { s.pairLAt n.val with step := .rampIn, since := s.pacer.ns.toNat }).takeMute n.val false)) ∧
  (∀ (n : Fin 128) (s : State), s.hold = .run → s.pairSt n.val = bsSwitchOut → (s.pairLAt n.val).step = .rampIn → s.pairFull n.val = true → (s.pairLAt n.val).since + 9100000 ≤ s.pacer.ns.toNat →
    Does (.returnComplete n) s ((s.pairEvent 0xF5 n.val 0).toWatch n.val)) ∧
  (∀ (o : Origin) (d : Body) (s t : State) (e : Sched), s.Due pairBindRow 0x0800 o d e → t = s.unschedule e.id →
    t.planeUsed (d.byte 0) (d.byte 1) = true → Does (.pairBind .commit o d) s (t.complete e stBad 25)) ∧
  (∀ (o : Origin) (d : Body) (s t : State) (e : Sched), s.Due pairBindRow 0x0800 o d e → t = s.unschedule e.id →
    t.planeUsed (d.byte 0) (d.byte 1) = false → bsWatch < t.pairSt (d.byte 0) → Does (.pairBind .commit o d) s (t.complete e stMode)) ∧
  (∀ (o : Origin) (d : Body) (s t : State) (e : Sched) (n : Nat) (u : State), s.Due pairBindRow 0x0800 o d e → t = s.unschedule e.id →
    n = d.byte 0 → t.planeUsed n (d.byte 1) = false → t.pairSt n ≤ bsWatch → d.byte 2 = 0 → u = (t.setReg (Reg.txlBind n) (BitVec.ofNat 32 (d.byte 1 * 2 ^ 16 + d.byte 3 * 2 ^ 8 + d.byte 4))).putF (Reg.tlLevCfg (n / 8) (n % 8)) 15 0 (d.pl 6 2) → Does (.pairBind .commit o d) s (((((u.putF (Reg.tlLevTh (n / 8)) 15 0 (u.getF Reg.txlLevCfg 23 8)).setReg (Reg.txlBstate n) 0).setPairL n {}).complete e stOk))) ∧
  (∀ (o : Origin) (d : Body) (s t : State) (e : Sched) (z : Nat), s.Due pairBusRow 0x0801 o d e → t = s.unschedule e.id →
    z = d.byte 0 → Does (.pairBus .commit o d) s ((t.setBit (Reg.txlBusTx (z / 32)) (z % 32) (d.byte 1 == 1)).complete e stOk)) ∧
  (∀ (o : Origin) (d : Body) (s t : State) (e : Sched), s.Due pairReturnRow 0x0802 o d e → t = s.unschedule e.id →
    t.pairSt (d.byte 0) ≠ bsReturnWait → Does (.pairReturn .commit o d) s (t.complete e stMode)) ∧
  (∀ (o : Origin) (d : Body) (s t : State) (e : Sched) (n : Nat), s.Due pairReturnRow 0x0802 o d e → t = s.unschedule e.id →
    n = d.byte 0 → t.pairSt n = bsReturnWait → t.pairVa n = false → Does (.pairReturn .commit o d) s (((t.setPairSt n bsSwitchOut).setPairL n { t.pairLAt n with step := .none, retHeat := t.heat + 4 }).complete e stOk))

/-- A claim with LEASE of 10 to 10,000 heats is recorded and, with no owner, opens the election window; any other LEASE changes
nothing; a claim with WITHDRAW clears the port's claim, or releases the baton if the port owns it: the claim is cleared, the
owner field reads 3, and the baton is electing if a claim stands, else free, with event 0x22. At the end of the window the
valid claim of the lowest PRIO, then of the lowest port, starts its handover; with no claim the baton is free. (Choices of
the model it may rest on: log entry 14.) Completes, with its own effect: gblBatonClaimWrite, batonWithdraw,
electionWindowClose. (R413, R414, R415, R417) -/
def Obligations.BatonClaims : Prop :=
  (∀ (p : Fin 3) (v : Word) (s : State), s.hold = .run → s.batonSt ≠ 4 → bitAt v 8 = false → 10 ≤ fld v 29 16 → fld v 29 16 ≤ 10000 →
    Does (.gblBatonClaimWrite p v) s (((s.setReg (Reg.gblBatonClaimOf p.val) (0x80000000#32 ||| (v &&& 0x3FFF00FF#32))).setBit Reg.gblBatonState (8 + p.val)
      (bitAt (0x80000000#32 ||| (v &&& 0x3FFF00FF#32)) 31)).openElection)) ∧
  (∀ (p : Fin 3) (v : Word) (s : State), s.hold = .run → s.batonSt ≠ 4 → bitAt v 8 = false → (fld v 29 16 < 10 ∨ 10000 < fld v 29 16) →
    Does (.gblBatonClaimWrite p v) s (s)) ∧
  (∀ (p : Fin 3) (v : Word) (s : State), s.hold = .run → s.batonSt ≠ 4 → bitAt v 8 = true →
    Does (.gblBatonClaimWrite p v) s (s.withdraw p.val)) ∧
  (∀ (p : Fin 3) (s : State), s.hold = .run → s.batonSt ≠ 4 → s.owns p.val = true →
    Does (.batonWithdraw p) s (s.release 0x22 0)) ∧
  (∀ (p : Fin 3) (s : State), s.hold = .run → s.batonSt ≠ 4 → s.owns p.val = false →
    Does (.batonWithdraw p) s (s.setClaim p.val 0)) ∧
  (∀ (s t : State) (p code cause : Nat), p = s.owner →
    t = (((((s.setClaim p 0).setReg Reg.gblBatonLeft 0).putF Reg.gblBatonState 5 4 3).putF Reg.gblBatonState 7 6 0).putF
      Reg.gblBatonState 2 0 0).openElection → s.release code cause = t.pairsFollow.emit 217 code (batonSyn code p cause)) ∧
  (∀ (s : State), s.hold = .run → s.batonSt = 1 → s.winner = none →
    Does .electionWindowClose s (s.putF Reg.gblBatonState 2 0 0)) ∧
  (∀ (p : Nat) (s : State), s.hold = .run → s.batonSt = 1 → s.winner = some p →
    Does .electionWindowClose s (s.handover p (s.getF (Reg.gblBatonClaimOf p) 29 16) false)) ∧
  (∀ s : State, s.winner = none ↔ ∀ p, p < 3 → s.claimValid p = false) ∧
  (∀ (s : State) (p : Nat), s.winner = some p → p < 3 ∧ s.claimValid p = true ∧
    ∀ q, q < 3 → s.claimValid q = true → s.getF (Reg.gblBatonClaimOf p) 7 0 < s.getF (Reg.gblBatonClaimOf q) 7 0 ∨
      (s.getF (Reg.gblBatonClaimOf p) 7 0 = s.getF (Reg.gblBatonClaimOf q) 7 0 ∧ p ≤ q))

/-- A lease of 10 to 10,000 heats written by a permitted master sets the lease and the heats left; any other value changes
nothing. The owner's pass of a held baton to another port shows that port, sets PASS_OFFER there, and its accept with a
valid lease starts the handover; 100 µs without acceptance give event 0x25 and the owner holds on. A lease that ends
releases the baton with event 0x21. A handover shows state 4, and a claim written during it waits until it completes. A
write by a port that may not make it is dropped and counted. (Choices of the model it may rest on: log entries 14, 37, 165.)
Completes, with its own effect: gblBatonLeaseWrite, gblBatonPassWrite, gblBatonAcceptWrite, leaseExpiry, passTimeout,
handoverComplete, gblBatonClaimWrite. (R413, R415, R417, R418, R420) -/
def Obligations.BatonLeases : Prop :=
  (∀ (m : Master) (v : Word) (s : State), s.hold = .run → s.may m Reg.gblBatonLease = true → 10 ≤ v.toNat → v.toNat ≤ 10000 → s.held = true →
    Does (.gblBatonLeaseWrite m v) s ((s.setReg Reg.gblBatonLease v).setReg Reg.gblBatonLeft v)) ∧
  (∀ (m : Master) (v : Word) (s : State), s.hold = .run → s.may m Reg.gblBatonLease = true → (v.toNat < 10 ∨ 10000 < v.toNat) →
    Does (.gblBatonLeaseWrite m v) s (s)) ∧
  (∀ (m : Master) (v : Word) (s : State), s.hold = .run → s.may m Reg.gblBatonLease = false →
    Does (.gblBatonLeaseWrite m v) s (s.refuseWrite m)) ∧
  (∀ (p : Fin 3) (v : Word) (s t : State), s.hold = .run → s.owns p.val = true → s.batonSt = 2 → bitAt v 8 = true → fld v 1 0 ≠ 3 →
    fld v 1 0 ≠ s.owner → t = ((s.putF Reg.gblBatonState 7 6 (fld v 1 0)).putF Reg.gblBatonState 2 0 3).portEvent (fld v 1 0) 11 →
    t.getF (Reg.hpStatus (fld v 1 0)) 1 0 ≠ 0 → Does (.gblBatonPassWrite (.host p) v) s t) ∧
  (∀ (p : Fin 3) (v : Word) (s : State), s.hold = .run → s.batonSt ≠ 4 → s.owns p.val = false →
    Does (.gblBatonPassWrite (.host p) v) s (s.dropWrite p.val)) ∧
  (∀ (p : Fin 3) (v : Word) (s : State), s.hold = .run → s.batonSt = 3 → s.getF Reg.gblBatonState 7 6 = p.val → bitAt v 0 = true → 10 ≤ fld v 29 16 → fld v 29 16 ≤ 10000 →
    Does (.gblBatonAcceptWrite p v) s (s.handover p.val (fld v 29 16) false)) ∧
  (∀ (p : Fin 3) (v : Word) (s : State), s.hold = .run → s.batonSt ≠ 3 → s.owns p.val = false →
    Does (.gblBatonAcceptWrite p v) s (s.dropWrite p.val)) ∧
  (∀ (s : State), s.hold = .run → s.held = true → s.reg Reg.gblBatonLeft = 0 →
    Does .leaseExpiry s (s.release 0x21 0)) ∧
  (∀ (s : State), s.hold = .run → s.batonSt = 3 →
    Does .passTimeout s (((s.putF Reg.gblBatonState 7 6 0).putF Reg.gblBatonState 2 0 2).emit 217 0x25
      (batonSyn 0x25 (s.getF Reg.gblBatonState 7 6) 0))) ∧
  (∀ (s : State), s.hold = .run → s.batonSt ≠ 3 →
    Does .passTimeout s (s)) ∧
  (∀ (s : State), s.hold = .run → s.batonSt = 4 →
    Does .handoverComplete s (s.handoverDone)) ∧
  (∀ s : State, s.hold = .run → s.batonSt ≠ 4 → Does .handoverComplete s s) ∧
  (∀ (s : State) (q lease : Nat) (r : Bool), s.handover q lease r =
    State.pairsFollow (((State.putF { s with baton := { s.baton with next := q, nextLease := lease, revert := r } } Reg.gblBatonState 2 0
      4)).putF Reg.gblBatonState 7 6 0)) ∧
  (∀ (p : Fin 3) (v : Word) (s : State), s.hold = .run → s.batonSt = 4 → bitAt v 8 = false →
    Does (.gblBatonClaimWrite p v) s { s with baton := { s.baton with pendOps := s.baton.pendOps ++ [.claim p v] } })

/-- A shadow pair of two rings of one port is discarded with PAIR_BAD; a pair of command rings of two ports is stored and
followed. A shadow descriptor that waits LAG_HEATS heats raises 0x2B once. A function-level reset releases the baton or
clears the claim, clears the port's control register and MSI-X state and BME, shows FLR and raises 0x03; a held burst is
counted as orphaned. A link that goes down clears its state bits and claim with 0x01; one that comes up shows speed and
width with 0x02, and 0x06 below the full width or speed. VOTE_MARK sets one opcode's mark. A second identical copy from
another port completes a vote, which then lets its update commit; a further one, or one of the same port, only joins it. A
vote window that closes counts and completes REFUSED_VOTE_TIMEOUT with 0x26. BATON_ADOPT skips the frozen rings, clears
ADOPT_PEND and settles the frozen pairs. (Choices of the model it may rest on: log entries 11, 17, 36, 40, 165, 174.)
Completes, with its own effect: gblShadowWrite, shadowLag, functionLevelReset, pcieLinkDown, pcieLinkUp, voteMark,
voteTimeout, batonAdoptDiscard, batonAdoptAdopt. (R410, R421, R422, R423, R425, R427, R428, R430, R431, R606) -/
def Obligations.HostPorts : Prop :=
  (∀ (m : Master) (k : Fin 64) (v : Word) (s : State), s.hold = .run → s.may m (Reg.gblShadow k.val) = true → bitAt v 31 = true →
    s.ringPort (fld v 30 16) = s.ringPort (fld v 14 0) → Does (.gblShadowWrite m k v) s (s.setBit Reg.gblShadowCfg 16 true)) ∧
  (∀ (m : Master) (k : Fin 64) (v : Word) (s : State), s.hold = .run → s.may m (Reg.gblShadow k.val) = true →
    s.ringPort (fld v 30 16) ≠ s.ringPort (fld v 14 0) → s.ringType (fld v 30 16) = 0 → s.ringType (fld v 14 0) = 0 →
    Does (.gblShadowWrite m k v) s (((s.pairDrop k.val).setReg (Reg.gblShadow k.val) (v &&& 0xFFFF7FFF#32)).pairsFollow)) ∧
  (∀ (k : Fin 64) (s : State) (i : Nat), s.hold = .run → (s.pairAt k.val).shadow.findIdx? (fun e => !e.lagged && !e.settled &&
      decide (max 1 (s.getF Reg.gblShadowCfg 15 8) ≤ e.heats)) = some i →
    Does (.shadowLag k) s ((s.setPair k.val { s.pairAt k.val with shadow := (s.pairAt k.val).shadow.modify i (fun e => { e with lagged := true }) }).emit 217 0x2B (batonSyn 0x2B (s.ringPort (s.pairShadow k.val)) k.val))) ∧
  (∀ (p : Fin 3) (s t u : State), s.hold = .run → s.owns p.val = true → t = s.release 0x22 1 → t.batonSt ≠ 3 →
    u = ((((t.clearReg (Reg.hpCtrl p.val)).setHp p.val {}).playersFlr p.val).setBit (Reg.hpStatus p.val) 8 false).setBit (Reg.hpStatus p.val) 9 true →
    Does (.functionLevelReset p false) s (u.emit (214 + p.val) 0x03 (batonSyn 0x03 p.val 0))) ∧
  (∀ (s : State) (n : Nat), s.players = [] → s.playersFlr n = s) ∧
  (∀ (p : Fin 3) (s t u : State), s.hold = .run → s.owns p.val = false → t = s.setClaim p.val 0 → t.batonSt ≠ 3 →
    u = (((((t.clearReg (Reg.hpCtrl p.val)).setHp p.val {}).playersFlr p.val).setBit (Reg.hpStatus p.val) 8 false).setBit (Reg.hpStatus p.val) 9
      true).emit (214 + p.val) 0x03 (batonSyn 0x03 p.val 0) →
    Does (.functionLevelReset p true) s ((u.bump Reg.mxOrphanCnt 32).emit 213 0x02 (syn16 0x02 p.val 0))) ∧
  (∀ (p : Fin 3) (s t : State), s.hold = .run →
    t = ((s.putF (Reg.hpStatus p.val) 1 0 0).putF (Reg.hpStatus p.val) 7 4 0).setClaim p.val 0 → t.batonSt ≠ 3 →
    Does (.pcieLinkDown p) s (t.emit (214 + p.val) 0x01 (batonSyn 0x01 p.val 0))) ∧
  (∀ (p speed width : Fin 3) (bme en fm : Bool) (s t u : State), s.hold = .run →
    t = ((s.putF (Reg.hpStatus p.val) 1 0 (speed.val + 1)).putF (Reg.hpStatus p.val) 7 4 (2 ^ width.val)).setBit (Reg.hpStatus p.val) 8
      bme → u = (t.setHp p.val { t.hpAt p.val with msixEn := en, fmask := fm }).emit (214 + p.val) 0x02 (batonSyn 0x02 p.val 0) →
    Does (.pcieLinkUp p speed width bme en fm) s
      (if speed = 2 ∧ width = 2 then u else u.emit (214 + p.val) 0x06 (batonSyn 0x06 p.val 0))) ∧
  (∀ (o : Origin) (d : Body) (s t : State) (e : Sched) (op : Nat), s.Due voteMarkRow 0x0041 o d e → t = s.unschedule e.id →
    op = d.pl 0 2 → Does (.voteMark .commit o d) s ((t.setBit (Reg.gblVoteMark (op / 32)) (op % 32) (d.byte 2 == 1)).complete e stOk)) ∧
  (∀ (o : Origin) (s t : State) (e : Sched), s.hold = .run →
    s.sched.find? (fun e => e.vote == .open_ && e.copies.any (·.org == o) && s.votes.any (fun v => v.id == e.id && v.left == 0)) = some e → e.silent = false →
    t = ((State.bump { s with votes := s.votes.filter (·.id != e.id) } Reg.gblVoteToCnt 32).unschedule e.id).showVotes →
    Does (.voteTimeout o) s ((t.completeWith e s.heat stVoteTo 0).emit 217 0x26
      (batonSyn 0x26 (((s.votes.find? (·.id == e.id)).getD {}).ports.headD 0xFF) ((s.votes.find? (·.id == e.id)).getD {}).heat))) ∧
  (∀ (o : Origin) (s : State), s.hold = .run → 
    s.sched.find? (fun e => e.vote == .open_ && e.copies.any (·.org == o) && s.votes.any (fun v => v.id == e.id && v.left == 0)) = none →
    Does (.voteTimeout o) s s) ∧
  (∀ (o : Origin) (d : Body) (s t v u : State) (e : Sched), s.Accepts (adoptRow 0 []) 0x0040 o d .error t e →
    v = { t with nextId := t.nextId + 1 } → u = (((v.skipRings (d.byte 1)).setBit Reg.gblBatonState 14 false).settlePairs (d.byte 1) false
      []).pairsFollow → Does (.batonAdoptDiscard o d) s (s.noted o (descOf 0x0040 d) (u.complete e stOk))) ∧
  (∀ (o : Origin) (d : Body) (rds : List ReadResult) (s t v u : State) (e : Sched), s.Accepts (adoptRow 1 rds) 0x0040 o d .error t e →
    v = { t with nextId := t.nextId + 1 } → u = (((v.skipRings (d.byte 1)).setBit Reg.gblBatonState 14 false).settlePairs (d.byte 1) true
      rds).pairsFollow → Does (.batonAdoptAdopt o d rds) s (s.noted o (descOf 0x0040 d) (u.complete e stOk))) ∧
  (∀ (s : State) (row : Row) (o : Origin) (p : Nat) (d : Desc) (rd : ReadResult) (x : VoteH),
    s.votes.find? (fun v => decide (0 < v.left) && sameBut v.desc d) = some x → x.status = none →
    (x.complete = true ∨ x.ports.contains p = true) →
    s.voteCopy row o p d rd = s.addCopy x.id { org := o, port := p, tag := d.body.tag, irq := d.body.irq }) ∧
  (∀ (s t u : State) (row : Row) (o : Origin) (p : Nat) (d : Desc) (rd : ReadResult) (x y : VoteH) (e : Sched),
    s.votes.find? (fun v => decide (0 < v.left) && sameBut v.desc d) = some x → x.status = none → x.complete = false →
    x.ports.contains p = false → t = s.addCopy x.id { org := o, port := p, tag := d.body.tag, irq := d.body.irq } →
    y = { x with complete := true, ports := x.ports ++ [p] } →
    u = (State.bump { t with votes := t.votes.map fun z => if z.id = x.id then y else z } Reg.gblVoteOkCnt 32).showVotes →
    u.sched.find? (fun z => z.id == x.id) = some e → u.held = true → s.voteCopy row o p d rd = u.voteReady row e)

/-- A write to the high half of a doorbell changes nothing. A host port rings a doorbell only within one of its enabled windows,
on a ring of that port, and as the owner of the baton, or on a vote ring, a shadow ring or a ring the engine fills; else the
doorbell is refused and counted. An index out of range sets DB_BAD, is counted and raises 0x10. On an enabled command ring
the index becomes the producer index; on a completion ring it returns the entries up to it and becomes the consumer index.
(Choices of the model it may rest on: log entries 16, 18.) Completes, with its own effect: doorbellWrite. (R412, R440, R441) -/
def Obligations.Doorbells : Prop :=
  (∀ (m : Master) (r : Fin 32768) (x : Word) (s : State), s.hold = .run →
    Does (.doorbellWrite m r false x) s (s)) ∧
  (∀ (p : Fin 3) (r : Fin 32768) (x : Word) (s : State), s.hold = .run → s.doorbellOk p.val r.val = false →
    Does (.doorbellWrite (.host p) r true x) s (s.refuseDoorbell p.val)) ∧
  (∀ (m : Master) (r : Fin 32768) (x : Word) (s : State), s.hold = .run → s.doorbellMay m r.val = true → s.ringEn r.val = false →
    Does (.doorbellWrite m r true x) s (s)) ∧
  (∀ (m : Master) (r : Fin 32768) (x : Word) (s : State), s.hold = .run → s.doorbellMay m r.val = true → s.ringEn r.val = true → s.doorbellRange r.val x = false →
    Does (.doorbellWrite m r true x) s (((s.setBit (Reg.ringStatus r.val) 5 true).bump Reg.rngDbBadCnt 32).emit 218 0x10
      (ringSyn 0x10 (s.ringPort r.val) r.val))) ∧
  (∀ (m : Master) (r : Fin 32768) (x : Word) (s : State), s.hold = .run → s.doorbellMay m r.val = true → s.ringEn r.val = true → s.doorbellRange r.val x = true → s.ringType r.val = 0 →
    Does (.doorbellWrite m r true x) s (s.setReg (Reg.ringProd r.val) x)) ∧
  (∀ (m : Master) (r : Fin 32768) (x : Word) (s : State) (h : RingH), s.hold = .run → s.doorbellMay m r.val = true →
    s.ringEn r.val = true → s.doorbellRange r.val x = true → s.ringType r.val = 2 →
    h = { s.ringAt r.val with ents := (s.ringAt r.val).ents.drop (x - s.reg (Reg.ringCons r.val)).toNat } →
    Does (.doorbellWrite m r true x) s ((s.setRing r.val h).setReg (Reg.ringCons r.val) x)) ∧
  (∀ (s : State) (p r : Nat), s.doorbellOk p r = true ↔
    (∃ k, k < 12 ∧ bitAt (s.reg (Reg.hpDbw p k)) 31 = true ∧ fld (s.reg (Reg.hpDbw p k)) 14 0 ≤ r ∧
      r ≤ fld (s.reg (Reg.hpDbw p k)) 30 16) ∧ s.ringPort r = p ∧
    (s.owns p = true ∨ s.ringType r = 1 ∨ s.shadowPair r ≠ none ∨ s.ringType r ∈ [2, 4, 5, 6, 7])) ∧
  (∀ (s : State) (r : Nat) (x : Word), s.ringType r = 0 →
    (s.doorbellRange r x = true ↔ s.ringOcc r ≤ (x - s.reg (Reg.ringCons r)).toNat ∧ (x - s.reg (Reg.ringCons r)).toNat ≤ s.ringSize r))

/-- A ring enabled with a type above 8, a size below 4 or above 16, port 3, or (a command, vote or frame-transmit ring) a LINK
that is no enabled completion ring of its port, stays disabled with CFG_BAD. Otherwise its configuration is stored, its
indices and count are zero, its error and frozen bits clear and RUN is set. A completion ring named by an enabled ring
cannot be disabled; another ring, with no group open, clears EN and RUN. A write by a master that may not make it is
refused. (Choices of the model it may rest on: log entry 10.) Completes, with its own effect: ringEnable, ringDisable.
(R437, R438) -/
def Obligations.RingContexts : Prop :=
  (∀ (m : Master) (r : Fin 32768) (v : Word) (s : State), s.hold = .run → s.may m (Reg.ringCfg r.val) = true → s.ringEn r.val = false → s.ringCfgOk v = false →
    Does (.ringEnable m r v) s ((s.setReg (Reg.ringCfg r.val) (setBitAt (ringCfgBits v) 31 false)).setBit (Reg.ringStatus r.val) 6 true)) ∧
  (∀ (m : Master) (r : Fin 32768) (v : Word) (s t : State), s.hold = .run → s.may m (Reg.ringCfg r.val) = true → s.ringEn r.val = false →
    s.ringCfgOk v = true → t = (((s.setReg (Reg.ringCfg r.val) (setBitAt (ringCfgBits v) 31 true)).setReg (Reg.ringProd r.val) 0).setReg
      (Reg.ringCons r.val) 0).setReg (Reg.ringInflight r.val) 0 →
    Does (.ringEnable m r v) s
      ((((t.putF (Reg.ringStatus r.val) 4 2 0).setBit (Reg.ringStatus r.val) 0 true).setRing r.val {}).pairsFollow)) ∧
  (∀ (m : Master) (r : Fin 32768) (v : Word) (s : State), s.hold = .run → s.may m (Reg.ringCfg r.val) = true → s.ringEn r.val = true →
    Does (.ringEnable m r v) s (s.ringCfgKept r.val v)) ∧
  (∀ (m : Master) (r : Fin 32768) (v : Word) (s : State), s.hold = .run → s.may m (Reg.ringCfg r.val) = false →
    Does (.ringEnable m r v) s (s.refuseWrite m)) ∧
  (∀ (m : Master) (r : Fin 32768) (v : Word) (s : State), s.hold = .run → s.may m (Reg.ringCfg r.val) = true → s.ringEn r.val = true → s.ringType r.val = 2 → s.linked r.val = true →
    Does (.ringDisable m r v) s (s.setBit (Reg.ringStatus r.val) 6 true)) ∧
  (∀ (m : Master) (r : Fin 32768) (v : Word) (s t : State), s.hold = .run → s.may m (Reg.ringCfg r.val) = true → s.ringEn r.val = true →
    s.ringType r.val ≠ 2 → (s.ringAt r.val).group = none → t = (s.ringCfgKept r.val v) → (t.ringAt r.val).group = none →
    Does (.ringDisable m r v) s ((((t.setBit (Reg.ringCfg r.val) 31 false).setBit (Reg.ringStatus r.val) 0 false).putF
      (Reg.ringStatus r.val) 4 2 0).pairsFollow)) ∧
  (∀ (s : State) (v : Word), s.ringCfgOk v = true ↔
    fld v 27 24 ≤ 8 ∧ 4 ≤ fld v 20 16 ∧ fld v 20 16 ≤ 16 ∧ fld v 23 22 ≠ 3 ∧
    (fld v 27 24 ∈ [0, 1, 8] → s.ringEn (fld v 14 0) = true ∧ s.ringType (fld v 14 0) = 2 ∧ s.ringPort (fld v 14 0) = fld v 23 22))

/-- A write error on an enabled ring the engine fills, or a failed read of an enabled command ring, stops the ring: ERR is set,
RUN cleared, and the event recorded and raised. A ring stalled 100 heats raises 0x14; a coalescing time-out raises the
ring's interrupt while entries are unsignalled. NOP completes OK at its commit; BARRIER completes at once where nothing
earlier is in flight, else when the last earlier descriptor has completed. A ring read of one descriptor takes it. A core's
push queues the window, or sets DQ_FULL with 16 entries queued, and a pop removes the head completion. (Choices of the model
it may rest on: log entry 35.) Completes, with its own effect: ringWriteError, ringStallLong, irqCoalesceTimeout, nop,
barrier, barrierRelease, completionTimeout, ringReadDone, coreDqPush, coreCqPop. (R410, R444, R445, R446, R460, R465, R527) -/
def Obligations.RingsAndQueues : Prop :=
  (∀ (r : Fin 32768) (s : State), s.hold = .run → s.ringEn r.val = true → s.ringType r.val ∈ [2, 4, 5, 6, 7] →
    Does (.ringWriteError r) s (s.ringStop r.val 0x12)) ∧
  (∀ (s : State) (r code : Nat) (x : Word), x = ringSyn code (s.ringPort r) r → s.ringStop r code =
    (((s.setBit (Reg.ringStatus r) 4 true).setBit (Reg.ringStatus r) 0 false).setReg Reg.rngErrLast x).emit 218 code x) ∧
  (∀ (r : Fin 32768) (s : State), s.hold = .run → s.ringEn r.val = true → 100 ≤ (s.ringAt r.val).stallHeats →
    Does (.ringStallLong r) s (s.emit 218 0x14 (ringSyn 0x14 (s.ringPort r.val) r.val))) ∧
  (∀ (r : Fin 32768) (s : State), s.hold = .run → s.ringEn r.val = false →
    Does (.ringStallLong r) s (s)) ∧
  (∀ (r : Fin 32768) (s : State), s.hold = .run → (s.ringAt r.val).coRun = true → (s.ringAt r.val).unsig ≠ 0 → s.bit (Reg.ringIrq r.val) 15 = true → (s.ringAt r.val).coFrom + s.getF (Reg.ringIrq r.val) 31 24 * 8000 ≤ s.pacer.ns.toNat →
    Does (.irqCoalesceTimeout r) s (s.ringRaise r.val)) ∧
  (∀ (r : Fin 32768) (s : State), s.hold = .run → (s.ringAt r.val).unsig = 0 →
    Does (.irqCoalesceTimeout r) s (s)) ∧
  (∀ (o : Origin) (d : Body) (s t : State) (e : Sched), s.Due nopRow 0x0000 o d e → t = s.unschedule e.id →
    Does (.nop .commit o d) s (t.complete e stOk)) ∧
  (∀ (r : Fin 32768) (i : Word) (d : Body) (s t v : State) (e : Sched), s.Accepts barrierRow 0x0001 (.ring r i) d .error t e →
    v = { t with nextId := t.nextId + 1 } → v.barrierClear r.val = true →
    Does (.barrier (.ring r i) d) s (s.noted (.ring r i) (descOf 0x0001 d) (v.complete e stOk))) ∧
  (∀ (n : Fin 4) (i : Word) (d : Body) (s t v : State) (e : Sched), s.Accepts barrierRow 0x0001 (.core n i) d .error t e →
    v = { t with nextId := t.nextId + 1 } →
    Does (.barrier (.core n i) d) s (s.noted (.core n i) (descOf 0x0001 d) (v.complete e stOk))) ∧
  (∀ (r : Fin 32768) (s : State) (e : Sched) (h : RingH), s.hold = .run → (s.ringAt r.val).barrier = some e →
    s.barrierClear r.val = true → h = { s.ringAt r.val with barrier := none } →
    Does (.barrierRelease r) s ((s.setRing r.val h).completeWith e s.heat stOk 0)) ∧
  (∀ (r : Fin 32768) (s : State), s.hold = .run → (s.ringAt r.val).barrier = none →
    Does (.barrierRelease r) s (s)) ∧
  (∀ (r : Fin 32768) (e : Sched) (s : State), s.hold = .run → (s.ringAt r.val).barrier = some e → s.barrierClear r.val = false →
    Does (.barrierRelease r) s (s)) ∧
  (∀ (p : Fin 3) (timeout : Bool) (s : State) (code : Nat), s.hold = .run → code = (if timeout then 0x04 else 0x05) →
    Does (.completionTimeout p timeout none) s (s.emit (214 + p.val) code (batonSyn code p.val 1))) ∧
  (∀ (p : Fin 3) (timeout : Bool) (r : Fin 32768) (s t : State) (code : Nat), s.hold = .run → code = (if timeout then 0x04 else 0x05) →
    t = s.emit (214 + p.val) code (batonSyn code p.val 1) → t.ringEn r.val = true → t.ringPort r.val = p.val → t.ringType r.val = 0 →
    Does (.completionTimeout p timeout (some r)) s (t.ringStop r.val 0x11)) ∧
  (∀ (r : Fin 32768) (s : State), s.hold = .run → Does (.ringReadDone r []) s s) ∧
  (∀ (r : Fin 32768) (d : Desc) (rds : List ReadResult) (s : State), s.hold = .run → 0 < s.readLimit r.val →
    Does (.ringReadDone r [(d, rds)]) s (s.takeRing (rowOf d rds) r d (rds.headD .error))) ∧
  (∀ (m : Master) (n : Fin 4) (v : Word) (rd : ReadResult) (s : State), s.hold = .run → s.may m (Reg.coreAcDqPush n.val) = true →
    bitAt v 0 = true → 16 ≤ (s.coreAt n.val).dq.length → Does (.coreDqPush m n v rd) s (s.setBit (Reg.coreAcStatus n.val) 8 true)) ∧
  (∀ (m : Master) (n : Fin 4) (v : Word) (rd : ReadResult) (s t : State) (h : CoreH), s.hold = .run →
    s.may m (Reg.coreAcDqPush n.val) = true → bitAt v 0 = true → (s.coreAt n.val).dq.length < 16 →
    h = { s.coreAt n.val with dq := (s.coreAt n.val).dq ++ [(s.windowDesc n.val, rd)] } → t = (s.setCore n.val h).showQueues n.val →
    t.mayTakeCore n.val = false → Does (.coreDqPush m n v rd) s t) ∧
  (∀ (m : Master) (n : Fin 4) (v : Word) (s t : State) (h : CoreH), s.hold = .run → s.may m (Reg.coreAcCqPop n.val) = true →
    bitAt v 0 = true → h = { s.coreAt n.val with cq := (s.coreAt n.val).cq.drop 1 } → t = (s.setCore n.val h).showQueues n.val →
    (t.coreAt n.val).dq = [] → Does (.coreCqPop m n v) s t)

/-- One event of a present source is counted, in total and for its source; then it is consequential in an open shadow it belongs
to, or merges into the open entry of its source, or else makes a new entry. A class F event is never consequential. Of two
events of one cycle the higher class comes first, then the lower source. The reactions are the event's own, masked and added
to by the source's registers, never a block reset for a source without one. With the oscillator stopped, or for a reserved
source, nothing is latched. (Choices of the model it may rest on: log entries 5, 6, 7.) Completes, with its own effect:
faultEventLatch. (R472, R473, R474, R476, R482, R485, R489, R490, R494) -/
def Obligations.Collector : Prop :=
  (∀ (evs : List Ev) (s : State), s.fc.oscStopped = true →
    Does (.faultEventLatch evs) s (s)) ∧
  (∀ (e : Ev) (s : State), s.fc.oscStopped = false → srcReserved e.src.val = false → 144 ≤ e.src.val →
    Does (.faultEventLatch [e]) s (s.latchCycle [e])) ∧
  (∀ (e : Ev) (s : State), s.fc.oscStopped = false → srcReserved e.src.val = true →
    Does (.faultEventLatch [e]) s (s)) ∧
  (∀ (s t : State) (e : Ev), t = (s.bump Reg.fcEvtCnt 32).bump (Reg.fcSrcCnt e.src.val) 32 → t.shadowOf e = none →
    t.openEntry e.src.val = none → s.latchCycle [e] = t.createEntry e []) ∧
  (∀ (s t : State) (e : Ev) (slot : Nat), t = (s.bump Reg.fcEvtCnt 32).bump (Reg.fcSrcCnt e.src.val) 32 → t.shadowOf e = none →
    t.openEntry e.src.val = some slot → s.latchCycle [e] = t.mergeEntry e slot) ∧
  (∀ (s t : State) (e : Ev) (sh : ShadowFc), t = (s.bump Reg.fcEvtCnt 32).bump (Reg.fcSrcCnt e.src.val) 32 → t.shadowOf e = some sh →
    s.latchCycle [e] = t.conseqEvent e ((t.fc.shadows.find? fun x => x.src = sh.src ∧ x.seq = sh.seq).getD sh)) ∧
  (∀ (s : State) (e : Ev), e.cls = .f → s.shadowOf e = none) ∧
  (∀ (a b : Ev), evInsert a [b] = if clsRank b.cls < clsRank a.cls ∨ clsRank a.cls = clsRank b.cls ∧ a.src.val ≤ b.src.val then [a, b]
    else [b, a]) ∧
  (∀ (s : State) (src : Nat) (cl : Cls) (d : BitVec 6), srcResettable src = true →
    s.effMask src cl d = (d &&& BitVec.ofNat 6 (s.getF (Reg.fcSrcMask src) (8 * clsRank cl + 5) (8 * clsRank cl))) |||
      BitVec.ofNat 6 (s.getF (Reg.fcSrcAdd src) (8 * clsRank cl + 5) (8 * clsRank cl))) ∧
  (∀ (s : State) (src : Nat) (cl : Cls) (d : BitVec 6), srcResettable src = false → (s.effMask src cl d).getLsbD 2 = false)

/-- A block reset that completes restarts its block and marks its shadow; a shadow closes once its reset is done; an overdue
reset closes the shadow and raises 0x02 on source 231. Interrupts combined on a port are raised at the end of its hold-off.
A write of FC_ACK acknowledges a source whose window is open, or every one; the photo-finish record clears on a write of 1;
a write of 1 to a status bit clears it with its hold bits, or sets CLR_OPEN while the window is open. Reads of FSW0 and of
TIME_LO freeze the words beside them for the reader. The oscillator's stop stops the collector. (Choices of the model it may
rest on: log entries 5, 6.) Completes, with its own effect: blockResetDone, shadowClose, blockResetOverdue, intHoldoffEnd,
fcAckWrite, fcPfClearWrite, fcFswClear, fcFsw0Read, fcHistTimeLoRead, collectorOscillatorStop. (R477, R478, R483, R484,
R486, R489, R491, R492, R494) -/
def Obligations.CollectorCommands : Prop :=
  (∀ (k : Fin 256) (s : State), s.fc.resets.contains k.val = false →
    Does (.blockResetDone k) s (s)) ∧
  (∀ (k : Fin 256) (s : State) (fc : FcH), s.fc.resets.contains k.val = true →
    fc = { s.fc with resets := s.fc.resets.filter (· != k.val),
                     shadows := s.fc.shadows.map fun x => if x.src = k.val then { x with done := true } else x } →
    Does (.blockResetDone k) s (State.blockRestart { s with fc := fc } k.val)) ∧
  (∀ (k : Fin 256) (s : State) (fc : FcH), fc = { s.fc with shadows := s.fc.shadows.filter fun x => !(x.src == k.val && x.done) } →
    Does (.shadowClose k) s { s with fc := fc }) ∧
  (∀ (k : Fin 256) (s : State), s.fc.resets.contains k.val = false →
    Does (.blockResetOverdue k) s (s)) ∧
  (∀ (k : Fin 256) (s : State) (fc : FcH), s.fc.resets.contains k.val = true →
    fc = { s.fc with shadows := s.fc.shadows.filter fun x => !(x.src == k.val && !x.done) } →
    Does (.blockResetOverdue k) s (State.emit { s with fc := fc } 231 0x02 (syn16 0x02 k.val 0))) ∧
  (∀ (p : Fin 3) (s t : State), s.fc.irqWait.contains p.val = true →
    t = { s with fc := { s.fc with irqBusy := s.fc.irqBusy.filter (· != p.val), irqWait := s.fc.irqWait.filter (· != p.val) } } →
    Does (.intHoldoffEnd p) s (t.intPort p.val)) ∧
  (∀ (p : Fin 3) (s t : State), s.fc.irqWait.contains p.val = false →
    t = { s with fc := { s.fc with irqBusy := s.fc.irqBusy.filter (· != p.val), irqWait := s.fc.irqWait.filter (· != p.val) } } →
    Does (.intHoldoffEnd p) s t) ∧
  (∀ (m : Master) (v : Word) (s : State), s.hold = .run → s.may m Reg.fcAck = true → bitAt v 31 = false → s.bitVecGet Reg.fcOpen (fld v 7 0) = true →
    Does (.fcAckWrite m v) s (s.ackSource (fld v 7 0))) ∧
  (∀ (m : Master) (v : Word) (s : State), s.hold = .run → s.may m Reg.fcAck = true → bitAt v 31 = false → s.bitVecGet Reg.fcOpen (fld v 7 0) = false →
    Does (.fcAckWrite m v) s (s)) ∧
  (∀ (m : Master) (v : Word) (s : State), s.hold = .run → s.may m Reg.fcAck = true → bitAt v 31 = true →
    Does (.fcAckWrite m v) s (s.ackAll)) ∧
  (∀ (m : Master) (v : Word) (s : State), s.hold = .run → s.may m Reg.fcPfClear = true → bitAt v 0 = true →
    Does (.fcPfClearWrite m v) s (s.clearPf)) ∧
  (∀ (m : Master) (v : Word) (s : State), s.hold = .run → s.may m Reg.fcPfClear = true → bitAt v 0 = false →
    Does (.fcPfClearWrite m v) s (s)) ∧
  (∀ (m : Master) (w : Fin 8) (b : Fin 32) (v : Word) (s : State), s.hold = .run → s.may m (Reg.fcFsw w.val) = true →
    v = BitVec.ofNat 32 (2 ^ b.val) → Does (.fcFswClear m w v) s (s.clearSource (32 * w.val + b.val))) ∧
  (∀ (s : State) (k : Nat), s.clearSource k = if s.bitVecGet Reg.fcOpen k then s.setBit Reg.fcStatus 5 true
    else ((s.bitVecSet Reg.fcFsw k false).bitVecSet Reg.fcHoldva k false).bitVecSet Reg.fcHoldgen k false) ∧
  (∀ (m : Master) (s t : State), s.hold = .run → t = s.latchWords m ((List.range 8).map Reg.fcFsw) s.reg →
    Does (.fcFsw0Read m) s { t with rdata := s.reg (Reg.fcFsw 0) }) ∧
  (∀ (m : Master) (k : Fin 33) (s t : State), s.hold = .run → k.val < 32 →
    t = s.latchWords m ((List.range 7).map fun j => Reg.fcHist k.val (j + 1)) s.reg →
    Does (.fcHistTimeLoRead m k) s { t with rdata := s.reg (Reg.fcHist k.val 0) }) ∧
  (∀ (m : Master) (s t : State), s.hold = .run → t = s.latchWords m ((List.range 7).map fun j => Reg.fcPf (j + 1)) s.reg →
    Does (.fcHistTimeLoRead m 32) s { t with rdata := s.reg (Reg.fcPf 0) }) ∧
  (∀ (s : State) (fc : FcH), fc = { s.fc with oscStopped := true } → Does .collectorOscillatorStop s { s with fc := fc })

/-- FAULT_ACK acknowledges one open source, or every one, at acceptance; FAULT_CLEAR clears the status bits its mask names and
completes with the number left set; FAULT_PF_CLEAR clears the photo-finish record; FAULT_REACT, at its heat and while
FC_LOCK is clear, sets the source's masks, or its VA class, and is refused with REFUSED_MODE while the lock is set. The
unlock sequence of factory test advances by its two keys and lapses with its windows. In factory test the owner injects an
event, a hold cause, omitted frames or flipped bits, each with event 0xE7 and counted; outside it the write is refused. An
injected cause expires. (Choices of the model it may rest on: log entries 5, 102, 166.) Completes, with its own effect:
faultAck, faultClear, faultPfClear, faultReact, gblFtmUnlockWrite, unlockWindowExpiry, ftmInjSource, ftmInjHoldCause,
ftmInjLinkFrames, ftmInjVatEcc, injectedCauseExpiry. (R476, R484, R486, R492, R496, R380, R381, R383) -/
def Obligations.FaultDescriptors : Prop :=
  (∀ (o : Origin) (d : Body) (s t v : State) (e : Sched), s.Accepts faultAckRow 0x0700 o d .error t e → v = { t with nextId := t.nextId + 1 } →
    d.pl 0 2 ≠ 0xFFFF → v.bitVecGet Reg.fcOpen (d.pl 0 2) = true → Does (.faultAck o d) s (s.noted o (descOf 0x0700 d) ((v.ackSource (d.pl 0 2)).complete e stOk))) ∧
  (∀ (o : Origin) (d : Body) (s t v : State) (e : Sched), s.Accepts faultAckRow 0x0700 o d .error t e → v = { t with nextId := t.nextId + 1 } →
    d.pl 0 2 ≠ 0xFFFF → v.bitVecGet Reg.fcOpen (d.pl 0 2) = false → Does (.faultAck o d) s (s.noted o (descOf 0x0700 d) (v.complete e stOk))) ∧
  (∀ (o : Origin) (d : Body) (s t v : State) (e : Sched), s.Accepts faultAckRow 0x0700 o d .error t e → v = { t with nextId := t.nextId + 1 } →
    d.pl 0 2 = 0xFFFF → Does (.faultAck o d) s (s.noted o (descOf 0x0700 d) (v.ackAll.complete e stOk))) ∧
  (∀ (o : Origin) (d : Body) (s t v : State) (e : Sched) (ks : List Nat) (u : State), s.Accepts faultClearRow 0x0701 o d .error t e → v = { t with nextId := t.nextId + 1 } →
    ks = (List.range 256).filter (fun k => d.byte (k / 8) / 2 ^ (k % 8) % 2 == 1) → u = ks.foldl (fun s k => s.clearSource k) v → Does (.faultClear o d) s (s.noted o (descOf 0x0701 d) (u.complete e stOk (ks.filter fun k => u.bitVecGet Reg.fcFsw k).length))) ∧
  (∀ (o : Origin) (d : Body) (s t v : State) (e : Sched), s.Accepts faultPfClearRow 0x0702 o d .error t e → v = { t with nextId := t.nextId + 1 } →
    Does (.faultPfClear o d) s (s.noted o (descOf 0x0702 d) (v.clearPf.complete e stOk))) ∧
  (∀ (o : Origin) (d : Body) (s t : State) (e : Sched), s.Due faultReactRow 0x0703 o d e → t = s.unschedule e.id →
    t.bit Reg.fcLock 0 = true → Does (.faultReact .commit o d) s (t.complete e stMode)) ∧
  (∀ (o : Origin) (d : Body) (s t : State) (e : Sched), s.Due faultReactRow 0x0703 o d e → t = s.unschedule e.id →
    t.bit Reg.fcLock 0 = false → d.byte 1 = 1 → Does (.faultReact .commit o d) s (((t.setReg (Reg.fcSrcMask (d.byte 0)) (BitVec.ofNat 32 (d.pl 2 4) &&& 0x003F3F3F#32)).setReg (Reg.fcSrcAdd (d.byte 0))
      (BitVec.ofNat 32 (d.pl 6 4) &&& 0x003F3F3F#32)).complete e stOk)) ∧
  (∀ (o : Origin) (d : Body) (s t : State) (e : Sched), s.Due faultReactRow 0x0703 o d e → t = s.unschedule e.id →
    t.bit Reg.fcLock 0 = false → d.byte 1 = 4 → Does (.faultReact .commit o d) s ((t.bitVecSet Reg.fcVasel (d.byte 0) false).complete e stOk)) ∧
  (∀ (o : Origin) (d : Body) (s t : State) (e : Sched), s.Due faultReactRow 0x0703 o d e → t = s.unschedule e.id →
    t.bit Reg.fcLock 0 = false → d.byte 1 = 6 → Does (.faultReact .commit o d) s ((t.bitVecSet Reg.fcVasel (d.byte 0) true).complete e stOk)) ∧
  (∀ (p : Fin 3) (s : State), s.hold = .run → s.may (.host p) Reg.gblFtmUnlock = true → s.owns p.val = true → s.bit Reg.gblMode 17 = true → s.modes.unlock = 0 →
    Does (.gblFtmUnlockWrite (.host p) 0xF7E1#32) s ({ s with modes := { s.modes with unlock := 1, unlockHeat := 0 } })) ∧
  (∀ (p : Fin 3) (s : State), s.hold = .run → s.may (.host p) Reg.gblFtmUnlock = true → s.owns p.val = true → s.bit Reg.gblMode 17 = true → s.modes.unlock = 2 → s.modes.unlockHeat < 100 →
    Does (.gblFtmUnlockWrite (.host p) (BitVec.ofNat 32 (0xC300 + s.straps.engineId.toNat))) s (State.setMode { s with modes := { s.modes with unlock := 0, unlockHeat := 0 } } 18 true)) ∧
  (∀ (s : State), s.hold = .run → 1000 ≤ s.modes.unlockHeat →
    Does (.unlockWindowExpiry true) s (s.setMode 18 false)) ∧
  (∀ (s : State), s.hold = .run → 100 ≤ s.modes.unlockHeat →
    Does (.unlockWindowExpiry false) s ({ s with modes := { s.modes with unlock := 0 } })) ∧
  (∀ (b : Bool) (s : State), s.hold = .run → s.modes.unlockHeat < 100 →
    Does (.unlockWindowExpiry b) s (s)) ∧
  (∀ (p : Fin 3) (v : Word) (s t : State), s.hold = .run → s.owns p.val = true → s.ftm = true →
    s.inject (setFld v 31 30 0) = some t →
    Does (.ftmInjSource (.host p) v) s ((t.modeEvent 0xE7 mdFtm).bump Reg.gblFtmInjCnt 32)) ∧
  (∀ (p : Fin 3) (v : Word) (s t : State), s.hold = .run → s.owns p.val = true → s.ftm = true →
    s.inject (setFld v 31 30 1) = some t →
    Does (.ftmInjHoldCause (.host p) v) s ((t.modeEvent 0xE7 mdFtm).bump Reg.gblFtmInjCnt 32)) ∧
  (∀ (p : Fin 3) (v : Word) (s t : State), s.hold = .run → s.owns p.val = true → s.ftm = true →
    s.inject (setFld v 31 30 2) = some t →
    Does (.ftmInjLinkFrames (.host p) v) s ((t.modeEvent 0xE7 mdFtm).bump Reg.gblFtmInjCnt 32)) ∧
  (∀ (p : Fin 3) (v : Word) (s t : State), s.hold = .run → s.owns p.val = true → s.ftm = true →
    s.inject (setFld v 31 30 3) = some t →
    Does (.ftmInjVatEcc (.host p) v) s ((t.modeEvent 0xE7 mdFtm).bump Reg.gblFtmInjCnt 32)) ∧
  (∀ (p : Fin 3) (v : Word) (s : State), s.hold = .run → s.owns p.val = true → s.ftm = false →
    Does (.ftmInjSource (.host p) v) s (s.setMode 19 true)) ∧
  (∀ (s : State) (v : Word), fld v 31 30 = 2 → fld v 27 20 < 16 → s.present (fld v 27 20) = true → 1 ≤ fld v 15 0 → fld v 15 0 ≤ 255 →
    s.inject v = some (s.setTile (fld v 27 20) { s.tileAt (fld v 27 20) with omitFrames := fld v 15 0 })) ∧
  (∀ (s : State) (v : Word), fld v 31 30 = 1 → (128 ≤ fld v 27 20 ∨ fld v 15 0 = 0 ∨ 4095 < fld v 15 0) → s.inject v = none) ∧
  (∀ (s : State) (v : Word), fld v 31 30 = 3 → fld v 27 20 < 16 → fld v 19 16 ≤ 1 →
    s.inject v = some (s.setBank (fld v 27 20) { s.bankAt (fld v 27 20) with inject := fld v 19 16 + 1 })) ∧
  (∀ (n : Fin 128) (c : Fin 11) (u : State) (s : State),
    ((s.laneAt n.val).injected.any fun x => x.1 == c.val && x.2 ≤ s.heat) = true →
    u = s.setLane n.val { s.laneAt n.val with injected := (s.laneAt n.val).injected.filter (·.1 != c.val) } →
    u.causeStands n.val c.val = false →
    Does (.injectedCauseExpiry n c) s (((u.setHold n.val c.val false 0).showFault (n.val / 8)).showFault (n.val / 8))) ∧
  (∀ (n : Fin 128) (c : Fin 11) (u : State) (s : State),
    ((s.laneAt n.val).injected.any fun x => x.1 == c.val && x.2 ≤ s.heat) = true →
    u = s.setLane n.val { s.laneAt n.val with injected := (s.laneAt n.val).injected.filter (·.1 != c.val) } →
    u.causeStands n.val c.val = true →
    Does (.injectedCauseExpiry n c) s ((u).showFault (n.val / 8)))

/-- A lockstep mismatch halts the SSV and raises 0x01 on source 222. An enabled watchdog that runs out raises 0x01 on the core's
source, or 0x05 on source 229 for the SSV; only the key 0x0000_A5C3 restarts one. A read of MTIME_LO returns the low word of
pacer time and freezes the high word. A bell sets the core's mailbox pending bit; RAISE sends the mailbox vector to the
baton owner while EN is set. A write of an application core's control register starts or stops it, and RESET asks for its
block reset. (Choices of the model it may rest on: log entries 110, 145.) Completes, with its own effect: lockstepMismatch,
coreWatchdogExpiry, coreKickWrite, machineTimer, coreMtimeLoRead, coreMboxBell, coreMboxRaise, coreAcReset. (R478, R521,
R523, R524, R526, R552) -/
def Obligations.ControlCores : Prop :=
  (∀ (s t : State), s.hold = .run → s.ssvHalted = false →
    t = ((s.setBit Reg.coreSsvStatus 0 false).setBit Reg.coreSsvStatus 1 true).setBit Reg.coreSsvStatus 2 true →
    Does .lockstepMismatch s (t.emit 222 0x01 (syn16 0x01 0 0))) ∧
  (∀ (c : Fin 5) (s : State), s.hold = .run → s.bit (Reg.coreWdog c.val) 31 = false →
    Does (.coreWatchdogExpiry c) s (s)) ∧
  (∀ (n : Fin 4) (h : CoreH) (s : State), s.hold = .run → s.bit (Reg.coreWdog n.val) 31 = true → s.fc.oscStopped = false → s.getF (Reg.coreWdog n.val) 15 0 * 98 ≤ (s.coreAt n.val).wdogHeats * 100 → h = { s.coreAt n.val with kicks := 0, wdogHeats := 0 } →
    Does (.coreWatchdogExpiry n.castSucc) s ((s.setCore n.val h).emit (223 + n.val) 0x01 (syn16 0x01 0 n.val))) ∧
  (∀ (h : CoreH) (s : State), s.hold = .run → s.bit (Reg.coreWdog 4) 31 = true → s.fc.oscStopped = false → s.getF (Reg.coreWdog 4) 15 0 * 98 ≤ (s.coreAt 4).wdogHeats * 100 → h = { s.coreAt 4 with kicks := 0, wdogHeats := 0 } →
    Does (.coreWatchdogExpiry 4) s ((s.setCore 4 h).emit 229 0x05 (syn16 0x05 0 4))) ∧
  (∀ (m : Master) (c : Fin 5) (s : State), s.hold = .run → s.may m (Reg.coreKick c.val) = true →
    Does (.coreKickWrite m c 0x0000A5C3#32) s (s.setCore c.val { s.coreAt c.val with kicks := (s.coreAt c.val).kicks + 1, wdogHeats := 0 })) ∧
  (∀ (m : Master) (c : Fin 5) (v : Word) (s : State), s.hold = .run → s.may m (Reg.coreKick c.val) = true → v ≠ 0x0000A5C3#32 →
    Does (.coreKickWrite m c v) s (s)) ∧
  (∀ (c : Fin 5) (s : State), s.hold = .run →
    Does (.machineTimer c) s (s.timerEval c.val)) ∧
  (∀ (m : Master) (s t : State), s.hold = .run →
    t = s.latchWords m [Reg.coreMtimeHi] (fun _ => BitVec.ofNat 32 (s.pacer.ns.toNat / 2 ^ 32)) →
    Does (.coreMtimeLoRead m) s { t with rdata := BitVec.ofNat 32 s.pacer.ns.toNat }) ∧
  (∀ (m : Master) (c : Fin 5) (s : State), s.hold = .run → s.may m (Reg.coreMboxBell c.val) = true →
    Does (.coreMboxBell m c) s (s.setBit (Reg.coreIrqPend c.val) 2 true)) ∧
  (∀ (m : Master) (c : Fin 5) (v : Word) (s t : State), s.hold = .run → s.may m (Reg.coreMboxCtrl c.val) = true →
    t = s.rawWrite (Reg.coreMboxCtrl c.val) (setBitAt v 31 false) → bitAt v 31 = true → t.bit (Reg.coreMboxCtrl c.val) 15 = true →
    t.held = true → Does (.coreMboxRaise m c v) s (t.msix t.owner (t.getF (Reg.coreMboxCtrl c.val) 10 0))) ∧
  (∀ (m : Master) (c : Fin 5) (v : Word) (s : State), s.hold = .run → s.may m (Reg.coreMboxCtrl c.val) = true → bitAt v 31 = false →
    Does (.coreMboxRaise m c v) s (s.rawWrite (Reg.coreMboxCtrl c.val) (setBitAt v 31 false))) ∧
  (∀ (m : Master) (n : Fin 4) (v : Word) (s t : State), s.hold = .run → s.may m (Reg.coreAcCtrl n.val) = true → bitAt v 1 = false →
    t = s.setReg (Reg.coreAcCtrl n.val) (v &&& 1#32) →
    Does (.coreAcReset m n v) s (t.setBit (Reg.coreAcStatus n.val) 0 (bitAt v 0 && !t.bit (Reg.coreAcStatus n.val) 1))) ∧
  (∀ (m : Master) (n : Fin 4) (v : Word) (s t u : State), s.hold = .run → s.may m (Reg.coreAcCtrl n.val) = true → bitAt v 1 = true →
    t = s.setReg (Reg.coreAcCtrl n.val) (v &&& 1#32) →
    u = t.setBit (Reg.coreAcStatus n.val) 0 (bitAt v 0 && !t.bit (Reg.coreAcStatus n.val) 1) → u.inReset (223 + n.val) = false →
    Does (.coreAcReset m n v) s (State.blockReset { u with fc := { u.fc with resets := (223 + n.val) :: u.fc.resets } } (223 + n.val)))

/-- Only the SSV commands the OTP and the crypto unit. A read of an OTP word returns it and sets the OTP's pending bit;
programming a word of DEV_ID or of a locked group is refused with 0x03 on source 230; else the word is programmed, and once
verified its bits are the old ones and the new. SHA-384 writes the digest at ARG and sets PASS; a verification sets PASS
where the signature verifies. (That the digest goes to ARG, the layout of that block and PASS after a hash are the model's
reading, log entry 105.) With scrubbing off a scrubber does nothing; a line without errors moves it on; a bad context line
stops the ring. (Choices of the model it may rest on: log entries 106, 108.) Completes, with its own effect: otpRead,
otpProgram, otpProgramDone, cryptoSha384, cryptoEcdsaVerify, cryptoDone, scrubLineRead. (R513, R516, R517, R533, R534, R535) -/
def Obligations.OtpCryptoScrub : Prop :=
  (∀ (m : Master) (s : State), s.hold = .run → m ≠ .ssv →
    Does (.otpRead m) s (s)) ∧
  (∀ (s t : State) (w : Nat), s.hold = .run → s.bit Reg.coreOtpStatus 0 = false → w = s.getF Reg.coreOtpAddr 12 2 →
    t = (s.otpTouch w 1).setReg Reg.coreOtpCmd 1#32 →
    Does (.otpRead .ssv) s (((t.setReg Reg.coreOtpData (t.otpWord w)).setReg Reg.coreOtpStatus 0).setBit (Reg.coreIrqPend 4) 5 true)) ∧
  (∀ (s t : State) (w : Nat), s.hold = .run → s.bit Reg.coreOtpStatus 0 = false → w = s.getF Reg.coreOtpAddr 12 2 →
    t = s.setReg Reg.coreOtpCmd 2#32 → t.otpRefused w = true →
    Does (.otpProgram .ssv) s (((t.setReg Reg.coreOtpStatus 4#32).emit 230 0x03 (syn16 0x03 0 w)).setBit (Reg.coreIrqPend 4) 5 true)) ∧
  (∀ (s t : State) (w : Nat), s.hold = .run → s.bit Reg.coreOtpStatus 0 = false → w = s.getF Reg.coreOtpAddr 12 2 →
    t = s.setReg Reg.coreOtpCmd 2#32 → t.otpRefused w = false →
    Does (.otpProgram .ssv) s { t.setReg Reg.coreOtpStatus 1#32 with otpProg := some (w, t.reg Reg.coreOtpData) }) ∧
  (∀ (s t : State) (w : Nat) (v : Word), s.hold = .run → s.otpProg = some (w, v) →
    t = { s with otpProg := none, otp := Sparse.set 0 s.otp w (Sparse.get 0 s.otp w ||| v) } →
    Does (.otpProgramDone true) s ((t.setReg Reg.coreOtpStatus 0).setBit (Reg.coreIrqPend 4) 5 true)) ∧
  (∀ (s : State) (ok : Bool), s.hold = .run → s.otpProg = none → Does (.otpProgramDone ok) s s) ∧
  (∀ (s : State) (w : Nat), w < 2 → s.otpRefused w = true) ∧
  (∀ (s t : State), s.hold = .run → s.bit Reg.coreCryStatus 0 = false →
    t = (s.setReg Reg.coreCryCmd 1#32).setReg Reg.coreCryStatus 1#32 →
    Does (.cryptoSha384 .ssv) s { t with crypto := some ⟨1, t.reg Reg.coreCrySrc, t.reg Reg.coreCryLen, t.reg Reg.coreCryArg⟩ }) ∧
  (∀ (s t : State), s.hold = .run → s.bit Reg.coreCryStatus 0 = false →
    t = (s.setReg Reg.coreCryCmd 2#32).setReg Reg.coreCryStatus 1#32 →
    Does (.cryptoEcdsaVerify .ssv) s { t with crypto := some ⟨2, t.reg Reg.coreCrySrc, t.reg Reg.coreCryLen, t.reg Reg.coreCryArg⟩ }) ∧
  (∀ (m : Master) (s : State), s.hold = .run → m ≠ .ssv →
    Does (.cryptoSha384 m) s (s)) ∧
  (∀ (m : Master) (s : State), s.hold = .run → m ≠ .ssv →
    Does (.cryptoEcdsaVerify m) s (s)) ∧
  (∀ (s : State), s.hold = .run → s.crypto = none →
    Does .cryptoDone s (s)) ∧
  (∀ (s t : State) (x : CryptoH) (a : Nat), s.hold = .run → s.crypto = some x → x.op = 1 → t = { s with crypto := none } → a = x.arg.toNat →
    Does .cryptoDone s ((t.coreStore a (sha384 (t.coreBytes x.src.toNat x.len.toNat))).setReg Reg.coreCryStatus 2#32)) ∧
  (∀ (s t : State) (x : CryptoH) (a : Nat), s.hold = .run → s.crypto = some x → x.op = 2 → t = { s with crypto := none } → a = x.arg.toNat →
    Does .cryptoDone s (t.setReg Reg.coreCryStatus (if ecdsaVerify (t.coreBytes (a + 48) 96) (t.coreBytes (a + 144) 96)
      (t.coreBytes a 48) then 2#32 else 0#32))) ∧
  (∀ (bank : Fin 18) (bad : List (Fin 8 × Bool)) (s : State), s.hold = .run → s.bit Reg.mxCtrl 0 = false →
    Does (.scrubLineRead bank bad) s (s)) ∧
  (∀ (bank : Fin 18) (s t : State) (b : BankH), s.hold = .run → s.bit Reg.mxCtrl 0 = true → bank.val < 16 → b = s.bankAt bank.val →
    b.lineBad = [] → b.line < 131071 → t = s.setBank bank.val b →
    Does (.scrubLineRead bank []) s (t.setBank bank.val { b with line := b.line + 1 })) ∧
  (∀ (i : Fin 8) (s t : State) (r : Nat), s.hold = .run → s.bit Reg.mxCtrl 0 = true → r = s.ctxH.line → t = s.ringStop r 0x16 →
    Does (.scrubLineRead 17 [(i, true)]) s { t with ctxH := { t.ctxH with line := if r + 1 = 32768 then 0 else r + 1 } })

/-- At the end of the training window the ports with a trained link are marked present with their identification and offset, the
SSV checks the tiles, TILE_SAFE_n is released, and boot goes on to read flash, or to the service loop. An image the ROM
accepts is loaded and runs; one it refuses raises 0x01 with the reason, and after the last image boot ends in the service
loop with 0x03. An accepted image is well formed, of its stated length, not below the minimum version, and signed by a valid
key, or unsigned where the OTP allows it. In the service loop GO boots the image in the vat. Only the SSV commits lane
defaults; a sound image is stored, another sets CRC_BAD. (Choices of the model it may rest on: log entries 106, 111.)
Completes, with its own effect: linkTrainingWindowEnd, firmwareBoot, coreHostbootGo, tlDefCommit, tlDefStoreDone. (R20,
R529, R530, R531, R536, R538, R540, R541, R551) -/
def Obligations.Boot : Prop :=
  (∀ (ps : List TileProbe) (s : State), s.hold = .run → 3 ≤ s.getF Reg.coreBootStatus 31 24 →
    Does (.linkTrainingWindowEnd ps) s (s)) ∧
  (∀ (s t : State), s.hold = .run → s.getF Reg.coreBootStatus 31 24 < 3 → t = s.otpTouch 0 2048 → t.presentTiles = [] → t.wup = false →
    Does (.linkTrainingWindowEnd []) s (t.putF Reg.coreBootStatus 31 24 (if t.straps.bootSrc = 3#2 then 7 else 4))) ∧
  (∀ (p : TileProbe) (s t u : State) (a : State × Bool), s.hold = .run → s.getF Reg.coreBootStatus 31 24 < 3 →
    t = (s.otpTouch 0 2048).markPresent p → a = t.tileCheck p → u = a.1.presentTiles.foldl (fun s t => s.tileSafeOff t) a.1 →
    u.wup = false → u.straps.bootSrc = 0#2 → Does (.linkTrainingWindowEnd [p]) s (u.putF Reg.coreBootStatus 31 24 4)) ∧
  (∀ (p : TileProbe) (s : State) (t : Nat), t = p.tile.val →
    (s.markPresent p).reg (Reg.tlTileId t) = p.id ∧ (s.markPresent p).reg (Reg.tlPresOfs t) = BitVec.ofNat 32 p.ofs.toNat ∧
    (s.markPresent p).present t = true) ∧
  (∀ (img : FwImage) (s t : State), s.hold = .run → s.getF Reg.coreBootStatus 31 24 = 4 → s.straps.bootSrc = 0#2 → img.which.val = 0 →
    img.readOk = true → t = s.fwOtp.corePend 4 6 → t.fwRefusal true img.bytes = none → Does (.firmwareBoot img) s (t.fwBoot img.bytes 0)) ∧
  (∀ (img : FwImage) (s t : State) (r : Nat), s.hold = .run → s.getF Reg.coreBootStatus 31 24 = 4 → s.straps.bootSrc = 0#2 →
    img.which.val = 0 → img.readOk = true → t = s.fwOtp.corePend 4 6 → t.fwRefusal true img.bytes = some r →
    Does (.firmwareBoot img) s ((((t.putF Reg.coreBootStatus 23 16 r).emit 229 0x01 (syn16 0x01 0 r)).putF Reg.coreBootStatus 31 24 5))) ∧
  (∀ (img : FwImage) (s t : State) (r : Nat), s.hold = .run → s.getF Reg.coreBootStatus 31 24 = 5 → s.straps.bootSrc = 0#2 →
    img.which.val = 1 → img.readOk = true → t = s.fwOtp.corePend 4 6 → t.fwRefusal true img.bytes = some r →
    Does (.firmwareBoot img) s ((((((t.putF Reg.coreBootStatus 23 16 r).emit 229 0x01 (syn16 0x01 0 r)).putF Reg.coreBootStatus 31 24
      5)).putF Reg.coreBootStatus 31 24 7).emit 229 0x03 (syn16 0x03 0 0))) ∧
  (∀ (s : State) (bs : List Byte), s.fwRefusal true bs = none →
    fwFormed (s.getF Reg.mxCsramSsv 20 0) bs = true ∧ bs.length = fwLength bs ∧ s.fwMinVer ≤ leAt bs 8 4 ∧
    (fwSigned bs = false → bitAt (s.otpWord 2) 0 = false) ∧
    (fwSigned bs = true → s.fwKeyOk bs = true ∧
      ecdsa384 ((bs.drop 64).take 96) ((bs.drop 160).take 96) (bs.take 160 ++ bs.drop 256) = true)) ∧
  (∀ (m : Master) (v : Word) (s t u : State) (a n : Nat) (bs : List Byte), s.hold = .run → s.may m Reg.coreHostboot = true →
    t = s.rawWrite Reg.coreHostboot (setBitAt v 31 false) → bitAt v 31 = true → t.getF Reg.coreBootStatus 31 24 = 7 →
    a = t.getF Reg.coreHostboot 26 0 → n = t.getF Reg.coreHostbootLen 20 0 → bs = t.vatBytes a n → u = (t.vatTouch .ssv a n).fwOtp →
    u.fwRefusal true bs = none → Does (.coreHostbootGo m v) s (u.fwBoot bs 2)) ∧
  (∀ (m : Master) (v : Word) (s t : State), s.hold = .run → s.may m Reg.coreHostboot = true →
    t = s.rawWrite Reg.coreHostboot (setBitAt v 31 false) → bitAt v 31 = false → Does (.coreHostbootGo m v) s t) ∧
  (∀ (m : Master) (t : Fin 16) (v : Word) (s : State), s.hold = .run → m ≠ .ssv →
    Does (.tlDefCommit m t v) s (s)) ∧
  (∀ (t : Fin 16) (v : Word) (s : State), s.hold = .run → bitAt v 0 = true → s.bit (Reg.tlDefCtrl t.val) 1 = false →
    Does (.tlDefCommit .ssv t v) s ((s.setBit (Reg.tlDefCtrl t.val) 1 true).setBit (Reg.tlDefCtrl t.val) 2 false)) ∧
  (∀ (t : Fin 16) (s u : State) (img : List Byte), s.hold = .run → s.bit (Reg.tlDefCtrl t.val) 1 = true →
    img = (List.range 64).flatMap (fun w => leBytes 4 (s.reg (Reg.tlDef t.val w)).toNat) → defsStorable img = true →
    u = s.setBit (Reg.tlDefCtrl t.val) 1 false →
    Does (.tlDefStoreDone t) s (u.setTile t.val { u.tileAt t.val with defs := img })) ∧
  (∀ (t : Fin 16) (s : State) (img : List Byte), s.hold = .run → s.bit (Reg.tlDefCtrl t.val) 1 = true →
    img = (List.range 64).flatMap (fun w => leBytes 4 (s.reg (Reg.tlDef t.val w)).toNat) → defsStorable img = false →
    Does (.tlDefStoreDone t) s ((s.setBit (Reg.tlDefCtrl t.val) 1 false).setBit (Reg.tlDefCtrl t.val) 2 true))

/-- Power-on and an engine reset assert TILE_SAFE_n, clear every block and start the ROM; an engine reset runs only once one is
due, keeps the history and the reset cause, and clears the rings and the schedule. The two keys, written by one master
within 1 ms, ask for a software reset, refused to a host port with 0x30 while the VA flag is set. ALL sets every lock bit of
the controller. Only the SSV writes GBL_SYS_CTRL. At 100 °C event 0x01 is raised, and 0x04 once the die is 5 K below.
Thermal shutdown holds every block but the collector; its release is an engine reset, whose recorded cause the spec leaves
open. A tile rail low for 100 heats enters automatic battery mode; the rails high again for the configured seconds leave it.
(Choices of the model it may rest on: log entries 1, 90, 95, 109, 113, 167.) Completes, with its own effect: powerOn,
powerFail, engineReset, softwareResetKey, gblSysCtrlWrite, gblLockWrite, dieTemperatureCrossing, thermalShutdown,
thermalRelease, batAutoEnter, batAutoLeave. (R370, R481, R528, R536, R539, R560, R561, R562, R563, R564, R586, R599) -/
def Obligations.ResetsAndPower : Prop :=
  (∀ (x : Straps) (s t u : State), t = { s.tilesSafe.blocksReset (fun off => inTiles off && tileKeeps ((off - 0x100000) % 0x4000)) with
      straps := x, fc := {}, hp := [], dieOver := 0 } → u = t.setReg Reg.gblStraps (strapWord x (bitAt (t.otpWord 2) 3)) →
    Does (.powerOn x) s ((u.setReg Reg.gblDevIdLo (u.otpWord 0)).setReg Reg.gblDevIdHi (u.otpWord 1)).romStart) ∧
  (∀ (s t : State), t = { s.tilesSafe.blocksReset (fun off => inTiles off && tileKeeps ((off - 0x100000) % 0x4000)) with
      hold := .power, fc := { running := false }, hp := [], dieOver := 0 } →
    Does .powerFail s (forUpto 16 (fun t s => ((s.holdTile t hcLink true 0xC0).relaysOff t).showFault t) t)) ∧
  (∀ (s : State), s.hold = .run → s.fc.engReset = true →
    Does .engineReset s (s.engineReset)) ∧
  (∀ (s : State), s.hold = .run → s.fc.engReset = false →
    Does .engineReset s (s)) ∧
  (∀ (s t u : State), t = s.tilesSafe.blocksReset (fun off => resetKeeps off || fcKeeps off) →
    u = t.setReg Reg.fcStatus (t.reg Reg.fcStatus &&& 0x80#32) →
    s.engineReset = State.romStart { u with fc := { seq := u.fc.seq, oscStopped := u.fc.oscStopped, running := u.fc.running } }) ∧
  (∀ s : State, s.romStart.hold = .run ∧ s.romStart.reg Reg.coreBootStatus = 0x02000300#32 ∧ s.romStart.reg Reg.coreSsvStatus = 0x9#32 ∧
    s.romStart.bit Reg.gblMode 6 = s.straps.warmupEn) ∧
  (∀ s : State, s.engineReset.rings = [] ∧ s.engineReset.sched = [] ∧ s.engineReset.otp = s.otp ∧
    s.engineReset.reg Reg.fcResetCause = s.reg Reg.fcResetCause ∧ (∀ k j, k < 32 → j < 8 → s.engineReset.reg (Reg.fcHist k j) = s.reg (Reg.fcHist k j))) ∧
  (∀ (m : Master) (v : Word) (s : State), s.hold = .run → s.may m Reg.gblReset = true → v ≠ 0x5A3C#32 → s.key = none →
    Does (.softwareResetKey m v) s { s with key := none }) ∧
  (∀ (m : Master) (s : State), s.hold = .run → s.may m Reg.gblReset = true →
    Does (.softwareResetKey m 0x5A3C#32) s { s with key := some (m, s.pacer.ns.toNat) }) ∧
  (∀ (p : Fin 3) (s t : State) (k : Nat), s.hold = .run → s.may (.host p) Reg.gblReset = true → s.key = some (.host p, k) →
    s.pacer.ns.toNat ≤ k + 1000000 → t = { s with key := none } → t.vaFlag = true →
    Does (.softwareResetKey (.host p) 0xC3A5#32) s ((t.setBit Reg.gblResetInfo 8 true).emit 217 0x30 (syn16 0x30 p.val 0))) ∧
  (∀ (p : Fin 3) (s t u : State) (k : Nat), s.hold = .run → s.may (.host p) Reg.gblReset = true → s.key = some (.host p, k) →
    s.pacer.ns.toNat ≤ k + 1000000 → t = { s with key := none } → t.vaFlag = false → t.fc.engReset = false →
    u = (t.putF Reg.gblResetInfo 2 0 2).putF Reg.gblResetInfo 6 5 p.val →
    Does (.softwareResetKey (.host p) 0xC3A5#32) s (State.tilesSafe
      { u.putF Reg.gblResetInfo 31 16 (satInc 16 (u.getF Reg.gblResetInfo 31 16)) with fc := { u.fc with engReset := true } })) ∧
  (∀ (m : Master) (v : Word) (s : State), s.hold = .run → m ≠ .ssv →
    Does (.gblSysCtrlWrite m v) s (s)) ∧
  (∀ (v : Word) (s : State), s.hold = .run →
    Does (.gblSysCtrlWrite .ssv v) s (s.rawWrite Reg.gblSysCtrl v)) ∧
  (∀ (v : Word) (s : State), s.hold = .run → s.may .ssv Reg.gblLock = true → bitAt v 0 = true →
    Does (.gblLockWrite .ssv v) s (((((((s.setBit Reg.fcLock 0 true).setBit Reg.mxLock 0 true).setBit Reg.coreLock 0 true).setBit Reg.gblHpLock 0 true).setBit
      Reg.gblVoteCfg 31 true).setBit Reg.lpGctrl 31 true).setBit Reg.gblLock 0 true)) ∧
  (∀ (m : Master) (v : Word) (s : State), s.hold = .run → s.may m Reg.gblLock = true → bitAt v 0 = false →
    Does (.gblLockWrite m v) s (s)) ∧
  (∀ (x : BitVec 16) (s : State), s.hold ≠ .power → s.dieOver = 0 → 100 ≤ x.toInt → x.toInt < 110 →
    Does (.dieTemperatureCrossing x) s (State.emit { s with dieOver := 1 } 228 0x01 (syn16 0x01 0 x.toNat))) ∧
  (∀ (x : BitVec 16) (s : State), s.hold ≠ .power → s.dieOver = 1 → x.toInt < 95 →
    Does (.dieTemperatureCrossing x) s (State.emit { s with dieOver := 0 } 228 0x04 (syn16 0x04 0 x.toNat))) ∧
  (∀ (x : BitVec 16) (s : State), s.hold ≠ .power → s.dieOver = 1 → 95 ≤ x.toInt → x.toInt < 110 →
    Does (.dieTemperatureCrossing x) s s) ∧
  (∀ (s t : State), s.hold = .run → t = s.tilesSafe.blocksReset (fun off => resetKeeps off || inCollector off) →
    Does .thermalShutdown s { t with hold := .thermal }) ∧
  (∀ (s : State), s.hold ≠ .thermal →
    Does .thermalRelease s (s)) ∧
  (∀ s t : State, s.hold = .thermal → t = (s.putF Reg.gblResetInfo 2 0 (fld s.freeVal 2 0)).take →
    Does .thermalRelease s (t.putF Reg.gblResetInfo 31 16 (satInc 16 (t.getF Reg.gblResetInfo 31 16))).engineReset) ∧
  (∀ (s : State), s.hold = .run → (s.presentTiles.any fun t => 100 ≤ (s.tileAt t).railLow) = true →
    Does .batAutoEnter s ((s.setMode 16 true).batFollow)) ∧
  (∀ (s : State), s.hold = .run → (s.presentTiles.any fun t => 100 ≤ (s.tileAt t).railLow) = false →
    Does .batAutoEnter s (s)) ∧
  (∀ (s : State), s.hold = .run → max 1 (s.getF Reg.gblModeCfg 15 8) * 1000 ≤ s.modes.batHigh →
    Does .batAutoLeave s ((s.setMode 16 false).batFollow))

/-- A write of less than a word, of a hole or of an offset from 0x0044_0000 upwards changes nothing, by whatever master; a write
to a register whose write is a command of its own is that command; of the rest, one by a master that may not make it is
refused, and any other takes the effect its block gives it. A port writes its own MSI-X table and configuration. An address
of no target raises a decode error. A read of an RC register by the owner or the SSV returns it and clears it; by another
master it only returns it. Bytes the owner writes through BAR2 go to the vat; another port's are dropped and counted.
(Choices of the model it may rest on: log entries 38, 39, 43, 45, 128, 129.) Completes, with its own effect: registerWrite,
rcRegisterRead, hostBar2Write. (R9, R12, R14, R408, R409, R411, R505, R515, R553, R554) -/
def Obligations.RegisterAccess : Prop :=
  (∀ (m : Master) (o : Nat) (be : BitVec 4) (v : Word) (s : State), s.hold = .run → (o / 4 * 4 < 0x8000 ∨ 0x10000 ≤ o / 4 * 4) →
    be ≠ 0xF#4 → Does (.registerWrite m (.bar0 o) be v) s s) ∧
  (∀ (m : Master) (o : Nat) (v : Word) (s : State), s.hold = .run → 0x10000 ≤ o / 4 * 4 → s.may m (o / 4 * 4) = true →
    regRow (o / 4 * 4) = none → rowCommand m (o / 4 * 4) v = none → Does (.registerWrite m (.bar0 o) 0xF#4 v) s s) ∧
  (∀ (m : Master) (o : Nat) (v : Word) (s : State), s.hold = .run → 0x10000 ≤ o / 4 * 4 → o / 4 * 4 < 0x440000 →
    s.may m (o / 4 * 4) = false → rowCommand m (o / 4 * 4) v = none → Does (.registerWrite m (.bar0 o) 0xF#4 v) s (s.refuseWrite m)) ∧
  (∀ (m : Master) (o : Nat) (v : Word) (r : RegRow) (s : State), s.hold = .run → 0x10000 ≤ o / 4 * 4 → s.may m (o / 4 * 4) = true →
    regRow (o / 4 * 4) = some r → ownRow (o / 4 * 4) = false → (r.ssvw = false ∨ m = .ssv) →
    Does (.registerWrite m (.bar0 o) 0xF#4 v) s (s.blockWrite (o / 4 * 4) r.ssvw v)) ∧
  (∀ (p : Fin 3) (o : Nat) (be : BitVec 4) (v : Word) (s : State), s.hold = .run → 0x8000 ≤ o / 4 * 4 → o / 4 * 4 < 0x10000 →
    Does (.registerWrite (.host p) (.bar0 o) be v) s (s.msixWrite p.val ((o / 4 * 4 - 0x8000) / 4) be v)) ∧
  (∀ (p : Fin 3) (b e f : Bool) (be : BitVec 4) (v : Word) (s : State), s.hold = .run →
    Does (.registerWrite (.host p) (.config b e f) be v) s (s.configWrite p.val b e f)) ∧
  (∀ (a : Word) (id : Fin 32) (be : BitVec 4) (v : Word) (s : State), s.hold = .run → 0x02000000 ≤ a.toNat → a.toNat < 0x10000000 →
    Does (.registerWrite (.host 0) (.matrix a id) be v) s (s.decodeError (.host 0) id.val true a)) ∧
  (∀ (m : Master) (off : BitVec 25) (o : Nat) (r : RegRow) (s t : State), s.hold = .run → o = off.toNat / 4 * 4 → regRow o = some r →
    t = { s with rdata := s.readWord m o } → r.rc = true → s.mayClear m = true → Does (.rcRegisterRead m off) s (t.clearReg o)) ∧
  (∀ (m : Master) (off : BitVec 25) (o : Nat) (r : RegRow) (s : State), s.hold = .run → o = off.toNat / 4 * 4 → regRow o = some r →
    s.mayClear m = false → Does (.rcRegisterRead m off) s { s with rdata := s.readWord m o }) ∧
  (∀ (p : Fin 3) (off : BitVec 27) (bs : List Byte) (s : State), s.hold = .run → s.owns p.val = true →
    Does (.hostBar2Write p off bs) s (s.vatWrite (.host p.val) off.toNat bs)) ∧
  (∀ (p : Fin 3) (off : BitVec 27) (bs : List Byte) (s : State), s.hold = .run → s.owns p.val = false →
    Does (.hostBar2Write p off bs) s (s.dropWrite p.val)) ∧
  (∀ (s t : State) (p : Nat), t = s.bump Reg.gblBatonDropCnt 32 → s.baton.dropSeen = true → s.dropWrite p = t) ∧
  (∀ (m : Master) (o : Nat) (be : BitVec 4) (v : Word) (s : State), s.hold = .run → 0x440000 ≤ o / 4 * 4 →
    Does (.registerWrite m (.bar0 o) be v) s s) ∧
  (∀ (m : Master) (o : Nat) (v : Word) (f : RowAct) (s : State), rowCommand m (o / 4 * 4) v = some f →
    exec (.registerWrite m (.bar0 o) 0xF#4 v) s = f s)

/-- For every opcode that commits at a heat: a descriptor that stands first in a queue the engine may take it from, passes every
check, and is no member of a group and no voted copy, is taken, counted as accepted, and its update scheduled for its commit
heat. (Choices of the model it may rest on: log entry 32.) Completes, with its own effect: voteMark, testReq, testCancel,
testgenSet, faultReact, laneParamInline, laneDelay, lpRunStart, lpRunStop, modeSetVa, modeSetBat, modeSetMnt, modeSetWup,
modeSetFtm, flowRxSet, flowTxSet, playerSet, rindSet, rindClear, battSet, poolSet, nop, chGain, streamSet, srcBind,
srcFallback, laneRunStart, laneRunStop, laneRunMute, laneRunUnmute, scClear, relaySet, pairBind, pairBus, pairReturn,
vsrcSet, zoneSet, layerSet, layerAssert, layerRelease, laneRoute, returnSet, ambSet, laneParam, lpLoad. (R444, R449, R450,
R527) -/
def Obligations.DescriptorsScheduled : Prop :=
  Schedules (Instr.voteMark .accept) voteMarkRow 0x0041 .error ∧
  Schedules (Instr.testReq .accept) testReqRow 0x0400 .error ∧
  Schedules (Instr.testCancel .accept) testCancelRow 0x0401 .error ∧
  Schedules (Instr.testgenSet .accept) testgenSetRow 0x0402 .error ∧
  Schedules (Instr.faultReact .accept) faultReactRow 0x0703 .error ∧
  Schedules (Instr.laneParamInline .accept) laneParamInlineRow 0x0201 .error ∧
  Schedules (Instr.laneDelay .accept) laneDelayRow 0x0202 .error ∧
  Schedules (Instr.lpRunStart .accept) lpRunStartRow 0x0211 .error ∧
  Schedules (Instr.lpRunStop .accept) lpRunStopRow 0x0211 .error ∧
  Schedules (Instr.modeSetVa .accept) modeVaRow 0x0500 .error ∧
  Schedules (Instr.modeSetBat .accept) modeBatRow 0x0500 .error ∧
  Schedules (Instr.modeSetMnt .accept) modeMntRow 0x0500 .error ∧
  Schedules (Instr.modeSetWup .accept) modeWupRow 0x0500 .error ∧
  Schedules (Instr.modeSetFtm .accept) modeFtmRow 0x0500 .error ∧
  Schedules (Instr.flowRxSet .accept) flowRxSetRow 0x0610 .error ∧
  Schedules (Instr.flowTxSet .accept) flowTxSetRow 0x0611 .error ∧
  Schedules (Instr.playerSet .accept) playerSetRow 0x0300 .error ∧
  Schedules (Instr.rindSet .accept) rindSetRow 0x0230 .error ∧
  Schedules (Instr.rindClear .accept) rindClearRow 0x0231 .error ∧
  Schedules (Instr.battSet .accept) battSetRow 0x0232 .error ∧
  Schedules (Instr.poolSet .accept) poolSetRow 0x0233 .error ∧
  Schedules (Instr.nop .accept) nopRow 0x0000 .error ∧
  Schedules (Instr.chGain .accept) chGainRow 0x0603 .error ∧
  Schedules (Instr.streamSet .accept) streamSetRow 0x0602 .error ∧
  Schedules (Instr.srcBind .accept) srcBindRow 0x0600 .error ∧
  Schedules (Instr.srcFallback .accept) srcFallbackRow 0x0601 .error ∧
  Schedules (Instr.laneRunStart .accept) (laneRunRow 1 laneStart) 0x0220 .error ∧
  Schedules (Instr.laneRunStop .accept) (laneRunRow 0 laneStop) 0x0220 .error ∧
  Schedules (Instr.laneRunMute .accept) (laneRunRow 2 laneMute) 0x0220 .error ∧
  Schedules (Instr.laneRunUnmute .accept) (laneRunRow 3 laneUnmute) 0x0220 .error ∧
  Schedules (Instr.scClear .accept) scClearRow 0x0221 .error ∧
  Schedules (Instr.relaySet .accept) relaySetRow 0x0222 .error ∧
  Schedules (Instr.pairBind .accept) pairBindRow 0x0800 .error ∧
  Schedules (Instr.pairBus .accept) pairBusRow 0x0801 .error ∧
  Schedules (Instr.pairReturn .accept) pairReturnRow 0x0802 .error ∧
  Schedules (Instr.vsrcSet .accept) vsrcSetRow 0x0612 .error ∧
  Schedules (Instr.zoneSet .accept) zoneSetRow 0x0100 .error ∧
  Schedules (Instr.layerSet .accept) layerSetRow 0x0101 .error ∧
  Schedules (Instr.layerAssert .accept) (assertRow 1) 0x0102 .error ∧
  Schedules (Instr.layerRelease .accept) (assertRow 0) 0x0102 .error ∧
  Schedules (Instr.laneRoute .accept) laneRouteRow 0x0103 .error ∧
  Schedules (Instr.returnSet .accept) returnSetRow 0x0104 .error ∧
  Schedules (Instr.ambSet .accept) ambSetRow 0x0105 .error ∧
  (∀ rd, Schedules (fun o d => Instr.laneParam .accept o d rd) laneParamRow 0x0200 rd) ∧
  (∀ rd, Schedules (fun o d => Instr.lpLoad .accept o d rd) lpLoadRow 0x0210 rd)

/-- For every opcode: a descriptor outside a group that stands first in a queue the engine may take it from and meets a
condition of refusal is taken and completes with the status and VALUE of the first condition that applies, with its tag, at
the present heat, and nothing else is done with it. (Choices of the model it may rest on: log entries 32, 33.) (R444, R448,
R459, R605) -/
def Obligations.DescriptorsRefused : Prop :=
  Refuses (Instr.voteMark .accept) voteMarkRow 0x0041 ∧
  Refuses (Instr.testReq .accept) testReqRow 0x0400 ∧
  Refuses (Instr.testCancel .accept) testCancelRow 0x0401 ∧
  Refuses (Instr.testgenSet .accept) testgenSetRow 0x0402 ∧
  Refuses (Instr.faultReact .accept) faultReactRow 0x0703 ∧
  Refuses (Instr.laneParamInline .accept) laneParamInlineRow 0x0201 ∧
  Refuses (Instr.laneDelay .accept) laneDelayRow 0x0202 ∧
  Refuses (Instr.lpRunStart .accept) lpRunStartRow 0x0211 ∧
  Refuses (Instr.lpRunStop .accept) lpRunStopRow 0x0211 ∧
  Refuses (Instr.modeSetVa .accept) modeVaRow 0x0500 ∧
  Refuses (Instr.modeSetBat .accept) modeBatRow 0x0500 ∧
  Refuses (Instr.modeSetMnt .accept) modeMntRow 0x0500 ∧
  Refuses (Instr.modeSetWup .accept) modeWupRow 0x0500 ∧
  Refuses (Instr.modeSetFtm .accept) modeFtmRow 0x0500 ∧
  Refuses (Instr.flowRxSet .accept) flowRxSetRow 0x0610 ∧
  Refuses (Instr.flowTxSet .accept) flowTxSetRow 0x0611 ∧
  Refuses (Instr.playerSet .accept) playerSetRow 0x0300 ∧
  Refuses (Instr.rindSet .accept) rindSetRow 0x0230 ∧
  Refuses (Instr.rindClear .accept) rindClearRow 0x0231 ∧
  Refuses (Instr.battSet .accept) battSetRow 0x0232 ∧
  Refuses (Instr.poolSet .accept) poolSetRow 0x0233 ∧
  Refuses (Instr.nop .accept) nopRow 0x0000 ∧
  Refuses (Instr.chGain .accept) chGainRow 0x0603 ∧
  Refuses (Instr.streamSet .accept) streamSetRow 0x0602 ∧
  Refuses (Instr.srcBind .accept) srcBindRow 0x0600 ∧
  Refuses (Instr.srcFallback .accept) srcFallbackRow 0x0601 ∧
  Refuses (Instr.laneRunStart .accept) (laneRunRow 1 laneStart) 0x0220 ∧
  Refuses (Instr.laneRunStop .accept) (laneRunRow 0 laneStop) 0x0220 ∧
  Refuses (Instr.laneRunMute .accept) (laneRunRow 2 laneMute) 0x0220 ∧
  Refuses (Instr.laneRunUnmute .accept) (laneRunRow 3 laneUnmute) 0x0220 ∧
  Refuses (Instr.scClear .accept) scClearRow 0x0221 ∧
  Refuses (Instr.relaySet .accept) relaySetRow 0x0222 ∧
  Refuses (Instr.pairBind .accept) pairBindRow 0x0800 ∧
  Refuses (Instr.pairBus .accept) pairBusRow 0x0801 ∧
  Refuses (Instr.pairReturn .accept) pairReturnRow 0x0802 ∧
  Refuses (Instr.vsrcSet .accept) vsrcSetRow 0x0612 ∧
  Refuses (Instr.zoneSet .accept) zoneSetRow 0x0100 ∧
  Refuses (Instr.layerSet .accept) layerSetRow 0x0101 ∧
  Refuses (Instr.layerAssert .accept) (assertRow 1) 0x0102 ∧
  Refuses (Instr.layerRelease .accept) (assertRow 0) 0x0102 ∧
  Refuses (Instr.laneRoute .accept) laneRouteRow 0x0103 ∧
  Refuses (Instr.returnSet .accept) returnSetRow 0x0104 ∧
  Refuses (Instr.ambSet .accept) ambSetRow 0x0105 ∧
  (∀ rd, Refuses (fun o d => Instr.laneParam .accept o d rd) laneParamRow 0x0200) ∧
  (∀ rd, Refuses (fun o d => Instr.lpLoad .accept o d rd) lpLoadRow 0x0210) ∧
  Refuses Instr.faultAck faultAckRow 0x0700 ∧
  Refuses Instr.faultClear faultClearRow 0x0701 ∧
  Refuses Instr.faultPfClear faultPfClearRow 0x0702 ∧
  Refuses Instr.batonAdoptDiscard (adoptRow 0 []) 0x0040 ∧
  Refuses Instr.barrier barrierRow 0x0001 ∧
  Refuses Instr.playerFlush playerFlushRow 0x0301 ∧
  Refuses Instr.clipLoad clipLoadRow 0x0302 ∧
  Refuses Instr.clipPin clipPinRow 0x0303 ∧
  Refuses Instr.clipDrop clipDropRow 0x0304 ∧
  (∀ rds, Refuses (fun o d => Instr.batonAdoptAdopt o d rds) (adoptRow 1 rds) 0x0040)

/-- With command c at the front of its queue, a step is the execution of c on the state whose queue is the rest. (The rows of
spec/opcode_table.json) -/
def Obligations.StepRunsFront : Prop :=
  ∀ (c : Instr) (cs : List Instr) (s : State), s.pending = c :: cs → step s = exec c { s with pending := cs }

/-- Every command, in every state, completes in a next state and leaves the queue as it found it; a step of a queue that is not
empty leaves its rest, and a step of an empty queue leaves it empty. (The rows of spec/opcode_table.json) -/
def Obligations.StepCompletes : Prop :=
  (∀ (c : Instr) (cs : List Instr) (s : State), s.pending = c :: cs → ∃ t, step s = .next t ∧ t.pending = cs) ∧
  (∀ s : State, s.pending = [] → ∃ t, step s = .next t ∧ t.pending = []) ∧
  (∀ (c : Instr) (s : State), ∃ t, exec c s = .next t ∧ t.pending = s.pending)

/-- With no command waiting and the controller running, one cycle of the pacer clock passes, unless it would come into the next
heat; while the controller is held nothing happens. Without adjustment or slew a cycle adds 1 ns. The heat number is the
nanoseconds divided by 1,000,000, truncated. (That an empty queue is a cycle of the pacer clock is the model's choice, log
entry 3.) (R44, R46, R58) -/
def Obligations.IdleStep : Prop :=
  (∀ s : State, s.pending = [] → s.hold ≠ .run → step s = .next s) ∧
  (∀ s : State, s.pending = [] → s.hold = .run → (s.pacerCycles 1).heat = s.heat → step s = .next (s.pacerCycles 1)) ∧
  (∀ s : State, s.pending = [] → s.hold = .run → (s.pacerCycles 1).heat ≠ s.heat → step s = .next s) ∧
  (∀ s : State, s.pacer.slew = 0 → s.pacer.frozen = 0 → s.adjFreq = 0 → s.pacer.ns.toNat + 1 < 2 ^ 64 →
    (s.pacerCycles 1).pacer.ns.toNat = s.pacer.ns.toNat + 1 ∧ (s.pacerCycles 1).pacer.frac = s.pacer.frac) ∧
  (∀ s : State, s.heat = s.pacer.ns.toNat / 1000000)

/-- From every state in which VA_ALIVE, GEN_FAULT_n, the bits of FC_STATUS that show them, open shadows and source 255, and
FC_SHADOW are as their rules give them, every step, of whatever command or of an empty queue, leads to a state in which they
are. (R382, R493, R494, R498) -/
def Obligations.PinsInvariant : Prop :=
  ∀ s t : State, s.PinsAgree → step s = .next t → t.PinsAgree

/-- After reset the pins agree with the registers, every register reads its reset value, the pacer reads zero, no ring is
enabled, every byte of the vat is zero, the history is empty, no port holds the baton, no tile is present, and the boot
stage reads 0. (Choices of the model it may rest on: log entries 1, 20.) (R45, R434, R481, R536, R539) -/
def Obligations.AtReset : Prop :=
  State.reset.PinsAgree ∧
  State.reset.pending = [] ∧
  (∀ off, State.reset.reg off = resetWord off) ∧
  State.reset.hold = .run ∧
  State.reset.pacer.ns = 0#64 ∧
  (∀ r, State.reset.ringEn r = false) ∧
  (∀ a, State.reset.vatByte a = 0#8) ∧
  State.reset.bit Reg.fcStatus 7 = false ∧
  State.reset.getF Reg.fcHistHead 5 0 = 0 ∧
  State.reset.held = false ∧
  State.reset.getF Reg.coreBootStatus 31 24 = 0 ∧
  (∀ t, t < 16 → State.reset.present t = false)

/-- In power-on reset and in thermal shutdown no command has an effect of its own but those of the power pins, of the tiles, of
the collector and of the die sensor; with no event waiting, the pins in agreement and the registers in canonical form the
state is unchanged. (Choices of the model it may rest on: log entry 4.) (R28, R586, R599) -/
def Obligations.HeldController : Prop :=
  (∀ (i : Instr) (s : State), s.hold ≠ .run → actsWhileHeld i = false → Does i s s) ∧
  (∀ (i : Instr) (s : State), s.hold ≠ .run → actsWhileHeld i = false → s.fc.queue = [] → s.PinsAgree →
    Sparse.wf resetWord s.regs = true → exec i s = .next s)

/-- An engine reset leaves the pacer at zero nanoseconds and no fraction, in FREE, with no adjustment and no slew, in heat 0.
From there k cycles of the undisciplined pacer clock take it to k nanoseconds, in heat k / 1,000,000, and from any heat the
cycles up to the next million nanoseconds take it to the next heat number. Completes, with its own effect: engineReset.
(R45) -/
def Obligations.PacerFromReset : Prop :=
  (∀ s : State, s.hold = .run → s.fc.engReset = true →
    ∃ u : State, Does .engineReset s u ∧ u.pacer.ns = 0#64 ∧ u.pacer.frac = 0#32 ∧ u.pacer.slew = 0 ∧ u.pacer.frozen = 0 ∧ u.adjFreq = 0 ∧ u.pcrSt = pcFree ∧ u.heat = 0) ∧
  (∀ (u : State) (k : Nat), u.pacer.ns = 0#64 → u.pacer.frac = 0#32 → u.pacer.slew = 0 → u.pacer.frozen = 0 → u.adjFreq = 0 → k < 2 ^ 64 →
    (u.pacerCycles k).pacer.ns = BitVec.ofNat 64 k ∧ (u.pacerCycles k).pacer.frac = 0#32 ∧ (u.pacerCycles k).heat = k / 1000000) ∧
  (∀ (s : State) (h : Nat), s.heat = h → s.pacer.slew = 0 → s.pacer.frozen = 0 → s.adjFreq = 0 → s.pacer.frac = 0#32 → (h + 1) * 1000000 < 2 ^ 64 →
    (s.pacerCycles ((h + 1) * 1000000 - s.pacer.ns.toNat)).heat = h + 1)

/-- On an enabled receiver a block of 24 bytes in consumer format, which has no CRCC, stands after it in the six words of its
channel, byte 0 in bits [7:0] of word 0. So does one in professional format with the one byte 23 that makes it good; with
any other byte 23 the six words stay. A read of word 0 by a master returns it and latches words 1 to 5 as they stood for
that master, until its next read; what other masters, and other offsets, have latched stays as it was. Completes, with its
own effect: aesCsBlock, aesRxCsRead. (R111) -/
def Obligations.AesChannelStatus : Prop :=
  (∀ (n : Fin 8) (c : Fin 2) (bs : List Byte) (b : Byte) (s : State), s.hold = .run → s.bit (Reg.aesRxCfg n.val) 0 = true → bs.length = 23 →
    (bs.getD 0 0).getLsbD 0 = false →
    ∃ u : State, Does (.aesCsBlock n c (bs ++ [b]) false) s u ∧
      ∀ i j, i < 6 → j < 4 → fld (u.reg (if c.val = 0 then Reg.aesRxCsA n.val i else Reg.aesRxCsB n.val i)) (8 * j + 7) (8 * j) = ((bs ++ [b]).getD (4 * i + j) 0#8).toNat) ∧
  (∀ (n : Fin 8) (c : Fin 2) (bs : List Byte) (s : State), s.hold = .run → s.bit (Reg.aesRxCfg n.val) 0 = true → bs.length = 23 →
    (bs.getD 0 0).getLsbD 0 = true →
    ∃ good : Byte,
      (∃ u : State, Does (.aesCsBlock n c (bs ++ [good]) false) s u ∧
        ∀ i j, i < 6 → j < 4 → fld (u.reg (if c.val = 0 then Reg.aesRxCsA n.val i else Reg.aesRxCsB n.val i)) (8 * j + 7) (8 * j) = ((bs ++ [good]).getD (4 * i + j) 0#8).toNat) ∧
      (∀ b, b ≠ good → ∃ u : State, Does (.aesCsBlock n c (bs ++ [b]) false) s u ∧ ∀ i, i < 6 → u.reg (if c.val = 0 then Reg.aesRxCsA n.val i else Reg.aesRxCsB n.val i) = s.reg (if c.val = 0 then Reg.aesRxCsA n.val i else Reg.aesRxCsB n.val i))) ∧
  (∀ (m : Master) (n : Fin 8) (c : Fin 2) (s : State), s.hold = .run →
    ∃ u : State, Does (.aesRxCsRead m n c) s u ∧ u.rdata = s.reg (if c.val = 0 then Reg.aesRxCsA n.val 0 else Reg.aesRxCsB n.val 0) ∧
      (∀ i live, 1 ≤ i → i ≤ 5 → u.latched m (if c.val = 0 then Reg.aesRxCsA n.val i else Reg.aesRxCsB n.val i) live = s.reg (if c.val = 0 then Reg.aesRxCsA n.val i else Reg.aesRxCsB n.val i)) ∧
      (∀ m' off live, masterCode m' ≠ masterCode m → off < 2 ^ 25 → u.latched m' off live = s.latched m' off live) ∧
      (∀ off live, off < 2 ^ 25 → (∀ i, 1 ≤ i → i ≤ 5 → off ≠ (if c.val = 0 then Reg.aesRxCsA n.val i else Reg.aesRxCsB n.val i)) → u.latched m off live = s.latched m off live) ∧
      u = { s with latch := u.latch, rdata := u.rdata })

/-- A register write of a host port that does not hold the baton is dropped, for every register write of the table that has a
row of its own and that R411 does not leave to every port: it is counted in GBL_BATON_DROP_CNT, raises 0x23 the first time
in a heat, and no other register, no byte of the vat, no ring, update or lane changes. (Choices of the model it may rest on:
log entries 38, 42, 44.) Completes, with its own effect: gblShadowWrite, gblBatonLeaseWrite, fcAckWrite, fcPfClearWrite,
fcFswClear, ringEnable, ringDisable, coreKickWrite, coreMboxBell, coreAcReset, coreCqPop, softwareResetKey, gblLockWrite,
coreHostbootGo, pcrAdjFreqWrite, pcrSlewWrite, pcrStepHiWrite, aesRxEnable. (R411) -/
def Obligations.WritesDropped : Prop :=
  (∀ (p : Fin 3) (k : Fin 64) (v : Word) (s : State), s.hold = .run → s.owns p.val = false → Does (.gblShadowWrite (.host p) k v) s (s.dropWrite p.val)) ∧
  (∀ (p : Fin 3) (v : Word) (s : State), s.hold = .run → s.owns p.val = false → Does (.gblBatonLeaseWrite (.host p) v) s (s.dropWrite p.val)) ∧
  (∀ (p : Fin 3) (v : Word) (s : State), s.hold = .run → s.owns p.val = false → Does (.fcAckWrite (.host p) v) s (s.dropWrite p.val)) ∧
  (∀ (p : Fin 3) (v : Word) (s : State), s.hold = .run → s.owns p.val = false → Does (.fcPfClearWrite (.host p) v) s (s.dropWrite p.val)) ∧
  (∀ (p : Fin 3) (w : Fin 8) (v : Word) (s : State), s.hold = .run → s.owns p.val = false → Does (.fcFswClear (.host p) w v) s (s.dropWrite p.val)) ∧
  (∀ (p : Fin 3) (r : Fin 32768) (v : Word) (s : State), s.hold = .run → s.owns p.val = false → Does (.ringEnable (.host p) r v) s (s.dropWrite p.val)) ∧
  (∀ (p : Fin 3) (r : Fin 32768) (v : Word) (s : State), s.hold = .run → s.owns p.val = false → Does (.ringDisable (.host p) r v) s (s.dropWrite p.val)) ∧
  (∀ (p : Fin 3) (c : Fin 5) (v : Word) (s : State), s.hold = .run → s.owns p.val = false → Does (.coreKickWrite (.host p) c v) s (s.dropWrite p.val)) ∧
  (∀ (p : Fin 3) (c : Fin 5) (s : State), s.hold = .run → s.owns p.val = false → Does (.coreMboxBell (.host p) c) s (s.dropWrite p.val)) ∧
  (∀ (p : Fin 3) (n : Fin 4) (v : Word) (s : State), s.hold = .run → s.owns p.val = false → Does (.coreAcReset (.host p) n v) s (s.dropWrite p.val)) ∧
  (∀ (p : Fin 3) (n : Fin 4) (v : Word) (s : State), s.hold = .run → s.owns p.val = false → Does (.coreCqPop (.host p) n v) s (s.dropWrite p.val)) ∧
  (∀ (p : Fin 3) (v : Word) (s : State), s.hold = .run → s.owns p.val = false → Does (.softwareResetKey (.host p) v) s (s.dropWrite p.val)) ∧
  (∀ (p : Fin 3) (v : Word) (s : State), s.hold = .run → s.owns p.val = false → Does (.gblLockWrite (.host p) v) s (s.dropWrite p.val)) ∧
  (∀ (p : Fin 3) (v : Word) (s : State), s.hold = .run → s.owns p.val = false → Does (.coreHostbootGo (.host p) v) s (s.dropWrite p.val)) ∧
  (∀ (p : Fin 3) (v : Word) (s : State), s.hold = .run → s.owns p.val = false → Does (.pcrAdjFreqWrite (.host p) v) s (s.dropWrite p.val)) ∧
  (∀ (p : Fin 3) (v : Word) (s : State), s.hold = .run → s.owns p.val = false → Does (.pcrSlewWrite (.host p) v) s (s.dropWrite p.val)) ∧
  (∀ (p : Fin 3) (v : Word) (s : State), s.hold = .run → s.owns p.val = false → Does (.pcrStepHiWrite (.host p) v) s (s.dropWrite p.val)) ∧
  (∀ (p : Fin 3) (n : Fin 8) (v : Word) (s : State), s.hold = .run → s.owns p.val = false → Does (.aesRxEnable (.host p) n v) s (s.dropWrite p.val)) ∧
  (∀ (s : State) (p : Nat), (s.dropWrite p).reg Reg.gblBatonDropCnt = (s.bump Reg.gblBatonDropCnt 32).reg Reg.gblBatonDropCnt ∧
    (∀ o, o ≠ Reg.gblBatonDropCnt → (s.dropWrite p).reg o = s.reg o) ∧ (s.dropWrite p).vat = s.vat ∧ (s.dropWrite p).rings = s.rings ∧
    (s.dropWrite p).sched = s.sched ∧ (s.dropWrite p).lanes = s.lanes ∧ (s.dropWrite p).baton.dropSeen = true) ∧
  (∀ (s : State) (p : Nat), s.baton.dropSeen = false → s.dropWrite p =
    State.emit { s.bump Reg.gblBatonDropCnt 32 with baton := { s.baton with dropSeen := true } } 217 0x23 (batonSyn 0x23 p 1))

/-- A write of bytes to the vat leaves every byte outside them as it was, refused in part or not; where no region limits the
writer and no word is bad, it leaves the bytes written in them. The stored form of the vat stays canonical. So for the bytes
a host port writes through BAR2, and a port without the baton changes none. (Choices of the model it may rest on: log entry
20.) Completes, with its own effect: hostBar2Write. (R411, R509, R511, R512, R515) -/
def Obligations.VatWrites : Prop :=
  (∀ (s : State) (w : VatWriter) (a : Nat) (bs : List Byte), a + bs.length ≤ vatSize →
    ∀ b, b < a ∨ a + bs.length ≤ b → (s.vatWrite w a bs).vatByte b = s.vatByte b) ∧
  (∀ (s : State) (w : VatWriter) (a : Nat) (bs : List Byte), a + bs.length ≤ vatSize → w.bit = none →
    (∀ n, (s.bankAt n).bad = [] ∧ (s.bankAt n).inject = 0) →
    ∀ i, i < bs.length → (s.vatWrite w a bs).vatByte (a + i) = bs.getD i 0#8) ∧
  (∀ (s : State) (w : VatWriter) (a : Nat) (bs : List Byte), Memory.wf s.vat = true →
    Memory.wf (s.vatWrite w a bs).vat = true) ∧
  (∀ (p : Fin 3) (off : BitVec 27) (bs : List Byte) (s : State), s.hold = .run → s.owns p.val = true → off.toNat + bs.length ≤ vatSize →
    ∃ u : State, Does (.hostBar2Write p off bs) s u ∧ ∀ b, b < off.toNat ∨ off.toNat + bs.length ≤ b → u.vatByte b = s.vatByte b) ∧
  (∀ (p : Fin 3) (off : BitVec 27) (bs : List Byte) (s : State), s.hold = .run → s.owns p.val = false →
    ∃ u : State, Does (.hostBar2Write p off bs) s u ∧ ∀ b, u.vatByte b = s.vatByte b)

/-- A register reads as it was written, a field of it as the field was, other registers and other fields as before; and the
stored form stays canonical: offsets rising, and none that reads its reset value. (R8, R12) -/
def Obligations.RegisterFile : Prop :=
  (∀ (s : State) (o : Nat) (v : Word), (s.setReg o v).reg o = v ∧ ∀ r, r ≠ o → (s.setReg o v).reg r = s.reg r) ∧
  (∀ (s : State) (o hi lo v r a b : Nat), lo ≤ hi → hi < 32 → (s.putF o hi lo v).getF o hi lo = v % 2 ^ (hi - lo + 1) ∧
    ((r ≠ o ∨ hi < a ∨ b < lo) → a ≤ b → (s.putF o hi lo v).getF r b a = s.getF r b a)) ∧
  (∀ (s : State) (o : Nat) (v : Word), Sparse.wf resetWord s.regs = true → Sparse.wf resetWord (s.setReg o v).regs = true) ∧
  (∀ (s : State) (o n : Nat), Sparse.wf resetWord s.regs = true → Sparse.wf resetWord (s.bump o n).regs = true) ∧
  (∀ (s : State) (o : Nat) (v : Word), Sparse.wf resetWord s.regs = true → Sparse.wf resetWord (s.rawWrite o v).regs = true) ∧
  (∀ (s : State) (o : Nat) (v : Word) (r : Nat), r ≠ o → (s.rawWrite o v).reg r = s.reg r) ∧
  (∀ (s : State) (o : Nat), (s.clearReg o).reg o = resetWord o ∧ ∀ r, r ≠ o → (s.clearReg o).reg r = s.reg r)

/-- An event of a source that is not reserved waits behind those before it, with the class and default reactions of its code, or
is discarded behind eight of its source, and then the next one of the source carries LOST. Reserved sources and those of
absent tiles never raise. Presenting an event changes nothing else. (R21, R472, R474) -/
def Obligations.EventsPresented : Prop :=
  (∀ (s : State) (src code : Nat) (syn : Word), srcReserved (src % 256) = true → s.emit src code syn = s) ∧
  (∀ (s : State) (src code : Nat) (syn : Word), src < 128 → s.present (src / 8) = false → s.emit src code syn = s) ∧
  (∀ (s : State) (src code : Nat) (syn : Word) (t : Nat), src = 128 + t → t < 16 → s.present t = false → s.emit src code syn = s) ∧
  (∀ (s : State) (src code : Nat) (syn : Word), 144 ≤ src → src < 256 → srcReserved src = false →
    (s.fc.queue.filter (fun q => q.src.val == src)).length < 8 →
    ∃ e : Ev, e.src.val = src ∧ e.cls = (evRow src code).1 ∧ e.react = (evRow src code).2 ∧ e.syn = syn ∧
      e.lost = s.fc.lostSrc.contains src ∧ (s.emit src code syn).fc.queue = s.fc.queue ++ [e] ∧
      (s.emit src code syn).fc.lostSrc.contains src = false) ∧
  (∀ (s : State) (src code : Nat) (syn : Word), 144 ≤ src → src < 256 → srcReserved src = false →
    8 ≤ (s.fc.queue.filter (fun q => q.src.val == src)).length →
    (s.emit src code syn).fc.queue = s.fc.queue ∧ (s.emit src code syn).fc.lostSrc.contains src = true) ∧
  (∀ (s : State) (src code : Nat) (syn : Word), s.emit src code syn = { s with fc := (s.emit src code syn).fc })

/-- An event of class U or F with no reaction in force, that is neither merged nor consequential, writes the next slot of the
history with the pacer time, its syndrome, class and source and the next sequence number; sets the source's status bit and
opens its window; and becomes the photo-finish record where there is none, which otherwise stays. (Choices of the model it
may rest on: log entry 7.) (R482, R483, R484, R487) -/
def Obligations.HistoryEntries : Prop :=
  (∀ (s t : State) (e : Ev) (slot : Nat), s.effMask e.src.val e.cls e.react = 0#6 → e.cls ≠ .c →
    slot = (if s.getF Reg.fcHistHead 5 0 = 0 then 0 else (s.getF Reg.fcHistHead 20 16 + 1) % 32) →
    (∀ p, p < 3 → bitAt (s.reg (Reg.fcEvring p)) 31 = false) → t = s.createEntry e [] →
    t.reg (Reg.fcHist slot 0) = BitVec.ofNat 32 s.pacer.ns.toNat ∧
    t.reg (Reg.fcHist slot 1) = BitVec.ofNat 32 (s.pacer.ns.toNat / 2 ^ 32) ∧
    t.reg (Reg.fcHist slot 2) = e.syn ∧ t.reg (Reg.fcHist slot 7) = s.fc.seq + 1 ∧
    fld (t.reg (Reg.fcHist slot 3)) 15 8 = e.src.val ∧ fld (t.reg (Reg.fcHist slot 3)) 1 0 = clsRank e.cls ∧
    t.fc.seq = s.fc.seq + 1 ∧ t.bitVecGet Reg.fcFsw e.src.val = true ∧ t.bitVecGet Reg.fcOpen e.src.val = true ∧
    t.bit Reg.fcStatus 7 = true ∧
    (s.bit Reg.fcStatus 7 = true → ∀ j, j < 8 → t.reg (Reg.fcPf j) = s.reg (Reg.fcPf j)) ∧
    (s.bit Reg.fcStatus 7 = false → t.reg (Reg.fcPf 2) = e.syn ∧ t.reg (Reg.fcPf 7) = s.fc.seq + 1))

/-- A bad header comes first, with the offset of its first bad field; then a bad field of the payload, then a core's opcode
mask, then the mode, then resources, a full schedule of the zone mixer among them; a descriptor that meets none is accepted.
(Choices of the model it may rest on: log entry 32.) (R200, R448, R522, R605) -/
def Obligations.RefusalOrder : Prop :=
  (∀ (s : State) (row : Row) (came : Came) (d : Desc) (off : Nat), s.headerBad (some row) d = some off →
    s.refusal (some row) came d = some (stBad, off)) ∧
  (∀ (s : State) (came : Came) (d : Desc), (s.refusal none came d).map (·.1) = some stBad) ∧
  (∀ (s : State) (row : Row) (d : Desc) (off : Nat), s.headerBad (some row) d = none →
    (s.votedEligible d.opcode.toNat d.body && d.body.chain) = false → row.check s d.body = .bad off →
    s.refusal (some row) .command d = some (stBad, 24 + off)) ∧
  (∀ (s : State) (row : Row) (n : Nat) (d : Desc) (c : Chk), s.headerBad (some row) d = none → d.body.chain = false →
    s.votedEligible d.opcode.toNat d.body = false → row.check s d.body = c → c ∈ [.ok, .mode, .short] →
    s.bit (Reg.coreAcOpmask n) (d.opcode.toNat / 256 % 16) = false → s.refusal (some row) (.core n) d = some (stBaton, 0)) ∧
  (∀ (s : State) (row : Row) (d : Desc), s.headerBad (some row) d = none → d.body.chain = false → row.check s d.body = .mode →
    s.refusal (some row) .command d = some (stMode, 0)) ∧
  (∀ (s : State) (row : Row) (d : Desc), s.headerBad (some row) d = none → d.body.chain = false → row.check s d.body = .short →
    s.refusal (some row) .command d = some (stShort, 0)) ∧
  (∀ (s : State) (row : Row) (d : Desc), s.headerBad (some row) d = none → d.body.chain = false → row.check s d.body = .ok → row.blk = .zone →
    8192 ≤ s.getF Reg.zmSchedUsed 13 0 → s.refusal (some row) .command d = some (stShort, 0)) ∧
  (∀ (s : State) (row : Row) (d : Desc), s.headerBad (some row) d = none → d.body.chain = false → row.check s d.body = .ok →
    s.getF Reg.zmSchedUsed 13 0 < 8192 → s.refusal (some row) .command d = none) ∧
  (∀ (s : State) (row : Row) (d : Desc), s.headerBad (some row) d = none →
    d.body.flags.toNat < 64 ∧ d.body.whenF ≠ 3 ∧ d.body.policy ≠ 3 ∧ d.body.rsv = 0 ∧ (row.blk = .now → d.body.whenF = 0) ∧
    (d.body.whenF = 0 → d.body.commit = 0))

/-- A descriptor for the zone mixer with WHEN 0 commits in the present heat, one for a block that acts at boundaries at the next
boundary; a named heat that is still to come is the commit heat; a time in nanoseconds is rounded up to the first heat
boundary, or in the zone mixer to the first sample, at or after it; a time that has passed makes the descriptor late and it
commits at the first heat the block can still take. (Choices of the model it may rest on: log entry 31.) (R59, R60, R176,
R242, R449, R450) -/
def Obligations.CommitTimes : Prop :=
  (∀ (s : State) (c : Nat), (s.whenOf .zone 0 c).heat = s.heat ∧ (s.whenOf .zone 0 c).late = false) ∧
  (∀ (s : State) (c : Nat), (s.whenOf .other 0 c).heat = s.heat + 1 ∧ (s.whenOf .other 0 c).late = false) ∧
  (∀ (s : State) (b : Blk) (c : Nat), s.heat + 1 < c → b ≠ .now → (s.whenOf b 1 c).heat = c ∧ (s.whenOf b 1 c).late = false ∧
    (s.whenOf b 1 c).sample = 0) ∧
  (∀ (s : State) (c : Nat), c ≤ s.heat → (s.whenOf .other 1 c).heat = s.heat + 1 ∧ (s.whenOf .other 1 c).late = true) ∧
  (∀ (s : State) (c : Nat), c < s.heat → (s.whenOf .zone 1 c).heat = s.heat ∧ (s.whenOf .zone 1 c).sample = 0 ∧
    (s.whenOf .zone 1 c).late = true) ∧
  (∀ (s : State) (c : Nat), s.heat * 1000000 < c → (s.whenOf .other 2 c).late = false ∧
    c ≤ (s.whenOf .other 2 c).heat * 1000000 ∧ (s.whenOf .other 2 c).heat * 1000000 < c + 1000000) ∧
  (∀ (s : State) (w c : Nat), s.laneFirst ≤ (s.whenOf .lane w c).heat ∧ ((s.whenOf .lane w c).late = true → (s.whenOf .lane w c).heat = s.laneFirst)) ∧
  (∀ t h k, sampleAt t = (h, k) → k < 48 ∧ t * 48 ≤ h * 48000000 + k * 1000000 ∧ h * 48000000 + k * 1000000 < t * 48 + 1000000)
end

