-- ==== Sys2Proof/Laws/Arms.lean ====
section
/-! SUPPORT. The arms of `exec`: which meaning each command has. -/

namespace Sys2Proof.Machine

theorem arm_powerOn (straps : Straps) (s : State) : exec (.powerOn straps) s = execPowerOn straps s := rfl
theorem arm_powerFail (s : State) : exec (.powerFail) s = execPowerFail s := rfl
theorem arm_linkTrainingWindowEnd (probes : List TileProbe) (s : State) : exec (.linkTrainingWindowEnd probes) s = execLinkTrainingWindowEnd probes s := rfl
theorem arm_linkTrainedOnAbsentPort (t : Fin 16) (s : State) : exec (.linkTrainedOnAbsentPort t) s = execLinkTrainedOnAbsentPort t s := rfl
theorem arm_tileLinkLost (t : Fin 16) (s : State) : exec (.tileLinkLost t) s = execTileLinkLost t s := rfl
theorem arm_firmwareBoot (img : FwImage) (s : State) : exec (.firmwareBoot img) s = execFirmwareBoot img s := rfl
theorem arm_heatBoundary (lines : List (List Bool)) (s : State) : exec (.heatBoundary lines) s = execHeatBoundary lines s := rfl
theorem arm_pcrTimeLoRead (m : Master) (s : State) : exec (.pcrTimeLoRead m) s = execPcrTimeLoRead m s := rfl
theorem arm_pcrAdjFreqWrite (m : Master) (v : Word) (s : State) : exec (.pcrAdjFreqWrite m v) s = execPcrAdjFreqWrite m v s := rfl
theorem arm_pcrSlewWrite (m : Master) (v : Word) (s : State) : exec (.pcrSlewWrite m v) s = execPcrSlewWrite m v s := rfl
theorem arm_pcrStepHiWrite (m : Master) (v : Word) (s : State) : exec (.pcrStepHiWrite m v) s = execPcrStepHiWrite m v s := rfl
theorem arm_pcrServoOffsetWrite (m : Master) (v : Word) (s : State) : exec (.pcrServoOffsetWrite m v) s = execPcrServoOffsetWrite m v s := rfl
theorem arm_discSrcChange (m : Master) (v : Word) (s : State) : exec (.discSrcChange m v) s = execDiscSrcChange m v s := rfl
theorem arm_holdForce (m : Master) (on : Bool) (s : State) : exec (.holdForce m on) s = execHoldForce m on s := rfl
theorem arm_ref1ppsEdge (off : Word) (s : State) : exec (.ref1ppsEdge off) s = execRef1ppsEdge off s := rfl
theorem arm_ref10mLoss (s : State) : exec (.ref10mLoss) s = execRef10mLoss s := rfl
theorem arm_ref1ppsTimeout (s : State) : exec (.ref1ppsTimeout) s = execRef1ppsTimeout s := rfl
theorem arm_servoWatchdogExpiry (s : State) : exec (.servoWatchdogExpiry) s = execServoWatchdogExpiry s := rfl
theorem arm_lockGained (s : State) : exec (.lockGained) s = execLockGained s := rfl
theorem arm_lockLost (s : State) : exec (.lockLost) s = execLockLost s := rfl
theorem arm_holdoverLimitReached (s : State) : exec (.holdoverLimitReached) s = execHoldoverLimitReached s := rfl
theorem arm_stepJump (s : State) : exec (.stepJump) s = execStepJump s := rfl
theorem arm_stepResume (s : State) : exec (.stepResume) s = execStepResume s := rfl
theorem arm_stepApplied (s : State) : exec (.stepApplied) s = execStepApplied s := rfl
theorem arm_synthLockLoss (s : State) : exec (.synthLockLoss) s = execSynthLockLoss s := rfl
theorem arm_synthRelock (s : State) : exec (.synthRelock) s = execSynthRelock s := rfl
theorem arm_islandOutOfTolerance (x : IslandReading) (s : State) : exec (.islandOutOfTolerance x) s = execIslandOutOfTolerance x s := rfl
theorem arm_crossingAbandoned (master : Fin 32) (read : Bool) (s : State) : exec (.crossingAbandoned master read) s = execCrossingAbandoned master read s := rfl
theorem arm_droopDetected (s : State) : exec (.droopDetected) s = execDroopDetected s := rfl
theorem arm_droopEnd (us : BitVec 10) (s : State) : exec (.droopEnd us) s = execDroopEnd us s := rfl
theorem arm_droopStretchExceeded (us : BitVec 10) (s : State) : exec (.droopStretchExceeded us) s = execDroopStretchExceeded us s := rfl
theorem arm_rateJump (st : Stream) (s : State) : exec (.rateJump st) s = execRateJump st s := rfl
theorem arm_converterRelockDone (st : Stream) (s : State) : exec (.converterRelockDone st) s = execConverterRelockDone st s := rfl
theorem arm_ratioOutOfRange (st : Stream) (s : State) : exec (.ratioOutOfRange st) s = execRatioOutOfRange st s := rfl
theorem arm_portClockLoss (st : Stream) (s : State) : exec (.portClockLoss st) s = execPortClockLoss st s := rfl
theorem arm_portClockReturn (st : Stream) (s : State) : exec (.portClockReturn st) s = execPortClockReturn st s := rfl
theorem arm_tdmRxFrame (n : Fin 16) (len : BitVec 11) (line : TdmLine) (glitch full : Bool) (s : State) : exec (.tdmRxFrame n len line glitch full) s = execTdmRxFrame n len line glitch full s := rfl
theorem arm_rxBlockClose (st : Stream) (lines : List (List Bool)) (s : State) : exec (.rxBlockClose st lines) s = execRxBlockClose st lines s := rfl
theorem arm_tdmTxFrame (n : Fin 16) (k : Fin 48) (ahead : Bool) (s : State) : exec (.tdmTxFrame n k ahead) s = execTdmTxFrame n k ahead s := rfl
theorem arm_tdmFrameWrite (m : Master) (n : Fin 16) (v : Word) (s : State) : exec (.tdmFrameWrite m n v) s = execTdmFrameWrite m n v s := rfl
theorem arm_tdmEnable (m : Master) (n : Fin 16) (v : Word) (s : State) : exec (.tdmEnable m n v) s = execTdmEnable m n v s := rfl
theorem arm_tdmDisable (m : Master) (n : Fin 16) (v : Word) (s : State) : exec (.tdmDisable m n v) s = execTdmDisable m n v s := rfl
theorem arm_rxMaskNextWrite (m : Master) (n : Fin 16) (v : Word) (s : State) : exec (.rxMaskNextWrite m n v) s = execRxMaskNextWrite m n v s := rfl
theorem arm_txMaskNextWrite (m : Master) (n : Fin 16) (v : Word) (s : State) : exec (.txMaskNextWrite m n v) s = execTxMaskNextWrite m n v s := rfl
theorem arm_channelZeroCrossing (c : Chan) (s : State) : exec (.channelZeroCrossing c) s = execChannelZeroCrossing c s := rfl
theorem arm_zcTimeoutExpiry (c : Chan) (s : State) : exec (.zcTimeoutExpiry c) s = execZcTimeoutExpiry c s := rfl
theorem arm_aesRxFrame (n : Fin 8) (a b : SubFrame) (glitch : Bool) (s : State) : exec (.aesRxFrame n a b glitch) s = execAesRxFrame n a b glitch s := rfl
theorem arm_aesCsBlock (n : Fin 8) (ch : Fin 2) (bytes : List Byte) (early : Bool) (s : State) : exec (.aesCsBlock n ch bytes early) s = execAesCsBlock n ch bytes early s := rfl
theorem arm_aesRateDetect (n : Fin 8) (hz : Nat) (above : Measured) (s : State) : exec (.aesRateDetect n hz above) s = execAesRateDetect n hz above s := rfl
theorem arm_aesRxCsRead (m : Master) (n : Fin 8) (ch : Fin 2) (s : State) : exec (.aesRxCsRead m n ch) s = execAesRxCsRead m n ch s := rfl
theorem arm_aesRxEnable (m : Master) (n : Fin 8) (v : Word) (s : State) : exec (.aesRxEnable m n v) s = execAesRxEnable m n v s := rfl
theorem arm_aesTxEnable (m : Master) (n : Fin 4) (v : Word) (s : State) : exec (.aesTxEnable m n v) s = execAesTxEnable m n v s := rfl
theorem arm_aesTxFrame (n : Fin 4) (k : Fin 192) (s : State) : exec (.aesTxFrame n k) s = execAesTxFrame n k s := rfl
theorem arm_aesTxCsCommit (m : Master) (n : Fin 4) (v : Word) (s : State) : exec (.aesTxCsCommit m n v) s = execAesTxCsCommit m n v s := rfl
theorem arm_pdmGroupEnable (m : Master) (g : Fin 4) (v : Word) (s : State) : exec (.pdmGroupEnable m g v) s = execPdmGroupEnable m g v s := rfl
theorem arm_pdmMicEnWrite (m : Master) (g : Fin 4) (v : Word) (s : State) : exec (.pdmMicEnWrite m g v) s = execPdmMicEnWrite m g v s := rfl
theorem arm_pdmWarmingEnd (k : Fin 32) (s : State) : exec (.pdmWarmingEnd k) s = execPdmWarmingEnd k s := rfl
theorem arm_pdmMicStuckLong (k : Fin 32) (s : State) : exec (.pdmMicStuckLong k) s = execPdmMicStuckLong k s := rfl
theorem arm_pktRxFrame (p : Fin 2) (fcsOk : Bool) (bytes : List Byte) (s : State) : exec (.pktRxFrame p fcsOk bytes) s = execPktRxFrame p fcsOk bytes s := rfl
theorem arm_legDown (f : Fin 2048) (p : Fin 2) (s : State) : exec (.legDown f p) s = execLegDown f p s := rfl
theorem arm_pktLinkDown (p : Fin 2) (s : State) : exec (.pktLinkDown p) s = execPktLinkDown p s := rfl
theorem arm_pktLinkUp (p : Fin 2) (fast : Bool) (fec : Fin 3) (s : State) : exec (.pktLinkUp p fast fec) s = execPktLinkUp p fast fec s := rfl
theorem arm_pktHostFrameSend (p : Fin 2) (entry : List Byte) (s : State) : exec (.pktHostFrameSend p entry) s = execPktHostFrameSend p entry s := rfl
theorem arm_flowPacketSend (f : Fin 512) (s : State) : exec (.flowPacketSend f) s = execFlowPacketSend f s := rfl
theorem arm_pktCsRead (x : CsRead) (s : State) : exec (.pktCsRead x) s = execPktCsRead x s := rfl
theorem arm_zoneSet (ph : Phase) (o : Origin) (d : Body) (s : State) : exec (.zoneSet ph o d) s = execZoneSet ph o d s := rfl
theorem arm_layerSet (ph : Phase) (o : Origin) (d : Body) (s : State) : exec (.layerSet ph o d) s = execLayerSet ph o d s := rfl
theorem arm_layerAssert (ph : Phase) (o : Origin) (d : Body) (s : State) : exec (.layerAssert ph o d) s = execLayerAssert ph o d s := rfl
theorem arm_layerRelease (ph : Phase) (o : Origin) (d : Body) (s : State) : exec (.layerRelease ph o d) s = execLayerRelease ph o d s := rfl
theorem arm_laneRoute (ph : Phase) (o : Origin) (d : Body) (s : State) : exec (.laneRoute ph o d) s = execLaneRoute ph o d s := rfl
theorem arm_returnSet (ph : Phase) (o : Origin) (d : Body) (s : State) : exec (.returnSet ph o d) s = execReturnSet ph o d s := rfl
theorem arm_ambSet (ph : Phase) (o : Origin) (d : Body) (s : State) : exec (.ambSet ph o d) s = execAmbSet ph o d s := rfl
theorem arm_layerZeroCrossing (t : StepTarget) (s : State) : exec (.layerZeroCrossing t) s = execLayerZeroCrossing t s := rfl
theorem arm_stepZcTimeout (t : StepTarget) (s : State) : exec (.stepZcTimeout t) s = execStepZcTimeout t s := rfl
theorem arm_readyDeadline (o : Origin) (s : State) : exec (.readyDeadline o) s = execReadyDeadline o s := rfl
theorem arm_silentJoin (z : Fin 256) (l : Fin 8) (s : State) : exec (.silentJoin z l) s = execSilentJoin z l s := rfl
theorem arm_zoneBlockLate (z : Fin 256) (s : State) : exec (.zoneBlockLate z) s = execZoneBlockLate z s := rfl
theorem arm_activityHoldExpiry (z : Fin 256) (l : Fin 8) (s : State) : exec (.activityHoldExpiry z l) s = execActivityHoldExpiry z l s := rfl
theorem arm_playerSet (ph : Phase) (o : Origin) (d : Body) (s : State) : exec (.playerSet ph o d) s = execPlayerSet ph o d s := rfl
theorem arm_playerFlush (o : Origin) (d : Body) (s : State) : exec (.playerFlush o d) s = execPlayerFlush o d s := rfl
theorem arm_clipLoad (o : Origin) (d : Body) (s : State) : exec (.clipLoad o d) s = execClipLoad o d s := rfl
theorem arm_clipLoadDone (o : Origin) (rd : ReadResult) (s : State) : exec (.clipLoadDone o rd) s = execClipLoadDone o rd s := rfl
theorem arm_clipPin (o : Origin) (d : Body) (s : State) : exec (.clipPin o d) s = execClipPin o d s := rfl
theorem arm_clipDrop (o : Origin) (d : Body) (s : State) : exec (.clipDrop o d) s = execClipDrop o d s := rfl
theorem arm_playlistFetchDone (p : Fin 64) (rd : ReadResult) (s : State) : exec (.playlistFetchDone p rd) s = execPlaylistFetchDone p rd s := rfl
theorem arm_clipFetchDone (p : Fin 64) (i : Fin 10) (rd : ReadResult) (s : State) : exec (.clipFetchDone p i rd) s = execClipFetchDone p i rd s := rfl
theorem arm_entryEnd (p : Fin 64) (s : State) : exec (.entryEnd p) s = execEntryEnd p s := rfl
theorem arm_playerStarved (p : Fin 64) (s : State) : exec (.playerStarved p) s = execPlayerStarved p s := rfl
theorem arm_playerResume (p : Fin 64) (s : State) : exec (.playerResume p) s = execPlayerResume p s := rfl
theorem arm_playlistHostLost (p : Fin 64) (s : State) : exec (.playlistHostLost p) s = execPlaylistHostLost p s := rfl
theorem arm_fnop (n : Fin 16) (f1 : Bool) (s : State) : exec (.fnop n f1) s = execFnop n f1 s := rfl
theorem arm_fadd (n : Fin 16) (f1 : Bool) (s : State) : exec (.fadd n f1) s = execFadd n f1 s := rfl
theorem arm_fsub (n : Fin 16) (f1 : Bool) (s : State) : exec (.fsub n f1) s = execFsub n f1 s := rfl
theorem arm_fmul (n : Fin 16) (f1 : Bool) (s : State) : exec (.fmul n f1) s = execFmul n f1 s := rfl
theorem arm_fma (n : Fin 16) (f1 : Bool) (s : State) : exec (.fma n f1) s = execFma n f1 s := rfl
theorem arm_fms (n : Fin 16) (f1 : Bool) (s : State) : exec (.fms n f1) s = execFms n f1 s := rfl
theorem arm_fmin (n : Fin 16) (f1 : Bool) (s : State) : exec (.fmin n f1) s = execFmin n f1 s := rfl
theorem arm_fmax (n : Fin 16) (f1 : Bool) (s : State) : exec (.fmax n f1) s = execFmax n f1 s := rfl
theorem arm_fabs (n : Fin 16) (f1 : Bool) (s : State) : exec (.fabs n f1) s = execFabs n f1 s := rfl
theorem arm_fneg (n : Fin 16) (f1 : Bool) (s : State) : exec (.fneg n f1) s = execFneg n f1 s := rfl
theorem arm_fsel (n : Fin 16) (f1 : Bool) (s : State) : exec (.fsel n f1) s = execFsel n f1 s := rfl
theorem arm_fclamp (n : Fin 16) (f1 : Bool) (s : State) : exec (.fclamp n f1) s = execFclamp n f1 s := rfl
theorem arm_frcp (n : Fin 16) (f1 : Bool) (s : State) : exec (.frcp n f1) s = execFrcp n f1 s := rfl
theorem arm_frsq (n : Fin 16) (f1 : Bool) (s : State) : exec (.frsq n f1) s = execFrsq n f1 s := rfl
theorem arm_flog2 (n : Fin 16) (f1 : Bool) (s : State) : exec (.flog2 n f1) s = execFlog2 n f1 s := rfl
theorem arm_fexp2 (n : Fin 16) (f1 : Bool) (s : State) : exec (.fexp2 n f1) s = execFexp2 n f1 s := rfl
theorem arm_fcvti (n : Fin 16) (f1 : Bool) (s : State) : exec (.fcvti n f1) s = execFcvti n f1 s := rfl
theorem arm_fcvtf (n : Fin 16) (f1 : Bool) (s : State) : exec (.fcvtf n f1) s = execFcvtf n f1 s := rfl
theorem arm_fli (n : Fin 16) (f1 : Bool) (s : State) : exec (.fli n f1) s = execFli n f1 s := rfl
theorem arm_mnop (n : Fin 16) (s : State) : exec (.mnop n) s = execMnop n s := rfl
theorem arm_ldf (n : Fin 16) (s : State) : exec (.ldf n) s = execLdf n s := rfl
theorem arm_stf (n : Fin 16) (s : State) : exec (.stf n) s = execStf n s := rfl
theorem arm_ldfp (n : Fin 16) (s : State) : exec (.ldfp n) s = execLdfp n s := rfl
theorem arm_stfp (n : Fin 16) (s : State) : exec (.stfp n) s = execStfp n s := rfl
theorem arm_lda (n : Fin 16) (s : State) : exec (.lda n) s = execLda n s := rfl
theorem arm_sta (n : Fin 16) (s : State) : exec (.sta n) s = execSta n s := rfl
theorem arm_vld (n : Fin 16) (s : State) : exec (.vld n) s = execVld n s := rfl
theorem arm_vst (n : Fin 16) (s : State) : exec (.vst n) s = execVst n s := rfl
theorem arm_vatTransferDone (n : Fin 16) (i : Fin 4) (s : State) : exec (.vatTransferDone n i) s = execVatTransferDone n i s := rfl
theorem arm_dlyx (n : Fin 16) (s : State) : exec (.dlyx n) s = execDlyx n s := rfl
theorem arm_cnop (n : Fin 16) (s : State) : exec (.cnop n) s = execCnop n s := rfl
theorem arm_br (n : Fin 16) (s : State) : exec (.br n) s = execBr n s := rfl
theorem arm_bz (n : Fin 16) (s : State) : exec (.bz n) s = execBz n s := rfl
theorem arm_bnz (n : Fin 16) (s : State) : exec (.bnz n) s = execBnz n s := rfl
theorem arm_blt (n : Fin 16) (s : State) : exec (.blt n) s = execBlt n s := rfl
theorem arm_call (n : Fin 16) (s : State) : exec (.call n) s = execCall n s := rfl
theorem arm_ret (n : Fin 16) (s : State) : exec (.ret n) s = execRet n s := rfl
theorem arm_loop (n : Fin 16) (s : State) : exec (.loop n) s = execLoop n s := rfl
theorem arm_amov (n : Fin 16) (s : State) : exec (.amov n) s = execAmov n s := rfl
theorem arm_aadd (n : Fin 16) (s : State) : exec (.aadd n) s = execAadd n s := rfl
theorem arm_aaddr (n : Fin 16) (s : State) : exec (.aaddr n) s = execAaddr n s := rfl
theorem arm_ashl (n : Fin 16) (s : State) : exec (.ashl n) s = execAshl n s := rfl
theorem arm_mvfa (n : Fin 16) (s : State) : exec (.mvfa n) s = execMvfa n s := rfl
theorem arm_mvaf (n : Fin 16) (s : State) : exec (.mvaf n) s = execMvaf n s := rfl
theorem arm_odone (n : Fin 16) (s : State) : exec (.odone n) s = execOdone n s := rfl
theorem arm_hend (n : Fin 16) (s : State) : exec (.hend n) s = execHend n s := rfl
theorem arm_syncv (n : Fin 16) (s : State) : exec (.syncv n) s = execSyncv n s := rfl
theorem arm_biq (n : Fin 16) (s : State) : exec (.biq n) s = execBiq n s := rfl
theorem arm_firb (n : Fin 16) (s : State) : exec (.firb n) s = execFirb n s := rfl
theorem arm_poly8 (n : Fin 16) (s : State) : exec (.poly8 n) s = execPoly8 n s := rfl
theorem arm_env (n : Fin 16) (s : State) : exec (.env n) s = execEnv n s := rfl
theorem arm_tbl (n : Fin 16) (s : State) : exec (.tbl n) s = execTbl n s := rfl
theorem arm_lia (n : Fin 16) (s : State) : exec (.lia n) s = execLia n s := rfl
theorem arm_liard (n : Fin 16) (s : State) : exec (.liard n) s = execLiard n s := rfl
theorem arm_ncoset (n : Fin 16) (s : State) : exec (.ncoset n) s = execNcoset n s := rfl
theorem arm_ramp (n : Fin 16) (s : State) : exec (.ramp n) s = execRamp n s := rfl
theorem arm_heatAbandoned (n : Fin 16) (s : State) : exec (.heatAbandoned n) s = execHeatAbandoned n s := rfl
theorem arm_lpHang (n : Fin 16) (s : State) : exec (.lpHang n) s = execLpHang n s := rfl
theorem arm_paramShadowWrite (s : State) : exec (.paramShadowWrite) s = execParamShadowWrite s := rfl
theorem arm_laneParam (ph : Phase) (o : Origin) (d : Body) (rd : ReadResult) (s : State) : exec (.laneParam ph o d rd) s = execLaneParam ph o d rd s := rfl
theorem arm_laneParamInline (ph : Phase) (o : Origin) (d : Body) (s : State) : exec (.laneParamInline ph o d) s = execLaneParamInline ph o d s := rfl
theorem arm_laneDelay (ph : Phase) (o : Origin) (d : Body) (s : State) : exec (.laneDelay ph o d) s = execLaneDelay ph o d s := rfl
theorem arm_lpLoad (ph : Phase) (o : Origin) (d : Body) (rd : ReadResult) (s : State) : exec (.lpLoad ph o d rd) s = execLpLoad ph o d rd s := rfl
theorem arm_imageAccepted (o : Origin) (s : State) : exec (.imageAccepted o) s = execImageAccepted o s := rfl
theorem arm_lpSwitchHalt (n : Fin 16) (s : State) : exec (.lpSwitchHalt n) s = execLpSwitchHalt n s := rfl
theorem arm_lpSwitchStart (n : Fin 16) (s : State) : exec (.lpSwitchStart n) s = execLpSwitchStart n s := rfl
theorem arm_lpRunStart (ph : Phase) (o : Origin) (d : Body) (s : State) : exec (.lpRunStart ph o d) s = execLpRunStart ph o d s := rfl
theorem arm_lpRunStop (ph : Phase) (o : Origin) (d : Body) (s : State) : exec (.lpRunStop ph o d) s = execLpRunStop ph o d s := rfl
theorem arm_lpEnWrite (m : Master) (n : Fin 16) (v : Word) (s : State) : exec (.lpEnWrite m n v) s = execLpEnWrite m n v s := rfl
theorem arm_lpReloadDone (n : Fin 16) (s : State) : exec (.lpReloadDone n) s = execLpReloadDone n s := rfl
theorem arm_modelSecondUpdate (n : Fin 128) (vr vi ir ii c1 c2 g : Measured) (s : State) : exec (.modelSecondUpdate n vr vi ir ii c1 c2 g) s = execModelSecondUpdate n vr vi ir ii c1 c2 g s := rfl
theorem arm_rindSet (ph : Phase) (o : Origin) (d : Body) (s : State) : exec (.rindSet ph o d) s = execRindSet ph o d s := rfl
theorem arm_rindClear (ph : Phase) (o : Origin) (d : Body) (s : State) : exec (.rindClear ph o d) s = execRindClear ph o d s := rfl
theorem arm_battSet (ph : Phase) (o : Origin) (d : Body) (s : State) : exec (.battSet ph o d) s = execBattSet ph o d s := rfl
theorem arm_poolSet (ph : Phase) (o : Origin) (d : Body) (s : State) : exec (.poolSet ph o d) s = execPoolSet ph o d s := rfl
theorem arm_rindTrip (n : Fin 128) (irms dc vs v : Measured) (s : State) : exec (.rindTrip n irms dc vs v) s = execRindTrip n irms dc vs v s := rfl
theorem arm_rindRestart (n : Fin 128) (s : State) : exec (.rindRestart n) s = execRindRestart n s := rfl
theorem arm_tdieWarning (t : Fin 16) (celsius : BitVec 16) (s : State) : exec (.tdieWarning t celsius) s = execTdieWarning t celsius s := rfl
theorem arm_tdieTrip (t : Fin 16) (celsius : BitVec 16) (s : State) : exec (.tdieTrip t celsius) s = execTdieTrip t celsius s := rfl
theorem arm_tdieRestart (x : TileReading) (s : State) : exec (.tdieRestart x) s = execTdieRestart x s := rfl
theorem arm_rindAckTimeout (t : Fin 16) (s : State) : exec (.rindAckTimeout t) s = execRindAckTimeout t s := rfl
theorem arm_fastPathLimit (n : Fin 128) (x : RailSample) (s : State) : exec (.fastPathLimit n x) s = execFastPathLimit n x s := rfl
theorem arm_tilePowerUp (t : Fin 16) (s : State) : exec (.tilePowerUp t) s = execTilePowerUp t s := rfl
theorem arm_tlDownstreamFrame (t : Fin 16) (k : Fin 48) (rails : List (BitVec 16)) (s : State) : exec (.tlDownstreamFrame t k rails) s = execTlDownstreamFrame t k rails s := rfl
theorem arm_downstreamFrameMissing (x : TileRails) (s : State) : exec (.downstreamFrameMissing x) s = execDownstreamFrameMissing x s := rfl
theorem arm_tlUpstreamFrame (t : Fin 16) (k : Fin 48) (m : TileMeasure) (s : State) : exec (.tlUpstreamFrame t k m) s = execTlUpstreamFrame t k m s := rfl
theorem arm_laneRelease (n : Fin 128) (gateOk : Bool) (s : State) : exec (.laneRelease n gateOk) s = execLaneRelease n gateOk s := rfl
theorem arm_laneRunStart (ph : Phase) (o : Origin) (d : Body) (s : State) : exec (.laneRunStart ph o d) s = execLaneRunStart ph o d s := rfl
theorem arm_laneRunStop (ph : Phase) (o : Origin) (d : Body) (s : State) : exec (.laneRunStop ph o d) s = execLaneRunStop ph o d s := rfl
theorem arm_laneRunMute (ph : Phase) (o : Origin) (d : Body) (s : State) : exec (.laneRunMute ph o d) s = execLaneRunMute ph o d s := rfl
theorem arm_laneRunUnmute (ph : Phase) (o : Origin) (d : Body) (s : State) : exec (.laneRunUnmute ph o d) s = execLaneRunUnmute ph o d s := rfl
theorem arm_laneRampDone (n : Fin 128) (s : State) : exec (.laneRampDone n) s = execLaneRampDone n s := rfl
theorem arm_scClear (ph : Phase) (o : Origin) (d : Body) (s : State) : exec (.scClear ph o d) s = execScClear ph o d s := rfl
theorem arm_relaySet (ph : Phase) (o : Origin) (d : Body) (s : State) : exec (.relaySet ph o d) s = execRelaySet ph o d s := rfl
theorem arm_ilimHit (n : Fin 128) (mA : BitVec 16) (consecutive : Bool) (s : State) : exec (.ilimHit n mA consecutive) s = execIlimHit n mA consecutive s := rfl
theorem arm_probeStart (n : Fin 128) (s : State) : exec (.probeStart n) s = execProbeStart n s := rfl
theorem arm_probeDone (n : Fin 128) (z : Measured) (s : State) : exec (.probeDone n z) s = execProbeDone n z s := rfl
theorem arm_laneClockFault (n : Fin 128) (s : State) : exec (.laneClockFault n) s = execLaneClockFault n s := rfl
theorem arm_laneClockRecovered (n : Fin 128) (s : State) : exec (.laneClockRecovered n) s = execLaneClockRecovered n s := rfl
theorem arm_tileSafeAssert (t : Fin 16) (s : State) : exec (.tileSafeAssert t) s = execTileSafeAssert t s := rfl
theorem arm_tileSafeRelease (t : Fin 16) (s : State) : exec (.tileSafeRelease t) s = execTileSafeRelease t s := rfl
theorem arm_railOvervoltage (t : Fin 16) (decivolts : BitVec 16) (s : State) : exec (.railOvervoltage t decivolts) s = execRailOvervoltage t decivolts s := rfl
theorem arm_railOvClear (x : TileReading) (s : State) : exec (.railOvClear x) s = execRailOvClear x s := rfl
theorem arm_railUndervoltage (t : Fin 16) (decivolts : BitVec 16) (s : State) : exec (.railUndervoltage t decivolts) s = execRailUndervoltage t decivolts s := rfl
theorem arm_railUvClear (x : TileReading) (s : State) : exec (.railUvClear x) s = execRailUvClear x s := rfl
theorem arm_railAdcFault (t : Fin 16) (decivolts : BitVec 16) (s : State) : exec (.railAdcFault t decivolts) s = execRailAdcFault t decivolts s := rfl
theorem arm_gateSupplyLow (n : Fin 128) (s : State) : exec (.gateSupplyLow n) s = execGateSupplyLow n s := rfl
theorem arm_gateSupplyRecovered (n : Fin 128) (s : State) : exec (.gateSupplyRecovered n) s = execGateSupplyRecovered n s := rfl
theorem arm_hkFaultClear (t : Fin 16) (s : State) : exec (.hkFaultClear t) s = execHkFaultClear t s := rfl
theorem arm_aux12Low (t : Fin 16) (s : State) : exec (.aux12Low t) s = execAux12Low t s := rfl
theorem arm_relayCoilFault (t : Fin 16) (r : Fin 12) (mA : BitVec 16) (s : State) : exec (.relayCoilFault t r mA) s = execRelayCoilFault t r mA s := rfl
theorem arm_bondImbalance (n : Fin 128) (mA : Measured) (s : State) : exec (.bondImbalance n mA) s = execBondImbalance n mA s := rfl
theorem arm_tdcCalibration (t : Fin 16) (s : State) : exec (.tdcCalibration t) s = execTdcCalibration t s := rfl
theorem arm_testReq (ph : Phase) (o : Origin) (d : Body) (s : State) : exec (.testReq ph o d) s = execTestReq ph o d s := rfl
theorem arm_testCancel (ph : Phase) (o : Origin) (d : Body) (s : State) : exec (.testCancel ph o d) s = execTestCancel ph o d s := rfl
theorem arm_testgenSet (ph : Phase) (o : Origin) (d : Body) (s : State) : exec (.testgenSet ph o d) s = execTestgenSet ph o d s := rfl
theorem arm_testDone (n : Fin 128) (r : Measured) (s : State) : exec (.testDone n r) s = execTestDone n r s := rfl
theorem arm_testStop (n : Fin 128) (s : State) : exec (.testStop n) s = execTestStop n s := rfl
theorem arm_testExpired (n : Fin 128) (k : Fin 6) (s : State) : exec (.testExpired n k) s = execTestExpired n k s := rfl
theorem arm_pilotWindowEnd (n : Fin 128) (valid z ph v i : Measured) (s : State) : exec (.pilotWindowEnd n valid z ph v i) s = execPilotWindowEnd n valid z ph v i s := rfl
theorem arm_pilotBlind (n : Fin 128) (s : State) : exec (.pilotBlind n) s = execPilotBlind n s := rfl
theorem arm_pilotBlindLong (n : Fin 128) (s : State) : exec (.pilotBlindLong n) s = execPilotBlindLong n s := rfl
theorem arm_lpDiagAdmitWrite (m : Master) (k : Fin 5) (v : Word) (s : State) : exec (.lpDiagAdmitWrite m k v) s = execLpDiagAdmitWrite m k v s := rfl
theorem arm_modeSetVa (ph : Phase) (o : Origin) (d : Body) (s : State) : exec (.modeSetVa ph o d) s = execModeSetVa ph o d s := rfl
theorem arm_modeSetBat (ph : Phase) (o : Origin) (d : Body) (s : State) : exec (.modeSetBat ph o d) s = execModeSetBat ph o d s := rfl
theorem arm_modeSetWup (ph : Phase) (o : Origin) (d : Body) (s : State) : exec (.modeSetWup ph o d) s = execModeSetWup ph o d s := rfl
theorem arm_modeSetMnt (ph : Phase) (o : Origin) (d : Body) (s : State) : exec (.modeSetMnt ph o d) s = execModeSetMnt ph o d s := rfl
theorem arm_modeSetFtm (ph : Phase) (o : Origin) (d : Body) (s : State) : exec (.modeSetFtm ph o d) s = execModeSetFtm ph o d s := rfl
theorem arm_batAutoEnter (s : State) : exec (.batAutoEnter) s = execBatAutoEnter s := rfl
theorem arm_batAutoLeave (s : State) : exec (.batAutoLeave) s = execBatAutoLeave s := rfl
theorem arm_mntTimeout (s : State) : exec (.mntTimeout) s = execMntTimeout s := rfl
theorem arm_gblFtmUnlockWrite (m : Master) (v : Word) (s : State) : exec (.gblFtmUnlockWrite m v) s = execGblFtmUnlockWrite m v s := rfl
theorem arm_unlockWindowExpiry (entry : Bool) (s : State) : exec (.unlockWindowExpiry entry) s = execUnlockWindowExpiry entry s := rfl
theorem arm_ftmInjSource (m : Master) (v : Word) (s : State) : exec (.ftmInjSource m v) s = execFtmInjSource m v s := rfl
theorem arm_ftmInjHoldCause (m : Master) (v : Word) (s : State) : exec (.ftmInjHoldCause m v) s = execFtmInjHoldCause m v s := rfl
theorem arm_ftmInjLinkFrames (m : Master) (v : Word) (s : State) : exec (.ftmInjLinkFrames m v) s = execFtmInjLinkFrames m v s := rfl
theorem arm_ftmInjVatEcc (m : Master) (v : Word) (s : State) : exec (.ftmInjVatEcc m v) s = execFtmInjVatEcc m v s := rfl
theorem arm_injectedCauseExpiry (n : Fin 128) (cause : Fin 11) (s : State) : exec (.injectedCauseExpiry n cause) s = execInjectedCauseExpiry n cause s := rfl
theorem arm_crossoverZeroCrossing (n : Fin 128) (timeout : Bool) (s : State) : exec (.crossoverZeroCrossing n timeout) s = execCrossoverZeroCrossing n timeout s := rfl
theorem arm_crossoverApply (n : Fin 128) (s : State) : exec (.crossoverApply n) s = execCrossoverApply n s := rfl
theorem arm_crossoverComplete (s : State) : exec (.crossoverComplete) s = execCrossoverComplete s := rfl
theorem arm_troxlinkControlFrame (bytes : List Byte) (s : State) : exec (.troxlinkControlFrame bytes) s = execTroxlinkControlFrame bytes s := rfl
theorem arm_troxlinkBusFrame (bytes : List Byte) (s : State) : exec (.troxlinkBusFrame bytes) s = execTroxlinkBusFrame bytes s := rfl
theorem arm_blockLockLoss (s : State) : exec (.blockLockLoss) s = execBlockLockLoss s := rfl
theorem arm_heartbeatTimeout (s : State) : exec (.heartbeatTimeout) s = execHeartbeatTimeout s := rfl
theorem arm_partnerAliveCheck (s : State) : exec (.partnerAliveCheck) s = execPartnerAliveCheck s := rfl
theorem arm_partnerBusMissing (n : Fin 128) (s : State) : exec (.partnerBusMissing n) s = execPartnerBusMissing n s := rfl
theorem arm_takeoverRecheck (n : Fin 128) (s : State) : exec (.takeoverRecheck n) s = execTakeoverRecheck n s := rfl
theorem arm_takeoverRelease (n : Fin 128) (s : State) : exec (.takeoverRelease n) s = execTakeoverRelease n s := rfl
theorem arm_takeoverComplete (n : Fin 128) (s : State) : exec (.takeoverComplete n) s = execTakeoverComplete n s := rfl
theorem arm_returnSilence (n : Fin 128) (s : State) : exec (.returnSilence n) s = execReturnSilence n s := rfl
theorem arm_maxHoldExpiry (n : Fin 128) (s : State) : exec (.maxHoldExpiry n) s = execMaxHoldExpiry n s := rfl
theorem arm_returnMute (n : Fin 128) (s : State) : exec (.returnMute n) s = execReturnMute n s := rfl
theorem arm_returnRelayClear (n : Fin 128) (s : State) : exec (.returnRelayClear n) s = execReturnRelayClear n s := rfl
theorem arm_returnRestore (n : Fin 128) (s : State) : exec (.returnRestore n) s = execReturnRestore n s := rfl
theorem arm_returnComplete (n : Fin 128) (s : State) : exec (.returnComplete n) s = execReturnComplete n s := rfl
theorem arm_pairBind (ph : Phase) (o : Origin) (d : Body) (s : State) : exec (.pairBind ph o d) s = execPairBind ph o d s := rfl
theorem arm_pairBus (ph : Phase) (o : Origin) (d : Body) (s : State) : exec (.pairBus ph o d) s = execPairBus ph o d s := rfl
theorem arm_pairReturn (ph : Phase) (o : Origin) (d : Body) (s : State) : exec (.pairReturn ph o d) s = execPairReturn ph o d s := rfl
theorem arm_gblBatonClaimWrite (p : Fin 3) (v : Word) (s : State) : exec (.gblBatonClaimWrite p v) s = execGblBatonClaimWrite p v s := rfl
theorem arm_batonWithdraw (p : Fin 3) (s : State) : exec (.batonWithdraw p) s = execBatonWithdraw p s := rfl
theorem arm_gblBatonLeaseWrite (m : Master) (v : Word) (s : State) : exec (.gblBatonLeaseWrite m v) s = execGblBatonLeaseWrite m v s := rfl
theorem arm_gblBatonPassWrite (m : Master) (v : Word) (s : State) : exec (.gblBatonPassWrite m v) s = execGblBatonPassWrite m v s := rfl
theorem arm_gblBatonAcceptWrite (p : Fin 3) (v : Word) (s : State) : exec (.gblBatonAcceptWrite p v) s = execGblBatonAcceptWrite p v s := rfl
theorem arm_electionWindowClose (s : State) : exec (.electionWindowClose) s = execElectionWindowClose s := rfl
theorem arm_leaseExpiry (s : State) : exec (.leaseExpiry) s = execLeaseExpiry s := rfl
theorem arm_passTimeout (s : State) : exec (.passTimeout) s = execPassTimeout s := rfl
theorem arm_handoverComplete (s : State) : exec (.handoverComplete) s = execHandoverComplete s := rfl
theorem arm_batonAdoptDiscard (o : Origin) (d : Body) (s : State) : exec (.batonAdoptDiscard o d) s = execBatonAdoptDiscard o d s := rfl
theorem arm_batonAdoptAdopt (o : Origin) (d : Body) (rds : List ReadResult) (s : State) : exec (.batonAdoptAdopt o d rds) s = execBatonAdoptAdopt o d rds s := rfl
theorem arm_voteMark (ph : Phase) (o : Origin) (d : Body) (s : State) : exec (.voteMark ph o d) s = execVoteMark ph o d s := rfl
theorem arm_voteTimeout (o : Origin) (s : State) : exec (.voteTimeout o) s = execVoteTimeout o s := rfl
theorem arm_gblShadowWrite (m : Master) (k : Fin 64) (v : Word) (s : State) : exec (.gblShadowWrite m k v) s = execGblShadowWrite m k v s := rfl
theorem arm_shadowLag (k : Fin 64) (s : State) : exec (.shadowLag k) s = execShadowLag k s := rfl
theorem arm_functionLevelReset (p : Fin 3) (burst : Bool) (s : State) : exec (.functionLevelReset p burst) s = execFunctionLevelReset p burst s := rfl
theorem arm_pcieLinkDown (p : Fin 3) (s : State) : exec (.pcieLinkDown p) s = execPcieLinkDown p s := rfl
theorem arm_pcieLinkUp (p : Fin 3) (speed : Fin 3) (width : Fin 3) (bme msixEn fmask : Bool) (s : State) : exec (.pcieLinkUp p speed width bme msixEn fmask) s = execPcieLinkUp p speed width bme msixEn fmask s := rfl
theorem arm_completionTimeout (p : Fin 3) (timeout : Bool) (ring : Option (Fin 32768)) (s : State) : exec (.completionTimeout p timeout ring) s = execCompletionTimeout p timeout ring s := rfl
theorem arm_doorbellWrite (m : Master) (r : Fin 32768) (low : Bool) (idx : Word) (s : State) : exec (.doorbellWrite m r low idx) s = execDoorbellWrite m r low idx s := rfl
theorem arm_ringEnable (m : Master) (r : Fin 32768) (v : Word) (s : State) : exec (.ringEnable m r v) s = execRingEnable m r v s := rfl
theorem arm_ringDisable (m : Master) (r : Fin 32768) (v : Word) (s : State) : exec (.ringDisable m r v) s = execRingDisable m r v s := rfl
theorem arm_ringReadDone (r : Fin 32768) (ds : List (Desc × List ReadResult)) (s : State) : exec (.ringReadDone r ds) s = execRingReadDone r ds s := rfl
theorem arm_ringWriteError (r : Fin 32768) (s : State) : exec (.ringWriteError r) s = execRingWriteError r s := rfl
theorem arm_ringStallLong (r : Fin 32768) (s : State) : exec (.ringStallLong r) s = execRingStallLong r s := rfl
theorem arm_irqCoalesceTimeout (r : Fin 32768) (s : State) : exec (.irqCoalesceTimeout r) s = execIrqCoalesceTimeout r s := rfl
theorem arm_nop (ph : Phase) (o : Origin) (d : Body) (s : State) : exec (.nop ph o d) s = execNop ph o d s := rfl
theorem arm_barrier (o : Origin) (d : Body) (s : State) : exec (.barrier o d) s = execBarrier o d s := rfl
theorem arm_barrierRelease (r : Fin 32768) (s : State) : exec (.barrierRelease r) s = execBarrierRelease r s := rfl
theorem arm_srcBind (ph : Phase) (o : Origin) (d : Body) (s : State) : exec (.srcBind ph o d) s = execSrcBind ph o d s := rfl
theorem arm_srcFallback (ph : Phase) (o : Origin) (d : Body) (s : State) : exec (.srcFallback ph o d) s = execSrcFallback ph o d s := rfl
theorem arm_streamSet (ph : Phase) (o : Origin) (d : Body) (s : State) : exec (.streamSet ph o d) s = execStreamSet ph o d s := rfl
theorem arm_chGain (ph : Phase) (o : Origin) (d : Body) (s : State) : exec (.chGain ph o d) s = execChGain ph o d s := rfl
theorem arm_flowRxSet (ph : Phase) (o : Origin) (d : Body) (s : State) : exec (.flowRxSet ph o d) s = execFlowRxSet ph o d s := rfl
theorem arm_flowEntryFetched (o : Origin) (rd : ReadResult) (s : State) : exec (.flowEntryFetched o rd) s = execFlowEntryFetched o rd s := rfl
theorem arm_flowTxSet (ph : Phase) (o : Origin) (d : Body) (s : State) : exec (.flowTxSet ph o d) s = execFlowTxSet ph o d s := rfl
theorem arm_vsrcSet (ph : Phase) (o : Origin) (d : Body) (s : State) : exec (.vsrcSet ph o d) s = execVsrcSet ph o d s := rfl
theorem arm_faultEventLatch (evs : List Ev) (s : State) : exec (.faultEventLatch evs) s = execFaultEventLatch evs s := rfl
theorem arm_blockResetDone (src : Fin 256) (s : State) : exec (.blockResetDone src) s = execBlockResetDone src s := rfl
theorem arm_shadowClose (src : Fin 256) (s : State) : exec (.shadowClose src) s = execShadowClose src s := rfl
theorem arm_blockResetOverdue (src : Fin 256) (s : State) : exec (.blockResetOverdue src) s = execBlockResetOverdue src s := rfl
theorem arm_engineReset (s : State) : exec (.engineReset) s = execEngineReset s := rfl
theorem arm_intHoldoffEnd (p : Fin 3) (s : State) : exec (.intHoldoffEnd p) s = execIntHoldoffEnd p s := rfl
theorem arm_fcAckWrite (m : Master) (v : Word) (s : State) : exec (.fcAckWrite m v) s = execFcAckWrite m v s := rfl
theorem arm_fcPfClearWrite (m : Master) (v : Word) (s : State) : exec (.fcPfClearWrite m v) s = execFcPfClearWrite m v s := rfl
theorem arm_fcFswClear (m : Master) (w : Fin 8) (v : Word) (s : State) : exec (.fcFswClear m w v) s = execFcFswClear m w v s := rfl
theorem arm_fcFsw0Read (m : Master) (s : State) : exec (.fcFsw0Read m) s = execFcFsw0Read m s := rfl
theorem arm_fcHistTimeLoRead (m : Master) (k : Fin 33) (s : State) : exec (.fcHistTimeLoRead m k) s = execFcHistTimeLoRead m k s := rfl
theorem arm_faultAck (o : Origin) (d : Body) (s : State) : exec (.faultAck o d) s = execFaultAck o d s := rfl
theorem arm_faultClear (o : Origin) (d : Body) (s : State) : exec (.faultClear o d) s = execFaultClear o d s := rfl
theorem arm_faultPfClear (o : Origin) (d : Body) (s : State) : exec (.faultPfClear o d) s = execFaultPfClear o d s := rfl
theorem arm_faultReact (ph : Phase) (o : Origin) (d : Body) (s : State) : exec (.faultReact ph o d) s = execFaultReact ph o d s := rfl
theorem arm_collectorOscillatorStop (s : State) : exec (.collectorOscillatorStop) s = execCollectorOscillatorStop s := rfl
theorem arm_scrubLineRead (bank : Fin 18) (bad : List (Fin 8 × Bool)) (s : State) : exec (.scrubLineRead bank bad) s = execScrubLineRead bank bad s := rfl
theorem arm_gblSysCtrlWrite (m : Master) (v : Word) (s : State) : exec (.gblSysCtrlWrite m v) s = execGblSysCtrlWrite m v s := rfl
theorem arm_lockstepMismatch (s : State) : exec (.lockstepMismatch) s = execLockstepMismatch s := rfl
theorem arm_coreWatchdogExpiry (c : Fin 5) (s : State) : exec (.coreWatchdogExpiry c) s = execCoreWatchdogExpiry c s := rfl
theorem arm_coreKickWrite (m : Master) (c : Fin 5) (v : Word) (s : State) : exec (.coreKickWrite m c v) s = execCoreKickWrite m c v s := rfl
theorem arm_machineTimer (c : Fin 5) (s : State) : exec (.machineTimer c) s = execMachineTimer c s := rfl
theorem arm_coreMtimeLoRead (m : Master) (s : State) : exec (.coreMtimeLoRead m) s = execCoreMtimeLoRead m s := rfl
theorem arm_coreDqPush (m : Master) (n : Fin 4) (v : Word) (rd : ReadResult) (s : State) : exec (.coreDqPush m n v rd) s = execCoreDqPush m n v rd s := rfl
theorem arm_coreCqPop (m : Master) (n : Fin 4) (v : Word) (s : State) : exec (.coreCqPop m n v) s = execCoreCqPop m n v s := rfl
theorem arm_coreMboxBell (m : Master) (c : Fin 5) (s : State) : exec (.coreMboxBell m c) s = execCoreMboxBell m c s := rfl
theorem arm_coreMboxRaise (m : Master) (c : Fin 5) (v : Word) (s : State) : exec (.coreMboxRaise m c v) s = execCoreMboxRaise m c v s := rfl
theorem arm_coreAcReset (m : Master) (n : Fin 4) (v : Word) (s : State) : exec (.coreAcReset m n v) s = execCoreAcReset m n v s := rfl
theorem arm_coreHostbootGo (m : Master) (v : Word) (s : State) : exec (.coreHostbootGo m v) s = execCoreHostbootGo m v s := rfl
theorem arm_otpRead (m : Master) (s : State) : exec (.otpRead m) s = execOtpRead m s := rfl
theorem arm_otpProgram (m : Master) (s : State) : exec (.otpProgram m) s = execOtpProgram m s := rfl
theorem arm_otpProgramDone (ok : Bool) (s : State) : exec (.otpProgramDone ok) s = execOtpProgramDone ok s := rfl
theorem arm_cryptoSha384 (m : Master) (s : State) : exec (.cryptoSha384 m) s = execCryptoSha384 m s := rfl
theorem arm_cryptoEcdsaVerify (m : Master) (s : State) : exec (.cryptoEcdsaVerify m) s = execCryptoEcdsaVerify m s := rfl
theorem arm_cryptoDone (s : State) : exec (.cryptoDone) s = execCryptoDone s := rfl
theorem arm_tlDefCommit (m : Master) (t : Fin 16) (v : Word) (s : State) : exec (.tlDefCommit m t v) s = execTlDefCommit m t v s := rfl
theorem arm_tlDefStoreDone (t : Fin 16) (s : State) : exec (.tlDefStoreDone t) s = execTlDefStoreDone t s := rfl
theorem arm_softwareResetKey (m : Master) (v : Word) (s : State) : exec (.softwareResetKey m v) s = execSoftwareResetKey m v s := rfl
theorem arm_gblLockWrite (m : Master) (v : Word) (s : State) : exec (.gblLockWrite m v) s = execGblLockWrite m v s := rfl
theorem arm_dieTemperatureCrossing (celsius : BitVec 16) (s : State) : exec (.dieTemperatureCrossing celsius) s = execDieTemperatureCrossing celsius s := rfl
theorem arm_thermalShutdown (s : State) : exec (.thermalShutdown) s = execThermalShutdown s := rfl
theorem arm_thermalRelease (s : State) : exec (.thermalRelease) s = execThermalRelease s := rfl
theorem arm_registerWrite (m : Master) (a : RegTarget) (be : BitVec 4) (v : Word) (s : State) : exec (.registerWrite m a be v) s = execRegisterWrite m a be v s := rfl
theorem arm_tileLinkReturn (t : Fin 16) (s : State) : exec (.tileLinkReturn t) s = execTileLinkReturn t s := rfl
theorem arm_tileFaultNLow (t : Fin 16) (s : State) : exec (.tileFaultNLow t) s = execTileFaultNLow t s := rfl
theorem arm_ref10mReturn (s : State) : exec (.ref10mReturn) s = execRef10mReturn s := rfl
theorem arm_aux12Restored (t : Fin 16) (s : State) : exec (.aux12Restored t) s = execAux12Restored t s := rfl
theorem arm_rcRegisterRead (m : Master) (off : BitVec 25) (s : State) : exec (.rcRegisterRead m off) s = execRcRegisterRead m off s := rfl
theorem arm_hostBar2Write (p : Fin 3) (off : BitVec 27) (bytes : List Byte) (s : State) : exec (.hostBar2Write p off bytes) s = execHostBar2Write p off bytes s := rfl

end Sys2Proof.Machine
end

