-- ==== Sys2Proof/Laws/Bits.lean ====
section
/-! SUPPORT. What the operations on sparse tables and on bit fields do. -/

namespace Sys2Proof.Machine

/-! ### Sparse tables -/

theorem Sparse.get_put {α : Type} (d : α) (m : Sparse α) (k : Nat) (v : α) (j : Nat) :
    Sparse.get d (Sparse.put m k v) j = if j = k then v else Sparse.get d m j := by
  induction m with
  | nil => simp [Sparse.put, Sparse.get]
  | cons p m ih =>
    obtain ⟨i, a⟩ := p
    simp only [Sparse.put]
    split_ifs <;> simp_all [Sparse.get]

theorem Sparse.get_del {α : Type} (d : α) (m : Sparse α) (k j : Nat) :
    Sparse.get d (Sparse.del m k) j = if j = k then d else Sparse.get d m j := by
  induction m with
  | nil => simp [Sparse.del, Sparse.get]
  | cons p m ih =>
    obtain ⟨i, a⟩ := p
    simp only [Sparse.del]
    split_ifs <;> simp_all [Sparse.get]

/-- A read after a write: the value written at its index, and at every other index what stood there. -/
theorem Sparse.get_set {α : Type} [DecidableEq α] (d : α) (m : Sparse α) (k : Nat) (v : α) (j : Nat) :
    Sparse.get d (Sparse.set d m k v) j = if j = k then v else Sparse.get d m j := by
  unfold Sparse.set
  split_ifs with h <;> simp_all [Sparse.get_put, Sparse.get_del]

@[simp] theorem Sparse.get_set_same {α : Type} [DecidableEq α] (d : α) (m : Sparse α) (k : Nat) (v : α) :
    Sparse.get d (Sparse.set d m k v) k = v := by simp [Sparse.get_set]

/-- Reading one table through another default is the same at a listed index; this is the form for a default that varies. -/
theorem Sparse.get_set_of_ne {α : Type} [DecidableEq α] (d e : α) (m : Sparse α) (k : Nat) (v : α) (j : Nat) (h : j ≠ k) :
    Sparse.get d (Sparse.set e m k v) j = Sparse.get d m j := by
  unfold Sparse.set
  split_ifs <;> simp [Sparse.get_put, Sparse.get_del, h]

/-! ### Canonical form -/

theorem Sparse.rising_put {α : Type} (m : Sparse α) (k : Nat) (v : α) (lo : Option Nat)
    (h : Sparse.rising lo m = true) (hk : ∀ l, lo = some l → l < k) : Sparse.rising lo (Sparse.put m k v) = true := by
  induction m generalizing lo with
  | nil => cases lo <;> simp_all [Sparse.put, Sparse.rising]
  | cons p m ih =>
    obtain ⟨i, a⟩ := p
    simp only [Sparse.put]
    split_ifs with h1 h2
    · cases lo <;> simp_all [Sparse.rising]
    · subst h2; cases lo <;> simp_all [Sparse.rising]
    · have hm : Sparse.rising (some i) m = true := by cases lo <;> simp_all [Sparse.rising]
      have hp := ih (some i) hm (by intro l hl; simp at hl; omega)
      cases lo <;> simp_all [Sparse.rising]

theorem Sparse.rising_weaken {α : Type} (m : Sparse α) (l : Nat) (lo : Option Nat) (h : Sparse.rising (some l) m = true)
    (hl : ∀ x, lo = some x → x ≤ l) : Sparse.rising lo m = true := by
  cases m with
  | nil => cases lo <;> simp [Sparse.rising]
  | cons p m => cases lo <;> simp_all [Sparse.rising]; omega

theorem Sparse.rising_del {α : Type} (m : Sparse α) (k : Nat) (lo : Option Nat) (h : Sparse.rising lo m = true) :
    Sparse.rising lo (Sparse.del m k) = true := by
  induction m generalizing lo with
  | nil => cases lo <;> simp [Sparse.del, Sparse.rising]
  | cons p m ih =>
    obtain ⟨i, a⟩ := p
    have hm : Sparse.rising (some i) m = true := by cases lo <;> simp_all [Sparse.rising]
    simp only [Sparse.del]
    split_ifs with h1
    · exact Sparse.rising_weaken _ i lo (ih _ hm) (by intro x hx; subst hx; simp [Sparse.rising] at h; omega)
    · cases lo <;> simp_all [Sparse.rising]

theorem Sparse.mem_put {α : Type} (m : Sparse α) (k : Nat) (v : α) (p : Nat × α) (h : p ∈ Sparse.put m k v) :
    p = (k, v) ∨ p ∈ m := by
  induction m with
  | nil => simp_all [Sparse.put]
  | cons q m ih =>
    obtain ⟨i, a⟩ := q
    simp only [Sparse.put] at h
    split_ifs at h <;> simp_all <;> tauto

theorem Sparse.mem_del {α : Type} (m : Sparse α) (k : Nat) (p : Nat × α) (h : p ∈ Sparse.del m k) : p ∈ m := by
  induction m with
  | nil => simp_all [Sparse.del]
  | cons q m ih =>
    obtain ⟨i, a⟩ := q
    simp only [Sparse.del] at h
    split_ifs at h <;> (simp_all; try tauto)

/-- A write keeps the canonical form. -/
theorem Sparse.wf_set {α : Type} [DecidableEq α] (d : Nat → α) (m : Sparse α) (k : Nat) (v : α)
    (h : Sparse.wf d m = true) : Sparse.wf d (Sparse.set (d k) m k v) = true := by
  simp only [Sparse.wf, Bool.and_eq_true, List.all_eq_true, decide_eq_true_eq] at h ⊢
  unfold Sparse.set
  split_ifs with hv
  · exact ⟨Sparse.rising_del _ _ _ h.1, fun p hp => h.2 p (Sparse.mem_del _ _ _ hp)⟩
  · refine ⟨Sparse.rising_put _ _ _ _ h.1 (by simp), fun p hp => ?_⟩
    rcases Sparse.mem_put _ _ _ _ hp with rfl | hp
    · exact hv
    · exact h.2 p hp

/-- An index below the first listed one reads the default, and leaves the table when it is removed. -/
theorem Sparse.of_above {α : Type} (d : α) (m : Sparse α) (k : Nat) (h : Sparse.rising (some k) m = true) :
    Sparse.get d m k = d ∧ Sparse.del m k = m := by
  induction m with
  | nil => exact ⟨rfl, rfl⟩
  | cons p m ih =>
    obtain ⟨i, a⟩ := p
    simp only [Sparse.rising, Bool.and_eq_true, decide_eq_true_eq] at h
    have hk : k ≠ i := by omega
    have := ih (Sparse.rising_weaken m i (some k) h.2 (by intro x hx; cases hx; omega))
    simp only [Sparse.get, Sparse.del, if_neg hk, this.1, this.2, and_self]

/-- Writing what an index reads changes nothing in a table in canonical form. -/
theorem Sparse.set_get_self {α : Type} [DecidableEq α] (d : Nat → α) (m : Sparse α) (k : Nat) (h : Sparse.wf d m = true) :
    Sparse.set (d k) m k (Sparse.get (d k) m k) = m := by
  have gen : ∀ (m : Sparse α) (lo : Option Nat), Sparse.rising lo m = true → (∀ p ∈ m, p.2 ≠ d p.1) →
      Sparse.set (d k) m k (Sparse.get (d k) m k) = m := by
    intro m
    induction m with
    | nil => intro lo _ _; simp [Sparse.set, Sparse.get, Sparse.del]
    | cons p m ih =>
      intro lo hr hd
      obtain ⟨i, a⟩ := p
      have hm : Sparse.rising (some i) m = true := by cases lo <;> simp_all [Sparse.rising]
      have ha : a ≠ d i := hd (i, a) (by simp)
      have ih' := ih (some i) hm fun p hp => hd p (by simp [hp])
      by_cases hk : k = i
      · subst hk; simp [Sparse.set, Sparse.get, Sparse.put, ha]
      · simp only [Sparse.get, if_neg hk]
        simp only [Sparse.set] at ih' ⊢
        split_ifs at ih' ⊢ with hv
        · simp only [Sparse.del, if_neg hk, ih']
        · by_cases hlt : k < i
          · exact absurd (Sparse.of_above (d k) m k
              (Sparse.rising_weaken m i (some k) hm (by intro x hx; cases hx; omega))).1 hv
          · simp only [Sparse.put, if_neg hlt, if_neg hk, ih']
  simp only [Sparse.wf, Bool.and_eq_true, List.all_eq_true, decide_eq_true_eq] at h
  exact gen m none h.1 h.2

/-! ### Fields of a register -/

theorem getLsbD_fieldMask (hi lo i : Nat) (h : lo ≤ hi) :
    (fieldMask hi lo).getLsbD i = (decide (i < 32) && decide (lo ≤ i) && decide (i ≤ hi)) := by
  simp only [fieldMask, BitVec.getLsbD_shiftLeft, BitVec.getLsbD_ofNat, Nat.testBit_two_pow_sub_one]
  by_cases h1 : i < 32 <;> by_cases h2 : lo ≤ i <;> by_cases h3 : i ≤ hi <;> simp [h1, h2, h3] <;> omega

theorem getLsbD_setFld (w : Word) (hi lo v i : Nat) (h : lo ≤ hi) :
    (setFld w hi lo v).getLsbD i =
      if lo ≤ i ∧ i ≤ hi ∧ i < 32 then v.testBit (i - lo) else w.getLsbD i := by
  simp only [setFld, BitVec.getLsbD_or, BitVec.getLsbD_and, BitVec.getLsbD_not, getLsbD_fieldMask _ _ _ h,
    BitVec.getLsbD_shiftLeft, BitVec.getLsbD_ofNat]
  by_cases h1 : i < 32
  · have h4 : i - lo < 32 := by omega
    by_cases h2 : lo ≤ i <;> by_cases h3 : i ≤ hi <;> simp [h1, h2, h3, h4, Nat.not_lt.mpr, Nat.lt_of_not_le]
  · simp [h1, BitVec.getLsbD_of_ge w i (Nat.le_of_not_lt h1)]

theorem testBit_fld (w : Word) (hi lo i : Nat) : (fld w hi lo).testBit i = (decide (i < hi - lo + 1) && w.getLsbD (lo + i)) := by
  simp [fld, Nat.testBit_mod_two_pow, Nat.testBit_shiftRight, BitVec.getLsbD]

/-- A field reads as the low bits of what was put into it. -/
theorem fld_setFld (w : Word) (hi lo v : Nat) (h : lo ≤ hi) (h32 : hi < 32) :
    fld (setFld w hi lo v) hi lo = v % 2 ^ (hi - lo + 1) := by
  apply Nat.eq_of_testBit_eq
  intro i
  rw [testBit_fld, getLsbD_setFld _ _ _ _ _ h, Nat.testBit_mod_two_pow]
  by_cases hi' : i < hi - lo + 1
  · rw [if_pos (by omega)]; simp [hi']
  · simp [hi']

/-- A field outside the one written reads as before. -/
theorem fld_setFld_of_disjoint (w : Word) (hi lo v hi' lo' : Nat) (h : lo ≤ hi) (hd : hi < lo' ∨ hi' < lo) (h' : lo' ≤ hi') :
    fld (setFld w hi lo v) hi' lo' = fld w hi' lo' := by
  apply Nat.eq_of_testBit_eq
  intro i
  rw [testBit_fld, testBit_fld, getLsbD_setFld _ _ _ _ _ h]
  by_cases hi' : i < hi' - lo' + 1
  · rw [if_neg (by omega)]
  · simp [hi']

@[simp] theorem bitAt_setBitAt (w : Word) (i : Nat) (b : Bool) (j : Nat) (hi : i < 32) :
    bitAt (setBitAt w i b) j = if j = i then b else bitAt w j := by
  unfold bitAt setBitAt
  split_ifs with h1 h2 h2
  · subst h2; simp [hi, h1]
  · simp only [BitVec.getLsbD_or, BitVec.getLsbD_shiftLeft, BitVec.getLsbD_one]
    by_cases h3 : j < i
    · simp [h3]
    · have : j - i ≠ 0 := by omega
      simp [this]
  · subst h2; simp_all
  · simp only [BitVec.getLsbD_and, BitVec.getLsbD_not, BitVec.getLsbD_shiftLeft, BitVec.getLsbD_one]
    by_cases h4 : j < 32
    · by_cases h3 : j < i
      · simp [h3, h4]
      · have : j - i ≠ 0 := by omega
        simp [this, h4]
    · simp [BitVec.getLsbD_of_ge _ _ (Nat.le_of_not_lt h4)]

end Sys2Proof.Machine
end

