-- ==== Sys2Proof/Laws/State.lean ====
section
/-! SUPPORT. The projections of the updates of the state: one lemma for each field of each update. -/

namespace Sys2Proof.Machine

@[simp] theorem State.setReg_latch (s : State) (o : Nat) (v : Word) : (s.setReg o v).latch = s.latch := rfl
@[simp] theorem State.setReg_rdata (s : State) (o : Nat) (v : Word) : (s.setReg o v).rdata = s.rdata := rfl
@[simp] theorem State.setReg_hold (s : State) (o : Nat) (v : Word) : (s.setReg o v).hold = s.hold := rfl
@[simp] theorem State.setReg_straps (s : State) (o : Nat) (v : Word) : (s.setReg o v).straps = s.straps := rfl
@[simp] theorem State.setReg_pins (s : State) (o : Nat) (v : Word) : (s.setReg o v).pins = s.pins := rfl
@[simp] theorem State.setReg_pacer (s : State) (o : Nat) (v : Word) : (s.setReg o v).pacer = s.pacer := rfl
@[simp] theorem State.setReg_fc (s : State) (o : Nat) (v : Word) : (s.setReg o v).fc = s.fc := rfl
@[simp] theorem State.setReg_key (s : State) (o : Nat) (v : Word) : (s.setReg o v).key = s.key := rfl
@[simp] theorem State.setReg_hp (s : State) (o : Nat) (v : Word) : (s.setReg o v).hp = s.hp := rfl
@[simp] theorem State.setReg_baton (s : State) (o : Nat) (v : Word) : (s.setReg o v).baton = s.baton := rfl
@[simp] theorem State.setReg_votes (s : State) (o : Nat) (v : Word) : (s.setReg o v).votes = s.votes := rfl
@[simp] theorem State.setReg_pairs (s : State) (o : Nat) (v : Word) : (s.setReg o v).pairs = s.pairs := rfl
@[simp] theorem State.setReg_rings (s : State) (o : Nat) (v : Word) : (s.setReg o v).rings = s.rings := rfl
@[simp] theorem State.setReg_groups (s : State) (o : Nat) (v : Word) : (s.setReg o v).groups = s.groups := rfl
@[simp] theorem State.setReg_sched (s : State) (o : Nat) (v : Word) : (s.setReg o v).sched = s.sched := rfl
@[simp] theorem State.setReg_nextId (s : State) (o : Nat) (v : Word) : (s.setReg o v).nextId = s.nextId := rfl
@[simp] theorem State.setReg_cores (s : State) (o : Nat) (v : Word) : (s.setReg o v).cores = s.cores := rfl
@[simp] theorem State.setReg_otp (s : State) (o : Nat) (v : Word) : (s.setReg o v).otp = s.otp := rfl
@[simp] theorem State.setReg_otpBad (s : State) (o : Nat) (v : Word) : (s.setReg o v).otpBad = s.otpBad := rfl
@[simp] theorem State.setReg_dieOver (s : State) (o : Nat) (v : Word) : (s.setReg o v).dieOver = s.dieOver := rfl
@[simp] theorem State.setReg_otpProg (s : State) (o : Nat) (v : Word) : (s.setReg o v).otpProg = s.otpProg := rfl
@[simp] theorem State.setReg_crypto (s : State) (o : Nat) (v : Word) : (s.setReg o v).crypto = s.crypto := rfl
@[simp] theorem State.setReg_wupPath (s : State) (o : Nat) (v : Word) : (s.setReg o v).wupPath = s.wupPath := rfl
@[simp] theorem State.setReg_vat (s : State) (o : Nat) (v : Word) : (s.setReg o v).vat = s.vat := rfl
@[simp] theorem State.setReg_banks (s : State) (o : Nat) (v : Word) : (s.setReg o v).banks = s.banks := rfl
@[simp] theorem State.setReg_csram (s : State) (o : Nat) (v : Word) : (s.setReg o v).csram = s.csram := rfl
@[simp] theorem State.setReg_csramH (s : State) (o : Nat) (v : Word) : (s.setReg o v).csramH = s.csramH := rfl
@[simp] theorem State.setReg_ctxH (s : State) (o : Nat) (v : Word) : (s.setReg o v).ctxH = s.ctxH := rfl
@[simp] theorem State.setReg_tdmRx (s : State) (o : Nat) (v : Word) : (s.setReg o v).tdmRx = s.tdmRx := rfl
@[simp] theorem State.setReg_tdmTx (s : State) (o : Nat) (v : Word) : (s.setReg o v).tdmTx = s.tdmTx := rfl
@[simp] theorem State.setReg_aesRx (s : State) (o : Nat) (v : Word) : (s.setReg o v).aesRx = s.aesRx := rfl
@[simp] theorem State.setReg_aesTx (s : State) (o : Nat) (v : Word) : (s.setReg o v).aesTx = s.aesTx := rfl
@[simp] theorem State.setReg_pdm (s : State) (o : Nat) (v : Word) : (s.setReg o v).pdm = s.pdm := rfl
@[simp] theorem State.setReg_mics (s : State) (o : Nat) (v : Word) : (s.setReg o v).mics = s.mics := rfl
@[simp] theorem State.setReg_cs (s : State) (o : Nat) (v : Word) : (s.setReg o v).cs = s.cs := rfl
@[simp] theorem State.setReg_chans (s : State) (o : Nat) (v : Word) : (s.setReg o v).chans = s.chans := rfl
@[simp] theorem State.setReg_srcs (s : State) (o : Nat) (v : Word) : (s.setReg o v).srcs = s.srcs := rfl
@[simp] theorem State.setReg_asrc (s : State) (o : Nat) (v : Word) : (s.setReg o v).asrc = s.asrc := rfl
@[simp] theorem State.setReg_convs (s : State) (o : Nat) (v : Word) : (s.setReg o v).convs = s.convs := rfl
@[simp] theorem State.setReg_tdmPins (s : State) (o : Nat) (v : Word) : (s.setReg o v).tdmPins = s.tdmPins := rfl
@[simp] theorem State.setReg_islOut (s : State) (o : Nat) (v : Word) : (s.setReg o v).islOut = s.islOut := rfl
@[simp] theorem State.setReg_evCounts (s : State) (o : Nat) (v : Word) : (s.setReg o v).evCounts = s.evCounts := rfl
@[simp] theorem State.setReg_flows (s : State) (o : Nat) (v : Word) : (s.setReg o v).flows = s.flows := rfl
@[simp] theorem State.setReg_flowFetch (s : State) (o : Nat) (v : Word) : (s.setReg o v).flowFetch = s.flowFetch := rfl
@[simp] theorem State.setReg_frameTx (s : State) (o : Nat) (v : Word) : (s.setReg o v).frameTx = s.frameTx := rfl
@[simp] theorem State.setReg_txFlows (s : State) (o : Nat) (v : Word) : (s.setReg o v).txFlows = s.txFlows := rfl
@[simp] theorem State.setReg_vsrcs (s : State) (o : Nat) (v : Word) : (s.setReg o v).vsrcs = s.vsrcs := rfl
@[simp] theorem State.setReg_zones (s : State) (o : Nat) (v : Word) : (s.setReg o v).zones = s.zones := rfl
@[simp] theorem State.setReg_layers (s : State) (o : Nat) (v : Word) : (s.setReg o v).layers = s.layers := rfl
@[simp] theorem State.setReg_layerBack (s : State) (o : Nat) (v : Word) : (s.setReg o v).layerBack = s.layerBack := rfl
@[simp] theorem State.setReg_gens (s : State) (o : Nat) (v : Word) : (s.setReg o v).gens = s.gens := rfl
@[simp] theorem State.setReg_routes (s : State) (o : Nat) (v : Word) : (s.setReg o v).routes = s.routes := rfl
@[simp] theorem State.setReg_players (s : State) (o : Nat) (v : Word) : (s.setReg o v).players = s.players := rfl
@[simp] theorem State.setReg_clipLoads (s : State) (o : Nat) (v : Word) : (s.setReg o v).clipLoads = s.clipLoads := rfl
@[simp] theorem State.setReg_clips (s : State) (o : Nat) (v : Word) : (s.setReg o v).clips = s.clips := rfl
@[simp] theorem State.setReg_pool (s : State) (o : Nat) (v : Word) : (s.setReg o v).pool = s.pool := rfl
@[simp] theorem State.setReg_lanes (s : State) (o : Nat) (v : Word) : (s.setReg o v).lanes = s.lanes := rfl
@[simp] theorem State.setReg_tiles (s : State) (o : Nat) (v : Word) : (s.setReg o v).tiles = s.tiles := rfl
@[simp] theorem State.setReg_xover (s : State) (o : Nat) (v : Word) : (s.setReg o v).xover = s.xover := rfl
@[simp] theorem State.setReg_lps (s : State) (o : Nat) (v : Word) : (s.setReg o v).lps = s.lps := rfl
@[simp] theorem State.setReg_lpLoads (s : State) (o : Nat) (v : Word) : (s.setReg o v).lpLoads = s.lpLoads := rfl
@[simp] theorem State.setReg_lpStops (s : State) (o : Nat) (v : Word) : (s.setReg o v).lpStops = s.lpStops := rfl
@[simp] theorem State.setReg_paramHeat (s : State) (o : Nat) (v : Word) : (s.setReg o v).paramHeat = s.paramHeat := rfl
@[simp] theorem State.setReg_paramCnt (s : State) (o : Nat) (v : Word) : (s.setReg o v).paramCnt = s.paramCnt := rfl
@[simp] theorem State.setReg_tests (s : State) (o : Nat) (v : Word) : (s.setReg o v).tests = s.tests := rfl
@[simp] theorem State.setReg_testSeq (s : State) (o : Nat) (v : Word) : (s.setReg o v).testSeq = s.testSeq := rfl
@[simp] theorem State.setReg_admits (s : State) (o : Nat) (v : Word) : (s.setReg o v).admits = s.admits := rfl
@[simp] theorem State.setReg_txl (s : State) (o : Nat) (v : Word) : (s.setReg o v).txl = s.txl := rfl
@[simp] theorem State.setReg_pairLs (s : State) (o : Nat) (v : Word) : (s.setReg o v).pairLs = s.pairLs := rfl
@[simp] theorem State.setReg_pbus (s : State) (o : Nat) (v : Word) : (s.setReg o v).pbus = s.pbus := rfl
@[simp] theorem State.setReg_modes (s : State) (o : Nat) (v : Word) : (s.setReg o v).modes = s.modes := rfl
@[simp] theorem State.setReg_firstHeat (s : State) (o : Nat) (v : Word) : (s.setReg o v).firstHeat = s.firstHeat := rfl
@[simp] theorem State.setReg_freeCtr (s : State) (o : Nat) (v : Word) : (s.setReg o v).freeCtr = s.freeCtr := rfl
@[simp] theorem State.setReg_pending (s : State) (o : Nat) (v : Word) : (s.setReg o v).pending = s.pending := rfl
@[simp] theorem State.clearReg_latch (s : State) (o : Nat) : (s.clearReg o).latch = s.latch := rfl
@[simp] theorem State.clearReg_rdata (s : State) (o : Nat) : (s.clearReg o).rdata = s.rdata := rfl
@[simp] theorem State.clearReg_hold (s : State) (o : Nat) : (s.clearReg o).hold = s.hold := rfl
@[simp] theorem State.clearReg_straps (s : State) (o : Nat) : (s.clearReg o).straps = s.straps := rfl
@[simp] theorem State.clearReg_pins (s : State) (o : Nat) : (s.clearReg o).pins = s.pins := rfl
@[simp] theorem State.clearReg_pacer (s : State) (o : Nat) : (s.clearReg o).pacer = s.pacer := rfl
@[simp] theorem State.clearReg_fc (s : State) (o : Nat) : (s.clearReg o).fc = s.fc := rfl
@[simp] theorem State.clearReg_key (s : State) (o : Nat) : (s.clearReg o).key = s.key := rfl
@[simp] theorem State.clearReg_hp (s : State) (o : Nat) : (s.clearReg o).hp = s.hp := rfl
@[simp] theorem State.clearReg_baton (s : State) (o : Nat) : (s.clearReg o).baton = s.baton := rfl
@[simp] theorem State.clearReg_votes (s : State) (o : Nat) : (s.clearReg o).votes = s.votes := rfl
@[simp] theorem State.clearReg_pairs (s : State) (o : Nat) : (s.clearReg o).pairs = s.pairs := rfl
@[simp] theorem State.clearReg_rings (s : State) (o : Nat) : (s.clearReg o).rings = s.rings := rfl
@[simp] theorem State.clearReg_groups (s : State) (o : Nat) : (s.clearReg o).groups = s.groups := rfl
@[simp] theorem State.clearReg_sched (s : State) (o : Nat) : (s.clearReg o).sched = s.sched := rfl
@[simp] theorem State.clearReg_nextId (s : State) (o : Nat) : (s.clearReg o).nextId = s.nextId := rfl
@[simp] theorem State.clearReg_cores (s : State) (o : Nat) : (s.clearReg o).cores = s.cores := rfl
@[simp] theorem State.clearReg_otp (s : State) (o : Nat) : (s.clearReg o).otp = s.otp := rfl
@[simp] theorem State.clearReg_otpBad (s : State) (o : Nat) : (s.clearReg o).otpBad = s.otpBad := rfl
@[simp] theorem State.clearReg_dieOver (s : State) (o : Nat) : (s.clearReg o).dieOver = s.dieOver := rfl
@[simp] theorem State.clearReg_otpProg (s : State) (o : Nat) : (s.clearReg o).otpProg = s.otpProg := rfl
@[simp] theorem State.clearReg_crypto (s : State) (o : Nat) : (s.clearReg o).crypto = s.crypto := rfl
@[simp] theorem State.clearReg_wupPath (s : State) (o : Nat) : (s.clearReg o).wupPath = s.wupPath := rfl
@[simp] theorem State.clearReg_vat (s : State) (o : Nat) : (s.clearReg o).vat = s.vat := rfl
@[simp] theorem State.clearReg_banks (s : State) (o : Nat) : (s.clearReg o).banks = s.banks := rfl
@[simp] theorem State.clearReg_csram (s : State) (o : Nat) : (s.clearReg o).csram = s.csram := rfl
@[simp] theorem State.clearReg_csramH (s : State) (o : Nat) : (s.clearReg o).csramH = s.csramH := rfl
@[simp] theorem State.clearReg_ctxH (s : State) (o : Nat) : (s.clearReg o).ctxH = s.ctxH := rfl
@[simp] theorem State.clearReg_tdmRx (s : State) (o : Nat) : (s.clearReg o).tdmRx = s.tdmRx := rfl
@[simp] theorem State.clearReg_tdmTx (s : State) (o : Nat) : (s.clearReg o).tdmTx = s.tdmTx := rfl
@[simp] theorem State.clearReg_aesRx (s : State) (o : Nat) : (s.clearReg o).aesRx = s.aesRx := rfl
@[simp] theorem State.clearReg_aesTx (s : State) (o : Nat) : (s.clearReg o).aesTx = s.aesTx := rfl
@[simp] theorem State.clearReg_pdm (s : State) (o : Nat) : (s.clearReg o).pdm = s.pdm := rfl
@[simp] theorem State.clearReg_mics (s : State) (o : Nat) : (s.clearReg o).mics = s.mics := rfl
@[simp] theorem State.clearReg_cs (s : State) (o : Nat) : (s.clearReg o).cs = s.cs := rfl
@[simp] theorem State.clearReg_chans (s : State) (o : Nat) : (s.clearReg o).chans = s.chans := rfl
@[simp] theorem State.clearReg_srcs (s : State) (o : Nat) : (s.clearReg o).srcs = s.srcs := rfl
@[simp] theorem State.clearReg_asrc (s : State) (o : Nat) : (s.clearReg o).asrc = s.asrc := rfl
@[simp] theorem State.clearReg_convs (s : State) (o : Nat) : (s.clearReg o).convs = s.convs := rfl
@[simp] theorem State.clearReg_tdmPins (s : State) (o : Nat) : (s.clearReg o).tdmPins = s.tdmPins := rfl
@[simp] theorem State.clearReg_islOut (s : State) (o : Nat) : (s.clearReg o).islOut = s.islOut := rfl
@[simp] theorem State.clearReg_evCounts (s : State) (o : Nat) : (s.clearReg o).evCounts = s.evCounts := rfl
@[simp] theorem State.clearReg_flows (s : State) (o : Nat) : (s.clearReg o).flows = s.flows := rfl
@[simp] theorem State.clearReg_flowFetch (s : State) (o : Nat) : (s.clearReg o).flowFetch = s.flowFetch := rfl
@[simp] theorem State.clearReg_frameTx (s : State) (o : Nat) : (s.clearReg o).frameTx = s.frameTx := rfl
@[simp] theorem State.clearReg_txFlows (s : State) (o : Nat) : (s.clearReg o).txFlows = s.txFlows := rfl
@[simp] theorem State.clearReg_vsrcs (s : State) (o : Nat) : (s.clearReg o).vsrcs = s.vsrcs := rfl
@[simp] theorem State.clearReg_zones (s : State) (o : Nat) : (s.clearReg o).zones = s.zones := rfl
@[simp] theorem State.clearReg_layers (s : State) (o : Nat) : (s.clearReg o).layers = s.layers := rfl
@[simp] theorem State.clearReg_layerBack (s : State) (o : Nat) : (s.clearReg o).layerBack = s.layerBack := rfl
@[simp] theorem State.clearReg_gens (s : State) (o : Nat) : (s.clearReg o).gens = s.gens := rfl
@[simp] theorem State.clearReg_routes (s : State) (o : Nat) : (s.clearReg o).routes = s.routes := rfl
@[simp] theorem State.clearReg_players (s : State) (o : Nat) : (s.clearReg o).players = s.players := rfl
@[simp] theorem State.clearReg_clipLoads (s : State) (o : Nat) : (s.clearReg o).clipLoads = s.clipLoads := rfl
@[simp] theorem State.clearReg_clips (s : State) (o : Nat) : (s.clearReg o).clips = s.clips := rfl
@[simp] theorem State.clearReg_pool (s : State) (o : Nat) : (s.clearReg o).pool = s.pool := rfl
@[simp] theorem State.clearReg_lanes (s : State) (o : Nat) : (s.clearReg o).lanes = s.lanes := rfl
@[simp] theorem State.clearReg_tiles (s : State) (o : Nat) : (s.clearReg o).tiles = s.tiles := rfl
@[simp] theorem State.clearReg_xover (s : State) (o : Nat) : (s.clearReg o).xover = s.xover := rfl
@[simp] theorem State.clearReg_lps (s : State) (o : Nat) : (s.clearReg o).lps = s.lps := rfl
@[simp] theorem State.clearReg_lpLoads (s : State) (o : Nat) : (s.clearReg o).lpLoads = s.lpLoads := rfl
@[simp] theorem State.clearReg_lpStops (s : State) (o : Nat) : (s.clearReg o).lpStops = s.lpStops := rfl
@[simp] theorem State.clearReg_paramHeat (s : State) (o : Nat) : (s.clearReg o).paramHeat = s.paramHeat := rfl
@[simp] theorem State.clearReg_paramCnt (s : State) (o : Nat) : (s.clearReg o).paramCnt = s.paramCnt := rfl
@[simp] theorem State.clearReg_tests (s : State) (o : Nat) : (s.clearReg o).tests = s.tests := rfl
@[simp] theorem State.clearReg_testSeq (s : State) (o : Nat) : (s.clearReg o).testSeq = s.testSeq := rfl
@[simp] theorem State.clearReg_admits (s : State) (o : Nat) : (s.clearReg o).admits = s.admits := rfl
@[simp] theorem State.clearReg_txl (s : State) (o : Nat) : (s.clearReg o).txl = s.txl := rfl
@[simp] theorem State.clearReg_pairLs (s : State) (o : Nat) : (s.clearReg o).pairLs = s.pairLs := rfl
@[simp] theorem State.clearReg_pbus (s : State) (o : Nat) : (s.clearReg o).pbus = s.pbus := rfl
@[simp] theorem State.clearReg_modes (s : State) (o : Nat) : (s.clearReg o).modes = s.modes := rfl
@[simp] theorem State.clearReg_firstHeat (s : State) (o : Nat) : (s.clearReg o).firstHeat = s.firstHeat := rfl
@[simp] theorem State.clearReg_freeCtr (s : State) (o : Nat) : (s.clearReg o).freeCtr = s.freeCtr := rfl
@[simp] theorem State.clearReg_pending (s : State) (o : Nat) : (s.clearReg o).pending = s.pending := rfl
@[simp] theorem State.putF_latch (s : State) (o hi lo v : Nat) : (s.putF o hi lo v).latch = s.latch := rfl
@[simp] theorem State.putF_rdata (s : State) (o hi lo v : Nat) : (s.putF o hi lo v).rdata = s.rdata := rfl
@[simp] theorem State.putF_hold (s : State) (o hi lo v : Nat) : (s.putF o hi lo v).hold = s.hold := rfl
@[simp] theorem State.putF_straps (s : State) (o hi lo v : Nat) : (s.putF o hi lo v).straps = s.straps := rfl
@[simp] theorem State.putF_pins (s : State) (o hi lo v : Nat) : (s.putF o hi lo v).pins = s.pins := rfl
@[simp] theorem State.putF_pacer (s : State) (o hi lo v : Nat) : (s.putF o hi lo v).pacer = s.pacer := rfl
@[simp] theorem State.putF_fc (s : State) (o hi lo v : Nat) : (s.putF o hi lo v).fc = s.fc := rfl
@[simp] theorem State.putF_key (s : State) (o hi lo v : Nat) : (s.putF o hi lo v).key = s.key := rfl
@[simp] theorem State.putF_hp (s : State) (o hi lo v : Nat) : (s.putF o hi lo v).hp = s.hp := rfl
@[simp] theorem State.putF_baton (s : State) (o hi lo v : Nat) : (s.putF o hi lo v).baton = s.baton := rfl
@[simp] theorem State.putF_votes (s : State) (o hi lo v : Nat) : (s.putF o hi lo v).votes = s.votes := rfl
@[simp] theorem State.putF_pairs (s : State) (o hi lo v : Nat) : (s.putF o hi lo v).pairs = s.pairs := rfl
@[simp] theorem State.putF_rings (s : State) (o hi lo v : Nat) : (s.putF o hi lo v).rings = s.rings := rfl
@[simp] theorem State.putF_groups (s : State) (o hi lo v : Nat) : (s.putF o hi lo v).groups = s.groups := rfl
@[simp] theorem State.putF_sched (s : State) (o hi lo v : Nat) : (s.putF o hi lo v).sched = s.sched := rfl
@[simp] theorem State.putF_nextId (s : State) (o hi lo v : Nat) : (s.putF o hi lo v).nextId = s.nextId := rfl
@[simp] theorem State.putF_cores (s : State) (o hi lo v : Nat) : (s.putF o hi lo v).cores = s.cores := rfl
@[simp] theorem State.putF_otp (s : State) (o hi lo v : Nat) : (s.putF o hi lo v).otp = s.otp := rfl
@[simp] theorem State.putF_otpBad (s : State) (o hi lo v : Nat) : (s.putF o hi lo v).otpBad = s.otpBad := rfl
@[simp] theorem State.putF_dieOver (s : State) (o hi lo v : Nat) : (s.putF o hi lo v).dieOver = s.dieOver := rfl
@[simp] theorem State.putF_otpProg (s : State) (o hi lo v : Nat) : (s.putF o hi lo v).otpProg = s.otpProg := rfl
@[simp] theorem State.putF_crypto (s : State) (o hi lo v : Nat) : (s.putF o hi lo v).crypto = s.crypto := rfl
@[simp] theorem State.putF_wupPath (s : State) (o hi lo v : Nat) : (s.putF o hi lo v).wupPath = s.wupPath := rfl
@[simp] theorem State.putF_vat (s : State) (o hi lo v : Nat) : (s.putF o hi lo v).vat = s.vat := rfl
@[simp] theorem State.putF_banks (s : State) (o hi lo v : Nat) : (s.putF o hi lo v).banks = s.banks := rfl
@[simp] theorem State.putF_csram (s : State) (o hi lo v : Nat) : (s.putF o hi lo v).csram = s.csram := rfl
@[simp] theorem State.putF_csramH (s : State) (o hi lo v : Nat) : (s.putF o hi lo v).csramH = s.csramH := rfl
@[simp] theorem State.putF_ctxH (s : State) (o hi lo v : Nat) : (s.putF o hi lo v).ctxH = s.ctxH := rfl
@[simp] theorem State.putF_tdmRx (s : State) (o hi lo v : Nat) : (s.putF o hi lo v).tdmRx = s.tdmRx := rfl
@[simp] theorem State.putF_tdmTx (s : State) (o hi lo v : Nat) : (s.putF o hi lo v).tdmTx = s.tdmTx := rfl
@[simp] theorem State.putF_aesRx (s : State) (o hi lo v : Nat) : (s.putF o hi lo v).aesRx = s.aesRx := rfl
@[simp] theorem State.putF_aesTx (s : State) (o hi lo v : Nat) : (s.putF o hi lo v).aesTx = s.aesTx := rfl
@[simp] theorem State.putF_pdm (s : State) (o hi lo v : Nat) : (s.putF o hi lo v).pdm = s.pdm := rfl
@[simp] theorem State.putF_mics (s : State) (o hi lo v : Nat) : (s.putF o hi lo v).mics = s.mics := rfl
@[simp] theorem State.putF_cs (s : State) (o hi lo v : Nat) : (s.putF o hi lo v).cs = s.cs := rfl
@[simp] theorem State.putF_chans (s : State) (o hi lo v : Nat) : (s.putF o hi lo v).chans = s.chans := rfl
@[simp] theorem State.putF_srcs (s : State) (o hi lo v : Nat) : (s.putF o hi lo v).srcs = s.srcs := rfl
@[simp] theorem State.putF_asrc (s : State) (o hi lo v : Nat) : (s.putF o hi lo v).asrc = s.asrc := rfl
@[simp] theorem State.putF_convs (s : State) (o hi lo v : Nat) : (s.putF o hi lo v).convs = s.convs := rfl
@[simp] theorem State.putF_tdmPins (s : State) (o hi lo v : Nat) : (s.putF o hi lo v).tdmPins = s.tdmPins := rfl
@[simp] theorem State.putF_islOut (s : State) (o hi lo v : Nat) : (s.putF o hi lo v).islOut = s.islOut := rfl
@[simp] theorem State.putF_evCounts (s : State) (o hi lo v : Nat) : (s.putF o hi lo v).evCounts = s.evCounts := rfl
@[simp] theorem State.putF_flows (s : State) (o hi lo v : Nat) : (s.putF o hi lo v).flows = s.flows := rfl
@[simp] theorem State.putF_flowFetch (s : State) (o hi lo v : Nat) : (s.putF o hi lo v).flowFetch = s.flowFetch := rfl
@[simp] theorem State.putF_frameTx (s : State) (o hi lo v : Nat) : (s.putF o hi lo v).frameTx = s.frameTx := rfl
@[simp] theorem State.putF_txFlows (s : State) (o hi lo v : Nat) : (s.putF o hi lo v).txFlows = s.txFlows := rfl
@[simp] theorem State.putF_vsrcs (s : State) (o hi lo v : Nat) : (s.putF o hi lo v).vsrcs = s.vsrcs := rfl
@[simp] theorem State.putF_zones (s : State) (o hi lo v : Nat) : (s.putF o hi lo v).zones = s.zones := rfl
@[simp] theorem State.putF_layers (s : State) (o hi lo v : Nat) : (s.putF o hi lo v).layers = s.layers := rfl
@[simp] theorem State.putF_layerBack (s : State) (o hi lo v : Nat) : (s.putF o hi lo v).layerBack = s.layerBack := rfl
@[simp] theorem State.putF_gens (s : State) (o hi lo v : Nat) : (s.putF o hi lo v).gens = s.gens := rfl
@[simp] theorem State.putF_routes (s : State) (o hi lo v : Nat) : (s.putF o hi lo v).routes = s.routes := rfl
@[simp] theorem State.putF_players (s : State) (o hi lo v : Nat) : (s.putF o hi lo v).players = s.players := rfl
@[simp] theorem State.putF_clipLoads (s : State) (o hi lo v : Nat) : (s.putF o hi lo v).clipLoads = s.clipLoads := rfl
@[simp] theorem State.putF_clips (s : State) (o hi lo v : Nat) : (s.putF o hi lo v).clips = s.clips := rfl
@[simp] theorem State.putF_pool (s : State) (o hi lo v : Nat) : (s.putF o hi lo v).pool = s.pool := rfl
@[simp] theorem State.putF_lanes (s : State) (o hi lo v : Nat) : (s.putF o hi lo v).lanes = s.lanes := rfl
@[simp] theorem State.putF_tiles (s : State) (o hi lo v : Nat) : (s.putF o hi lo v).tiles = s.tiles := rfl
@[simp] theorem State.putF_xover (s : State) (o hi lo v : Nat) : (s.putF o hi lo v).xover = s.xover := rfl
@[simp] theorem State.putF_lps (s : State) (o hi lo v : Nat) : (s.putF o hi lo v).lps = s.lps := rfl
@[simp] theorem State.putF_lpLoads (s : State) (o hi lo v : Nat) : (s.putF o hi lo v).lpLoads = s.lpLoads := rfl
@[simp] theorem State.putF_lpStops (s : State) (o hi lo v : Nat) : (s.putF o hi lo v).lpStops = s.lpStops := rfl
@[simp] theorem State.putF_paramHeat (s : State) (o hi lo v : Nat) : (s.putF o hi lo v).paramHeat = s.paramHeat := rfl
@[simp] theorem State.putF_paramCnt (s : State) (o hi lo v : Nat) : (s.putF o hi lo v).paramCnt = s.paramCnt := rfl
@[simp] theorem State.putF_tests (s : State) (o hi lo v : Nat) : (s.putF o hi lo v).tests = s.tests := rfl
@[simp] theorem State.putF_testSeq (s : State) (o hi lo v : Nat) : (s.putF o hi lo v).testSeq = s.testSeq := rfl
@[simp] theorem State.putF_admits (s : State) (o hi lo v : Nat) : (s.putF o hi lo v).admits = s.admits := rfl
@[simp] theorem State.putF_txl (s : State) (o hi lo v : Nat) : (s.putF o hi lo v).txl = s.txl := rfl
@[simp] theorem State.putF_pairLs (s : State) (o hi lo v : Nat) : (s.putF o hi lo v).pairLs = s.pairLs := rfl
@[simp] theorem State.putF_pbus (s : State) (o hi lo v : Nat) : (s.putF o hi lo v).pbus = s.pbus := rfl
@[simp] theorem State.putF_modes (s : State) (o hi lo v : Nat) : (s.putF o hi lo v).modes = s.modes := rfl
@[simp] theorem State.putF_firstHeat (s : State) (o hi lo v : Nat) : (s.putF o hi lo v).firstHeat = s.firstHeat := rfl
@[simp] theorem State.putF_freeCtr (s : State) (o hi lo v : Nat) : (s.putF o hi lo v).freeCtr = s.freeCtr := rfl
@[simp] theorem State.putF_pending (s : State) (o hi lo v : Nat) : (s.putF o hi lo v).pending = s.pending := rfl
@[simp] theorem State.setBit_latch (s : State) (o i : Nat) (b : Bool) : (s.setBit o i b).latch = s.latch := rfl
@[simp] theorem State.setBit_rdata (s : State) (o i : Nat) (b : Bool) : (s.setBit o i b).rdata = s.rdata := rfl
@[simp] theorem State.setBit_hold (s : State) (o i : Nat) (b : Bool) : (s.setBit o i b).hold = s.hold := rfl
@[simp] theorem State.setBit_straps (s : State) (o i : Nat) (b : Bool) : (s.setBit o i b).straps = s.straps := rfl
@[simp] theorem State.setBit_pins (s : State) (o i : Nat) (b : Bool) : (s.setBit o i b).pins = s.pins := rfl
@[simp] theorem State.setBit_pacer (s : State) (o i : Nat) (b : Bool) : (s.setBit o i b).pacer = s.pacer := rfl
@[simp] theorem State.setBit_fc (s : State) (o i : Nat) (b : Bool) : (s.setBit o i b).fc = s.fc := rfl
@[simp] theorem State.setBit_key (s : State) (o i : Nat) (b : Bool) : (s.setBit o i b).key = s.key := rfl
@[simp] theorem State.setBit_hp (s : State) (o i : Nat) (b : Bool) : (s.setBit o i b).hp = s.hp := rfl
@[simp] theorem State.setBit_baton (s : State) (o i : Nat) (b : Bool) : (s.setBit o i b).baton = s.baton := rfl
@[simp] theorem State.setBit_votes (s : State) (o i : Nat) (b : Bool) : (s.setBit o i b).votes = s.votes := rfl
@[simp] theorem State.setBit_pairs (s : State) (o i : Nat) (b : Bool) : (s.setBit o i b).pairs = s.pairs := rfl
@[simp] theorem State.setBit_rings (s : State) (o i : Nat) (b : Bool) : (s.setBit o i b).rings = s.rings := rfl
@[simp] theorem State.setBit_groups (s : State) (o i : Nat) (b : Bool) : (s.setBit o i b).groups = s.groups := rfl
@[simp] theorem State.setBit_sched (s : State) (o i : Nat) (b : Bool) : (s.setBit o i b).sched = s.sched := rfl
@[simp] theorem State.setBit_nextId (s : State) (o i : Nat) (b : Bool) : (s.setBit o i b).nextId = s.nextId := rfl
@[simp] theorem State.setBit_cores (s : State) (o i : Nat) (b : Bool) : (s.setBit o i b).cores = s.cores := rfl
@[simp] theorem State.setBit_otp (s : State) (o i : Nat) (b : Bool) : (s.setBit o i b).otp = s.otp := rfl
@[simp] theorem State.setBit_otpBad (s : State) (o i : Nat) (b : Bool) : (s.setBit o i b).otpBad = s.otpBad := rfl
@[simp] theorem State.setBit_dieOver (s : State) (o i : Nat) (b : Bool) : (s.setBit o i b).dieOver = s.dieOver := rfl
@[simp] theorem State.setBit_otpProg (s : State) (o i : Nat) (b : Bool) : (s.setBit o i b).otpProg = s.otpProg := rfl
@[simp] theorem State.setBit_crypto (s : State) (o i : Nat) (b : Bool) : (s.setBit o i b).crypto = s.crypto := rfl
@[simp] theorem State.setBit_wupPath (s : State) (o i : Nat) (b : Bool) : (s.setBit o i b).wupPath = s.wupPath := rfl
@[simp] theorem State.setBit_vat (s : State) (o i : Nat) (b : Bool) : (s.setBit o i b).vat = s.vat := rfl
@[simp] theorem State.setBit_banks (s : State) (o i : Nat) (b : Bool) : (s.setBit o i b).banks = s.banks := rfl
@[simp] theorem State.setBit_csram (s : State) (o i : Nat) (b : Bool) : (s.setBit o i b).csram = s.csram := rfl
@[simp] theorem State.setBit_csramH (s : State) (o i : Nat) (b : Bool) : (s.setBit o i b).csramH = s.csramH := rfl
@[simp] theorem State.setBit_ctxH (s : State) (o i : Nat) (b : Bool) : (s.setBit o i b).ctxH = s.ctxH := rfl
@[simp] theorem State.setBit_tdmRx (s : State) (o i : Nat) (b : Bool) : (s.setBit o i b).tdmRx = s.tdmRx := rfl
@[simp] theorem State.setBit_tdmTx (s : State) (o i : Nat) (b : Bool) : (s.setBit o i b).tdmTx = s.tdmTx := rfl
@[simp] theorem State.setBit_aesRx (s : State) (o i : Nat) (b : Bool) : (s.setBit o i b).aesRx = s.aesRx := rfl
@[simp] theorem State.setBit_aesTx (s : State) (o i : Nat) (b : Bool) : (s.setBit o i b).aesTx = s.aesTx := rfl
@[simp] theorem State.setBit_pdm (s : State) (o i : Nat) (b : Bool) : (s.setBit o i b).pdm = s.pdm := rfl
@[simp] theorem State.setBit_mics (s : State) (o i : Nat) (b : Bool) : (s.setBit o i b).mics = s.mics := rfl
@[simp] theorem State.setBit_cs (s : State) (o i : Nat) (b : Bool) : (s.setBit o i b).cs = s.cs := rfl
@[simp] theorem State.setBit_chans (s : State) (o i : Nat) (b : Bool) : (s.setBit o i b).chans = s.chans := rfl
@[simp] theorem State.setBit_srcs (s : State) (o i : Nat) (b : Bool) : (s.setBit o i b).srcs = s.srcs := rfl
@[simp] theorem State.setBit_asrc (s : State) (o i : Nat) (b : Bool) : (s.setBit o i b).asrc = s.asrc := rfl
@[simp] theorem State.setBit_convs (s : State) (o i : Nat) (b : Bool) : (s.setBit o i b).convs = s.convs := rfl
@[simp] theorem State.setBit_tdmPins (s : State) (o i : Nat) (b : Bool) : (s.setBit o i b).tdmPins = s.tdmPins := rfl
@[simp] theorem State.setBit_islOut (s : State) (o i : Nat) (b : Bool) : (s.setBit o i b).islOut = s.islOut := rfl
@[simp] theorem State.setBit_evCounts (s : State) (o i : Nat) (b : Bool) : (s.setBit o i b).evCounts = s.evCounts := rfl
@[simp] theorem State.setBit_flows (s : State) (o i : Nat) (b : Bool) : (s.setBit o i b).flows = s.flows := rfl
@[simp] theorem State.setBit_flowFetch (s : State) (o i : Nat) (b : Bool) : (s.setBit o i b).flowFetch = s.flowFetch := rfl
@[simp] theorem State.setBit_frameTx (s : State) (o i : Nat) (b : Bool) : (s.setBit o i b).frameTx = s.frameTx := rfl
@[simp] theorem State.setBit_txFlows (s : State) (o i : Nat) (b : Bool) : (s.setBit o i b).txFlows = s.txFlows := rfl
@[simp] theorem State.setBit_vsrcs (s : State) (o i : Nat) (b : Bool) : (s.setBit o i b).vsrcs = s.vsrcs := rfl
@[simp] theorem State.setBit_zones (s : State) (o i : Nat) (b : Bool) : (s.setBit o i b).zones = s.zones := rfl
@[simp] theorem State.setBit_layers (s : State) (o i : Nat) (b : Bool) : (s.setBit o i b).layers = s.layers := rfl
@[simp] theorem State.setBit_layerBack (s : State) (o i : Nat) (b : Bool) : (s.setBit o i b).layerBack = s.layerBack := rfl
@[simp] theorem State.setBit_gens (s : State) (o i : Nat) (b : Bool) : (s.setBit o i b).gens = s.gens := rfl
@[simp] theorem State.setBit_routes (s : State) (o i : Nat) (b : Bool) : (s.setBit o i b).routes = s.routes := rfl
@[simp] theorem State.setBit_players (s : State) (o i : Nat) (b : Bool) : (s.setBit o i b).players = s.players := rfl
@[simp] theorem State.setBit_clipLoads (s : State) (o i : Nat) (b : Bool) : (s.setBit o i b).clipLoads = s.clipLoads := rfl
@[simp] theorem State.setBit_clips (s : State) (o i : Nat) (b : Bool) : (s.setBit o i b).clips = s.clips := rfl
@[simp] theorem State.setBit_pool (s : State) (o i : Nat) (b : Bool) : (s.setBit o i b).pool = s.pool := rfl
@[simp] theorem State.setBit_lanes (s : State) (o i : Nat) (b : Bool) : (s.setBit o i b).lanes = s.lanes := rfl
@[simp] theorem State.setBit_tiles (s : State) (o i : Nat) (b : Bool) : (s.setBit o i b).tiles = s.tiles := rfl
@[simp] theorem State.setBit_xover (s : State) (o i : Nat) (b : Bool) : (s.setBit o i b).xover = s.xover := rfl
@[simp] theorem State.setBit_lps (s : State) (o i : Nat) (b : Bool) : (s.setBit o i b).lps = s.lps := rfl
@[simp] theorem State.setBit_lpLoads (s : State) (o i : Nat) (b : Bool) : (s.setBit o i b).lpLoads = s.lpLoads := rfl
@[simp] theorem State.setBit_lpStops (s : State) (o i : Nat) (b : Bool) : (s.setBit o i b).lpStops = s.lpStops := rfl
@[simp] theorem State.setBit_paramHeat (s : State) (o i : Nat) (b : Bool) : (s.setBit o i b).paramHeat = s.paramHeat := rfl
@[simp] theorem State.setBit_paramCnt (s : State) (o i : Nat) (b : Bool) : (s.setBit o i b).paramCnt = s.paramCnt := rfl
@[simp] theorem State.setBit_tests (s : State) (o i : Nat) (b : Bool) : (s.setBit o i b).tests = s.tests := rfl
@[simp] theorem State.setBit_testSeq (s : State) (o i : Nat) (b : Bool) : (s.setBit o i b).testSeq = s.testSeq := rfl
@[simp] theorem State.setBit_admits (s : State) (o i : Nat) (b : Bool) : (s.setBit o i b).admits = s.admits := rfl
@[simp] theorem State.setBit_txl (s : State) (o i : Nat) (b : Bool) : (s.setBit o i b).txl = s.txl := rfl
@[simp] theorem State.setBit_pairLs (s : State) (o i : Nat) (b : Bool) : (s.setBit o i b).pairLs = s.pairLs := rfl
@[simp] theorem State.setBit_pbus (s : State) (o i : Nat) (b : Bool) : (s.setBit o i b).pbus = s.pbus := rfl
@[simp] theorem State.setBit_modes (s : State) (o i : Nat) (b : Bool) : (s.setBit o i b).modes = s.modes := rfl
@[simp] theorem State.setBit_firstHeat (s : State) (o i : Nat) (b : Bool) : (s.setBit o i b).firstHeat = s.firstHeat := rfl
@[simp] theorem State.setBit_freeCtr (s : State) (o i : Nat) (b : Bool) : (s.setBit o i b).freeCtr = s.freeCtr := rfl
@[simp] theorem State.setBit_pending (s : State) (o i : Nat) (b : Bool) : (s.setBit o i b).pending = s.pending := rfl
@[simp] theorem State.bump_latch (s : State) (o n : Nat) : (s.bump o n).latch = s.latch := rfl
@[simp] theorem State.bump_rdata (s : State) (o n : Nat) : (s.bump o n).rdata = s.rdata := rfl
@[simp] theorem State.bump_hold (s : State) (o n : Nat) : (s.bump o n).hold = s.hold := rfl
@[simp] theorem State.bump_straps (s : State) (o n : Nat) : (s.bump o n).straps = s.straps := rfl
@[simp] theorem State.bump_pins (s : State) (o n : Nat) : (s.bump o n).pins = s.pins := rfl
@[simp] theorem State.bump_pacer (s : State) (o n : Nat) : (s.bump o n).pacer = s.pacer := rfl
@[simp] theorem State.bump_fc (s : State) (o n : Nat) : (s.bump o n).fc = s.fc := rfl
@[simp] theorem State.bump_key (s : State) (o n : Nat) : (s.bump o n).key = s.key := rfl
@[simp] theorem State.bump_hp (s : State) (o n : Nat) : (s.bump o n).hp = s.hp := rfl
@[simp] theorem State.bump_baton (s : State) (o n : Nat) : (s.bump o n).baton = s.baton := rfl
@[simp] theorem State.bump_votes (s : State) (o n : Nat) : (s.bump o n).votes = s.votes := rfl
@[simp] theorem State.bump_pairs (s : State) (o n : Nat) : (s.bump o n).pairs = s.pairs := rfl
@[simp] theorem State.bump_rings (s : State) (o n : Nat) : (s.bump o n).rings = s.rings := rfl
@[simp] theorem State.bump_groups (s : State) (o n : Nat) : (s.bump o n).groups = s.groups := rfl
@[simp] theorem State.bump_sched (s : State) (o n : Nat) : (s.bump o n).sched = s.sched := rfl
@[simp] theorem State.bump_nextId (s : State) (o n : Nat) : (s.bump o n).nextId = s.nextId := rfl
@[simp] theorem State.bump_cores (s : State) (o n : Nat) : (s.bump o n).cores = s.cores := rfl
@[simp] theorem State.bump_otp (s : State) (o n : Nat) : (s.bump o n).otp = s.otp := rfl
@[simp] theorem State.bump_otpBad (s : State) (o n : Nat) : (s.bump o n).otpBad = s.otpBad := rfl
@[simp] theorem State.bump_dieOver (s : State) (o n : Nat) : (s.bump o n).dieOver = s.dieOver := rfl
@[simp] theorem State.bump_otpProg (s : State) (o n : Nat) : (s.bump o n).otpProg = s.otpProg := rfl
@[simp] theorem State.bump_crypto (s : State) (o n : Nat) : (s.bump o n).crypto = s.crypto := rfl
@[simp] theorem State.bump_wupPath (s : State) (o n : Nat) : (s.bump o n).wupPath = s.wupPath := rfl
@[simp] theorem State.bump_vat (s : State) (o n : Nat) : (s.bump o n).vat = s.vat := rfl
@[simp] theorem State.bump_banks (s : State) (o n : Nat) : (s.bump o n).banks = s.banks := rfl
@[simp] theorem State.bump_csram (s : State) (o n : Nat) : (s.bump o n).csram = s.csram := rfl
@[simp] theorem State.bump_csramH (s : State) (o n : Nat) : (s.bump o n).csramH = s.csramH := rfl
@[simp] theorem State.bump_ctxH (s : State) (o n : Nat) : (s.bump o n).ctxH = s.ctxH := rfl
@[simp] theorem State.bump_tdmRx (s : State) (o n : Nat) : (s.bump o n).tdmRx = s.tdmRx := rfl
@[simp] theorem State.bump_tdmTx (s : State) (o n : Nat) : (s.bump o n).tdmTx = s.tdmTx := rfl
@[simp] theorem State.bump_aesRx (s : State) (o n : Nat) : (s.bump o n).aesRx = s.aesRx := rfl
@[simp] theorem State.bump_aesTx (s : State) (o n : Nat) : (s.bump o n).aesTx = s.aesTx := rfl
@[simp] theorem State.bump_pdm (s : State) (o n : Nat) : (s.bump o n).pdm = s.pdm := rfl
@[simp] theorem State.bump_mics (s : State) (o n : Nat) : (s.bump o n).mics = s.mics := rfl
@[simp] theorem State.bump_cs (s : State) (o n : Nat) : (s.bump o n).cs = s.cs := rfl
@[simp] theorem State.bump_chans (s : State) (o n : Nat) : (s.bump o n).chans = s.chans := rfl
@[simp] theorem State.bump_srcs (s : State) (o n : Nat) : (s.bump o n).srcs = s.srcs := rfl
@[simp] theorem State.bump_asrc (s : State) (o n : Nat) : (s.bump o n).asrc = s.asrc := rfl
@[simp] theorem State.bump_convs (s : State) (o n : Nat) : (s.bump o n).convs = s.convs := rfl
@[simp] theorem State.bump_tdmPins (s : State) (o n : Nat) : (s.bump o n).tdmPins = s.tdmPins := rfl
@[simp] theorem State.bump_islOut (s : State) (o n : Nat) : (s.bump o n).islOut = s.islOut := rfl
@[simp] theorem State.bump_evCounts (s : State) (o n : Nat) : (s.bump o n).evCounts = s.evCounts := rfl
@[simp] theorem State.bump_flows (s : State) (o n : Nat) : (s.bump o n).flows = s.flows := rfl
@[simp] theorem State.bump_flowFetch (s : State) (o n : Nat) : (s.bump o n).flowFetch = s.flowFetch := rfl
@[simp] theorem State.bump_frameTx (s : State) (o n : Nat) : (s.bump o n).frameTx = s.frameTx := rfl
@[simp] theorem State.bump_txFlows (s : State) (o n : Nat) : (s.bump o n).txFlows = s.txFlows := rfl
@[simp] theorem State.bump_vsrcs (s : State) (o n : Nat) : (s.bump o n).vsrcs = s.vsrcs := rfl
@[simp] theorem State.bump_zones (s : State) (o n : Nat) : (s.bump o n).zones = s.zones := rfl
@[simp] theorem State.bump_layers (s : State) (o n : Nat) : (s.bump o n).layers = s.layers := rfl
@[simp] theorem State.bump_layerBack (s : State) (o n : Nat) : (s.bump o n).layerBack = s.layerBack := rfl
@[simp] theorem State.bump_gens (s : State) (o n : Nat) : (s.bump o n).gens = s.gens := rfl
@[simp] theorem State.bump_routes (s : State) (o n : Nat) : (s.bump o n).routes = s.routes := rfl
@[simp] theorem State.bump_players (s : State) (o n : Nat) : (s.bump o n).players = s.players := rfl
@[simp] theorem State.bump_clipLoads (s : State) (o n : Nat) : (s.bump o n).clipLoads = s.clipLoads := rfl
@[simp] theorem State.bump_clips (s : State) (o n : Nat) : (s.bump o n).clips = s.clips := rfl
@[simp] theorem State.bump_pool (s : State) (o n : Nat) : (s.bump o n).pool = s.pool := rfl
@[simp] theorem State.bump_lanes (s : State) (o n : Nat) : (s.bump o n).lanes = s.lanes := rfl
@[simp] theorem State.bump_tiles (s : State) (o n : Nat) : (s.bump o n).tiles = s.tiles := rfl
@[simp] theorem State.bump_xover (s : State) (o n : Nat) : (s.bump o n).xover = s.xover := rfl
@[simp] theorem State.bump_lps (s : State) (o n : Nat) : (s.bump o n).lps = s.lps := rfl
@[simp] theorem State.bump_lpLoads (s : State) (o n : Nat) : (s.bump o n).lpLoads = s.lpLoads := rfl
@[simp] theorem State.bump_lpStops (s : State) (o n : Nat) : (s.bump o n).lpStops = s.lpStops := rfl
@[simp] theorem State.bump_paramHeat (s : State) (o n : Nat) : (s.bump o n).paramHeat = s.paramHeat := rfl
@[simp] theorem State.bump_paramCnt (s : State) (o n : Nat) : (s.bump o n).paramCnt = s.paramCnt := rfl
@[simp] theorem State.bump_tests (s : State) (o n : Nat) : (s.bump o n).tests = s.tests := rfl
@[simp] theorem State.bump_testSeq (s : State) (o n : Nat) : (s.bump o n).testSeq = s.testSeq := rfl
@[simp] theorem State.bump_admits (s : State) (o n : Nat) : (s.bump o n).admits = s.admits := rfl
@[simp] theorem State.bump_txl (s : State) (o n : Nat) : (s.bump o n).txl = s.txl := rfl
@[simp] theorem State.bump_pairLs (s : State) (o n : Nat) : (s.bump o n).pairLs = s.pairLs := rfl
@[simp] theorem State.bump_pbus (s : State) (o n : Nat) : (s.bump o n).pbus = s.pbus := rfl
@[simp] theorem State.bump_modes (s : State) (o n : Nat) : (s.bump o n).modes = s.modes := rfl
@[simp] theorem State.bump_firstHeat (s : State) (o n : Nat) : (s.bump o n).firstHeat = s.firstHeat := rfl
@[simp] theorem State.bump_freeCtr (s : State) (o n : Nat) : (s.bump o n).freeCtr = s.freeCtr := rfl
@[simp] theorem State.bump_pending (s : State) (o n : Nat) : (s.bump o n).pending = s.pending := rfl
@[simp] theorem State.take_regs (s : State) : (s.take).regs = s.regs := rfl
@[simp] theorem State.take_latch (s : State) : (s.take).latch = s.latch := rfl
@[simp] theorem State.take_rdata (s : State) : (s.take).rdata = s.rdata := rfl
@[simp] theorem State.take_hold (s : State) : (s.take).hold = s.hold := rfl
@[simp] theorem State.take_straps (s : State) : (s.take).straps = s.straps := rfl
@[simp] theorem State.take_pins (s : State) : (s.take).pins = s.pins := rfl
@[simp] theorem State.take_pacer (s : State) : (s.take).pacer = s.pacer := rfl
@[simp] theorem State.take_fc (s : State) : (s.take).fc = s.fc := rfl
@[simp] theorem State.take_key (s : State) : (s.take).key = s.key := rfl
@[simp] theorem State.take_hp (s : State) : (s.take).hp = s.hp := rfl
@[simp] theorem State.take_baton (s : State) : (s.take).baton = s.baton := rfl
@[simp] theorem State.take_votes (s : State) : (s.take).votes = s.votes := rfl
@[simp] theorem State.take_pairs (s : State) : (s.take).pairs = s.pairs := rfl
@[simp] theorem State.take_rings (s : State) : (s.take).rings = s.rings := rfl
@[simp] theorem State.take_groups (s : State) : (s.take).groups = s.groups := rfl
@[simp] theorem State.take_sched (s : State) : (s.take).sched = s.sched := rfl
@[simp] theorem State.take_nextId (s : State) : (s.take).nextId = s.nextId := rfl
@[simp] theorem State.take_cores (s : State) : (s.take).cores = s.cores := rfl
@[simp] theorem State.take_otp (s : State) : (s.take).otp = s.otp := rfl
@[simp] theorem State.take_otpBad (s : State) : (s.take).otpBad = s.otpBad := rfl
@[simp] theorem State.take_dieOver (s : State) : (s.take).dieOver = s.dieOver := rfl
@[simp] theorem State.take_otpProg (s : State) : (s.take).otpProg = s.otpProg := rfl
@[simp] theorem State.take_crypto (s : State) : (s.take).crypto = s.crypto := rfl
@[simp] theorem State.take_wupPath (s : State) : (s.take).wupPath = s.wupPath := rfl
@[simp] theorem State.take_vat (s : State) : (s.take).vat = s.vat := rfl
@[simp] theorem State.take_banks (s : State) : (s.take).banks = s.banks := rfl
@[simp] theorem State.take_csram (s : State) : (s.take).csram = s.csram := rfl
@[simp] theorem State.take_csramH (s : State) : (s.take).csramH = s.csramH := rfl
@[simp] theorem State.take_ctxH (s : State) : (s.take).ctxH = s.ctxH := rfl
@[simp] theorem State.take_tdmRx (s : State) : (s.take).tdmRx = s.tdmRx := rfl
@[simp] theorem State.take_tdmTx (s : State) : (s.take).tdmTx = s.tdmTx := rfl
@[simp] theorem State.take_aesRx (s : State) : (s.take).aesRx = s.aesRx := rfl
@[simp] theorem State.take_aesTx (s : State) : (s.take).aesTx = s.aesTx := rfl
@[simp] theorem State.take_pdm (s : State) : (s.take).pdm = s.pdm := rfl
@[simp] theorem State.take_mics (s : State) : (s.take).mics = s.mics := rfl
@[simp] theorem State.take_cs (s : State) : (s.take).cs = s.cs := rfl
@[simp] theorem State.take_chans (s : State) : (s.take).chans = s.chans := rfl
@[simp] theorem State.take_srcs (s : State) : (s.take).srcs = s.srcs := rfl
@[simp] theorem State.take_asrc (s : State) : (s.take).asrc = s.asrc := rfl
@[simp] theorem State.take_convs (s : State) : (s.take).convs = s.convs := rfl
@[simp] theorem State.take_tdmPins (s : State) : (s.take).tdmPins = s.tdmPins := rfl
@[simp] theorem State.take_islOut (s : State) : (s.take).islOut = s.islOut := rfl
@[simp] theorem State.take_evCounts (s : State) : (s.take).evCounts = s.evCounts := rfl
@[simp] theorem State.take_flows (s : State) : (s.take).flows = s.flows := rfl
@[simp] theorem State.take_flowFetch (s : State) : (s.take).flowFetch = s.flowFetch := rfl
@[simp] theorem State.take_frameTx (s : State) : (s.take).frameTx = s.frameTx := rfl
@[simp] theorem State.take_txFlows (s : State) : (s.take).txFlows = s.txFlows := rfl
@[simp] theorem State.take_vsrcs (s : State) : (s.take).vsrcs = s.vsrcs := rfl
@[simp] theorem State.take_zones (s : State) : (s.take).zones = s.zones := rfl
@[simp] theorem State.take_layers (s : State) : (s.take).layers = s.layers := rfl
@[simp] theorem State.take_layerBack (s : State) : (s.take).layerBack = s.layerBack := rfl
@[simp] theorem State.take_gens (s : State) : (s.take).gens = s.gens := rfl
@[simp] theorem State.take_routes (s : State) : (s.take).routes = s.routes := rfl
@[simp] theorem State.take_players (s : State) : (s.take).players = s.players := rfl
@[simp] theorem State.take_clipLoads (s : State) : (s.take).clipLoads = s.clipLoads := rfl
@[simp] theorem State.take_clips (s : State) : (s.take).clips = s.clips := rfl
@[simp] theorem State.take_pool (s : State) : (s.take).pool = s.pool := rfl
@[simp] theorem State.take_lanes (s : State) : (s.take).lanes = s.lanes := rfl
@[simp] theorem State.take_tiles (s : State) : (s.take).tiles = s.tiles := rfl
@[simp] theorem State.take_xover (s : State) : (s.take).xover = s.xover := rfl
@[simp] theorem State.take_lps (s : State) : (s.take).lps = s.lps := rfl
@[simp] theorem State.take_lpLoads (s : State) : (s.take).lpLoads = s.lpLoads := rfl
@[simp] theorem State.take_lpStops (s : State) : (s.take).lpStops = s.lpStops := rfl
@[simp] theorem State.take_paramHeat (s : State) : (s.take).paramHeat = s.paramHeat := rfl
@[simp] theorem State.take_paramCnt (s : State) : (s.take).paramCnt = s.paramCnt := rfl
@[simp] theorem State.take_tests (s : State) : (s.take).tests = s.tests := rfl
@[simp] theorem State.take_testSeq (s : State) : (s.take).testSeq = s.testSeq := rfl
@[simp] theorem State.take_admits (s : State) : (s.take).admits = s.admits := rfl
@[simp] theorem State.take_txl (s : State) : (s.take).txl = s.txl := rfl
@[simp] theorem State.take_pairLs (s : State) : (s.take).pairLs = s.pairLs := rfl
@[simp] theorem State.take_pbus (s : State) : (s.take).pbus = s.pbus := rfl
@[simp] theorem State.take_modes (s : State) : (s.take).modes = s.modes := rfl
@[simp] theorem State.take_firstHeat (s : State) : (s.take).firstHeat = s.firstHeat := rfl
@[simp] theorem State.take_pending (s : State) : (s.take).pending = s.pending := rfl
@[simp] theorem State.setHp_regs (s : State) (p : Nat) (h : HpH) : (s.setHp p h).regs = s.regs := rfl
@[simp] theorem State.setHp_hold (s : State) (p : Nat) (h : HpH) : (s.setHp p h).hold = s.hold := rfl
@[simp] theorem State.setHp_pins (s : State) (p : Nat) (h : HpH) : (s.setHp p h).pins = s.pins := rfl
@[simp] theorem State.setHp_pacer (s : State) (p : Nat) (h : HpH) : (s.setHp p h).pacer = s.pacer := rfl
@[simp] theorem State.setHp_fc (s : State) (p : Nat) (h : HpH) : (s.setHp p h).fc = s.fc := rfl
@[simp] theorem State.setHp_baton (s : State) (p : Nat) (h : HpH) : (s.setHp p h).baton = s.baton := rfl
@[simp] theorem State.setHp_vat (s : State) (p : Nat) (h : HpH) : (s.setHp p h).vat = s.vat := rfl
@[simp] theorem State.setHp_pending (s : State) (p : Nat) (h : HpH) : (s.setHp p h).pending = s.pending := rfl
@[simp] theorem State.setHp_freeCtr (s : State) (p : Nat) (h : HpH) : (s.setHp p h).freeCtr = s.freeCtr := rfl
@[simp] theorem State.setHp_sched (s : State) (p : Nat) (h : HpH) : (s.setHp p h).sched = s.sched := rfl
@[simp] theorem State.setHp_rings (s : State) (p : Nat) (h : HpH) : (s.setHp p h).rings = s.rings := rfl
@[simp] theorem State.setHp_groups (s : State) (p : Nat) (h : HpH) : (s.setHp p h).groups = s.groups := rfl
@[simp] theorem State.setHp_votes (s : State) (p : Nat) (h : HpH) : (s.setHp p h).votes = s.votes := rfl
@[simp] theorem State.setHp_lps (s : State) (p : Nat) (h : HpH) : (s.setHp p h).lps = s.lps := rfl
@[simp] theorem State.setHp_lanes (s : State) (p : Nat) (h : HpH) : (s.setHp p h).lanes = s.lanes := rfl
@[simp] theorem State.setHp_tiles (s : State) (p : Nat) (h : HpH) : (s.setHp p h).tiles = s.tiles := rfl
@[simp] theorem State.setRing_regs (s : State) (r : Nat) (h : RingH) : (s.setRing r h).regs = s.regs := rfl
@[simp] theorem State.setRing_hold (s : State) (r : Nat) (h : RingH) : (s.setRing r h).hold = s.hold := rfl
@[simp] theorem State.setRing_pins (s : State) (r : Nat) (h : RingH) : (s.setRing r h).pins = s.pins := rfl
@[simp] theorem State.setRing_pacer (s : State) (r : Nat) (h : RingH) : (s.setRing r h).pacer = s.pacer := rfl
@[simp] theorem State.setRing_fc (s : State) (r : Nat) (h : RingH) : (s.setRing r h).fc = s.fc := rfl
@[simp] theorem State.setRing_baton (s : State) (r : Nat) (h : RingH) : (s.setRing r h).baton = s.baton := rfl
@[simp] theorem State.setRing_vat (s : State) (r : Nat) (h : RingH) : (s.setRing r h).vat = s.vat := rfl
@[simp] theorem State.setRing_pending (s : State) (r : Nat) (h : RingH) : (s.setRing r h).pending = s.pending := rfl
@[simp] theorem State.setRing_freeCtr (s : State) (r : Nat) (h : RingH) : (s.setRing r h).freeCtr = s.freeCtr := rfl
@[simp] theorem State.setRing_sched (s : State) (r : Nat) (h : RingH) : (s.setRing r h).sched = s.sched := rfl
@[simp] theorem State.setRing_groups (s : State) (r : Nat) (h : RingH) : (s.setRing r h).groups = s.groups := rfl
@[simp] theorem State.setRing_votes (s : State) (r : Nat) (h : RingH) : (s.setRing r h).votes = s.votes := rfl
@[simp] theorem State.setRing_lps (s : State) (r : Nat) (h : RingH) : (s.setRing r h).lps = s.lps := rfl
@[simp] theorem State.setRing_lanes (s : State) (r : Nat) (h : RingH) : (s.setRing r h).lanes = s.lanes := rfl
@[simp] theorem State.setRing_tiles (s : State) (r : Nat) (h : RingH) : (s.setRing r h).tiles = s.tiles := rfl
@[simp] theorem State.setCore_regs (s : State) (c : Nat) (h : CoreH) : (s.setCore c h).regs = s.regs := rfl
@[simp] theorem State.setCore_hold (s : State) (c : Nat) (h : CoreH) : (s.setCore c h).hold = s.hold := rfl
@[simp] theorem State.setCore_pins (s : State) (c : Nat) (h : CoreH) : (s.setCore c h).pins = s.pins := rfl
@[simp] theorem State.setCore_pacer (s : State) (c : Nat) (h : CoreH) : (s.setCore c h).pacer = s.pacer := rfl
@[simp] theorem State.setCore_fc (s : State) (c : Nat) (h : CoreH) : (s.setCore c h).fc = s.fc := rfl
@[simp] theorem State.setCore_baton (s : State) (c : Nat) (h : CoreH) : (s.setCore c h).baton = s.baton := rfl
@[simp] theorem State.setCore_vat (s : State) (c : Nat) (h : CoreH) : (s.setCore c h).vat = s.vat := rfl
@[simp] theorem State.setCore_pending (s : State) (c : Nat) (h : CoreH) : (s.setCore c h).pending = s.pending := rfl
@[simp] theorem State.setCore_freeCtr (s : State) (c : Nat) (h : CoreH) : (s.setCore c h).freeCtr = s.freeCtr := rfl
@[simp] theorem State.setCore_sched (s : State) (c : Nat) (h : CoreH) : (s.setCore c h).sched = s.sched := rfl
@[simp] theorem State.setCore_rings (s : State) (c : Nat) (h : CoreH) : (s.setCore c h).rings = s.rings := rfl
@[simp] theorem State.setCore_groups (s : State) (c : Nat) (h : CoreH) : (s.setCore c h).groups = s.groups := rfl
@[simp] theorem State.setCore_votes (s : State) (c : Nat) (h : CoreH) : (s.setCore c h).votes = s.votes := rfl
@[simp] theorem State.setCore_lps (s : State) (c : Nat) (h : CoreH) : (s.setCore c h).lps = s.lps := rfl
@[simp] theorem State.setCore_lanes (s : State) (c : Nat) (h : CoreH) : (s.setCore c h).lanes = s.lanes := rfl
@[simp] theorem State.setCore_tiles (s : State) (c : Nat) (h : CoreH) : (s.setCore c h).tiles = s.tiles := rfl
@[simp] theorem State.setPair_regs (s : State) (k : Nat) (h : PairH) : (s.setPair k h).regs = s.regs := rfl
@[simp] theorem State.setPair_hold (s : State) (k : Nat) (h : PairH) : (s.setPair k h).hold = s.hold := rfl
@[simp] theorem State.setPair_pins (s : State) (k : Nat) (h : PairH) : (s.setPair k h).pins = s.pins := rfl
@[simp] theorem State.setPair_pacer (s : State) (k : Nat) (h : PairH) : (s.setPair k h).pacer = s.pacer := rfl
@[simp] theorem State.setPair_fc (s : State) (k : Nat) (h : PairH) : (s.setPair k h).fc = s.fc := rfl
@[simp] theorem State.setPair_baton (s : State) (k : Nat) (h : PairH) : (s.setPair k h).baton = s.baton := rfl
@[simp] theorem State.setPair_vat (s : State) (k : Nat) (h : PairH) : (s.setPair k h).vat = s.vat := rfl
@[simp] theorem State.setPair_pending (s : State) (k : Nat) (h : PairH) : (s.setPair k h).pending = s.pending := rfl
@[simp] theorem State.setPair_freeCtr (s : State) (k : Nat) (h : PairH) : (s.setPair k h).freeCtr = s.freeCtr := rfl
@[simp] theorem State.setPair_sched (s : State) (k : Nat) (h : PairH) : (s.setPair k h).sched = s.sched := rfl
@[simp] theorem State.setPair_rings (s : State) (k : Nat) (h : PairH) : (s.setPair k h).rings = s.rings := rfl
@[simp] theorem State.setPair_groups (s : State) (k : Nat) (h : PairH) : (s.setPair k h).groups = s.groups := rfl
@[simp] theorem State.setPair_votes (s : State) (k : Nat) (h : PairH) : (s.setPair k h).votes = s.votes := rfl
@[simp] theorem State.setPair_lps (s : State) (k : Nat) (h : PairH) : (s.setPair k h).lps = s.lps := rfl
@[simp] theorem State.setPair_lanes (s : State) (k : Nat) (h : PairH) : (s.setPair k h).lanes = s.lanes := rfl
@[simp] theorem State.setPair_tiles (s : State) (k : Nat) (h : PairH) : (s.setPair k h).tiles = s.tiles := rfl
@[simp] theorem State.setBank_regs (s : State) (b : Nat) (h : BankH) : (s.setBank b h).regs = s.regs := rfl
@[simp] theorem State.setBank_hold (s : State) (b : Nat) (h : BankH) : (s.setBank b h).hold = s.hold := rfl
@[simp] theorem State.setBank_pins (s : State) (b : Nat) (h : BankH) : (s.setBank b h).pins = s.pins := rfl
@[simp] theorem State.setBank_pacer (s : State) (b : Nat) (h : BankH) : (s.setBank b h).pacer = s.pacer := rfl
@[simp] theorem State.setBank_fc (s : State) (b : Nat) (h : BankH) : (s.setBank b h).fc = s.fc := rfl
@[simp] theorem State.setBank_baton (s : State) (b : Nat) (h : BankH) : (s.setBank b h).baton = s.baton := rfl
@[simp] theorem State.setBank_vat (s : State) (b : Nat) (h : BankH) : (s.setBank b h).vat = s.vat := rfl
@[simp] theorem State.setBank_pending (s : State) (b : Nat) (h : BankH) : (s.setBank b h).pending = s.pending := rfl
@[simp] theorem State.setBank_freeCtr (s : State) (b : Nat) (h : BankH) : (s.setBank b h).freeCtr = s.freeCtr := rfl
@[simp] theorem State.setBank_sched (s : State) (b : Nat) (h : BankH) : (s.setBank b h).sched = s.sched := rfl
@[simp] theorem State.setBank_rings (s : State) (b : Nat) (h : BankH) : (s.setBank b h).rings = s.rings := rfl
@[simp] theorem State.setBank_groups (s : State) (b : Nat) (h : BankH) : (s.setBank b h).groups = s.groups := rfl
@[simp] theorem State.setBank_votes (s : State) (b : Nat) (h : BankH) : (s.setBank b h).votes = s.votes := rfl
@[simp] theorem State.setBank_lps (s : State) (b : Nat) (h : BankH) : (s.setBank b h).lps = s.lps := rfl
@[simp] theorem State.setBank_lanes (s : State) (b : Nat) (h : BankH) : (s.setBank b h).lanes = s.lanes := rfl
@[simp] theorem State.setBank_tiles (s : State) (b : Nat) (h : BankH) : (s.setBank b h).tiles = s.tiles := rfl
@[simp] theorem State.setChan_regs (s : State) (k : Nat) (h : ChanH) : (s.setChan k h).regs = s.regs := rfl
@[simp] theorem State.setChan_hold (s : State) (k : Nat) (h : ChanH) : (s.setChan k h).hold = s.hold := rfl
@[simp] theorem State.setChan_pins (s : State) (k : Nat) (h : ChanH) : (s.setChan k h).pins = s.pins := rfl
@[simp] theorem State.setChan_pacer (s : State) (k : Nat) (h : ChanH) : (s.setChan k h).pacer = s.pacer := rfl
@[simp] theorem State.setChan_fc (s : State) (k : Nat) (h : ChanH) : (s.setChan k h).fc = s.fc := rfl
@[simp] theorem State.setChan_baton (s : State) (k : Nat) (h : ChanH) : (s.setChan k h).baton = s.baton := rfl
@[simp] theorem State.setChan_vat (s : State) (k : Nat) (h : ChanH) : (s.setChan k h).vat = s.vat := rfl
@[simp] theorem State.setChan_pending (s : State) (k : Nat) (h : ChanH) : (s.setChan k h).pending = s.pending := rfl
@[simp] theorem State.setChan_freeCtr (s : State) (k : Nat) (h : ChanH) : (s.setChan k h).freeCtr = s.freeCtr := rfl
@[simp] theorem State.setChan_sched (s : State) (k : Nat) (h : ChanH) : (s.setChan k h).sched = s.sched := rfl
@[simp] theorem State.setChan_rings (s : State) (k : Nat) (h : ChanH) : (s.setChan k h).rings = s.rings := rfl
@[simp] theorem State.setChan_groups (s : State) (k : Nat) (h : ChanH) : (s.setChan k h).groups = s.groups := rfl
@[simp] theorem State.setChan_votes (s : State) (k : Nat) (h : ChanH) : (s.setChan k h).votes = s.votes := rfl
@[simp] theorem State.setChan_lps (s : State) (k : Nat) (h : ChanH) : (s.setChan k h).lps = s.lps := rfl
@[simp] theorem State.setChan_lanes (s : State) (k : Nat) (h : ChanH) : (s.setChan k h).lanes = s.lanes := rfl
@[simp] theorem State.setChan_tiles (s : State) (k : Nat) (h : ChanH) : (s.setChan k h).tiles = s.tiles := rfl
@[simp] theorem State.setSrc_regs (s : State) (e : Nat) (h : SrcH) : (s.setSrc e h).regs = s.regs := rfl
@[simp] theorem State.setSrc_hold (s : State) (e : Nat) (h : SrcH) : (s.setSrc e h).hold = s.hold := rfl
@[simp] theorem State.setSrc_pins (s : State) (e : Nat) (h : SrcH) : (s.setSrc e h).pins = s.pins := rfl
@[simp] theorem State.setSrc_pacer (s : State) (e : Nat) (h : SrcH) : (s.setSrc e h).pacer = s.pacer := rfl
@[simp] theorem State.setSrc_fc (s : State) (e : Nat) (h : SrcH) : (s.setSrc e h).fc = s.fc := rfl
@[simp] theorem State.setSrc_baton (s : State) (e : Nat) (h : SrcH) : (s.setSrc e h).baton = s.baton := rfl
@[simp] theorem State.setSrc_vat (s : State) (e : Nat) (h : SrcH) : (s.setSrc e h).vat = s.vat := rfl
@[simp] theorem State.setSrc_pending (s : State) (e : Nat) (h : SrcH) : (s.setSrc e h).pending = s.pending := rfl
@[simp] theorem State.setSrc_freeCtr (s : State) (e : Nat) (h : SrcH) : (s.setSrc e h).freeCtr = s.freeCtr := rfl
@[simp] theorem State.setSrc_sched (s : State) (e : Nat) (h : SrcH) : (s.setSrc e h).sched = s.sched := rfl
@[simp] theorem State.setSrc_rings (s : State) (e : Nat) (h : SrcH) : (s.setSrc e h).rings = s.rings := rfl
@[simp] theorem State.setSrc_groups (s : State) (e : Nat) (h : SrcH) : (s.setSrc e h).groups = s.groups := rfl
@[simp] theorem State.setSrc_votes (s : State) (e : Nat) (h : SrcH) : (s.setSrc e h).votes = s.votes := rfl
@[simp] theorem State.setSrc_lps (s : State) (e : Nat) (h : SrcH) : (s.setSrc e h).lps = s.lps := rfl
@[simp] theorem State.setSrc_lanes (s : State) (e : Nat) (h : SrcH) : (s.setSrc e h).lanes = s.lanes := rfl
@[simp] theorem State.setSrc_tiles (s : State) (e : Nat) (h : SrcH) : (s.setSrc e h).tiles = s.tiles := rfl
@[simp] theorem State.setFlow_regs (s : State) (f : Nat) (h : FlowH) : (s.setFlow f h).regs = s.regs := rfl
@[simp] theorem State.setFlow_hold (s : State) (f : Nat) (h : FlowH) : (s.setFlow f h).hold = s.hold := rfl
@[simp] theorem State.setFlow_pins (s : State) (f : Nat) (h : FlowH) : (s.setFlow f h).pins = s.pins := rfl
@[simp] theorem State.setFlow_pacer (s : State) (f : Nat) (h : FlowH) : (s.setFlow f h).pacer = s.pacer := rfl
@[simp] theorem State.setFlow_fc (s : State) (f : Nat) (h : FlowH) : (s.setFlow f h).fc = s.fc := rfl
@[simp] theorem State.setFlow_baton (s : State) (f : Nat) (h : FlowH) : (s.setFlow f h).baton = s.baton := rfl
@[simp] theorem State.setFlow_vat (s : State) (f : Nat) (h : FlowH) : (s.setFlow f h).vat = s.vat := rfl
@[simp] theorem State.setFlow_pending (s : State) (f : Nat) (h : FlowH) : (s.setFlow f h).pending = s.pending := rfl
@[simp] theorem State.setFlow_freeCtr (s : State) (f : Nat) (h : FlowH) : (s.setFlow f h).freeCtr = s.freeCtr := rfl
@[simp] theorem State.setFlow_sched (s : State) (f : Nat) (h : FlowH) : (s.setFlow f h).sched = s.sched := rfl
@[simp] theorem State.setFlow_rings (s : State) (f : Nat) (h : FlowH) : (s.setFlow f h).rings = s.rings := rfl
@[simp] theorem State.setFlow_groups (s : State) (f : Nat) (h : FlowH) : (s.setFlow f h).groups = s.groups := rfl
@[simp] theorem State.setFlow_votes (s : State) (f : Nat) (h : FlowH) : (s.setFlow f h).votes = s.votes := rfl
@[simp] theorem State.setFlow_lps (s : State) (f : Nat) (h : FlowH) : (s.setFlow f h).lps = s.lps := rfl
@[simp] theorem State.setFlow_lanes (s : State) (f : Nat) (h : FlowH) : (s.setFlow f h).lanes = s.lanes := rfl
@[simp] theorem State.setFlow_tiles (s : State) (f : Nat) (h : FlowH) : (s.setFlow f h).tiles = s.tiles := rfl
@[simp] theorem State.setTxFlow_regs (s : State) (f : Nat) (h : TxFlowH) : (s.setTxFlow f h).regs = s.regs := rfl
@[simp] theorem State.setTxFlow_hold (s : State) (f : Nat) (h : TxFlowH) : (s.setTxFlow f h).hold = s.hold := rfl
@[simp] theorem State.setTxFlow_pins (s : State) (f : Nat) (h : TxFlowH) : (s.setTxFlow f h).pins = s.pins := rfl
@[simp] theorem State.setTxFlow_pacer (s : State) (f : Nat) (h : TxFlowH) : (s.setTxFlow f h).pacer = s.pacer := rfl
@[simp] theorem State.setTxFlow_fc (s : State) (f : Nat) (h : TxFlowH) : (s.setTxFlow f h).fc = s.fc := rfl
@[simp] theorem State.setTxFlow_baton (s : State) (f : Nat) (h : TxFlowH) : (s.setTxFlow f h).baton = s.baton := rfl
@[simp] theorem State.setTxFlow_vat (s : State) (f : Nat) (h : TxFlowH) : (s.setTxFlow f h).vat = s.vat := rfl
@[simp] theorem State.setTxFlow_pending (s : State) (f : Nat) (h : TxFlowH) : (s.setTxFlow f h).pending = s.pending := rfl
@[simp] theorem State.setTxFlow_freeCtr (s : State) (f : Nat) (h : TxFlowH) : (s.setTxFlow f h).freeCtr = s.freeCtr := rfl
@[simp] theorem State.setTxFlow_sched (s : State) (f : Nat) (h : TxFlowH) : (s.setTxFlow f h).sched = s.sched := rfl
@[simp] theorem State.setTxFlow_rings (s : State) (f : Nat) (h : TxFlowH) : (s.setTxFlow f h).rings = s.rings := rfl
@[simp] theorem State.setTxFlow_groups (s : State) (f : Nat) (h : TxFlowH) : (s.setTxFlow f h).groups = s.groups := rfl
@[simp] theorem State.setTxFlow_votes (s : State) (f : Nat) (h : TxFlowH) : (s.setTxFlow f h).votes = s.votes := rfl
@[simp] theorem State.setTxFlow_lps (s : State) (f : Nat) (h : TxFlowH) : (s.setTxFlow f h).lps = s.lps := rfl
@[simp] theorem State.setTxFlow_lanes (s : State) (f : Nat) (h : TxFlowH) : (s.setTxFlow f h).lanes = s.lanes := rfl
@[simp] theorem State.setTxFlow_tiles (s : State) (f : Nat) (h : TxFlowH) : (s.setTxFlow f h).tiles = s.tiles := rfl
@[simp] theorem State.setVsrc_regs (s : State) (v : Nat) (h : VsH) : (s.setVsrc v h).regs = s.regs := rfl
@[simp] theorem State.setVsrc_hold (s : State) (v : Nat) (h : VsH) : (s.setVsrc v h).hold = s.hold := rfl
@[simp] theorem State.setVsrc_pins (s : State) (v : Nat) (h : VsH) : (s.setVsrc v h).pins = s.pins := rfl
@[simp] theorem State.setVsrc_pacer (s : State) (v : Nat) (h : VsH) : (s.setVsrc v h).pacer = s.pacer := rfl
@[simp] theorem State.setVsrc_fc (s : State) (v : Nat) (h : VsH) : (s.setVsrc v h).fc = s.fc := rfl
@[simp] theorem State.setVsrc_baton (s : State) (v : Nat) (h : VsH) : (s.setVsrc v h).baton = s.baton := rfl
@[simp] theorem State.setVsrc_vat (s : State) (v : Nat) (h : VsH) : (s.setVsrc v h).vat = s.vat := rfl
@[simp] theorem State.setVsrc_pending (s : State) (v : Nat) (h : VsH) : (s.setVsrc v h).pending = s.pending := rfl
@[simp] theorem State.setVsrc_freeCtr (s : State) (v : Nat) (h : VsH) : (s.setVsrc v h).freeCtr = s.freeCtr := rfl
@[simp] theorem State.setVsrc_sched (s : State) (v : Nat) (h : VsH) : (s.setVsrc v h).sched = s.sched := rfl
@[simp] theorem State.setVsrc_rings (s : State) (v : Nat) (h : VsH) : (s.setVsrc v h).rings = s.rings := rfl
@[simp] theorem State.setVsrc_groups (s : State) (v : Nat) (h : VsH) : (s.setVsrc v h).groups = s.groups := rfl
@[simp] theorem State.setVsrc_votes (s : State) (v : Nat) (h : VsH) : (s.setVsrc v h).votes = s.votes := rfl
@[simp] theorem State.setVsrc_lps (s : State) (v : Nat) (h : VsH) : (s.setVsrc v h).lps = s.lps := rfl
@[simp] theorem State.setVsrc_lanes (s : State) (v : Nat) (h : VsH) : (s.setVsrc v h).lanes = s.lanes := rfl
@[simp] theorem State.setVsrc_tiles (s : State) (v : Nat) (h : VsH) : (s.setVsrc v h).tiles = s.tiles := rfl
@[simp] theorem State.setZone_regs (s : State) (z : Nat) (h : ZoneH) : (s.setZone z h).regs = s.regs := rfl
@[simp] theorem State.setZone_hold (s : State) (z : Nat) (h : ZoneH) : (s.setZone z h).hold = s.hold := rfl
@[simp] theorem State.setZone_pins (s : State) (z : Nat) (h : ZoneH) : (s.setZone z h).pins = s.pins := rfl
@[simp] theorem State.setZone_pacer (s : State) (z : Nat) (h : ZoneH) : (s.setZone z h).pacer = s.pacer := rfl
@[simp] theorem State.setZone_fc (s : State) (z : Nat) (h : ZoneH) : (s.setZone z h).fc = s.fc := rfl
@[simp] theorem State.setZone_baton (s : State) (z : Nat) (h : ZoneH) : (s.setZone z h).baton = s.baton := rfl
@[simp] theorem State.setZone_vat (s : State) (z : Nat) (h : ZoneH) : (s.setZone z h).vat = s.vat := rfl
@[simp] theorem State.setZone_pending (s : State) (z : Nat) (h : ZoneH) : (s.setZone z h).pending = s.pending := rfl
@[simp] theorem State.setZone_freeCtr (s : State) (z : Nat) (h : ZoneH) : (s.setZone z h).freeCtr = s.freeCtr := rfl
@[simp] theorem State.setZone_sched (s : State) (z : Nat) (h : ZoneH) : (s.setZone z h).sched = s.sched := rfl
@[simp] theorem State.setZone_rings (s : State) (z : Nat) (h : ZoneH) : (s.setZone z h).rings = s.rings := rfl
@[simp] theorem State.setZone_groups (s : State) (z : Nat) (h : ZoneH) : (s.setZone z h).groups = s.groups := rfl
@[simp] theorem State.setZone_votes (s : State) (z : Nat) (h : ZoneH) : (s.setZone z h).votes = s.votes := rfl
@[simp] theorem State.setZone_lps (s : State) (z : Nat) (h : ZoneH) : (s.setZone z h).lps = s.lps := rfl
@[simp] theorem State.setZone_lanes (s : State) (z : Nat) (h : ZoneH) : (s.setZone z h).lanes = s.lanes := rfl
@[simp] theorem State.setZone_tiles (s : State) (z : Nat) (h : ZoneH) : (s.setZone z h).tiles = s.tiles := rfl
@[simp] theorem State.setLayer_regs (s : State) (z l : Nat) (h : LayerH) : (s.setLayer z l h).regs = s.regs := rfl
@[simp] theorem State.setLayer_hold (s : State) (z l : Nat) (h : LayerH) : (s.setLayer z l h).hold = s.hold := rfl
@[simp] theorem State.setLayer_pins (s : State) (z l : Nat) (h : LayerH) : (s.setLayer z l h).pins = s.pins := rfl
@[simp] theorem State.setLayer_pacer (s : State) (z l : Nat) (h : LayerH) : (s.setLayer z l h).pacer = s.pacer := rfl
@[simp] theorem State.setLayer_fc (s : State) (z l : Nat) (h : LayerH) : (s.setLayer z l h).fc = s.fc := rfl
@[simp] theorem State.setLayer_baton (s : State) (z l : Nat) (h : LayerH) : (s.setLayer z l h).baton = s.baton := rfl
@[simp] theorem State.setLayer_vat (s : State) (z l : Nat) (h : LayerH) : (s.setLayer z l h).vat = s.vat := rfl
@[simp] theorem State.setLayer_pending (s : State) (z l : Nat) (h : LayerH) : (s.setLayer z l h).pending = s.pending := rfl
@[simp] theorem State.setLayer_freeCtr (s : State) (z l : Nat) (h : LayerH) : (s.setLayer z l h).freeCtr = s.freeCtr := rfl
@[simp] theorem State.setLayer_sched (s : State) (z l : Nat) (h : LayerH) : (s.setLayer z l h).sched = s.sched := rfl
@[simp] theorem State.setLayer_rings (s : State) (z l : Nat) (h : LayerH) : (s.setLayer z l h).rings = s.rings := rfl
@[simp] theorem State.setLayer_groups (s : State) (z l : Nat) (h : LayerH) : (s.setLayer z l h).groups = s.groups := rfl
@[simp] theorem State.setLayer_votes (s : State) (z l : Nat) (h : LayerH) : (s.setLayer z l h).votes = s.votes := rfl
@[simp] theorem State.setLayer_lps (s : State) (z l : Nat) (h : LayerH) : (s.setLayer z l h).lps = s.lps := rfl
@[simp] theorem State.setLayer_lanes (s : State) (z l : Nat) (h : LayerH) : (s.setLayer z l h).lanes = s.lanes := rfl
@[simp] theorem State.setLayer_tiles (s : State) (z l : Nat) (h : LayerH) : (s.setLayer z l h).tiles = s.tiles := rfl
@[simp] theorem State.setRoute_regs (s : State) (n : Nat) (h : RouteH) : (s.setRoute n h).regs = s.regs := rfl
@[simp] theorem State.setRoute_hold (s : State) (n : Nat) (h : RouteH) : (s.setRoute n h).hold = s.hold := rfl
@[simp] theorem State.setRoute_pins (s : State) (n : Nat) (h : RouteH) : (s.setRoute n h).pins = s.pins := rfl
@[simp] theorem State.setRoute_pacer (s : State) (n : Nat) (h : RouteH) : (s.setRoute n h).pacer = s.pacer := rfl
@[simp] theorem State.setRoute_fc (s : State) (n : Nat) (h : RouteH) : (s.setRoute n h).fc = s.fc := rfl
@[simp] theorem State.setRoute_baton (s : State) (n : Nat) (h : RouteH) : (s.setRoute n h).baton = s.baton := rfl
@[simp] theorem State.setRoute_vat (s : State) (n : Nat) (h : RouteH) : (s.setRoute n h).vat = s.vat := rfl
@[simp] theorem State.setRoute_pending (s : State) (n : Nat) (h : RouteH) : (s.setRoute n h).pending = s.pending := rfl
@[simp] theorem State.setRoute_freeCtr (s : State) (n : Nat) (h : RouteH) : (s.setRoute n h).freeCtr = s.freeCtr := rfl
@[simp] theorem State.setRoute_sched (s : State) (n : Nat) (h : RouteH) : (s.setRoute n h).sched = s.sched := rfl
@[simp] theorem State.setRoute_rings (s : State) (n : Nat) (h : RouteH) : (s.setRoute n h).rings = s.rings := rfl
@[simp] theorem State.setRoute_groups (s : State) (n : Nat) (h : RouteH) : (s.setRoute n h).groups = s.groups := rfl
@[simp] theorem State.setRoute_votes (s : State) (n : Nat) (h : RouteH) : (s.setRoute n h).votes = s.votes := rfl
@[simp] theorem State.setRoute_lps (s : State) (n : Nat) (h : RouteH) : (s.setRoute n h).lps = s.lps := rfl
@[simp] theorem State.setRoute_lanes (s : State) (n : Nat) (h : RouteH) : (s.setRoute n h).lanes = s.lanes := rfl
@[simp] theorem State.setRoute_tiles (s : State) (n : Nat) (h : RouteH) : (s.setRoute n h).tiles = s.tiles := rfl
@[simp] theorem State.setPlayer_regs (s : State) (p : Nat) (h : PlayerH) : (s.setPlayer p h).regs = s.regs := rfl
@[simp] theorem State.setPlayer_hold (s : State) (p : Nat) (h : PlayerH) : (s.setPlayer p h).hold = s.hold := rfl
@[simp] theorem State.setPlayer_pins (s : State) (p : Nat) (h : PlayerH) : (s.setPlayer p h).pins = s.pins := rfl
@[simp] theorem State.setPlayer_pacer (s : State) (p : Nat) (h : PlayerH) : (s.setPlayer p h).pacer = s.pacer := rfl
@[simp] theorem State.setPlayer_fc (s : State) (p : Nat) (h : PlayerH) : (s.setPlayer p h).fc = s.fc := rfl
@[simp] theorem State.setPlayer_baton (s : State) (p : Nat) (h : PlayerH) : (s.setPlayer p h).baton = s.baton := rfl
@[simp] theorem State.setPlayer_vat (s : State) (p : Nat) (h : PlayerH) : (s.setPlayer p h).vat = s.vat := rfl
@[simp] theorem State.setPlayer_pending (s : State) (p : Nat) (h : PlayerH) : (s.setPlayer p h).pending = s.pending := rfl
@[simp] theorem State.setPlayer_freeCtr (s : State) (p : Nat) (h : PlayerH) : (s.setPlayer p h).freeCtr = s.freeCtr := rfl
@[simp] theorem State.setPlayer_sched (s : State) (p : Nat) (h : PlayerH) : (s.setPlayer p h).sched = s.sched := rfl
@[simp] theorem State.setPlayer_rings (s : State) (p : Nat) (h : PlayerH) : (s.setPlayer p h).rings = s.rings := rfl
@[simp] theorem State.setPlayer_groups (s : State) (p : Nat) (h : PlayerH) : (s.setPlayer p h).groups = s.groups := rfl
@[simp] theorem State.setPlayer_votes (s : State) (p : Nat) (h : PlayerH) : (s.setPlayer p h).votes = s.votes := rfl
@[simp] theorem State.setPlayer_lps (s : State) (p : Nat) (h : PlayerH) : (s.setPlayer p h).lps = s.lps := rfl
@[simp] theorem State.setPlayer_lanes (s : State) (p : Nat) (h : PlayerH) : (s.setPlayer p h).lanes = s.lanes := rfl
@[simp] theorem State.setPlayer_tiles (s : State) (p : Nat) (h : PlayerH) : (s.setPlayer p h).tiles = s.tiles := rfl
@[simp] theorem State.setClip_regs (s : State) (c : Nat) (h : ClipH) : (s.setClip c h).regs = s.regs := rfl
@[simp] theorem State.setClip_hold (s : State) (c : Nat) (h : ClipH) : (s.setClip c h).hold = s.hold := rfl
@[simp] theorem State.setClip_pins (s : State) (c : Nat) (h : ClipH) : (s.setClip c h).pins = s.pins := rfl
@[simp] theorem State.setClip_pacer (s : State) (c : Nat) (h : ClipH) : (s.setClip c h).pacer = s.pacer := rfl
@[simp] theorem State.setClip_fc (s : State) (c : Nat) (h : ClipH) : (s.setClip c h).fc = s.fc := rfl
@[simp] theorem State.setClip_baton (s : State) (c : Nat) (h : ClipH) : (s.setClip c h).baton = s.baton := rfl
@[simp] theorem State.setClip_vat (s : State) (c : Nat) (h : ClipH) : (s.setClip c h).vat = s.vat := rfl
@[simp] theorem State.setClip_pending (s : State) (c : Nat) (h : ClipH) : (s.setClip c h).pending = s.pending := rfl
@[simp] theorem State.setClip_freeCtr (s : State) (c : Nat) (h : ClipH) : (s.setClip c h).freeCtr = s.freeCtr := rfl
@[simp] theorem State.setClip_sched (s : State) (c : Nat) (h : ClipH) : (s.setClip c h).sched = s.sched := rfl
@[simp] theorem State.setClip_rings (s : State) (c : Nat) (h : ClipH) : (s.setClip c h).rings = s.rings := rfl
@[simp] theorem State.setClip_groups (s : State) (c : Nat) (h : ClipH) : (s.setClip c h).groups = s.groups := rfl
@[simp] theorem State.setClip_votes (s : State) (c : Nat) (h : ClipH) : (s.setClip c h).votes = s.votes := rfl
@[simp] theorem State.setClip_lps (s : State) (c : Nat) (h : ClipH) : (s.setClip c h).lps = s.lps := rfl
@[simp] theorem State.setClip_lanes (s : State) (c : Nat) (h : ClipH) : (s.setClip c h).lanes = s.lanes := rfl
@[simp] theorem State.setClip_tiles (s : State) (c : Nat) (h : ClipH) : (s.setClip c h).tiles = s.tiles := rfl
@[simp] theorem State.setLane_regs (s : State) (n : Nat) (h : LaneH) : (s.setLane n h).regs = s.regs := rfl
@[simp] theorem State.setLane_hold (s : State) (n : Nat) (h : LaneH) : (s.setLane n h).hold = s.hold := rfl
@[simp] theorem State.setLane_pins (s : State) (n : Nat) (h : LaneH) : (s.setLane n h).pins = s.pins := rfl
@[simp] theorem State.setLane_pacer (s : State) (n : Nat) (h : LaneH) : (s.setLane n h).pacer = s.pacer := rfl
@[simp] theorem State.setLane_fc (s : State) (n : Nat) (h : LaneH) : (s.setLane n h).fc = s.fc := rfl
@[simp] theorem State.setLane_baton (s : State) (n : Nat) (h : LaneH) : (s.setLane n h).baton = s.baton := rfl
@[simp] theorem State.setLane_vat (s : State) (n : Nat) (h : LaneH) : (s.setLane n h).vat = s.vat := rfl
@[simp] theorem State.setLane_pending (s : State) (n : Nat) (h : LaneH) : (s.setLane n h).pending = s.pending := rfl
@[simp] theorem State.setLane_freeCtr (s : State) (n : Nat) (h : LaneH) : (s.setLane n h).freeCtr = s.freeCtr := rfl
@[simp] theorem State.setLane_sched (s : State) (n : Nat) (h : LaneH) : (s.setLane n h).sched = s.sched := rfl
@[simp] theorem State.setLane_rings (s : State) (n : Nat) (h : LaneH) : (s.setLane n h).rings = s.rings := rfl
@[simp] theorem State.setLane_groups (s : State) (n : Nat) (h : LaneH) : (s.setLane n h).groups = s.groups := rfl
@[simp] theorem State.setLane_votes (s : State) (n : Nat) (h : LaneH) : (s.setLane n h).votes = s.votes := rfl
@[simp] theorem State.setLane_lps (s : State) (n : Nat) (h : LaneH) : (s.setLane n h).lps = s.lps := rfl
@[simp] theorem State.setLane_tiles (s : State) (n : Nat) (h : LaneH) : (s.setLane n h).tiles = s.tiles := rfl
@[simp] theorem State.setTile_regs (s : State) (t : Nat) (h : TileH) : (s.setTile t h).regs = s.regs := rfl
@[simp] theorem State.setTile_hold (s : State) (t : Nat) (h : TileH) : (s.setTile t h).hold = s.hold := rfl
@[simp] theorem State.setTile_pins (s : State) (t : Nat) (h : TileH) : (s.setTile t h).pins = s.pins := rfl
@[simp] theorem State.setTile_pacer (s : State) (t : Nat) (h : TileH) : (s.setTile t h).pacer = s.pacer := rfl
@[simp] theorem State.setTile_fc (s : State) (t : Nat) (h : TileH) : (s.setTile t h).fc = s.fc := rfl
@[simp] theorem State.setTile_baton (s : State) (t : Nat) (h : TileH) : (s.setTile t h).baton = s.baton := rfl
@[simp] theorem State.setTile_vat (s : State) (t : Nat) (h : TileH) : (s.setTile t h).vat = s.vat := rfl
@[simp] theorem State.setTile_pending (s : State) (t : Nat) (h : TileH) : (s.setTile t h).pending = s.pending := rfl
@[simp] theorem State.setTile_freeCtr (s : State) (t : Nat) (h : TileH) : (s.setTile t h).freeCtr = s.freeCtr := rfl
@[simp] theorem State.setTile_sched (s : State) (t : Nat) (h : TileH) : (s.setTile t h).sched = s.sched := rfl
@[simp] theorem State.setTile_rings (s : State) (t : Nat) (h : TileH) : (s.setTile t h).rings = s.rings := rfl
@[simp] theorem State.setTile_groups (s : State) (t : Nat) (h : TileH) : (s.setTile t h).groups = s.groups := rfl
@[simp] theorem State.setTile_votes (s : State) (t : Nat) (h : TileH) : (s.setTile t h).votes = s.votes := rfl
@[simp] theorem State.setTile_lps (s : State) (t : Nat) (h : TileH) : (s.setTile t h).lps = s.lps := rfl
@[simp] theorem State.setTile_lanes (s : State) (t : Nat) (h : TileH) : (s.setTile t h).lanes = s.lanes := rfl
@[simp] theorem State.setLp_regs (s : State) (n : Nat) (h : LpH) : (s.setLp n h).regs = s.regs := rfl
@[simp] theorem State.setLp_hold (s : State) (n : Nat) (h : LpH) : (s.setLp n h).hold = s.hold := rfl
@[simp] theorem State.setLp_pins (s : State) (n : Nat) (h : LpH) : (s.setLp n h).pins = s.pins := rfl
@[simp] theorem State.setLp_pacer (s : State) (n : Nat) (h : LpH) : (s.setLp n h).pacer = s.pacer := rfl
@[simp] theorem State.setLp_fc (s : State) (n : Nat) (h : LpH) : (s.setLp n h).fc = s.fc := rfl
@[simp] theorem State.setLp_baton (s : State) (n : Nat) (h : LpH) : (s.setLp n h).baton = s.baton := rfl
@[simp] theorem State.setLp_vat (s : State) (n : Nat) (h : LpH) : (s.setLp n h).vat = s.vat := rfl
@[simp] theorem State.setLp_pending (s : State) (n : Nat) (h : LpH) : (s.setLp n h).pending = s.pending := rfl
@[simp] theorem State.setLp_freeCtr (s : State) (n : Nat) (h : LpH) : (s.setLp n h).freeCtr = s.freeCtr := rfl
@[simp] theorem State.setLp_sched (s : State) (n : Nat) (h : LpH) : (s.setLp n h).sched = s.sched := rfl
@[simp] theorem State.setLp_rings (s : State) (n : Nat) (h : LpH) : (s.setLp n h).rings = s.rings := rfl
@[simp] theorem State.setLp_groups (s : State) (n : Nat) (h : LpH) : (s.setLp n h).groups = s.groups := rfl
@[simp] theorem State.setLp_votes (s : State) (n : Nat) (h : LpH) : (s.setLp n h).votes = s.votes := rfl
@[simp] theorem State.setLp_lanes (s : State) (n : Nat) (h : LpH) : (s.setLp n h).lanes = s.lanes := rfl
@[simp] theorem State.setLp_tiles (s : State) (n : Nat) (h : LpH) : (s.setLp n h).tiles = s.tiles := rfl
@[simp] theorem State.setTdmRx_regs (s : State) (n : Nat) (h : RxH) : (s.setTdmRx n h).regs = s.regs := rfl
@[simp] theorem State.setTdmRx_hold (s : State) (n : Nat) (h : RxH) : (s.setTdmRx n h).hold = s.hold := rfl
@[simp] theorem State.setTdmRx_pins (s : State) (n : Nat) (h : RxH) : (s.setTdmRx n h).pins = s.pins := rfl
@[simp] theorem State.setTdmRx_pacer (s : State) (n : Nat) (h : RxH) : (s.setTdmRx n h).pacer = s.pacer := rfl
@[simp] theorem State.setTdmRx_fc (s : State) (n : Nat) (h : RxH) : (s.setTdmRx n h).fc = s.fc := rfl
@[simp] theorem State.setTdmRx_baton (s : State) (n : Nat) (h : RxH) : (s.setTdmRx n h).baton = s.baton := rfl
@[simp] theorem State.setTdmRx_vat (s : State) (n : Nat) (h : RxH) : (s.setTdmRx n h).vat = s.vat := rfl
@[simp] theorem State.setTdmRx_pending (s : State) (n : Nat) (h : RxH) : (s.setTdmRx n h).pending = s.pending := rfl
@[simp] theorem State.setTdmRx_freeCtr (s : State) (n : Nat) (h : RxH) : (s.setTdmRx n h).freeCtr = s.freeCtr := rfl
@[simp] theorem State.setTdmRx_sched (s : State) (n : Nat) (h : RxH) : (s.setTdmRx n h).sched = s.sched := rfl
@[simp] theorem State.setTdmRx_rings (s : State) (n : Nat) (h : RxH) : (s.setTdmRx n h).rings = s.rings := rfl
@[simp] theorem State.setTdmRx_groups (s : State) (n : Nat) (h : RxH) : (s.setTdmRx n h).groups = s.groups := rfl
@[simp] theorem State.setTdmRx_votes (s : State) (n : Nat) (h : RxH) : (s.setTdmRx n h).votes = s.votes := rfl
@[simp] theorem State.setTdmRx_lps (s : State) (n : Nat) (h : RxH) : (s.setTdmRx n h).lps = s.lps := rfl
@[simp] theorem State.setTdmRx_lanes (s : State) (n : Nat) (h : RxH) : (s.setTdmRx n h).lanes = s.lanes := rfl
@[simp] theorem State.setTdmRx_tiles (s : State) (n : Nat) (h : RxH) : (s.setTdmRx n h).tiles = s.tiles := rfl
@[simp] theorem State.setAesRx_regs (s : State) (n : Nat) (h : RxH) : (s.setAesRx n h).regs = s.regs := rfl
@[simp] theorem State.setAesRx_hold (s : State) (n : Nat) (h : RxH) : (s.setAesRx n h).hold = s.hold := rfl
@[simp] theorem State.setAesRx_pins (s : State) (n : Nat) (h : RxH) : (s.setAesRx n h).pins = s.pins := rfl
@[simp] theorem State.setAesRx_pacer (s : State) (n : Nat) (h : RxH) : (s.setAesRx n h).pacer = s.pacer := rfl
@[simp] theorem State.setAesRx_fc (s : State) (n : Nat) (h : RxH) : (s.setAesRx n h).fc = s.fc := rfl
@[simp] theorem State.setAesRx_baton (s : State) (n : Nat) (h : RxH) : (s.setAesRx n h).baton = s.baton := rfl
@[simp] theorem State.setAesRx_vat (s : State) (n : Nat) (h : RxH) : (s.setAesRx n h).vat = s.vat := rfl
@[simp] theorem State.setAesRx_pending (s : State) (n : Nat) (h : RxH) : (s.setAesRx n h).pending = s.pending := rfl
@[simp] theorem State.setAesRx_freeCtr (s : State) (n : Nat) (h : RxH) : (s.setAesRx n h).freeCtr = s.freeCtr := rfl
@[simp] theorem State.setAesRx_sched (s : State) (n : Nat) (h : RxH) : (s.setAesRx n h).sched = s.sched := rfl
@[simp] theorem State.setAesRx_rings (s : State) (n : Nat) (h : RxH) : (s.setAesRx n h).rings = s.rings := rfl
@[simp] theorem State.setAesRx_groups (s : State) (n : Nat) (h : RxH) : (s.setAesRx n h).groups = s.groups := rfl
@[simp] theorem State.setAesRx_votes (s : State) (n : Nat) (h : RxH) : (s.setAesRx n h).votes = s.votes := rfl
@[simp] theorem State.setAesRx_lps (s : State) (n : Nat) (h : RxH) : (s.setAesRx n h).lps = s.lps := rfl
@[simp] theorem State.setAesRx_lanes (s : State) (n : Nat) (h : RxH) : (s.setAesRx n h).lanes = s.lanes := rfl
@[simp] theorem State.setAesRx_tiles (s : State) (n : Nat) (h : RxH) : (s.setAesRx n h).tiles = s.tiles := rfl
@[simp] theorem State.setPdm_regs (s : State) (n : Nat) (h : RxH) : (s.setPdm n h).regs = s.regs := rfl
@[simp] theorem State.setPdm_hold (s : State) (n : Nat) (h : RxH) : (s.setPdm n h).hold = s.hold := rfl
@[simp] theorem State.setPdm_pins (s : State) (n : Nat) (h : RxH) : (s.setPdm n h).pins = s.pins := rfl
@[simp] theorem State.setPdm_pacer (s : State) (n : Nat) (h : RxH) : (s.setPdm n h).pacer = s.pacer := rfl
@[simp] theorem State.setPdm_fc (s : State) (n : Nat) (h : RxH) : (s.setPdm n h).fc = s.fc := rfl
@[simp] theorem State.setPdm_baton (s : State) (n : Nat) (h : RxH) : (s.setPdm n h).baton = s.baton := rfl
@[simp] theorem State.setPdm_vat (s : State) (n : Nat) (h : RxH) : (s.setPdm n h).vat = s.vat := rfl
@[simp] theorem State.setPdm_pending (s : State) (n : Nat) (h : RxH) : (s.setPdm n h).pending = s.pending := rfl
@[simp] theorem State.setPdm_freeCtr (s : State) (n : Nat) (h : RxH) : (s.setPdm n h).freeCtr = s.freeCtr := rfl
@[simp] theorem State.setPdm_sched (s : State) (n : Nat) (h : RxH) : (s.setPdm n h).sched = s.sched := rfl
@[simp] theorem State.setPdm_rings (s : State) (n : Nat) (h : RxH) : (s.setPdm n h).rings = s.rings := rfl
@[simp] theorem State.setPdm_groups (s : State) (n : Nat) (h : RxH) : (s.setPdm n h).groups = s.groups := rfl
@[simp] theorem State.setPdm_votes (s : State) (n : Nat) (h : RxH) : (s.setPdm n h).votes = s.votes := rfl
@[simp] theorem State.setPdm_lps (s : State) (n : Nat) (h : RxH) : (s.setPdm n h).lps = s.lps := rfl
@[simp] theorem State.setPdm_lanes (s : State) (n : Nat) (h : RxH) : (s.setPdm n h).lanes = s.lanes := rfl
@[simp] theorem State.setPdm_tiles (s : State) (n : Nat) (h : RxH) : (s.setPdm n h).tiles = s.tiles := rfl
@[simp] theorem State.setTdmTx_regs (s : State) (n : Nat) (h : TxH) : (s.setTdmTx n h).regs = s.regs := rfl
@[simp] theorem State.setTdmTx_hold (s : State) (n : Nat) (h : TxH) : (s.setTdmTx n h).hold = s.hold := rfl
@[simp] theorem State.setTdmTx_pins (s : State) (n : Nat) (h : TxH) : (s.setTdmTx n h).pins = s.pins := rfl
@[simp] theorem State.setTdmTx_pacer (s : State) (n : Nat) (h : TxH) : (s.setTdmTx n h).pacer = s.pacer := rfl
@[simp] theorem State.setTdmTx_fc (s : State) (n : Nat) (h : TxH) : (s.setTdmTx n h).fc = s.fc := rfl
@[simp] theorem State.setTdmTx_baton (s : State) (n : Nat) (h : TxH) : (s.setTdmTx n h).baton = s.baton := rfl
@[simp] theorem State.setTdmTx_vat (s : State) (n : Nat) (h : TxH) : (s.setTdmTx n h).vat = s.vat := rfl
@[simp] theorem State.setTdmTx_pending (s : State) (n : Nat) (h : TxH) : (s.setTdmTx n h).pending = s.pending := rfl
@[simp] theorem State.setTdmTx_freeCtr (s : State) (n : Nat) (h : TxH) : (s.setTdmTx n h).freeCtr = s.freeCtr := rfl
@[simp] theorem State.setTdmTx_sched (s : State) (n : Nat) (h : TxH) : (s.setTdmTx n h).sched = s.sched := rfl
@[simp] theorem State.setTdmTx_rings (s : State) (n : Nat) (h : TxH) : (s.setTdmTx n h).rings = s.rings := rfl
@[simp] theorem State.setTdmTx_groups (s : State) (n : Nat) (h : TxH) : (s.setTdmTx n h).groups = s.groups := rfl
@[simp] theorem State.setTdmTx_votes (s : State) (n : Nat) (h : TxH) : (s.setTdmTx n h).votes = s.votes := rfl
@[simp] theorem State.setTdmTx_lps (s : State) (n : Nat) (h : TxH) : (s.setTdmTx n h).lps = s.lps := rfl
@[simp] theorem State.setTdmTx_lanes (s : State) (n : Nat) (h : TxH) : (s.setTdmTx n h).lanes = s.lanes := rfl
@[simp] theorem State.setTdmTx_tiles (s : State) (n : Nat) (h : TxH) : (s.setTdmTx n h).tiles = s.tiles := rfl
@[simp] theorem State.setAesTx_regs (s : State) (n : Nat) (h : TxH) : (s.setAesTx n h).regs = s.regs := rfl
@[simp] theorem State.setAesTx_hold (s : State) (n : Nat) (h : TxH) : (s.setAesTx n h).hold = s.hold := rfl
@[simp] theorem State.setAesTx_pins (s : State) (n : Nat) (h : TxH) : (s.setAesTx n h).pins = s.pins := rfl
@[simp] theorem State.setAesTx_pacer (s : State) (n : Nat) (h : TxH) : (s.setAesTx n h).pacer = s.pacer := rfl
@[simp] theorem State.setAesTx_fc (s : State) (n : Nat) (h : TxH) : (s.setAesTx n h).fc = s.fc := rfl
@[simp] theorem State.setAesTx_baton (s : State) (n : Nat) (h : TxH) : (s.setAesTx n h).baton = s.baton := rfl
@[simp] theorem State.setAesTx_vat (s : State) (n : Nat) (h : TxH) : (s.setAesTx n h).vat = s.vat := rfl
@[simp] theorem State.setAesTx_pending (s : State) (n : Nat) (h : TxH) : (s.setAesTx n h).pending = s.pending := rfl
@[simp] theorem State.setAesTx_freeCtr (s : State) (n : Nat) (h : TxH) : (s.setAesTx n h).freeCtr = s.freeCtr := rfl
@[simp] theorem State.setAesTx_sched (s : State) (n : Nat) (h : TxH) : (s.setAesTx n h).sched = s.sched := rfl
@[simp] theorem State.setAesTx_rings (s : State) (n : Nat) (h : TxH) : (s.setAesTx n h).rings = s.rings := rfl
@[simp] theorem State.setAesTx_groups (s : State) (n : Nat) (h : TxH) : (s.setAesTx n h).groups = s.groups := rfl
@[simp] theorem State.setAesTx_votes (s : State) (n : Nat) (h : TxH) : (s.setAesTx n h).votes = s.votes := rfl
@[simp] theorem State.setAesTx_lps (s : State) (n : Nat) (h : TxH) : (s.setAesTx n h).lps = s.lps := rfl
@[simp] theorem State.setAesTx_lanes (s : State) (n : Nat) (h : TxH) : (s.setAesTx n h).lanes = s.lanes := rfl
@[simp] theorem State.setAesTx_tiles (s : State) (n : Nat) (h : TxH) : (s.setAesTx n h).tiles = s.tiles := rfl
@[simp] theorem State.setMic_regs (s : State) (n : Nat) (h : MicH) : (s.setMic n h).regs = s.regs := rfl
@[simp] theorem State.setMic_hold (s : State) (n : Nat) (h : MicH) : (s.setMic n h).hold = s.hold := rfl
@[simp] theorem State.setMic_pins (s : State) (n : Nat) (h : MicH) : (s.setMic n h).pins = s.pins := rfl
@[simp] theorem State.setMic_pacer (s : State) (n : Nat) (h : MicH) : (s.setMic n h).pacer = s.pacer := rfl
@[simp] theorem State.setMic_fc (s : State) (n : Nat) (h : MicH) : (s.setMic n h).fc = s.fc := rfl
@[simp] theorem State.setMic_baton (s : State) (n : Nat) (h : MicH) : (s.setMic n h).baton = s.baton := rfl
@[simp] theorem State.setMic_vat (s : State) (n : Nat) (h : MicH) : (s.setMic n h).vat = s.vat := rfl
@[simp] theorem State.setMic_pending (s : State) (n : Nat) (h : MicH) : (s.setMic n h).pending = s.pending := rfl
@[simp] theorem State.setMic_freeCtr (s : State) (n : Nat) (h : MicH) : (s.setMic n h).freeCtr = s.freeCtr := rfl
@[simp] theorem State.setMic_sched (s : State) (n : Nat) (h : MicH) : (s.setMic n h).sched = s.sched := rfl
@[simp] theorem State.setMic_rings (s : State) (n : Nat) (h : MicH) : (s.setMic n h).rings = s.rings := rfl
@[simp] theorem State.setMic_groups (s : State) (n : Nat) (h : MicH) : (s.setMic n h).groups = s.groups := rfl
@[simp] theorem State.setMic_votes (s : State) (n : Nat) (h : MicH) : (s.setMic n h).votes = s.votes := rfl
@[simp] theorem State.setMic_lps (s : State) (n : Nat) (h : MicH) : (s.setMic n h).lps = s.lps := rfl
@[simp] theorem State.setMic_lanes (s : State) (n : Nat) (h : MicH) : (s.setMic n h).lanes = s.lanes := rfl
@[simp] theorem State.setMic_tiles (s : State) (n : Nat) (h : MicH) : (s.setMic n h).tiles = s.tiles := rfl
@[simp] theorem State.setCs_regs (s : State) (n : Nat) (h : CsH) : (s.setCs n h).regs = s.regs := rfl
@[simp] theorem State.setCs_hold (s : State) (n : Nat) (h : CsH) : (s.setCs n h).hold = s.hold := rfl
@[simp] theorem State.setCs_pins (s : State) (n : Nat) (h : CsH) : (s.setCs n h).pins = s.pins := rfl
@[simp] theorem State.setCs_pacer (s : State) (n : Nat) (h : CsH) : (s.setCs n h).pacer = s.pacer := rfl
@[simp] theorem State.setCs_fc (s : State) (n : Nat) (h : CsH) : (s.setCs n h).fc = s.fc := rfl
@[simp] theorem State.setCs_baton (s : State) (n : Nat) (h : CsH) : (s.setCs n h).baton = s.baton := rfl
@[simp] theorem State.setCs_vat (s : State) (n : Nat) (h : CsH) : (s.setCs n h).vat = s.vat := rfl
@[simp] theorem State.setCs_pending (s : State) (n : Nat) (h : CsH) : (s.setCs n h).pending = s.pending := rfl
@[simp] theorem State.setCs_freeCtr (s : State) (n : Nat) (h : CsH) : (s.setCs n h).freeCtr = s.freeCtr := rfl
@[simp] theorem State.setCs_sched (s : State) (n : Nat) (h : CsH) : (s.setCs n h).sched = s.sched := rfl
@[simp] theorem State.setCs_rings (s : State) (n : Nat) (h : CsH) : (s.setCs n h).rings = s.rings := rfl
@[simp] theorem State.setCs_groups (s : State) (n : Nat) (h : CsH) : (s.setCs n h).groups = s.groups := rfl
@[simp] theorem State.setCs_votes (s : State) (n : Nat) (h : CsH) : (s.setCs n h).votes = s.votes := rfl
@[simp] theorem State.setCs_lps (s : State) (n : Nat) (h : CsH) : (s.setCs n h).lps = s.lps := rfl
@[simp] theorem State.setCs_lanes (s : State) (n : Nat) (h : CsH) : (s.setCs n h).lanes = s.lanes := rfl
@[simp] theorem State.setCs_tiles (s : State) (n : Nat) (h : CsH) : (s.setCs n h).tiles = s.tiles := rfl

end Sys2Proof.Machine
end

