-- ==== Sys2Proof/Laws/Regs.lean ====
section
/-! SUPPORT. Reading a register, a field or a bit after a write of one; reading a table after a write of it. -/

namespace Sys2Proof.Machine

/-! ### Registers -/

/-- A register reads as written, every other as before. -/
theorem State.reg_setReg (s : State) (o : Nat) (v : Word) (r : Nat) :
    (s.setReg o v).reg r = if r = o then v else s.reg r := by
  unfold State.setReg State.reg
  by_cases h : r = o
  · subst h; simp
  · simp [h, Sparse.get_set_of_ne _ _ _ _ _ _ h]

@[simp] theorem State.reg_setReg_same (s : State) (o : Nat) (v : Word) : (s.setReg o v).reg o = v := by
  simp [State.reg_setReg]

theorem State.reg_setReg_ne (s : State) (o : Nat) (v : Word) (r : Nat) (h : r ≠ o) : (s.setReg o v).reg r = s.reg r := by
  simp [State.reg_setReg, h]

theorem State.reg_putF (s : State) (o hi lo v r : Nat) :
    (s.putF o hi lo v).reg r = if r = o then setFld (s.reg o) hi lo v else s.reg r := by
  simp [State.putF, State.reg_setReg]

theorem State.reg_setBit (s : State) (o i : Nat) (b : Bool) (r : Nat) :
    (s.setBit o i b).reg r = if r = o then setBitAt (s.reg o) i b else s.reg r := by
  simp [State.setBit, State.reg_setReg]

theorem State.getF_putF_same (s : State) (o hi lo v : Nat) (h : lo ≤ hi) (h32 : hi < 32) :
    (s.putF o hi lo v).getF o hi lo = v % 2 ^ (hi - lo + 1) := by
  simp [State.getF, State.putF, fld_setFld, h, h32]

theorem State.getF_putF_ne (s : State) (o hi lo v r a b : Nat) (h : r ≠ o) : (s.putF o hi lo v).getF r a b = s.getF r a b := by
  simp [State.getF, State.reg_putF, h]

theorem State.bit_setBit_same (s : State) (o i : Nat) (b : Bool) (h : i < 32) : (s.setBit o i b).bit o i = b := by
  simp [State.bit, State.setBit, h]

/-- A counter below its largest value goes up by one. -/
theorem State.getF_bump (s : State) (o n : Nat) (hn : 0 < n) (h32 : n ≤ 32) (h : s.getF o (n - 1) 0 + 1 < 2 ^ n) :
    (s.bump o n).getF o (n - 1) 0 = s.getF o (n - 1) 0 + 1 := by
  unfold State.bump State.bumpBy
  rw [State.getF_putF_same _ _ _ _ _ (by omega) (by omega)]
  simp only [h, if_true, Nat.sub_zero]
  rw [show n - 1 + 1 = n by omega]
  exact Nat.mod_eq_of_lt h

theorem State.reg_bump_ne (s : State) (o n r : Nat) (h : r ≠ o) : (s.bump o n).reg r = s.reg r := by
  simp [State.bump, State.bumpBy, State.reg_putF, h]

/-- A read looks at the registers alone. -/
theorem State.reg_congr {s t : State} (h : t.regs = s.regs) (o : Nat) : t.reg o = s.reg o := by simp [State.reg, h]

theorem State.getF_congr {s t : State} (h : t.regs = s.regs) (o hi lo : Nat) : t.getF o hi lo = s.getF o hi lo := by
  simp [State.getF, State.reg, h]

theorem State.bit_congr {s t : State} (h : t.regs = s.regs) (o i : Nat) : t.bit o i = s.bit o i := by
  simp [State.bit, State.reg, h]

end Sys2Proof.Machine
end

