-- ==== Sys2Proof/Laws/Events.lean ====
section
/-! SUPPORT. What presenting an event does (R472): it changes the collector's queue of waiting events and its record of discarded ones,
nothing else. -/

namespace Sys2Proof.Machine

/-- Everything presenting an event can do. -/
theorem State.emitEv_eq (s : State) (e : Ev) :
    ∃ q l, s.emitEv e = { s with fc := { s.fc with queue := q, lostSrc := l } } := by
  unfold State.emitEv
  by_cases h1 : srcReserved e.src.val = true
  · rw [if_pos h1]; exact ⟨s.fc.queue, s.fc.lostSrc, rfl⟩
  rw [if_neg h1]
  split
  · exact ⟨s.fc.queue, s.fc.lostSrc, rfl⟩
  split
  · exact ⟨s.fc.queue, s.fc.lostSrc, rfl⟩
  split
  · exact ⟨_, _, rfl⟩
  · exact ⟨_, _, rfl⟩

theorem State.emit_eq (s : State) (src code : Nat) (syn : Word) :
    ∃ q l, s.emit src code syn = { s with fc := { s.fc with queue := q, lostSrc := l } } := s.emitEv_eq _

@[simp] theorem State.emit_regs (s : State) (src code : Nat) (syn : Word) : (s.emit src code syn).regs = s.regs := by
  obtain ⟨q, l, h⟩ := s.emit_eq src code syn; rw [h]
@[simp] theorem State.emit_latch (s : State) (src code : Nat) (syn : Word) : (s.emit src code syn).latch = s.latch := by
  obtain ⟨q, l, h⟩ := s.emit_eq src code syn; rw [h]
@[simp] theorem State.emit_rdata (s : State) (src code : Nat) (syn : Word) : (s.emit src code syn).rdata = s.rdata := by
  obtain ⟨q, l, h⟩ := s.emit_eq src code syn; rw [h]
@[simp] theorem State.emit_hold (s : State) (src code : Nat) (syn : Word) : (s.emit src code syn).hold = s.hold := by
  obtain ⟨q, l, h⟩ := s.emit_eq src code syn; rw [h]
@[simp] theorem State.emit_straps (s : State) (src code : Nat) (syn : Word) : (s.emit src code syn).straps = s.straps := by
  obtain ⟨q, l, h⟩ := s.emit_eq src code syn; rw [h]
@[simp] theorem State.emit_pins (s : State) (src code : Nat) (syn : Word) : (s.emit src code syn).pins = s.pins := by
  obtain ⟨q, l, h⟩ := s.emit_eq src code syn; rw [h]
@[simp] theorem State.emit_pacer (s : State) (src code : Nat) (syn : Word) : (s.emit src code syn).pacer = s.pacer := by
  obtain ⟨q, l, h⟩ := s.emit_eq src code syn; rw [h]
@[simp] theorem State.emit_key (s : State) (src code : Nat) (syn : Word) : (s.emit src code syn).key = s.key := by
  obtain ⟨q, l, h⟩ := s.emit_eq src code syn; rw [h]
@[simp] theorem State.emit_hp (s : State) (src code : Nat) (syn : Word) : (s.emit src code syn).hp = s.hp := by
  obtain ⟨q, l, h⟩ := s.emit_eq src code syn; rw [h]
@[simp] theorem State.emit_baton (s : State) (src code : Nat) (syn : Word) : (s.emit src code syn).baton = s.baton := by
  obtain ⟨q, l, h⟩ := s.emit_eq src code syn; rw [h]
@[simp] theorem State.emit_votes (s : State) (src code : Nat) (syn : Word) : (s.emit src code syn).votes = s.votes := by
  obtain ⟨q, l, h⟩ := s.emit_eq src code syn; rw [h]
@[simp] theorem State.emit_pairs (s : State) (src code : Nat) (syn : Word) : (s.emit src code syn).pairs = s.pairs := by
  obtain ⟨q, l, h⟩ := s.emit_eq src code syn; rw [h]
@[simp] theorem State.emit_rings (s : State) (src code : Nat) (syn : Word) : (s.emit src code syn).rings = s.rings := by
  obtain ⟨q, l, h⟩ := s.emit_eq src code syn; rw [h]
@[simp] theorem State.emit_groups (s : State) (src code : Nat) (syn : Word) : (s.emit src code syn).groups = s.groups := by
  obtain ⟨q, l, h⟩ := s.emit_eq src code syn; rw [h]
@[simp] theorem State.emit_sched (s : State) (src code : Nat) (syn : Word) : (s.emit src code syn).sched = s.sched := by
  obtain ⟨q, l, h⟩ := s.emit_eq src code syn; rw [h]
@[simp] theorem State.emit_nextId (s : State) (src code : Nat) (syn : Word) : (s.emit src code syn).nextId = s.nextId := by
  obtain ⟨q, l, h⟩ := s.emit_eq src code syn; rw [h]
@[simp] theorem State.emit_cores (s : State) (src code : Nat) (syn : Word) : (s.emit src code syn).cores = s.cores := by
  obtain ⟨q, l, h⟩ := s.emit_eq src code syn; rw [h]
@[simp] theorem State.emit_otp (s : State) (src code : Nat) (syn : Word) : (s.emit src code syn).otp = s.otp := by
  obtain ⟨q, l, h⟩ := s.emit_eq src code syn; rw [h]
@[simp] theorem State.emit_otpBad (s : State) (src code : Nat) (syn : Word) : (s.emit src code syn).otpBad = s.otpBad := by
  obtain ⟨q, l, h⟩ := s.emit_eq src code syn; rw [h]
@[simp] theorem State.emit_dieOver (s : State) (src code : Nat) (syn : Word) : (s.emit src code syn).dieOver = s.dieOver := by
  obtain ⟨q, l, h⟩ := s.emit_eq src code syn; rw [h]
@[simp] theorem State.emit_otpProg (s : State) (src code : Nat) (syn : Word) : (s.emit src code syn).otpProg = s.otpProg := by
  obtain ⟨q, l, h⟩ := s.emit_eq src code syn; rw [h]
@[simp] theorem State.emit_crypto (s : State) (src code : Nat) (syn : Word) : (s.emit src code syn).crypto = s.crypto := by
  obtain ⟨q, l, h⟩ := s.emit_eq src code syn; rw [h]
@[simp] theorem State.emit_wupPath (s : State) (src code : Nat) (syn : Word) : (s.emit src code syn).wupPath = s.wupPath := by
  obtain ⟨q, l, h⟩ := s.emit_eq src code syn; rw [h]
@[simp] theorem State.emit_vat (s : State) (src code : Nat) (syn : Word) : (s.emit src code syn).vat = s.vat := by
  obtain ⟨q, l, h⟩ := s.emit_eq src code syn; rw [h]
@[simp] theorem State.emit_banks (s : State) (src code : Nat) (syn : Word) : (s.emit src code syn).banks = s.banks := by
  obtain ⟨q, l, h⟩ := s.emit_eq src code syn; rw [h]
@[simp] theorem State.emit_csram (s : State) (src code : Nat) (syn : Word) : (s.emit src code syn).csram = s.csram := by
  obtain ⟨q, l, h⟩ := s.emit_eq src code syn; rw [h]
@[simp] theorem State.emit_csramH (s : State) (src code : Nat) (syn : Word) : (s.emit src code syn).csramH = s.csramH := by
  obtain ⟨q, l, h⟩ := s.emit_eq src code syn; rw [h]
@[simp] theorem State.emit_ctxH (s : State) (src code : Nat) (syn : Word) : (s.emit src code syn).ctxH = s.ctxH := by
  obtain ⟨q, l, h⟩ := s.emit_eq src code syn; rw [h]
@[simp] theorem State.emit_tdmRx (s : State) (src code : Nat) (syn : Word) : (s.emit src code syn).tdmRx = s.tdmRx := by
  obtain ⟨q, l, h⟩ := s.emit_eq src code syn; rw [h]
@[simp] theorem State.emit_tdmTx (s : State) (src code : Nat) (syn : Word) : (s.emit src code syn).tdmTx = s.tdmTx := by
  obtain ⟨q, l, h⟩ := s.emit_eq src code syn; rw [h]
@[simp] theorem State.emit_aesRx (s : State) (src code : Nat) (syn : Word) : (s.emit src code syn).aesRx = s.aesRx := by
  obtain ⟨q, l, h⟩ := s.emit_eq src code syn; rw [h]
@[simp] theorem State.emit_aesTx (s : State) (src code : Nat) (syn : Word) : (s.emit src code syn).aesTx = s.aesTx := by
  obtain ⟨q, l, h⟩ := s.emit_eq src code syn; rw [h]
@[simp] theorem State.emit_pdm (s : State) (src code : Nat) (syn : Word) : (s.emit src code syn).pdm = s.pdm := by
  obtain ⟨q, l, h⟩ := s.emit_eq src code syn; rw [h]
@[simp] theorem State.emit_mics (s : State) (src code : Nat) (syn : Word) : (s.emit src code syn).mics = s.mics := by
  obtain ⟨q, l, h⟩ := s.emit_eq src code syn; rw [h]
@[simp] theorem State.emit_cs (s : State) (src code : Nat) (syn : Word) : (s.emit src code syn).cs = s.cs := by
  obtain ⟨q, l, h⟩ := s.emit_eq src code syn; rw [h]
@[simp] theorem State.emit_chans (s : State) (src code : Nat) (syn : Word) : (s.emit src code syn).chans = s.chans := by
  obtain ⟨q, l, h⟩ := s.emit_eq src code syn; rw [h]
@[simp] theorem State.emit_srcs (s : State) (src code : Nat) (syn : Word) : (s.emit src code syn).srcs = s.srcs := by
  obtain ⟨q, l, h⟩ := s.emit_eq src code syn; rw [h]
@[simp] theorem State.emit_asrc (s : State) (src code : Nat) (syn : Word) : (s.emit src code syn).asrc = s.asrc := by
  obtain ⟨q, l, h⟩ := s.emit_eq src code syn; rw [h]
@[simp] theorem State.emit_flows (s : State) (src code : Nat) (syn : Word) : (s.emit src code syn).flows = s.flows := by
  obtain ⟨q, l, h⟩ := s.emit_eq src code syn; rw [h]
@[simp] theorem State.emit_flowFetch (s : State) (src code : Nat) (syn : Word) : (s.emit src code syn).flowFetch = s.flowFetch := by
  obtain ⟨q, l, h⟩ := s.emit_eq src code syn; rw [h]
@[simp] theorem State.emit_frameTx (s : State) (src code : Nat) (syn : Word) : (s.emit src code syn).frameTx = s.frameTx := by
  obtain ⟨q, l, h⟩ := s.emit_eq src code syn; rw [h]
@[simp] theorem State.emit_txFlows (s : State) (src code : Nat) (syn : Word) : (s.emit src code syn).txFlows = s.txFlows := by
  obtain ⟨q, l, h⟩ := s.emit_eq src code syn; rw [h]
@[simp] theorem State.emit_vsrcs (s : State) (src code : Nat) (syn : Word) : (s.emit src code syn).vsrcs = s.vsrcs := by
  obtain ⟨q, l, h⟩ := s.emit_eq src code syn; rw [h]
@[simp] theorem State.emit_zones (s : State) (src code : Nat) (syn : Word) : (s.emit src code syn).zones = s.zones := by
  obtain ⟨q, l, h⟩ := s.emit_eq src code syn; rw [h]
@[simp] theorem State.emit_layers (s : State) (src code : Nat) (syn : Word) : (s.emit src code syn).layers = s.layers := by
  obtain ⟨q, l, h⟩ := s.emit_eq src code syn; rw [h]
@[simp] theorem State.emit_layerBack (s : State) (src code : Nat) (syn : Word) : (s.emit src code syn).layerBack = s.layerBack := by
  obtain ⟨q, l, h⟩ := s.emit_eq src code syn; rw [h]
@[simp] theorem State.emit_gens (s : State) (src code : Nat) (syn : Word) : (s.emit src code syn).gens = s.gens := by
  obtain ⟨q, l, h⟩ := s.emit_eq src code syn; rw [h]
@[simp] theorem State.emit_routes (s : State) (src code : Nat) (syn : Word) : (s.emit src code syn).routes = s.routes := by
  obtain ⟨q, l, h⟩ := s.emit_eq src code syn; rw [h]
@[simp] theorem State.emit_players (s : State) (src code : Nat) (syn : Word) : (s.emit src code syn).players = s.players := by
  obtain ⟨q, l, h⟩ := s.emit_eq src code syn; rw [h]
@[simp] theorem State.emit_clipLoads (s : State) (src code : Nat) (syn : Word) : (s.emit src code syn).clipLoads = s.clipLoads := by
  obtain ⟨q, l, h⟩ := s.emit_eq src code syn; rw [h]
@[simp] theorem State.emit_clips (s : State) (src code : Nat) (syn : Word) : (s.emit src code syn).clips = s.clips := by
  obtain ⟨q, l, h⟩ := s.emit_eq src code syn; rw [h]
@[simp] theorem State.emit_pool (s : State) (src code : Nat) (syn : Word) : (s.emit src code syn).pool = s.pool := by
  obtain ⟨q, l, h⟩ := s.emit_eq src code syn; rw [h]
@[simp] theorem State.emit_lanes (s : State) (src code : Nat) (syn : Word) : (s.emit src code syn).lanes = s.lanes := by
  obtain ⟨q, l, h⟩ := s.emit_eq src code syn; rw [h]
@[simp] theorem State.emit_tiles (s : State) (src code : Nat) (syn : Word) : (s.emit src code syn).tiles = s.tiles := by
  obtain ⟨q, l, h⟩ := s.emit_eq src code syn; rw [h]
@[simp] theorem State.emit_xover (s : State) (src code : Nat) (syn : Word) : (s.emit src code syn).xover = s.xover := by
  obtain ⟨q, l, h⟩ := s.emit_eq src code syn; rw [h]
@[simp] theorem State.emit_lps (s : State) (src code : Nat) (syn : Word) : (s.emit src code syn).lps = s.lps := by
  obtain ⟨q, l, h⟩ := s.emit_eq src code syn; rw [h]
@[simp] theorem State.emit_lpLoads (s : State) (src code : Nat) (syn : Word) : (s.emit src code syn).lpLoads = s.lpLoads := by
  obtain ⟨q, l, h⟩ := s.emit_eq src code syn; rw [h]
@[simp] theorem State.emit_lpStops (s : State) (src code : Nat) (syn : Word) : (s.emit src code syn).lpStops = s.lpStops := by
  obtain ⟨q, l, h⟩ := s.emit_eq src code syn; rw [h]
@[simp] theorem State.emit_paramHeat (s : State) (src code : Nat) (syn : Word) : (s.emit src code syn).paramHeat = s.paramHeat := by
  obtain ⟨q, l, h⟩ := s.emit_eq src code syn; rw [h]
@[simp] theorem State.emit_paramCnt (s : State) (src code : Nat) (syn : Word) : (s.emit src code syn).paramCnt = s.paramCnt := by
  obtain ⟨q, l, h⟩ := s.emit_eq src code syn; rw [h]
@[simp] theorem State.emit_tests (s : State) (src code : Nat) (syn : Word) : (s.emit src code syn).tests = s.tests := by
  obtain ⟨q, l, h⟩ := s.emit_eq src code syn; rw [h]
@[simp] theorem State.emit_testSeq (s : State) (src code : Nat) (syn : Word) : (s.emit src code syn).testSeq = s.testSeq := by
  obtain ⟨q, l, h⟩ := s.emit_eq src code syn; rw [h]
@[simp] theorem State.emit_admits (s : State) (src code : Nat) (syn : Word) : (s.emit src code syn).admits = s.admits := by
  obtain ⟨q, l, h⟩ := s.emit_eq src code syn; rw [h]
@[simp] theorem State.emit_txl (s : State) (src code : Nat) (syn : Word) : (s.emit src code syn).txl = s.txl := by
  obtain ⟨q, l, h⟩ := s.emit_eq src code syn; rw [h]
@[simp] theorem State.emit_pairLs (s : State) (src code : Nat) (syn : Word) : (s.emit src code syn).pairLs = s.pairLs := by
  obtain ⟨q, l, h⟩ := s.emit_eq src code syn; rw [h]
@[simp] theorem State.emit_pbus (s : State) (src code : Nat) (syn : Word) : (s.emit src code syn).pbus = s.pbus := by
  obtain ⟨q, l, h⟩ := s.emit_eq src code syn; rw [h]
@[simp] theorem State.emit_modes (s : State) (src code : Nat) (syn : Word) : (s.emit src code syn).modes = s.modes := by
  obtain ⟨q, l, h⟩ := s.emit_eq src code syn; rw [h]
@[simp] theorem State.emit_firstHeat (s : State) (src code : Nat) (syn : Word) : (s.emit src code syn).firstHeat = s.firstHeat := by
  obtain ⟨q, l, h⟩ := s.emit_eq src code syn; rw [h]
@[simp] theorem State.emit_freeCtr (s : State) (src code : Nat) (syn : Word) : (s.emit src code syn).freeCtr = s.freeCtr := by
  obtain ⟨q, l, h⟩ := s.emit_eq src code syn; rw [h]
@[simp] theorem State.emit_pending (s : State) (src code : Nat) (syn : Word) : (s.emit src code syn).pending = s.pending := by
  obtain ⟨q, l, h⟩ := s.emit_eq src code syn; rw [h]

@[simp] theorem State.emit_reg (s : State) (src code : Nat) (syn : Word) (o : Nat) : (s.emit src code syn).reg o = s.reg o :=
  State.reg_congr (s.emit_regs src code syn) o

@[simp] theorem State.emit_getF (s : State) (src code : Nat) (syn : Word) (o hi lo : Nat) :
    (s.emit src code syn).getF o hi lo = s.getF o hi lo := State.getF_congr (s.emit_regs src code syn) o hi lo

@[simp] theorem State.emit_bit (s : State) (src code : Nat) (syn : Word) (o i : Nat) :
    (s.emit src code syn).bit o i = s.bit o i := State.bit_congr (s.emit_regs src code syn) o i

end Sys2Proof.Machine
end

