-- ==== Sys2Proof/Laws/Commands.lean ====
section
/-! SUPPORT. The frame of every command: each ends in `finish`, so it completes, keeps the queue of commands, and leaves the pins as
their rules say. -/

namespace Sys2Proof.Machine

theorem finish_eq (s u : State) : finish s u = .next (s.closed u) := rfl

/-- A command of the controller completes, its own effect being `f`. -/
theorem does_of_run {i : Instr} {s u : State} (f : State → State) (hx : exec i s = act s f) (h : s.hold = .run) (hf : f s = u) :
    Does i s u := by
  rw [Does, hx, act, if_pos h, hf]; rfl

/-- A command that acts whatever holds the controller. -/
theorem does_of_always {i : Instr} {s u : State} (f : State → State) (hx : exec i s = actAlways s f) (hf : f s = u) :
    Does i s u := by
  rw [Does, hx, actAlways, hf]; rfl

/-- An event of a tile completes, its own effect being `f` and the FAULT_n that follows. -/
theorem does_on_tile {i : Instr} {s u : State} {t : Nat} (f : State → State) (hx : exec i s = onTile s t f)
    (hf : (f s).showFault t = u) : Does i s u := by
  rw [Does, hx, onTile, actAlways, hf]; rfl

/-! ### The row a register write takes -/

/-- A row's command is one of the controller. -/
def OfController (f : RowAct) : Prop := ∃ g : State → State, f = fun s => act s g

/-- A row, where there is one. -/
def RowOk (o : Option RowAct) : Prop := ∀ f, o = some f → OfController f

theorem rowAt_ok {off r : Nat} {f : RowAct} (hf : OfController f) : RowOk (rowAt off r f) := by
  intro k h
  unfold rowAt at h
  split at h
  · exact Option.some.inj h ▸ hf
  · cases h

theorem hostRow_ok {m : Master} {off r : Nat} {f : Fin 3 → RowAct} (hf : ∀ p, OfController (f p)) : RowOk (hostRow m off r f) := by
  intro k h
  cases m with
  | host p => exact rowAt_ok (hf p) k h
  | _ => cases h

theorem rowsAt_ok {off b st n : Nat} {f : Nat → RowAct} (hf : ∀ i, OfController (f i)) : RowOk (rowsAt off b st n f) := by
  intro k h
  obtain ⟨i, -, h⟩ := Option.map_eq_some_iff.mp h
  exact h ▸ hf i

theorem find_ok {l : List (Option RowAct)} (h : ∀ o ∈ l, RowOk o) : RowOk (l.findSome? id) := by
  intro f hf
  obtain ⟨o, ho, hf⟩ := List.exists_of_findSome?_eq_some hf
  exact h o ho f hf

theorem ite_ok {p : Prop} [Decidable p] {f g : RowAct} (hf : OfController f) (hg : OfController g) :
    OfController (if p then f else g) := by split <;> assumption

theorem globalRows_ok (m : Master) (off : Nat) (v : Word) : ∀ o ∈ globalRows m off v, RowOk o := by
  simp only [globalRows, List.forall_mem_cons]
  exact ⟨rowAt_ok ⟨_, rfl⟩, rowAt_ok ⟨_, rfl⟩, rowAt_ok ⟨_, rfl⟩, hostRow_ok fun _ => ⟨_, rfl⟩, rowAt_ok ⟨_, rfl⟩, rowAt_ok ⟨_, rfl⟩,
    hostRow_ok fun _ => ⟨_, rfl⟩, rowAt_ok ⟨_, rfl⟩, rowAt_ok ⟨_, rfl⟩, rowsAt_ok fun _ => ⟨_, rfl⟩, by simp⟩

theorem faultsRows_ok (m : Master) (off : Nat) (v : Word) : ∀ o ∈ faultsRows m off v, RowOk o := by
  simp only [faultsRows, List.forall_mem_cons]
  exact ⟨rowAt_ok ⟨_, rfl⟩, rowAt_ok ⟨_, rfl⟩, rowsAt_ok fun _ => ⟨_, rfl⟩, by simp⟩

theorem pacerRows_ok (m : Master) (off : Nat) (v : Word) : ∀ o ∈ pacerRows m off v, RowOk o := by
  simp only [pacerRows, List.forall_mem_cons]
  exact ⟨rowAt_ok ⟨_, rfl⟩, rowAt_ok ⟨_, rfl⟩, rowAt_ok ⟨_, rfl⟩, rowAt_ok ⟨_, rfl⟩, by simp⟩

theorem portsRows_ok (m : Master) (off : Nat) (v : Word) : ∀ o ∈ portsRows m off v, RowOk o := by
  simp only [portsRows, List.forall_mem_cons]
  exact ⟨rowsAt_ok fun _ => ⟨_, rfl⟩, rowsAt_ok fun _ => ⟨_, rfl⟩, rowsAt_ok fun _ => ⟨_, rfl⟩, rowsAt_ok fun _ => ⟨_, rfl⟩,
    rowsAt_ok fun _ => ⟨_, rfl⟩, rowsAt_ok fun _ => ⟨_, rfl⟩, rowsAt_ok fun _ => ⟨_, rfl⟩, rowsAt_ok fun _ => ⟨_, rfl⟩, by simp⟩

theorem lanesRows_ok (m : Master) (off : Nat) (v : Word) : ∀ o ∈ lanesRows m off v, RowOk o := by
  simp only [lanesRows, List.forall_mem_cons]
  exact ⟨rowsAt_ok fun _ => ⟨_, rfl⟩, rowsAt_ok fun _ => ⟨_, rfl⟩, rowsAt_ok fun _ => ⟨_, rfl⟩, by simp⟩

theorem coresRows_ok (m : Master) (off : Nat) (v : Word) : ∀ o ∈ coresRows m off v, RowOk o := by
  simp only [coresRows, List.forall_mem_cons]
  exact ⟨rowAt_ok ⟨_, rfl⟩, rowAt_ok (ite_ok ⟨_, rfl⟩ (ite_ok ⟨_, rfl⟩ ⟨_, rfl⟩)), rowAt_ok (ite_ok ⟨_, rfl⟩ (ite_ok ⟨_, rfl⟩ ⟨_, rfl⟩)),
    rowsAt_ok fun _ => ⟨_, rfl⟩, rowsAt_ok fun _ => ⟨_, rfl⟩, rowsAt_ok fun _ => ⟨_, rfl⟩, rowsAt_ok fun _ => ⟨_, rfl⟩,
    rowsAt_ok fun _ => ⟨_, rfl⟩, by simp⟩

theorem ringsRows_ok (m : Master) (off : Nat) (v : Word) : ∀ o ∈ ringsRows m off v, RowOk o := by
  simp only [ringsRows, List.forall_mem_cons]
  exact ⟨rowsAt_ok fun _ => ite_ok ⟨_, rfl⟩ ⟨_, rfl⟩, rowsAt_ok fun _ => ⟨_, rfl⟩, rowsAt_ok fun _ => ⟨_, rfl⟩, by simp⟩

/-- The row a register write takes is a command of the controller. -/
theorem rowCommand_ok (m : Master) (off : Nat) (v : Word) : RowOk (rowCommand m off v) := by
  refine find_ok fun o ho => ?_
  repeat' split at ho
  · exact globalRows_ok m off v o ho
  · exact faultsRows_ok m off v o ho
  · exact pacerRows_ok m off v o ho
  · exact portsRows_ok m off v o ho
  · exact lanesRows_ok m off v o ho
  · exact coresRows_ok m off v o ho
  · exact ringsRows_ok m off v o ho
  · cases ho

/-- A register write is a command of the controller, with a row of its own or without. -/
theorem registerWrite_act (m : Master) (a : RegTarget) (be : BitVec 4) (v : Word) (s : State) :
    ∃ g, execRegisterWrite m a be v s = act s g := by
  unfold execRegisterWrite
  cases h : targetRow m a be v with
  | none => exact ⟨_, rfl⟩
  | some f =>
    unfold targetRow at h
    split at h
    · obtain ⟨off, -, h⟩ := Option.bind_eq_some_iff.mp h
      obtain ⟨g, rfl⟩ := rowCommand_ok m off v f h
      exact ⟨g, rfl⟩
    · cases h

/-! ### Every command -/

/-- Every command ends in `finish`. -/
theorem exec_finish (i : Instr) (s : State) : ∃ u, exec i s = finish s u := by
  cases i with
  | islandOutOfTolerance x =>
    obtain ⟨k, _⟩ := x
    cases k <;> exact ⟨_, rfl⟩
  | registerWrite m a be v =>
    obtain ⟨g, h⟩ := registerWrite_act m a be v s
    exact ⟨_, h⟩
  | _ => exact ⟨_, rfl⟩

/-- Every command completes. -/
theorem exec_does (i : Instr) (s : State) : ∃ u, Does i s u := exec_finish i s

/-- Closing keeps the queue of commands of the state the command found. -/
@[simp] theorem closed_pending (s u : State) : (s.closed u).pending = s.pending := rfl

/-- With no event waiting the collector has nothing to latch. -/
theorem drain_of_empty (n : Nat) (u : State) (h : u.fc.queue = []) : State.drain n u = u := by
  cases n <;> simp [State.drain, h]

theorem closed_of_quiet (s u : State) (h : u.fc.queue = []) : s.closed u = { u.settle with pending := s.pending } := by
  simp [State.closed, drain_of_empty _ _ h]

/-- Registers other than the two shown bits keep their values over `settle`. -/
theorem settle_reg (s : State) (o : Nat) (h1 : o ≠ Reg.fcStatus) (h2 : o ≠ Reg.fcShadow) : s.settle.reg o = s.reg o := by
  simp only [State.settle, State.reg_setReg_ne _ _ _ _ h2, State.reg_setReg_ne _ _ _ _ h1]
  rfl

end Sys2Proof.Machine
end

