-- ==== Sys2Proof/Laws/Descriptors.lean ====
section
/-! SUPPORT. What the command of a descriptor does: at its commit, and at its acceptance. -/

namespace Sys2Proof.Machine

/-- At its commit an update leaves the schedule and its row acts. -/
theorem descRow_commit {s : State} {row : Row} {op : Nat} {o : Origin} {d : Body} {e : Sched} (rd : ReadResult)
    (h : s.Due row op o d e) : s.descRow row op .commit o d rd = (s.unschedule e.id).commitUpd row e := by
  unfold State.descRow
  simp only [h.2]

/-- A commit that settles completes the update. -/
theorem commitUpd_done {s u : State} {row : Row} {e : Sched} {st v : Nat} (h : row.commit e s = (u, .done st v)) :
    s.commitUpd row e = u.complete e st v := by
  simp [State.commitUpd, h]

theorem commitUpd_wait {s u : State} {row : Row} {e : Sched} (h : row.commit e s = (u, .wait)) : s.commitUpd row e = u := by
  simp [State.commitUpd, h]

/-- A descriptor that passes every check, outside groups and votes, acts at once or is scheduled. -/
theorem accept_passes {u : State} {row : Row} {came : Came} {org : Origin} {d : Desc} {rd : ReadResult}
    (hg : match org with
      | .ring r _ => d.body.chain = false ∧ (came ≠ .command ∨ (u.ringAt r.val).group = none)
      | .core _ _ => True)
    (hr : u.refusal (some row) came d = none) (hp : d.body.policy = 0)
    (hv : (u.bit Reg.gblVoteCfg 7 && u.votedEligible d.opcode.toNat d.body) = false) :
    u.accept (some row) came org d rd =
      if row.blk = .now then
        State.commitUpd { (u.bump Reg.rngAcceptCnt 32) with nextId := (u.bump Reg.rngAcceptCnt 32).nextId + 1 } row
          (u.newSched row org d rd)
      else row.onAccept (u.newSched row org d rd) ((u.bump Reg.rngAcceptCnt 32).schedule (u.newSched row org d rd)) := by
  cases org with
  | core n i => simp only [State.accept, hr, hp, ne_eq, not_true_eq_false, if_false, hv, Bool.false_eq_true]
  | ring r i =>
    have hb : (came == .command && (d.body.chain || (u.ringAt r.val).group.isSome)) = false := by
      rcases hg.2 with h | h <;> simp [hg.1, h]
    simp only [State.accept, hb, hr, hp, ne_eq, not_true_eq_false, if_false, hv, Bool.false_eq_true]

/-- An accepted descriptor acts at once or is scheduled. -/
theorem descRow_accept {s t : State} {row : Row} {op : Nat} {o : Origin} {d : Body} {rd : ReadResult} {e : Sched}
    (h : s.Accepts row op o d rd t e) :
    s.descRow row op .accept o d rd =
      s.noted o (descOf op d) (if row.blk = .now then State.commitUpd { t with nextId := t.nextId + 1 } row e
        else row.onAccept e (t.schedule e)) := by
  obtain ⟨-, hm, hc, hp, hr, hv, rfl, rfl⟩ := h
  cases o with
  | core n i =>
    have e1 : s.descRow row op .accept (.core n i) d rd =
        (s.front (.core n i)).accept (some row) (.core n.val) (s.frontAt (.core n i)) (descOf op d) rd := by
      simp only [State.descRow, hm.1, hm.2, List.isEmpty_nil, Bool.and_self, if_true]; rfl
    rw [e1]
    exact accept_passes (came := .core n.val) trivial hr hp hv
  | ring r i =>
    obtain ⟨h1, h2, h3⟩ := hm
    have e0 : s.front (.ring r i) = (s.fetchOne r.val).setBit (Reg.ringStatus r.val) 2 false := rfl
    have ec : s.cameFrom (.ring r i) =
      if (s.front (.ring r i)).ringType r.val = 1 then .vote else .command := rfl
    have e1 : s.descRow row op .accept (.ring r i) d rd =
        match (s.front (.ring r i)).ringType r.val, (s.front (.ring r i)).shadowPair r.val with
        | 1, _ => (s.front (.ring r i)).accept (some row) .vote (s.frontAt (.ring r i)) (descOf op d) rd
        | _, some k => (s.front (.ring r i)).shadowAccept (some row) k (s.frontAt (.ring r i)) (descOf op d)
        | _, none => ((s.front (.ring r i)).accept (some row) .command (s.frontAt (.ring r i)) (descOf op d) rd).mirrorNote
            r.val (descOf op d) := by
      simp only [State.descRow, State.takeRing, h1, h2, Bool.not_true, if_false, Bool.false_eq_true]; rfl
    rw [e1]
    simp only [State.noted, ec]
    rw [ec] at hr
    have hc' : (descOf op d).body.chain = false := hc
    by_cases ht : (s.front (.ring r i)).ringType r.val = 1
    · rw [if_pos ht] at hr
      rw [if_pos ht, if_neg (by decide)]
      simp only [ht]
      exact accept_passes ⟨hc', .inl (by decide)⟩ hr hp hv
    · obtain ⟨h3, h4⟩ := h3.resolve_left ht
      rw [if_neg ht] at hr
      rw [if_neg ht, if_pos rfl]
      simp only [h3]
      exact congrArg (fun x => State.mirrorNote x r.val (descOf op d))
        (accept_passes (came := .command) (org := s.frontAt (.ring r i)) ⟨hc', .inr h4⟩ hr hp hv)

theorem does_commit {i : Instr} {s u : State} {row : Row} {op : Nat} {o : Origin} {d : Body} {e : Sched} {st v : Nat}
    {rd : ReadResult} (hx : exec i s = act s fun s => s.descRow row op .commit o d rd) (h : s.Due row op o d e)
    (hu : row.commit e (s.unschedule e.id) = (u, .done st v)) : Does i s (u.complete e st v) :=
  does_of_run _ hx h.1 ((descRow_commit rd h).trans (commitUpd_done hu))

theorem does_wait {i : Instr} {s u : State} {row : Row} {op : Nat} {o : Origin} {d : Body} {e : Sched} {rd : ReadResult}
    (hx : exec i s = act s fun s => s.descRow row op .commit o d rd) (h : s.Due row op o d e)
    (hu : row.commit e (s.unschedule e.id) = (u, .wait)) : Does i s u :=
  does_of_run _ hx h.1 ((descRow_commit rd h).trans (commitUpd_wait hu))

theorem due_body {s : State} {row : Row} {op : Nat} {o : Origin} {d : Body} {e : Sched} (h : s.Due row op o d e) :
    e.desc = descOf op d := by
  have := List.find?_some h.2
  simp only [Bool.and_eq_true, decide_eq_true_eq] at this
  exact this.1.2

theorem does_now {i : Instr} {s t u : State} {row : Row} {op : Nat} {o : Origin} {d : Body} {e : Sched} {st v : Nat}
    {rd : ReadResult} (hx : exec i s = act s fun s => s.descRow row op .accept o d rd) (h : s.Accepts row op o d rd t e)
    (hb : row.blk = .now) (hu : row.commit e { t with nextId := t.nextId + 1 } = (u, .done st v)) :
    Does i s (s.noted o (descOf op d) (u.complete e st v)) :=
  does_of_run _ hx h.1 ((descRow_accept h).trans (by rw [if_pos hb, commitUpd_done hu]))

/-- A descriptor of an opcode that commits at a heat is scheduled once it passes. -/
theorem does_accept {i : Instr} {s t : State} {row : Row} {op : Nat} {o : Origin} {d : Body} {e : Sched} {rd : ReadResult}
    (hx : exec i s = act s fun s => s.descRow row op .accept o d rd) (h : s.Accepts row op o d rd t e) (hb : row.blk ≠ .now) :
    Does i s (s.noted o (descOf op d) (row.onAccept e (t.schedule e))) :=
  does_of_run _ hx h.1 ((descRow_accept h).trans (by rw [if_neg hb]))

/-- A descriptor that meets a condition of refusal completes with it. -/
theorem accept_refused {u : State} {row : Row} {came : Came} {org : Origin} {d : Desc} {rd : ReadResult} {st v : Nat}
    (hg : match org with
      | .ring r _ => d.body.chain = false ∧ (came ≠ .command ∨ (u.ringAt r.val).group = none)
      | .core _ _ => True)
    (hr : u.refusal (some row) came d = some (st, v)) :
    u.accept (some row) came org d rd = u.completeAt org
      { status := st, opcode := d.opcode, tag := d.body.tag, time := u.heat, value := v, irq := d.body.irq } := by
  cases org with
  | core n i => simp only [State.accept, hr]
  | ring r i =>
    have hb : (came == .command && (d.body.chain || (u.ringAt r.val).group.isSome)) = false := by
      rcases hg.2 with h | h <;> simp [hg.1, h]
    simp only [State.accept, hb, hr]

theorem descRow_refuse {s : State} {row : Row} {op : Nat} {o : Origin} {d : Body} {rd : ReadResult} {st v : Nat}
    (hm : s.MayTake o) (hc : d.chain = false)
    (hr : (s.front o).refusal (some row) (s.cameFrom o) (descOf op d) = some (st, v)) :
    s.descRow row op .accept o d rd = s.noted o (descOf op d) ((s.front o).completeAt (s.frontAt o)
      { status := st, opcode := BitVec.ofNat 16 op, tag := d.tag, time := (s.front o).heat, value := v, irq := d.irq }) := by
  cases o with
  | core n i =>
    have e1 : s.descRow row op .accept (.core n i) d rd =
        (s.front (.core n i)).accept (some row) (.core n.val) (s.frontAt (.core n i)) (descOf op d) rd := by
      simp only [State.descRow, hm.1, hm.2, List.isEmpty_nil, Bool.and_self, if_true]; rfl
    rw [e1]
    exact accept_refused (came := .core n.val) trivial hr
  | ring r i =>
    obtain ⟨h1, h2, h3⟩ := hm
    have ec : s.cameFrom (.ring r i) =
      if (s.front (.ring r i)).ringType r.val = 1 then .vote else .command := rfl
    have e1 : s.descRow row op .accept (.ring r i) d rd =
        match (s.front (.ring r i)).ringType r.val, (s.front (.ring r i)).shadowPair r.val with
        | 1, _ => (s.front (.ring r i)).accept (some row) .vote (s.frontAt (.ring r i)) (descOf op d) rd
        | _, some k => (s.front (.ring r i)).shadowAccept (some row) k (s.frontAt (.ring r i)) (descOf op d)
        | _, none => ((s.front (.ring r i)).accept (some row) .command (s.frontAt (.ring r i)) (descOf op d) rd).mirrorNote
            r.val (descOf op d) := by
      simp only [State.descRow, State.takeRing, h1, h2, Bool.not_true, if_false, Bool.false_eq_true]; rfl
    rw [e1]
    simp only [State.noted, ec]
    rw [ec] at hr
    have hc' : (descOf op d).body.chain = false := hc
    by_cases ht : (s.front (.ring r i)).ringType r.val = 1
    · rw [if_pos ht] at hr
      rw [if_pos ht, if_neg (by decide)]
      simp only [ht]
      exact accept_refused ⟨hc', .inl (by decide)⟩ hr
    · obtain ⟨h3, h4⟩ := h3.resolve_left ht
      rw [if_neg ht] at hr
      rw [if_neg ht, if_pos rfl]
      simp only [h3]
      exact congrArg (fun x => State.mirrorNote x r.val (descOf op d))
        (accept_refused (came := .command) (org := s.frontAt (.ring r i)) ⟨hc', .inr h4⟩ hr)

theorem does_refuse {i : Instr} {s : State} {row : Row} {op : Nat} {o : Origin} {d : Body} {rd : ReadResult} {st v : Nat}
    (hx : exec i s = act s fun s => s.descRow row op .accept o d rd) (h : s.hold = .run) (hm : s.MayTake o) (hc : d.chain = false)
    (hr : (s.front o).refusal (some row) (s.cameFrom o) (descOf op d) = some (st, v)) :
    Does i s (s.noted o (descOf op d) ((s.front o).completeAt (s.frontAt o)
      { status := st, opcode := BitVec.ofNat 16 op, tag := d.tag, time := (s.front o).heat, value := v, irq := d.irq })) :=
  does_of_run _ hx h (descRow_refuse hm hc hr)

/-- A header field that fails refuses with BAD_DESCRIPTOR and its offset, before anything else (R605). -/
theorem refusal_header (s : State) (row : Option Row) (came : Came) (d : Desc) (off : Nat) (h : s.headerBad row d = some off) :
    s.refusal row came d = some (stBad, off) := by
  unfold State.refusal
  rw [h]

/-- A row whose own check fails at an offset, in a descriptor whose header is sound and that is no chained voted one. -/
theorem refusal_checked (s : State) (row : Row) (d : Desc) (off : Nat) (h : s.headerBad (some row) d = none)
    (hc : row.check s d.body = .bad off) : s.refusal (some row) .command d =
      if (s.votedEligible d.opcode.toNat d.body && d.body.chain) = true then some (stBad, 2) else some (stBad, 24 + off) := by
  unfold State.refusal
  rw [h]
  simp [hc]

end Sys2Proof.Machine
end

