-- ==== Sys2Proof/Laws/Held.lean ====
section
/-! SUPPORT. The commands that need the controller act through `act` alone, so that they do nothing while it is held (R586, R599). -/

namespace Sys2Proof.Machine

/-- A command that needs the controller is `act` of some effect. -/
theorem exec_act (i : Instr) (s : State) (h : actsWhileHeld i = false) : ∃ f, exec i s = act s f := by
  cases i with
  | powerOn _ => exact Bool.noConfusion h
  | powerFail => exact Bool.noConfusion h
  | linkTrainingWindowEnd _ => rw [arm_linkTrainingWindowEnd, execLinkTrainingWindowEnd]; exact ⟨_, rfl⟩
  | linkTrainedOnAbsentPort _ => rw [arm_linkTrainedOnAbsentPort, execLinkTrainedOnAbsentPort]; exact ⟨_, rfl⟩
  | tileLinkLost _ => rw [arm_tileLinkLost, execTileLinkLost]; exact ⟨_, rfl⟩
  | firmwareBoot _ => rw [arm_firmwareBoot, execFirmwareBoot]; exact ⟨_, rfl⟩
  | heatBoundary _ => rw [arm_heatBoundary, execHeatBoundary]; exact ⟨_, rfl⟩
  | pcrTimeLoRead _ => rw [arm_pcrTimeLoRead, execPcrTimeLoRead]; exact ⟨_, rfl⟩
  | pcrAdjFreqWrite _ _ => rw [arm_pcrAdjFreqWrite, execPcrAdjFreqWrite]; exact ⟨_, rfl⟩
  | pcrSlewWrite _ _ => rw [arm_pcrSlewWrite, execPcrSlewWrite]; exact ⟨_, rfl⟩
  | pcrStepHiWrite _ _ => rw [arm_pcrStepHiWrite, execPcrStepHiWrite]; exact ⟨_, rfl⟩
  | pcrServoOffsetWrite _ _ => rw [arm_pcrServoOffsetWrite, execPcrServoOffsetWrite]; exact ⟨_, rfl⟩
  | discSrcChange _ _ => rw [arm_discSrcChange, execDiscSrcChange]; exact ⟨_, rfl⟩
  | holdForce _ _ => rw [arm_holdForce, execHoldForce]; exact ⟨_, rfl⟩
  | ref1ppsEdge _ => rw [arm_ref1ppsEdge, execRef1ppsEdge]; exact ⟨_, rfl⟩
  | ref10mLoss => rw [arm_ref10mLoss, execRef10mLoss]; exact ⟨_, rfl⟩
  | ref1ppsTimeout => rw [arm_ref1ppsTimeout, execRef1ppsTimeout]; exact ⟨_, rfl⟩
  | servoWatchdogExpiry => rw [arm_servoWatchdogExpiry, execServoWatchdogExpiry]; exact ⟨_, rfl⟩
  | lockGained => rw [arm_lockGained, execLockGained]; exact ⟨_, rfl⟩
  | lockLost => rw [arm_lockLost, execLockLost]; exact ⟨_, rfl⟩
  | holdoverLimitReached => rw [arm_holdoverLimitReached, execHoldoverLimitReached]; exact ⟨_, rfl⟩
  | stepJump => rw [arm_stepJump, execStepJump]; exact ⟨_, rfl⟩
  | stepResume => rw [arm_stepResume, execStepResume]; exact ⟨_, rfl⟩
  | stepApplied => rw [arm_stepApplied, execStepApplied]; exact ⟨_, rfl⟩
  | synthLockLoss => rw [arm_synthLockLoss, execSynthLockLoss]; exact ⟨_, rfl⟩
  | synthRelock => rw [arm_synthRelock, execSynthRelock]; exact ⟨_, rfl⟩
  | islandOutOfTolerance x =>
    obtain ⟨k, o⟩ := x
    cases k with
    | ctl k => exact ⟨fun s => if o then s.islandCtl k.val else s.islandCtlBack k.val, rfl⟩
    | tile t k => exact Bool.noConfusion h
  | crossingAbandoned _ _ => rw [arm_crossingAbandoned, execCrossingAbandoned]; exact ⟨_, rfl⟩
  | droopDetected => rw [arm_droopDetected, execDroopDetected]; exact ⟨_, rfl⟩
  | droopEnd _ => rw [arm_droopEnd, execDroopEnd]; exact ⟨_, rfl⟩
  | droopStretchExceeded _ => rw [arm_droopStretchExceeded, execDroopStretchExceeded]; exact ⟨_, rfl⟩
  | rateJump _ => rw [arm_rateJump, execRateJump]; exact ⟨_, rfl⟩
  | converterRelockDone _ => rw [arm_converterRelockDone, execConverterRelockDone]; exact ⟨_, rfl⟩
  | ratioOutOfRange _ => rw [arm_ratioOutOfRange, execRatioOutOfRange]; exact ⟨_, rfl⟩
  | portClockLoss _ => rw [arm_portClockLoss, execPortClockLoss]; exact ⟨_, rfl⟩
  | portClockReturn _ => rw [arm_portClockReturn, execPortClockReturn]; exact ⟨_, rfl⟩
  | tdmRxFrame _ _ _ _ _ => rw [arm_tdmRxFrame, execTdmRxFrame]; exact ⟨_, rfl⟩
  | rxBlockClose _ _ => rw [arm_rxBlockClose, execRxBlockClose]; exact ⟨_, rfl⟩
  | tdmTxFrame _ _ _ => rw [arm_tdmTxFrame, execTdmTxFrame]; exact ⟨_, rfl⟩
  | tdmFrameWrite _ _ _ => rw [arm_tdmFrameWrite, execTdmFrameWrite]; exact ⟨_, rfl⟩
  | tdmEnable _ _ _ => rw [arm_tdmEnable, execTdmEnable]; exact ⟨_, rfl⟩
  | tdmDisable _ _ _ => rw [arm_tdmDisable, execTdmDisable]; exact ⟨_, rfl⟩
  | rxMaskNextWrite _ _ _ => rw [arm_rxMaskNextWrite, execRxMaskNextWrite]; exact ⟨_, rfl⟩
  | txMaskNextWrite _ _ _ => rw [arm_txMaskNextWrite, execTxMaskNextWrite]; exact ⟨_, rfl⟩
  | channelZeroCrossing _ => rw [arm_channelZeroCrossing, execChannelZeroCrossing]; exact ⟨_, rfl⟩
  | zcTimeoutExpiry _ => rw [arm_zcTimeoutExpiry, execZcTimeoutExpiry]; exact ⟨_, rfl⟩
  | aesRxFrame _ _ _ _ => rw [arm_aesRxFrame, execAesRxFrame]; exact ⟨_, rfl⟩
  | aesCsBlock _ _ _ _ => rw [arm_aesCsBlock, execAesCsBlock]; exact ⟨_, rfl⟩
  | aesRateDetect _ _ _ => rw [arm_aesRateDetect, execAesRateDetect]; exact ⟨_, rfl⟩
  | aesRxCsRead _ _ _ => rw [arm_aesRxCsRead, execAesRxCsRead]; exact ⟨_, rfl⟩
  | aesRxEnable _ _ _ => rw [arm_aesRxEnable, execAesRxEnable]; exact ⟨_, rfl⟩
  | aesTxEnable _ _ _ => rw [arm_aesTxEnable, execAesTxEnable]; exact ⟨_, rfl⟩
  | aesTxFrame _ _ => rw [arm_aesTxFrame, execAesTxFrame]; exact ⟨_, rfl⟩
  | aesTxCsCommit _ _ _ => rw [arm_aesTxCsCommit, execAesTxCsCommit]; exact ⟨_, rfl⟩
  | pdmGroupEnable _ _ _ => rw [arm_pdmGroupEnable, execPdmGroupEnable]; exact ⟨_, rfl⟩
  | pdmMicEnWrite _ _ _ => rw [arm_pdmMicEnWrite, execPdmMicEnWrite]; exact ⟨_, rfl⟩
  | pdmWarmingEnd _ => rw [arm_pdmWarmingEnd, execPdmWarmingEnd]; exact ⟨_, rfl⟩
  | pdmMicStuckLong _ => rw [arm_pdmMicStuckLong, execPdmMicStuckLong]; exact ⟨_, rfl⟩
  | pktRxFrame _ _ _ => rw [arm_pktRxFrame, execPktRxFrame]; exact ⟨_, rfl⟩
  | legDown _ _ => rw [arm_legDown, execLegDown]; exact ⟨_, rfl⟩
  | pktLinkDown _ => rw [arm_pktLinkDown, execPktLinkDown]; exact ⟨_, rfl⟩
  | pktLinkUp _ _ _ => rw [arm_pktLinkUp, execPktLinkUp]; exact ⟨_, rfl⟩
  | pktHostFrameSend _ _ => rw [arm_pktHostFrameSend, execPktHostFrameSend]; exact ⟨_, rfl⟩
  | flowPacketSend _ => rw [arm_flowPacketSend, execFlowPacketSend]; exact ⟨_, rfl⟩
  | pktCsRead _ => rw [arm_pktCsRead, execPktCsRead]; exact ⟨_, rfl⟩
  | zoneSet _ _ _ => rw [arm_zoneSet, execZoneSet, descCmd]; exact ⟨_, rfl⟩
  | layerSet _ _ _ => rw [arm_layerSet, execLayerSet, descCmd]; exact ⟨_, rfl⟩
  | layerAssert _ _ _ => rw [arm_layerAssert, execLayerAssert, descCmd]; exact ⟨_, rfl⟩
  | layerRelease _ _ _ => rw [arm_layerRelease, execLayerRelease, descCmd]; exact ⟨_, rfl⟩
  | laneRoute _ _ _ => rw [arm_laneRoute, execLaneRoute, descCmd]; exact ⟨_, rfl⟩
  | returnSet _ _ _ => rw [arm_returnSet, execReturnSet, descCmd]; exact ⟨_, rfl⟩
  | ambSet _ _ _ => rw [arm_ambSet, execAmbSet, descCmd]; exact ⟨_, rfl⟩
  | layerZeroCrossing _ => rw [arm_layerZeroCrossing, execLayerZeroCrossing]; exact ⟨_, rfl⟩
  | stepZcTimeout _ => rw [arm_stepZcTimeout, execStepZcTimeout]; exact ⟨_, rfl⟩
  | readyDeadline _ => rw [arm_readyDeadline, execReadyDeadline]; exact ⟨_, rfl⟩
  | silentJoin _ _ => rw [arm_silentJoin, execSilentJoin]; exact ⟨_, rfl⟩
  | zoneBlockLate _ => rw [arm_zoneBlockLate, execZoneBlockLate]; exact ⟨_, rfl⟩
  | activityHoldExpiry _ _ => rw [arm_activityHoldExpiry, execActivityHoldExpiry]; exact ⟨_, rfl⟩
  | playerSet _ _ _ => rw [arm_playerSet, execPlayerSet, descCmd]; exact ⟨_, rfl⟩
  | playerFlush _ _ => rw [arm_playerFlush, execPlayerFlush, nowCmd]; exact ⟨_, rfl⟩
  | clipLoad _ _ => rw [arm_clipLoad, execClipLoad, nowCmd]; exact ⟨_, rfl⟩
  | clipLoadDone _ _ => rw [arm_clipLoadDone]; unfold execClipLoadDone; exact ⟨_, rfl⟩
  | clipPin _ _ => rw [arm_clipPin, execClipPin, nowCmd]; exact ⟨_, rfl⟩
  | clipDrop _ _ => rw [arm_clipDrop, execClipDrop, nowCmd]; exact ⟨_, rfl⟩
  | playlistFetchDone _ _ => rw [arm_playlistFetchDone, execPlaylistFetchDone]; exact ⟨_, rfl⟩
  | clipFetchDone _ _ _ => rw [arm_clipFetchDone, execClipFetchDone]; exact ⟨_, rfl⟩
  | entryEnd _ => rw [arm_entryEnd, execEntryEnd]; exact ⟨_, rfl⟩
  | playerStarved _ => rw [arm_playerStarved, execPlayerStarved]; exact ⟨_, rfl⟩
  | playerResume _ => rw [arm_playerResume, execPlayerResume]; exact ⟨_, rfl⟩
  | playlistHostLost _ => rw [arm_playlistHostLost, execPlaylistHostLost]; exact ⟨_, rfl⟩
  | fnop _ _ => rw [arm_fnop, execFnop]; exact ⟨_, rfl⟩
  | fadd _ _ => rw [arm_fadd, execFadd]; exact ⟨_, rfl⟩
  | fsub _ _ => rw [arm_fsub, execFsub]; exact ⟨_, rfl⟩
  | fmul _ _ => rw [arm_fmul, execFmul]; exact ⟨_, rfl⟩
  | fma _ _ => rw [arm_fma, execFma]; exact ⟨_, rfl⟩
  | fms _ _ => rw [arm_fms, execFms]; exact ⟨_, rfl⟩
  | fmin _ _ => rw [arm_fmin, execFmin]; exact ⟨_, rfl⟩
  | fmax _ _ => rw [arm_fmax, execFmax]; exact ⟨_, rfl⟩
  | fabs _ _ => rw [arm_fabs, execFabs]; exact ⟨_, rfl⟩
  | fneg _ _ => rw [arm_fneg, execFneg]; exact ⟨_, rfl⟩
  | fsel _ _ => rw [arm_fsel, execFsel]; exact ⟨_, rfl⟩
  | fclamp _ _ => rw [arm_fclamp, execFclamp]; exact ⟨_, rfl⟩
  | frcp _ _ => rw [arm_frcp, execFrcp]; exact ⟨_, rfl⟩
  | frsq _ _ => rw [arm_frsq, execFrsq]; exact ⟨_, rfl⟩
  | flog2 _ _ => rw [arm_flog2, execFlog2]; exact ⟨_, rfl⟩
  | fexp2 _ _ => rw [arm_fexp2, execFexp2]; exact ⟨_, rfl⟩
  | fcvti _ _ => rw [arm_fcvti, execFcvti]; exact ⟨_, rfl⟩
  | fcvtf _ _ => rw [arm_fcvtf, execFcvtf]; exact ⟨_, rfl⟩
  | fli _ _ => rw [arm_fli, execFli]; exact ⟨_, rfl⟩
  | mnop _ => rw [arm_mnop, execMnop]; exact ⟨_, rfl⟩
  | ldf _ => rw [arm_ldf, execLdf]; exact ⟨_, rfl⟩
  | stf _ => rw [arm_stf, execStf]; exact ⟨_, rfl⟩
  | ldfp _ => rw [arm_ldfp, execLdfp]; exact ⟨_, rfl⟩
  | stfp _ => rw [arm_stfp, execStfp]; exact ⟨_, rfl⟩
  | lda _ => rw [arm_lda, execLda]; exact ⟨_, rfl⟩
  | sta _ => rw [arm_sta, execSta]; exact ⟨_, rfl⟩
  | vld _ => rw [arm_vld, execVld]; exact ⟨_, rfl⟩
  | vst _ => rw [arm_vst, execVst]; exact ⟨_, rfl⟩
  | vatTransferDone _ _ => rw [arm_vatTransferDone, execVatTransferDone]; exact ⟨_, rfl⟩
  | dlyx _ => rw [arm_dlyx, execDlyx]; exact ⟨_, rfl⟩
  | cnop _ => rw [arm_cnop, execCnop]; exact ⟨_, rfl⟩
  | br _ => rw [arm_br, execBr]; exact ⟨_, rfl⟩
  | bz _ => rw [arm_bz, execBz]; exact ⟨_, rfl⟩
  | bnz _ => rw [arm_bnz, execBnz]; exact ⟨_, rfl⟩
  | blt _ => rw [arm_blt, execBlt]; exact ⟨_, rfl⟩
  | call _ => rw [arm_call, execCall]; exact ⟨_, rfl⟩
  | ret _ => rw [arm_ret, execRet]; exact ⟨_, rfl⟩
  | loop _ => rw [arm_loop, execLoop]; exact ⟨_, rfl⟩
  | amov _ => rw [arm_amov, execAmov]; exact ⟨_, rfl⟩
  | aadd _ => rw [arm_aadd, execAadd]; exact ⟨_, rfl⟩
  | aaddr _ => rw [arm_aaddr, execAaddr]; exact ⟨_, rfl⟩
  | ashl _ => rw [arm_ashl, execAshl]; exact ⟨_, rfl⟩
  | mvfa _ => rw [arm_mvfa, execMvfa]; exact ⟨_, rfl⟩
  | mvaf _ => rw [arm_mvaf, execMvaf]; exact ⟨_, rfl⟩
  | odone _ => rw [arm_odone, execOdone]; exact ⟨_, rfl⟩
  | hend _ => rw [arm_hend, execHend]; exact ⟨_, rfl⟩
  | syncv _ => rw [arm_syncv, execSyncv]; exact ⟨_, rfl⟩
  | biq _ => rw [arm_biq, execBiq]; exact ⟨_, rfl⟩
  | firb _ => rw [arm_firb, execFirb]; exact ⟨_, rfl⟩
  | poly8 _ => rw [arm_poly8, execPoly8]; exact ⟨_, rfl⟩
  | env _ => rw [arm_env, execEnv]; exact ⟨_, rfl⟩
  | tbl _ => rw [arm_tbl, execTbl]; exact ⟨_, rfl⟩
  | lia _ => rw [arm_lia, execLia]; exact ⟨_, rfl⟩
  | liard _ => rw [arm_liard, execLiard]; exact ⟨_, rfl⟩
  | ncoset _ => rw [arm_ncoset, execNcoset]; exact ⟨_, rfl⟩
  | ramp _ => rw [arm_ramp, execRamp]; exact ⟨_, rfl⟩
  | heatAbandoned _ => rw [arm_heatAbandoned, execHeatAbandoned]; exact ⟨_, rfl⟩
  | lpHang _ => rw [arm_lpHang, execLpHang]; exact ⟨_, rfl⟩
  | paramShadowWrite => rw [arm_paramShadowWrite, execParamShadowWrite]; exact ⟨_, rfl⟩
  | laneParam _ _ _ _ => rw [arm_laneParam, execLaneParam]; exact ⟨_, rfl⟩
  | laneParamInline _ _ _ => rw [arm_laneParamInline, execLaneParamInline, descCmd]; exact ⟨_, rfl⟩
  | laneDelay _ _ _ => rw [arm_laneDelay, execLaneDelay, descCmd]; exact ⟨_, rfl⟩
  | lpLoad _ _ _ _ => rw [arm_lpLoad, execLpLoad]; exact ⟨_, rfl⟩
  | imageAccepted _ => rw [arm_imageAccepted, execImageAccepted]; exact ⟨_, rfl⟩
  | lpSwitchHalt _ => rw [arm_lpSwitchHalt, execLpSwitchHalt]; exact ⟨_, rfl⟩
  | lpSwitchStart _ => rw [arm_lpSwitchStart, execLpSwitchStart]; exact ⟨_, rfl⟩
  | lpRunStart _ _ _ => rw [arm_lpRunStart, execLpRunStart, descCmd]; exact ⟨_, rfl⟩
  | lpRunStop _ _ _ => rw [arm_lpRunStop, execLpRunStop, descCmd]; exact ⟨_, rfl⟩
  | lpEnWrite _ _ _ => rw [arm_lpEnWrite, execLpEnWrite]; exact ⟨_, rfl⟩
  | lpReloadDone _ => rw [arm_lpReloadDone, execLpReloadDone]; exact ⟨_, rfl⟩
  | modelSecondUpdate _ _ _ _ _ _ _ _ => rw [arm_modelSecondUpdate, execModelSecondUpdate]; exact ⟨_, rfl⟩
  | rindSet _ _ _ => rw [arm_rindSet, execRindSet, descCmd]; exact ⟨_, rfl⟩
  | rindClear _ _ _ => rw [arm_rindClear, execRindClear, descCmd]; exact ⟨_, rfl⟩
  | battSet _ _ _ => rw [arm_battSet, execBattSet, descCmd]; exact ⟨_, rfl⟩
  | poolSet _ _ _ => rw [arm_poolSet, execPoolSet, descCmd]; exact ⟨_, rfl⟩
  | rindTrip _ _ _ _ _ => exact Bool.noConfusion h
  | rindRestart _ => exact Bool.noConfusion h
  | tdieWarning _ _ => exact Bool.noConfusion h
  | tdieTrip _ _ => exact Bool.noConfusion h
  | tdieRestart _ => exact Bool.noConfusion h
  | rindAckTimeout _ => rw [arm_rindAckTimeout, execRindAckTimeout]; exact ⟨_, rfl⟩
  | fastPathLimit _ _ => exact Bool.noConfusion h
  | tilePowerUp _ => exact Bool.noConfusion h
  | tlDownstreamFrame _ _ _ => exact Bool.noConfusion h
  | downstreamFrameMissing _ => exact Bool.noConfusion h
  | tlUpstreamFrame _ _ _ => exact Bool.noConfusion h
  | laneRelease _ _ => exact Bool.noConfusion h
  | laneRunStart _ _ _ => rw [arm_laneRunStart, execLaneRunStart, descCmd]; exact ⟨_, rfl⟩
  | laneRunStop _ _ _ => rw [arm_laneRunStop, execLaneRunStop, descCmd]; exact ⟨_, rfl⟩
  | laneRunMute _ _ _ => rw [arm_laneRunMute, execLaneRunMute, descCmd]; exact ⟨_, rfl⟩
  | laneRunUnmute _ _ _ => rw [arm_laneRunUnmute, execLaneRunUnmute, descCmd]; exact ⟨_, rfl⟩
  | laneRampDone _ => exact Bool.noConfusion h
  | scClear _ _ _ => rw [arm_scClear, execScClear, descCmd]; exact ⟨_, rfl⟩
  | relaySet _ _ _ => rw [arm_relaySet, execRelaySet, descCmd]; exact ⟨_, rfl⟩
  | ilimHit _ _ _ => exact Bool.noConfusion h
  | probeStart _ => exact Bool.noConfusion h
  | probeDone _ _ => exact Bool.noConfusion h
  | laneClockFault _ => exact Bool.noConfusion h
  | laneClockRecovered _ => exact Bool.noConfusion h
  | tileSafeAssert _ => exact Bool.noConfusion h
  | tileSafeRelease _ => exact Bool.noConfusion h
  | railOvervoltage _ _ => exact Bool.noConfusion h
  | railOvClear _ => exact Bool.noConfusion h
  | railUndervoltage _ _ => exact Bool.noConfusion h
  | railUvClear _ => exact Bool.noConfusion h
  | railAdcFault _ _ => exact Bool.noConfusion h
  | gateSupplyLow _ => exact Bool.noConfusion h
  | gateSupplyRecovered _ => exact Bool.noConfusion h
  | hkFaultClear _ => exact Bool.noConfusion h
  | aux12Low _ => exact Bool.noConfusion h
  | relayCoilFault _ _ _ => exact Bool.noConfusion h
  | bondImbalance _ _ => exact Bool.noConfusion h
  | tdcCalibration _ => exact Bool.noConfusion h
  | testReq _ _ _ => rw [arm_testReq, execTestReq, descCmd]; exact ⟨_, rfl⟩
  | testCancel _ _ _ => rw [arm_testCancel, execTestCancel, descCmd]; exact ⟨_, rfl⟩
  | testgenSet _ _ _ => rw [arm_testgenSet, execTestgenSet, descCmd]; exact ⟨_, rfl⟩
  | testDone _ _ => rw [arm_testDone, execTestDone]; exact ⟨_, rfl⟩
  | testStop _ => rw [arm_testStop, execTestStop]; exact ⟨_, rfl⟩
  | testExpired _ _ => rw [arm_testExpired, execTestExpired]; exact ⟨_, rfl⟩
  | pilotWindowEnd _ _ _ _ _ _ => rw [arm_pilotWindowEnd, execPilotWindowEnd]; exact ⟨_, rfl⟩
  | pilotBlind _ => rw [arm_pilotBlind, execPilotBlind]; exact ⟨_, rfl⟩
  | pilotBlindLong _ => rw [arm_pilotBlindLong, execPilotBlindLong]; exact ⟨_, rfl⟩
  | lpDiagAdmitWrite _ _ _ => rw [arm_lpDiagAdmitWrite, execLpDiagAdmitWrite]; exact ⟨_, rfl⟩
  | modeSetVa _ _ _ => rw [arm_modeSetVa, execModeSetVa, descCmd]; exact ⟨_, rfl⟩
  | modeSetBat _ _ _ => rw [arm_modeSetBat, execModeSetBat, descCmd]; exact ⟨_, rfl⟩
  | modeSetWup _ _ _ => rw [arm_modeSetWup, execModeSetWup, descCmd]; exact ⟨_, rfl⟩
  | modeSetMnt _ _ _ => rw [arm_modeSetMnt, execModeSetMnt, descCmd]; exact ⟨_, rfl⟩
  | modeSetFtm _ _ _ => rw [arm_modeSetFtm, execModeSetFtm, descCmd]; exact ⟨_, rfl⟩
  | batAutoEnter => rw [arm_batAutoEnter, execBatAutoEnter]; exact ⟨_, rfl⟩
  | batAutoLeave => rw [arm_batAutoLeave, execBatAutoLeave]; exact ⟨_, rfl⟩
  | mntTimeout => rw [arm_mntTimeout, execMntTimeout]; exact ⟨_, rfl⟩
  | gblFtmUnlockWrite _ _ => rw [arm_gblFtmUnlockWrite, execGblFtmUnlockWrite]; exact ⟨_, rfl⟩
  | unlockWindowExpiry _ => rw [arm_unlockWindowExpiry, execUnlockWindowExpiry]; exact ⟨_, rfl⟩
  | ftmInjSource _ _ => rw [arm_ftmInjSource, execFtmInjSource]; exact ⟨_, rfl⟩
  | ftmInjHoldCause _ _ => rw [arm_ftmInjHoldCause, execFtmInjHoldCause]; exact ⟨_, rfl⟩
  | ftmInjLinkFrames _ _ => rw [arm_ftmInjLinkFrames, execFtmInjLinkFrames]; exact ⟨_, rfl⟩
  | ftmInjVatEcc _ _ => rw [arm_ftmInjVatEcc, execFtmInjVatEcc]; exact ⟨_, rfl⟩
  | injectedCauseExpiry _ _ => exact Bool.noConfusion h
  | crossoverZeroCrossing _ _ => exact Bool.noConfusion h
  | crossoverApply _ => exact Bool.noConfusion h
  | crossoverComplete => rw [arm_crossoverComplete, execCrossoverComplete]; exact ⟨_, rfl⟩
  | troxlinkControlFrame _ => rw [arm_troxlinkControlFrame, execTroxlinkControlFrame]; exact ⟨_, rfl⟩
  | troxlinkBusFrame _ => rw [arm_troxlinkBusFrame, execTroxlinkBusFrame]; exact ⟨_, rfl⟩
  | blockLockLoss => rw [arm_blockLockLoss, execBlockLockLoss]; exact ⟨_, rfl⟩
  | heartbeatTimeout => rw [arm_heartbeatTimeout, execHeartbeatTimeout]; exact ⟨_, rfl⟩
  | partnerAliveCheck => rw [arm_partnerAliveCheck, execPartnerAliveCheck]; exact ⟨_, rfl⟩
  | partnerBusMissing _ => rw [arm_partnerBusMissing, execPartnerBusMissing]; exact ⟨_, rfl⟩
  | takeoverRecheck _ => rw [arm_takeoverRecheck, execTakeoverRecheck]; exact ⟨_, rfl⟩
  | takeoverRelease _ => rw [arm_takeoverRelease, execTakeoverRelease]; exact ⟨_, rfl⟩
  | takeoverComplete _ => rw [arm_takeoverComplete, execTakeoverComplete]; exact ⟨_, rfl⟩
  | returnSilence _ => rw [arm_returnSilence, execReturnSilence]; exact ⟨_, rfl⟩
  | maxHoldExpiry _ => rw [arm_maxHoldExpiry, execMaxHoldExpiry]; exact ⟨_, rfl⟩
  | returnMute _ => rw [arm_returnMute, execReturnMute]; exact ⟨_, rfl⟩
  | returnRelayClear _ => rw [arm_returnRelayClear, execReturnRelayClear]; exact ⟨_, rfl⟩
  | returnRestore _ => rw [arm_returnRestore, execReturnRestore]; exact ⟨_, rfl⟩
  | returnComplete _ => rw [arm_returnComplete, execReturnComplete]; exact ⟨_, rfl⟩
  | pairBind _ _ _ => rw [arm_pairBind, execPairBind, descCmd]; exact ⟨_, rfl⟩
  | pairBus _ _ _ => rw [arm_pairBus, execPairBus, descCmd]; exact ⟨_, rfl⟩
  | pairReturn _ _ _ => rw [arm_pairReturn, execPairReturn, descCmd]; exact ⟨_, rfl⟩
  | gblBatonClaimWrite _ _ => rw [arm_gblBatonClaimWrite, execGblBatonClaimWrite]; exact ⟨_, rfl⟩
  | batonWithdraw _ => rw [arm_batonWithdraw, execBatonWithdraw]; exact ⟨_, rfl⟩
  | gblBatonLeaseWrite _ _ => rw [arm_gblBatonLeaseWrite, execGblBatonLeaseWrite]; exact ⟨_, rfl⟩
  | gblBatonPassWrite _ _ => rw [arm_gblBatonPassWrite, execGblBatonPassWrite]; exact ⟨_, rfl⟩
  | gblBatonAcceptWrite _ _ => rw [arm_gblBatonAcceptWrite, execGblBatonAcceptWrite]; exact ⟨_, rfl⟩
  | electionWindowClose => rw [arm_electionWindowClose, execElectionWindowClose]; exact ⟨_, rfl⟩
  | leaseExpiry => rw [arm_leaseExpiry, execLeaseExpiry]; exact ⟨_, rfl⟩
  | passTimeout => rw [arm_passTimeout, execPassTimeout]; exact ⟨_, rfl⟩
  | handoverComplete => rw [arm_handoverComplete, execHandoverComplete]; exact ⟨_, rfl⟩
  | batonAdoptDiscard _ _ => rw [arm_batonAdoptDiscard, execBatonAdoptDiscard, nowCmd]; exact ⟨_, rfl⟩
  | batonAdoptAdopt _ _ _ => rw [arm_batonAdoptAdopt, execBatonAdoptAdopt, nowCmd]; exact ⟨_, rfl⟩
  | voteMark _ _ _ => rw [arm_voteMark, execVoteMark, descCmd]; exact ⟨_, rfl⟩
  | voteTimeout _ => rw [arm_voteTimeout, execVoteTimeout]; exact ⟨_, rfl⟩
  | gblShadowWrite _ _ _ => rw [arm_gblShadowWrite, execGblShadowWrite]; exact ⟨_, rfl⟩
  | shadowLag _ => rw [arm_shadowLag, execShadowLag]; exact ⟨_, rfl⟩
  | functionLevelReset _ _ => rw [arm_functionLevelReset, execFunctionLevelReset]; exact ⟨_, rfl⟩
  | pcieLinkDown _ => rw [arm_pcieLinkDown, execPcieLinkDown]; exact ⟨_, rfl⟩
  | pcieLinkUp _ _ _ _ _ _ => rw [arm_pcieLinkUp, execPcieLinkUp]; exact ⟨_, rfl⟩
  | completionTimeout _ _ _ => rw [arm_completionTimeout, execCompletionTimeout]; exact ⟨_, rfl⟩
  | doorbellWrite _ _ _ _ => rw [arm_doorbellWrite, execDoorbellWrite]; exact ⟨_, rfl⟩
  | ringEnable _ _ _ => rw [arm_ringEnable, execRingEnable]; exact ⟨_, rfl⟩
  | ringDisable _ _ _ => rw [arm_ringDisable, execRingDisable]; exact ⟨_, rfl⟩
  | ringReadDone _ _ => rw [arm_ringReadDone, execRingReadDone]; exact ⟨_, rfl⟩
  | ringWriteError _ => rw [arm_ringWriteError, execRingWriteError]; exact ⟨_, rfl⟩
  | ringStallLong _ => rw [arm_ringStallLong, execRingStallLong]; exact ⟨_, rfl⟩
  | irqCoalesceTimeout _ => rw [arm_irqCoalesceTimeout, execIrqCoalesceTimeout]; exact ⟨_, rfl⟩
  | nop _ _ _ => rw [arm_nop, execNop, descCmd]; exact ⟨_, rfl⟩
  | barrier _ _ => rw [arm_barrier, execBarrier, nowCmd]; exact ⟨_, rfl⟩
  | barrierRelease _ => rw [arm_barrierRelease, execBarrierRelease]; exact ⟨_, rfl⟩
  | srcBind _ _ _ => rw [arm_srcBind, execSrcBind, descCmd]; exact ⟨_, rfl⟩
  | srcFallback _ _ _ => rw [arm_srcFallback, execSrcFallback, descCmd]; exact ⟨_, rfl⟩
  | streamSet _ _ _ => rw [arm_streamSet, execStreamSet, descCmd]; exact ⟨_, rfl⟩
  | chGain _ _ _ => rw [arm_chGain, execChGain, descCmd]; exact ⟨_, rfl⟩
  | flowRxSet _ _ _ => rw [arm_flowRxSet, execFlowRxSet, descCmd]; exact ⟨_, rfl⟩
  | flowEntryFetched _ _ => rw [arm_flowEntryFetched, execFlowEntryFetched]; exact ⟨_, rfl⟩
  | flowTxSet _ _ _ => rw [arm_flowTxSet, execFlowTxSet, descCmd]; exact ⟨_, rfl⟩
  | vsrcSet _ _ _ => rw [arm_vsrcSet, execVsrcSet, descCmd]; exact ⟨_, rfl⟩
  | faultEventLatch _ => exact Bool.noConfusion h
  | blockResetDone _ => exact Bool.noConfusion h
  | shadowClose _ => exact Bool.noConfusion h
  | blockResetOverdue _ => exact Bool.noConfusion h
  | engineReset => rw [arm_engineReset, execEngineReset]; exact ⟨_, rfl⟩
  | intHoldoffEnd _ => exact Bool.noConfusion h
  | fcAckWrite _ _ => rw [arm_fcAckWrite, execFcAckWrite]; exact ⟨_, rfl⟩
  | fcPfClearWrite _ _ => rw [arm_fcPfClearWrite, execFcPfClearWrite]; exact ⟨_, rfl⟩
  | fcFswClear _ _ _ => rw [arm_fcFswClear, execFcFswClear]; exact ⟨_, rfl⟩
  | fcFsw0Read _ => rw [arm_fcFsw0Read, execFcFsw0Read]; exact ⟨_, rfl⟩
  | fcHistTimeLoRead _ _ => rw [arm_fcHistTimeLoRead, execFcHistTimeLoRead]; exact ⟨_, rfl⟩
  | faultAck _ _ => rw [arm_faultAck, execFaultAck, nowCmd]; exact ⟨_, rfl⟩
  | faultClear _ _ => rw [arm_faultClear, execFaultClear, nowCmd]; exact ⟨_, rfl⟩
  | faultPfClear _ _ => rw [arm_faultPfClear, execFaultPfClear, nowCmd]; exact ⟨_, rfl⟩
  | faultReact _ _ _ => rw [arm_faultReact, execFaultReact, descCmd]; exact ⟨_, rfl⟩
  | collectorOscillatorStop => exact Bool.noConfusion h
  | scrubLineRead _ _ => rw [arm_scrubLineRead, execScrubLineRead]; exact ⟨_, rfl⟩
  | gblSysCtrlWrite _ _ => rw [arm_gblSysCtrlWrite, execGblSysCtrlWrite]; exact ⟨_, rfl⟩
  | lockstepMismatch => rw [arm_lockstepMismatch, execLockstepMismatch]; exact ⟨_, rfl⟩
  | coreWatchdogExpiry _ => rw [arm_coreWatchdogExpiry, execCoreWatchdogExpiry]; exact ⟨_, rfl⟩
  | coreKickWrite _ _ _ => rw [arm_coreKickWrite, execCoreKickWrite]; exact ⟨_, rfl⟩
  | machineTimer _ => rw [arm_machineTimer, execMachineTimer]; exact ⟨_, rfl⟩
  | coreMtimeLoRead _ => rw [arm_coreMtimeLoRead, execCoreMtimeLoRead]; exact ⟨_, rfl⟩
  | coreDqPush _ _ _ _ => rw [arm_coreDqPush, execCoreDqPush]; exact ⟨_, rfl⟩
  | coreCqPop _ _ _ => rw [arm_coreCqPop, execCoreCqPop]; exact ⟨_, rfl⟩
  | coreMboxBell _ _ => rw [arm_coreMboxBell, execCoreMboxBell]; exact ⟨_, rfl⟩
  | coreMboxRaise _ _ _ => rw [arm_coreMboxRaise, execCoreMboxRaise]; exact ⟨_, rfl⟩
  | coreAcReset _ _ _ => rw [arm_coreAcReset, execCoreAcReset]; exact ⟨_, rfl⟩
  | coreHostbootGo _ _ => rw [arm_coreHostbootGo, execCoreHostbootGo]; exact ⟨_, rfl⟩
  | otpRead _ => rw [arm_otpRead, execOtpRead]; exact ⟨_, rfl⟩
  | otpProgram _ => rw [arm_otpProgram, execOtpProgram]; exact ⟨_, rfl⟩
  | otpProgramDone _ => rw [arm_otpProgramDone, execOtpProgramDone]; exact ⟨_, rfl⟩
  | cryptoSha384 _ => rw [arm_cryptoSha384, execCryptoSha384]; exact ⟨_, rfl⟩
  | cryptoEcdsaVerify _ => rw [arm_cryptoEcdsaVerify, execCryptoEcdsaVerify]; exact ⟨_, rfl⟩
  | cryptoDone => rw [arm_cryptoDone, execCryptoDone]; exact ⟨_, rfl⟩
  | tlDefCommit _ _ _ => rw [arm_tlDefCommit, execTlDefCommit]; exact ⟨_, rfl⟩
  | tlDefStoreDone _ => rw [arm_tlDefStoreDone, execTlDefStoreDone]; exact ⟨_, rfl⟩
  | softwareResetKey _ _ => rw [arm_softwareResetKey, execSoftwareResetKey]; exact ⟨_, rfl⟩
  | gblLockWrite _ _ => rw [arm_gblLockWrite]; unfold execGblLockWrite; exact ⟨_, rfl⟩
  | dieTemperatureCrossing _ => exact Bool.noConfusion h
  | thermalShutdown => rw [arm_thermalShutdown, execThermalShutdown]; exact ⟨_, rfl⟩
  | thermalRelease => exact Bool.noConfusion h
  | registerWrite m a be v => exact registerWrite_act m a be v s
  | tileLinkReturn _ => rw [arm_tileLinkReturn, execTileLinkReturn]; exact ⟨_, rfl⟩
  | tileFaultNLow _ => rw [arm_tileFaultNLow, execTileFaultNLow]; exact ⟨_, rfl⟩
  | ref10mReturn => rw [arm_ref10mReturn, execRef10mReturn]; exact ⟨_, rfl⟩
  | aux12Restored _ => exact Bool.noConfusion h
  | rcRegisterRead _ _ => rw [arm_rcRegisterRead, execRcRegisterRead]; exact ⟨_, rfl⟩
  | hostBar2Write _ _ _ => rw [arm_hostBar2Write, execHostBar2Write]; exact ⟨_, rfl⟩

/-- While the controller is held such a command has no effect of its own. -/
theorem does_held (i : Instr) (s : State) (hs : s.hold ≠ .run) (h : actsWhileHeld i = false) : Does i s s := by
  obtain ⟨f, hf⟩ := exec_act i s h
  rw [Does, hf, act, if_neg hs, finish_eq]

end Sys2Proof.Machine
end

