-- ==== Sys2Proof/Laws/Memory.lean ====
section
/-! SUPPORT. Every operation on a memory keeps its canonical form: a write of bytes, a load of an image, and the memories of the
state after reset. -/

namespace Sys2Proof.Machine

/-- A write of one byte. -/
theorem Memory.wf_byte (m : Sparse Byte) (a : Nat) (b : Byte) (h : Memory.wf m = true) : Memory.wf (Sparse.set 0 m a b) = true :=
  Sparse.wf_set (fun _ => 0#8) m a b h

/-- A write of bytes, each at an address of its own. -/
theorem Memory.wf_bytes {ι : Type} (f : ι → Nat) (g : ι → Byte) (bs : List ι) (m : Sparse Byte) (h : Memory.wf m = true) :
    Memory.wf (bs.foldl (fun m p => Sparse.set 0 m (f p) (g p)) m) = true := by
  induction bs generalizing m with
  | nil => exact h
  | cons p bs ih => exact ih _ (Memory.wf_byte m _ _ h)

theorem State.setBankShown_vat (s : State) (n : Nat) (b : BankH) : (s.setBankShown n b).vat = s.vat := by
  unfold State.setBankShown; rw [State.putF_vat, State.setBank_vat]

theorem State.vatErrInfo_vat (s : State) (bank master det word : Nat) : (s.vatErrInfo bank master det word).vat = s.vat := by
  unfold State.vatErrInfo; rw [State.setReg_vat]

/-- An error found in a word leaves the bytes of the vat. -/
theorem State.vatFound_vat (s : State) (n : Nat) (e : BadWord) (master det : Nat) : (s.vatFound n e master det).vat = s.vat := by
  unfold State.vatFound
  dsimp only
  generalize s.vatCritical _ = c
  generalize Reg.mxVbankCeCnt n = r1
  generalize Reg.mxVbankUeCnt n = r2
  generalize Reg.mxStatus = r3
  split
  · rw [State.emit_vat, State.vatErrInfo_vat, State.bump_vat, State.setBankShown_vat]
  · split
    · rfl
    · have h0 : ∀ code syn, (((s.bump r2 32).vatErrInfo n master det e.word).emit (196 + n) code syn).vat = s.vat := by
        intro code syn; rw [State.emit_vat, State.vatErrInfo_vat, State.bump_vat]
      generalize (if c = true then 3 else 2) = code
      generalize hv : ((s.bump r2 32).vatErrInfo n master det e.word).emit (196 + n) code (vatSyn code det e.word) = v
      have h1 : v.vat = s.vat := hv ▸ h0 _ _
      generalize (s.bankAt n) = b
      split
      · rw [State.setBankShown_vat, h1]
      · split
        · rw [State.setBit_vat, h1]
        · rw [State.emit_vat, State.setBit_vat, State.setBank_vat, h1]

/-- A word written into the vat. -/
theorem State.vatWriteWord_wf (s : State) (w : VatWriter) (a : Nat) (bs : List Byte) (h : Memory.wf s.vat = true) :
    Memory.wf (s.vatWriteWord w a bs).vat = true := by
  have hw := Memory.wf_bytes (fun p : Byte × Nat => a + p.2) (·.1) bs.zipIdx s.vat h
  unfold State.vatWriteWord
  generalize a / 0x800000 % 16 = n
  generalize a % 0x800000 / 8 = word
  dsimp only
  split
  · rw [State.emit_vat, State.vatErrInfo_vat]; exact h
  · split
    · split
      · rw [State.vatFound_vat]; exact h
      · rw [State.setBankShown_vat]; exact hw
    · split
      · exact hw
      · rw [State.setBank_vat]; exact hw

/-- What `Sparse.rising` says: the indices rise, all above the bound. -/
theorem rising_above {α : Type} : ∀ (m : Sparse α) (lo : Option Nat), Sparse.rising lo m = true ↔
    List.Pairwise (· < ·) (m.map (·.1)) ∧ ∀ l, lo = some l → ∀ p ∈ m, l < p.1 := by
  intro m
  induction m with
  | nil => intro lo; cases lo <;> simp [Sparse.rising]
  | cons q m ih =>
    obtain ⟨i, a⟩ := q
    intro lo
    cases lo with
    | none => simp [Sparse.rising, ih, and_comm]
    | some l =>
      simp only [Sparse.rising, Bool.and_eq_true, decide_eq_true_eq, ih, List.map_cons, List.pairwise_cons]
      constructor
      · rintro ⟨h1, h2, h3⟩
        refine ⟨⟨?_, h2⟩, ?_⟩
        · intro b hb; obtain ⟨p, hp, rfl⟩ := List.mem_map.mp hb; exact h3 i rfl p hp
        · intro l' hl p hp; cases hl
          rcases List.mem_cons.mp hp with rfl | hp
          · exact h1
          · exact lt_trans h1 (h3 i rfl p hp)
      · rintro ⟨⟨h1, h2⟩, h3⟩
        exact ⟨h3 l rfl _ List.mem_cons_self, h2, fun l' hl p hp => by
          cases hl; exact h1 _ (List.mem_map.mpr ⟨p, hp, rfl⟩)⟩

/-- An image loaded from address 0. -/
theorem loadBytesAt0_wf (m : Sparse Byte) (bs : List Byte) (h : Memory.wf m = true) : Memory.wf (loadBytesAt0 m bs) = true := by
  simp only [Memory.wf, Sparse.wf, Bool.and_eq_true, rising_above, List.all_eq_true, decide_eq_true_eq] at h ⊢
  obtain ⟨⟨hp, -⟩, hz⟩ := h
  unfold loadBytesAt0
  refine ⟨⟨?_, by simp⟩, ?_⟩
  · simp only [List.map_append, List.map_map, List.pairwise_append]
    refine ⟨?_, ?_, ?_⟩
    · rw [List.pairwise_map]
      apply List.Pairwise.filter
      have hz : List.Pairwise (· < ·) (bs.zipIdx.map Prod.snd) := by
        rw [List.zipIdx_map_snd]; exact List.pairwise_lt_range'
      exact List.pairwise_map.mp hz
    · exact (List.pairwise_map.mp hp |>.filter _).map _ (fun _ _ h => h)
    · intro a ha b hb
      simp only [List.mem_map, List.mem_filter, Function.comp] at ha hb
      obtain ⟨p, ⟨hp, -⟩, rfl⟩ := ha
      obtain ⟨q, ⟨-, hq⟩, rfl⟩ := hb
      have := List.snd_lt_of_mem_zipIdx hp
      simp at hq this ⊢
      omega
  · intro p hp
    rcases List.mem_append.mp hp with h1 | h1
    · simp only [List.mem_map, List.mem_filter] at h1
      obtain ⟨q, ⟨-, hq⟩, rfl⟩ := h1
      simpa using hq
    · exact hz p (List.mem_filter.mp h1).1

/-- The memories of the state after reset. -/
theorem State.reset_memory : Memory.wf State.reset.vat = true ∧ Memory.wf State.reset.csram = true ∧
    State.reset.cores.all (fun c => Memory.wf c.2.tcm) = true := ⟨rfl, rfl, rfl⟩

end Sys2Proof.Machine
end

