-- ==== Sys2Proof/Laws/Pins.lean ====
section
/-! SUPPORT. What the error pins depend on (R493, R494), and what the collector leaves when it has closed a command. -/

namespace Sys2Proof.Machine

theorem any_below_congr (n : Nat) (f g : Nat → Bool) (h : ∀ w, w < n → f w = g w) : (List.range n).any f = (List.range n).any g := by
  rw [Bool.eq_iff_iff]
  simp only [List.any_eq_true, List.mem_range]
  exact ⟨fun ⟨x, hx, h1⟩ => ⟨x, hx, (h x hx) ▸ h1⟩, fun ⟨x, hx, h1⟩ => ⟨x, hx, (h x hx).symm ▸ h1⟩⟩

/-- VA_ALIVE depends on the collector and on the hold bits and GBL_MODE alone. -/
theorem vaLevel_congr (s t : State) (hv : ∀ w, w < 8 → t.reg (Reg.fcHoldva w) = s.reg (Reg.fcHoldva w))
    (hm : t.reg Reg.gblMode = s.reg Reg.gblMode) (hf : t.fc = s.fc) : t.vaLevel = s.vaLevel := by
  have h1 : t.vaHeld = s.vaHeld := by
    unfold State.vaHeld State.ftm State.bit
    rw [any_below_congr 8 _ _ fun w hw => by rw [hv w hw], hm]
  unfold State.vaLevel
  rw [h1, hf]

/-- GEN_FAULT_n depends on the hold bits, GBL_MODE and GBL_MODE_CFG alone. -/
theorem genHeld_congr (s t : State) (hv : ∀ w, w < 8 → t.reg (Reg.fcHoldgen w) = s.reg (Reg.fcHoldgen w))
    (hm : t.reg Reg.gblMode = s.reg Reg.gblMode) (hc : t.reg Reg.gblModeCfg = s.reg Reg.gblModeCfg) : t.genHeld = s.genHeld := by
  unfold State.genHeld State.wup State.mnt State.ftm State.bit
  rw [any_below_congr 8 _ _ fun w hw => by rw [hv w hw], hm, hc]

/-- Closing a command changes no register but the two that show the pins and shadows. -/
theorem settle_vaLevel (s : State) : s.settle.vaLevel = s.vaLevel :=
  vaLevel_congr s s.settle (fun w hw => settle_reg s _ (by simp only [Reg.fcHoldva, Reg.fcStatus]; omega)
    (by simp only [Reg.fcHoldva, Reg.fcShadow]; omega)) (settle_reg s _ (by decide) (by decide)) rfl

theorem settle_genHeld (s : State) : s.settle.genHeld = s.genHeld :=
  genHeld_congr s s.settle (fun w hw => settle_reg s _ (by simp only [Reg.fcHoldgen, Reg.fcStatus]; omega)
    (by simp only [Reg.fcHoldgen, Reg.fcShadow]; omega)) (settle_reg s _ (by decide) (by decide))
    (settle_reg s _ (by decide) (by decide))

/-- `FC_STATUS` as closing a command leaves it. -/
theorem settle_status (s : State) : s.settle.reg Reg.fcStatus =
    setBitAt (setBitAt (setBitAt (setBitAt (s.reg Reg.fcStatus) 0 (!s.fc.running || s.genHeld)) 1 (s.vaLevel == .low)) 2
      (!s.fc.shadows.isEmpty)) 3 (s.bitVecGet Reg.fcFsw 255) := by
  unfold State.settle
  rw [State.reg_setReg_ne _ _ _ _ (by decide), State.reg_setReg_same]
  rfl

theorem withPacer_frame (s : State) (p : PacerH) (c : Bool) : ∃ r,
    (if c then ({ s with pacer := p } : State).setBit Reg.pcrStatus 4 true else { s with pacer := p }) = { s with pacer := p, regs := r } ∧
    ∀ o, o ≠ Reg.pcrStatus →
      (if c then ({ s with pacer := p } : State).setBit Reg.pcrStatus 4 true else { s with pacer := p }).reg o = s.reg o := by
  cases c with
  | false => exact ⟨s.regs, rfl, fun _ _ => rfl⟩
  | true => exact ⟨_, rfl, fun o h => by rw [if_pos rfl, State.reg_setBit, if_neg h]; rfl⟩

/-- A cycle of the pacer changes the pacer and `PCR_STATUS` alone. -/
theorem pacerCycles_frame (s : State) (k : Nat) : ∃ p r, s.pacerCycles k = { s with pacer := p, regs := r } ∧
    ∀ o, o ≠ Reg.pcrStatus → (s.pacerCycles k).reg o = s.reg o := by
  unfold State.pacerCycles
  generalize s.pacerF = x
  obtain ⟨f, rem, c⟩ := x
  exact ⟨_, withPacer_frame s _ c⟩

end Sys2Proof.Machine
end

