-- ==== Sys2Proof/Laws/Slots.lean ====
section
/-! SUPPORT. What the shared operations of a lane processor's slots do once their slot issues. -/

namespace Sys2Proof.Machine

/-- An F-slot operation that issues puts its result under way. -/
theorem lpF_issues {s : State} {n : Nat} {f1 : Bool} {op lat : Nat} {srcs : Word → List Nat}
    {val : Word → Word → List Word → Word} {w : Word} {h : LpH} (hi : s.FIssues n f1 op srcs w h) :
    s.lpF n f1 op lat srcs val = s.fResult n f1 w h lat (val s.freeVal w ((srcs w).map h.reg)) := by
  obtain ⟨-, hc, rfl, rfl⟩ := hi
  simp only [State.lpF, hc, Bool.not_true, Bool.false_eq_true, if_false]
  rfl

/-- An M-slot operation that issues does the rest. -/
theorem lpM_issues {s : State} {n op : Nat} {srcs : Word → List Nat} {k : Word → LpH → State → State} {w : Word} {h : LpH}
    (hi : s.MIssues n op srcs w h) : s.lpM n op srcs k = k w h s := by
  obtain ⟨-, hc, rfl, rfl⟩ := hi
  simp only [State.lpM, hc, Bool.not_true, Bool.false_eq_true, if_false]

theorem lpAccess_free {s : State} {n a : Nat} {h k : LpH} (hf : h.Free a 4) : s.lpAccess n a h k = s.setLp n (k.mark 2) := by
  simp [State.lpAccess, hf.1, hf.2]

/-- A control operation that issues does the rest. -/
theorem lpC_issues {s : State} {n op : Nat} {srcs : Word → List Nat} {k : Word → LpH → State → State} {w : Word} {h : LpH}
    (hi : s.CIssues n op srcs w h) : s.lpC n op srcs k = k w h s := by
  obtain ⟨-, hc, rfl, rfl⟩ := hi
  simp only [State.lpC, hc, Bool.not_true, Bool.false_eq_true, if_false]

theorem dmemBad_shorter {a l : Nat} (h : dmemBad a l = none) (h4 : 4 ≤ l) : dmemBad a 4 = none := by
  unfold dmemBad at *
  split at h
  · simp at h
  · split at h
    · simp at h
    · rw [if_neg (by omega), if_neg ‹_›]

theorem findSome?_none_of {α β : Type} {f : α → Option β} {l : List α} (h : ∀ x ∈ l, f x = none) : l.findSome? f = none :=
  List.findSome?_eq_none_iff.mpr h

/-- A block primitive that issues with its operands in range and its memory free computes, and ends the bundle. -/
theorem lpP_issues {s : State} {n op : Nat} {counted : Bool} {bad : PrimArgs → Word → LpH → Bool}
    {ranges : PrimArgs → Word → LpH → List (Nat × Nat)} {cycles : PrimArgs → LpH → Nat}
    {k : PrimArgs → Word → LpH → Nat → LpH × Nat} {w : Word} {h : LpH} {p : PrimArgs} (hi : s.PIssues n op w h p)
    (hn : counted = true → 1 ≤ p.n ∧ p.n ≤ 4096) (hb : bad p w h = false)
    (hr : ∀ r ∈ ranges p w h, 4 ≤ r.2 ∧ h.Free r.1 r.2) :
    s.lpP n op counted bad ranges cycles k =
      State.lpClose { s with freeCtr := (k p w h s.freeCtr).2 } n (k p w h s.freeCtr).1 none (cycles p h - 1) := by
  obtain ⟨h0, hc, hh, hp⟩ := hi
  have e1 : (ranges p w h).findSome? (fun r => dmemBad r.1 4) = none :=
    findSome?_none_of fun r hm => dmemBad_shorter (hr r hm).2.1 (hr r hm).1
  have e2 : (ranges p w h).findSome? (fun r => dmemBad r.1 r.2) = none :=
    findSome?_none_of fun r hm => (hr r hm).2.1
  have e3 : ((ranges p w h).any fun r => h.busyRange r.1 r.2) = false :=
    List.any_eq_false.mpr fun r hm => by simp [(hr r hm).2.2]
  have hn' : (counted && (p.n == 0 || decide (4096 < p.n))) = false := by
    cases counted with
    | false => rfl
    | true =>
      have := hn rfl
      simp only [Bool.true_and, Bool.or_eq_false_iff, beq_eq_false_iff_ne, decide_eq_false_iff_not]
      omega
  have e0 : s.lpP n op counted bad ranges cycles k =
      if (counted && (p.n == 0 || decide (4096 < p.n))) = true then s.lpFault n pfOperand
      else
        match (ranges p w h).findSome? fun r => dmemBad r.1 4 with
        | some c => s.lpFault n c
        | none =>
          if bad p w h = true then s.lpFault n pfOperand
          else
            match (ranges p w h).findSome? fun r => dmemBad r.1 r.2 with
            | some c => s.lpFault n c
            | none =>
              if ((ranges p w h).any fun r => h.busyRange r.1 r.2) = true then s
              else State.lpClose { s with freeCtr := (k p w h s.freeCtr).2 } n (k p w h s.freeCtr).1 none (cycles p h - 1) := by
    rw [State.lpP, lpC_issues hc]
    subst hh hp
    rfl
  simp only [e0, hn', e1, hb, e2, e3, Bool.false_eq_true, if_false]

end Sys2Proof.Machine
end

