-- ==== Sys2Proof/Tests/Slice0.lean ====
section
/-! SUPPORT. Tests: ill-formed commands that `Instr.wf` refuses; values that the spec's own worked examples give; and for each
obligation with hypotheses a concrete state and operands that meet the hypotheses of each of its clauses together. A clause whose
only hypothesis is that the controller runs is met by `State.reset` (`witness_run`). Where a hypothesis rests on a free value of
Config (which program images are the standard one, what the vat supplies), the witness takes a value of it as given. -/

set_option Elab.async false
set_option linter.unusedVariables false

namespace Sys2Proof.Tests

open Sys2Proof.Machine

/-! ### Ill-formed commands -/

theorem test_wf_payload : (Instr.zoneSet .accept (.core 0 0) { payload := List.replicate 39 0 }).wf = false := by decide +kernel
theorem test_wf_payload_ok : (Instr.zoneSet .accept (.core 0 0) { payload := List.replicate 40 0 }).wf = true := by decide +kernel
theorem test_wf_probes : (Instr.linkTrainingWindowEnd [⟨3, 0, 0, 0, false⟩, ⟨3, 1, 0, 0, false⟩]).wf = false := by decide +kernel
theorem test_wf_image (bs : List Byte) (h : bs.length = 2 ^ 32) : (Instr.firmwareBoot ⟨0, true, bs⟩).wf = false := by
  show decide (bs.length < 2 ^ 32) = false
  rw [h]; rfl
theorem test_wf_read (bs : List Byte) (h : bs.length = 2 ^ 32) : (Instr.clipLoadDone (.core 0 0) (.data bs)).wf = false := by
  show decide (bs.length < 2 ^ 32) = false
  rw [h]; rfl
theorem test_wf_channelStatus : (Instr.aesCsBlock 0 0 (List.replicate 23 0) false).wf = false := by decide +kernel
theorem test_wf_frame : (Instr.pktRxFrame 0 true (List.replicate 3 0)).wf = false := by decide +kernel
theorem test_wf_frameLong (bs : List Byte) (h : bs.length = 2 ^ 16) : (Instr.pktRxFrame 0 true bs).wf = false := by
  show (decide (4 ≤ bs.length) && decide (bs.length < 2 ^ 16)) = false
  rw [h]; rfl
theorem test_wf_hostFrame (bs : List Byte) (h : bs.length = 2047) : (Instr.pktHostFrameSend 0 bs).wf = false := by
  show (bs.length == 2048) = false
  rw [h]; rfl
/-- A whole sense frame. -/
def measure : TileMeasure :=
  { sense := List.replicate 32 0, earth := List.replicate 2 (0, 0), lev := List.replicate 16 0 }
theorem test_wf_measured : (Instr.tlUpstreamFrame 0 0 measure).wf = true := by decide +kernel
theorem test_wf_sense : (Instr.tlUpstreamFrame 0 0 { measure with sense := List.replicate 31 0 }).wf = false := by decide +kernel
theorem test_wf_earth : (Instr.tlUpstreamFrame 0 0 { measure with earth := [(0, 0)] }).wf = false := by decide +kernel
theorem test_wf_evidence : (Instr.tlUpstreamFrame 0 0 { measure with lev := List.replicate 8 0 }).wf = false := by decide +kernel
theorem test_wf_burst : (Instr.ringReadDone 0 (List.replicate 17 ({ body := { payload := List.replicate 40 0 } }, []))).wf = false := by
  decide +kernel
theorem test_wf_events : (Instr.faultEventLatch [⟨5, .c, 0, 0, false⟩, ⟨5, .u, 0, 0, false⟩]).wf = false := by decide +kernel
theorem test_wf_offset : (Instr.registerWrite .ssv (.bar0 2) 0xF 0).wf = false := by decide +kernel
theorem test_wf_offsetHigh : (Instr.registerWrite .ssv (.bar0 (2 ^ 25)) 0xF 0).wf = false := by decide +kernel
theorem test_wf_matrix : (Instr.registerWrite .ssv (.matrix 2 0) 0xF 0).wf = false := by decide +kernel
theorem test_wf_empty : (Instr.hostBar2Write 0 0 []).wf = false := by decide +kernel
theorem test_wf_window : (Instr.hostBar2Write 0 0x7FFFFFF [0, 0]).wf = false := by decide +kernel
theorem test_wf_entries : (Instr.ringReadDone 0 [({ body := { payload := List.replicate 39 0 } }, [])]).wf = false := by
  decide +kernel
theorem test_wf_lines : (Instr.scrubLineRead 0 [(5, true), (5, false)]).wf = false := by decide +kernel

/-! ### Values of the spec's examples -/

/-- What `f` reads after a command, if it answers a next state. -/
def after {α : Type} (i : Instr) (s : State) (f : State → α) : Option α :=
  match exec i s with
  | .next t => some (f t)
  | _ => none

/-- The registers that the offsets of the register index name. -/
theorem test_offsets : Reg.tlRelay 6 = 0x118034 ∧ Reg.zmZLSrc 24 5 = 0xA4C58 ∧ Reg.db 13 = 0x400068 := by decide +kernel
/-- Heat of the pacer time 1,745,200,000,012,000,000 ns. -/
theorem test_heat : ({ State.reset with pacer := { ns := 1745200000012000000 } } : State).heat = 1745200000012 := by decide +kernel
/-- R48: beyond 500 ppm the adjustment is stored clamped and ADJ_CLAMP set. -/
theorem test_adj_clamp : after (.pcrAdjFreqWrite .ssv 500000001) State.reset (fun s => (s.reg Reg.pcrAdjFreq, s.bit Reg.pcrStatus 4)) =
    some (500000000#32, true) := by decide +kernel
/-- History of AES3 receiver 2 at 96 kHz with 64 and with 128 taps. -/
theorem test_history : historyNeed 2 4 = 280 ∧ historyNeed 3 4 = 344 := by decide +kernel
/-- TDM5: 256 bit clocks, 10 slots, offset 1, slots of 24 bits, words of 20, a block slot of 1,792 bytes. -/
theorem test_tdm5 : tdmFrameOk 0x20090141 = true ∧ tdmWordBits 0x20090141 = 20 ∧ slotSize 54 8 = 1792 := by decide +kernel
/-- One slot more of 24 bits does not fit in 256 bit clocks after offset 17. -/
theorem test_tdm_overlong : tdmFrameOk 0x20091141 = false := by decide +kernel
/-- Pages of the chime and of the first message. -/
theorem test_pages : ceilDiv (32000 * 2) 4096 = 16 ∧ ceilDiv (696000 * 3) 4096 = 510 := by decide +kernel
/-- The bundle FMA f10, f4, f5, f10; FMUL f11, f6, f7; LDFP f12, [a3], +1; BNZ a2, 0x010. -/
theorem test_bundle :
    (slotOp 0x10A10528, fFD 0x10A10528, fFA 0x10A10528, fFB 0x10A10528, fFC 0x10A10528) = (0x04, 10, 4, 5, 10) ∧
    (slotOp 0x0CB18700, fFD 0x0CB18700, fFA 0x0CB18700, fFB 0x0CB18700) = (0x03, 11, 6, 7) ∧
    (slotOp 0x0CC30001, mF 0x0CC30001, mAB 0x0CC30001, mImm 0x0CC30001) = (0x03, 12, aReg 3, 1) ∧
    (slotOp 0x0C800010, cA 0x0C800010, cT 0x0C800010) = (0x03, aReg 2, 0x010) := by decide +kernel
/-- BNZ a2, 0x010 with a2 not zero goes on at bundle 0x010. -/
theorem test_bnz : after (.bnz 0)
    (({ State.reset with lps := [(0, { imem := [(3, 0x0C800010)], regs := [(aReg 2, 5)] })] } : State).setBit (Reg.lpnStatus 0) 8 true)
    (fun s => (s.lpAt 0).pc) = some 0x010 := by decide +kernel
/-- Three events of one cycle: entries 35, 147 and 160 in this order, the photo-finish record copies the first with CLASS 1. -/
theorem test_photo_finish : after
    (.faultEventLatch [⟨35, .u, 0x21, syn16 0xB1 35 0, false⟩, ⟨147, .u, 0x25, 0x72, false⟩, ⟨160, .c, 0, 1, false⟩])
    (State.reset.setBit (Reg.tlLinkStatus 4) 0 true)
    (fun s => ([s.getF (Reg.fcHist 0 3) 15 8, s.getF (Reg.fcHist 1 3) 15 8, s.getF (Reg.fcHist 2 3) 15 8],
      s.getF (Reg.fcPf 3) 15 8, s.getF (Reg.fcPf 3) 1 0, [35, 147, 160].map (s.bitVecGet Reg.fcHoldgen), s.fc.resets)) =
    some ([35, 147, 160], 35, 1, [true, true, false], [147]) := by decide +kernel
/-- Ring 12 of 256 entries: a producer index of 80 is in range, one of 257 is not. -/
def ring12 : State :=
  ((State.reset.setReg (Reg.ringCfg 13) 0x820A0000).setReg (Reg.ringCfg 12) 0x8008000D)
theorem test_doorbell : after (.doorbellWrite .ssv 12 true 80) ring12 (fun s => (s.reg (Reg.ringProd 12), s.bit (Reg.ringStatus 12) 5)) =
    some (80#32, false) := by decide +kernel
theorem test_doorbell_range : after (.doorbellWrite .ssv 12 true 257) ring12
    (fun s => (s.reg (Reg.ringProd 12), s.bit (Reg.ringStatus 12) 5)) = some (0#32, true) := by decide +kernel
/-- A step takes the front of the queue. -/
theorem test_queue : (match step { State.reset with pending := [.powerFail, .engineReset] } with
    | .next t => t.pending
    | _ => []) = [.engineReset] := by decide +kernel
/-- 1 + 2 = 3, 1 + the smallest subnormal = 1 (flushed operands, R232). -/
theorem test_sum : addVal 0 0x3F800000 0x40000000 = 0x40400000 ∧ addVal 0 0x3F800000 1 = 0x3F800000 := by decide +kernel
/-- FIPS 180-4: the digest of "abc". -/
theorem test_sha384 : leAt (sha384 [0x61, 0x62, 0x63]).reverse 0 48 =
    0xcb00753f45a35e8bb5a03d699ac65007272c32ab0eded1631a8b605a43ff5bed8086072ba1e7cc2358baeca134c825a7 := by decide +kernel

/-! ### Witnesses -/

theorem witness_run : State.reset.hold = .run := rfl

/-- State.reset in heat 5. -/
def w0 : State := { State.reset with pacer := { ns := 5000000#64 } }
def wSched (b : Blk) (op : Nat) (o : Origin) (d : Body) : Sched := { id := 7, org := o, desc := descOf op d, blk := b, heat := 1 }
def wDue (s : State) (b : Blk) (op : Nat) (o : Origin) (d : Body) : State := { s with pacer := { ns := 5000000#64 }, sched := [wSched b op o d] }
def wCore (s : State) : State := ((s.putF Reg.gblBatonState 2 0 2).putF Reg.gblBatonState 5 4 0).setReg (Reg.coreAcOpmask 0) 0xFFFFFFFF#32
/-- Ring 1 a completion ring of port 0, ring 0 a command ring of port 0 with one entry, port 0 usable and the owner. -/
def wRing (s : State) : State :=
  let s := ((s.putF Reg.gblBatonState 2 0 2).putF Reg.gblBatonState 5 4 0).setReg (Reg.hpStatus 0) 0x143#32
  let s := (s.setReg (Reg.ringCfg 1) 0x82040000#32).setReg (Reg.ringCfg 0) 0x80040001#32
  s.setReg (Reg.ringProd 0) 1
def wLp (s : State) (slot op lo : Nat) : State :=
  (s.setLp 0 { s.lpAt 0 with imem := [(slot, BitVec.ofNat 32 (op * 2 ^ 26 + lo))] }).setBit (Reg.lpnStatus 0) 8 true
/-- Lane 0 present and running on a running processor. -/
def wLane (s : State) : State :=
  ((s.setBit (Reg.tlLinkStatus 0) 0 true).putF (laneReg 0) 2 0 lsRunning).setLpSt 0 lpRunning
/-- Tile 0 present, the zone mixer on, lane 0 running on a running processor. -/
def wAll (s : State) : State := (wLane s).setBit Reg.zmCtrl 0 true
/-- Results of a diagnostic program that hold the pilot on and permit the line verdict. -/
def wRec : List Byte := List.replicate 0xE02 0#8 ++ [3#8]
/-- Default values of a tile: rail 600, every lane at the low bounds, the CRC over the first 252 bytes. -/
def wDefs : List Byte :=
  [0x44, 0x4C, 1, 0, 88, 2, 100] ++ List.replicate 9 0#8 ++
    (List.range 8).flatMap (fun _ => [0, 0, 0, 0, 208, 7, 20, 0, 100, 0, 100, 0, 10, 0, 10, 0]) ++ List.replicate 108 0#8 ++ [161, 126, 5, 136]
/-- The smallest unsigned firmware image. -/
def wFw : List Byte :=
  [0x57, 0x46, 0x42, 0x4D, 1, 0, 0, 0] ++ List.replicate 8 0#8 ++ [4#8] ++ List.replicate 243 0#8
/-- The smallest unsigned program image: one bundle, no data. -/
def wImg : List Byte :=
  [0x50, 0x4C, 0x42, 0x4D, 1, 0, 0, 0, 0, 0, 0, 0, 0, 0, 1, 0, 0, 0xA0, 1] ++ List.replicate 253 0#8
/-- A synchronous flow whose buffers the vat supplies has its resources. -/
theorem rxResources_supplied (s : State) (f : Nat) (en : List Byte) (n : Nat) (hv : Config.vatSupplies n = true)
    (hn : leAt en 36 2 * rxChans en * 4 + leAt en 41 1 * slotSize (frames112 (fmtRate (rxFmt en))) (rxChans en) = n)
    (h1 : (decide (4096 < (s.srcs.filter fun x => match x.2.bind with
          | .flow g _ => g != f
          | _ => false).length + rxChans en) ||
        decide (leAt en 36 2 < rxMul en * rxPlayout en + 2 * rxS en) || !s.rxPortsOk f en) = false)
    (h2 : rxConv en = false) : s.rxResources f en = some (s.asrcDrop (4096 + f)) := by
  subst hn
  unfold State.rxResources
  simp only [hv, h2, Bool.not_true, Bool.or_false, Bool.not_false, if_true]
  exact if_neg fun h => Bool.false_ne_true (h1.symm.trans h)

theorem rxResources_ok (s : State) (f : Nat) (en : List Byte) (n : Nat) (hv : Config.vatSupplies n = true)
    (hn : leAt en 36 2 * rxChans en * 4 + leAt en 41 1 * slotSize (frames112 (fmtRate (rxFmt en))) (rxChans en) = n)
    (h1 : (decide (4096 < (s.srcs.filter fun x => match x.2.bind with
          | .flow g _ => g != f
          | _ => false).length + rxChans en) ||
        decide (leAt en 36 2 < rxMul en * rxPlayout en + 2 * rxS en) || !s.rxPortsOk f en) = false)
    (h2 : rxConv en = false) : s.rxResources f en = some ((s.rxResources f en).getD s) := by
  rw [rxResources_supplied s f en n hv hn h1 h2]
  rfl

/-- A probe that found no voltage at all: |Z| is 0 whatever the free deviations are. -/
theorem probe_zero (p : ProbeH) (h : p = { taken := 2000, v := (0, 0), i := (1, 0) }) : p.z = 0#32 := by
  subst h
  have h0 : near 21 0 = 0 := Rat.zero_mul _
  have h1 : sqrtOf (((0 : Rat) * 0 + 0 * 0) / (1 * 1 + 0 * 0)) = 0 := by decide +kernel
  show (if (1 : Rat) * 1 + 0 * 0 = 0 then f32Inf false else f32OfRat (near 21 (sqrtOf (((0 : Rat) * 0 + 0 * 0) / (1 * 1 + 0 * 0))))) = 0#32
  rw [h1, h0]
  decide +kernel

/-- A descriptor with the payload `pl`, first in its queue, meets what acceptance asks. -/
abbrev WAccepts (s : State) (row : Row) (op : Nat) (o : Origin) (pl : List Byte) : Prop :=
  s.Accepts row op o { payload := pl } .error ((s.front o).bump Reg.rngAcceptCnt 32)
    ((s.front o).newSched row (s.frontAt o) (descOf op { payload := pl }) .error)

theorem witness_descriptorsScheduled1 :
  WAccepts (wRing (wAll State.reset)) voteMarkRow 0x0041 (.ring 0 0) [] ∧
  WAccepts (wCore (wAll State.reset)) testReqRow 0x0400 (.core 0 0) [0, 1, 0, 0, 0, 0, 0, 0, 0, 0, 0, 0, 0, 0, 0, 0, 0xFF, 0xFF, 0xFF, 0xFF] ∧
  WAccepts (wCore (wAll State.reset)) testCancelRow 0x0401 (.core 0 0) [0, 1] ∧
  WAccepts (wCore (wAll State.reset)) testgenSetRow 0x0402 (.core 0 0) [] ∧
  WAccepts (wCore (State.reset)) faultReactRow 0x0703 (.core 0 0) [] ∧
  WAccepts (wCore (wAll State.reset)) laneParamInlineRow 0x0201 (.core 0 0) [0, 0, 0, 0, 4] ∧
  WAccepts (wCore (wAll State.reset)) laneDelayRow 0x0202 (.core 0 0) [] ∧
  WAccepts (wCore (wAll State.reset)) lpRunStartRow 0x0211 (.core 0 0) [1, 0, 1] ∧
  WAccepts (wCore (wAll State.reset)) lpRunStopRow 0x0211 (.core 0 0) [1] ∧
  WAccepts (wRing (wAll State.reset)) modeVaRow 0x0500 (.ring 0 0) [2, 1] ∧
  WAccepts (wCore (wAll State.reset)) modeBatRow 0x0500 (.core 0 0) [6, 1] ∧
  WAccepts (wCore (wAll State.reset)) modeMntRow 0x0500 (.core 0 0) [11, 1] ∧
  WAccepts (wCore (wAll State.reset)) modeWupRow 0x0500 (.core 0 0) [7, 0] ∧
  WAccepts (wCore (wAll State.reset)) modeFtmRow 0x0500 (.core 0 0) [12, 1] ∧
  WAccepts (wCore (State.reset)) flowRxSetRow 0x0610 (.core 0 0) [] ∧
  WAccepts (wCore (State.reset)) flowTxSetRow 0x0611 (.core 0 0) [] ∧
  WAccepts (wCore (State.reset)) playerSetRow 0x0300 (.core 0 0) [] ∧
  WAccepts (wRing (wAll State.reset)) rindSetRow 0x0230 (.ring 0 0) [0, 1, 100] ∧
  WAccepts (wRing (wAll State.reset)) rindClearRow 0x0231 (.ring 0 0) [] ∧
  WAccepts (wCore (State.reset)) battSetRow 0x0232 (.core 0 0) [] ∧
  WAccepts (wCore (wAll State.reset)) poolSetRow 0x0233 (.core 0 0) [0, 0, 0, 0, 0, 0, 0, 0, 10] ∧
  WAccepts (wCore (State.reset)) nopRow 0x0000 (.core 0 0) [] ∧
  WAccepts (wCore (wAll State.reset)) chGainRow 0x0603 (.core 0 0) [1] := by
  refine ⟨?_, ?_, ?_, ?_, ?_, ?_, ?_, ?_, ?_, ?_, ?_, ?_, ?_, ?_, ?_, ?_, ?_, ?_, ?_, ?_, ?_, ?_, ?_⟩ <;> decide +kernel

theorem witness_descriptorsScheduled2 :
  WAccepts (wCore (wAll State.reset)) streamSetRow 0x0602 (.core 0 0) [1] ∧
  WAccepts (wCore (wAll State.reset)) srcBindRow 0x0600 (.core 0 0) [0, 0, 1, 0, 0, 0, 0xFF, 0xFF] ∧
  WAccepts (wCore (wAll State.reset)) srcFallbackRow 0x0601 (.core 0 0) [0, 0, 0xFF, 0xFF] ∧
  WAccepts (wCore (wAll State.reset)) (laneRunRow 1 laneStart) 0x0220 (.core 0 0) [0, 1] ∧
  WAccepts (wCore (wAll State.reset)) (laneRunRow 0 laneStop) 0x0220 (.core 0 0) [0, 0] ∧
  WAccepts (wCore (wAll State.reset)) (laneRunRow 2 laneMute) 0x0220 (.core 0 0) [0, 2] ∧
  WAccepts (wCore (wAll State.reset)) (laneRunRow 3 laneUnmute) 0x0220 (.core 0 0) [0, 3] ∧
  WAccepts (wRing (wAll State.reset)) scClearRow 0x0221 (.ring 0 0) [] ∧
  WAccepts (wCore (wAll State.reset)) relaySetRow 0x0222 (.core 0 0) [] ∧
  WAccepts (wCore (wAll State.reset)) pairBindRow 0x0800 (.core 0 0) [0, 0, 0, 0, 0, 0, 0x50, 0x46] ∧
  WAccepts (wCore (State.reset)) pairBusRow 0x0801 (.core 0 0) [] ∧
  WAccepts (wCore (wAll State.reset)) pairReturnRow 0x0802 (.core 0 0) [] ∧
  WAccepts (wCore (State.reset)) vsrcSetRow 0x0612 (.core 0 0) [] ∧
  WAccepts (wCore (wAll State.reset)) zoneSetRow 0x0100 (.core 0 0) [] ∧
  WAccepts (wCore (wAll State.reset)) layerSetRow 0x0101 (.core 0 0) [0, 0, 0, 1] ∧
  WAccepts (wCore (wAll State.reset)) (assertRow 1) 0x0102 (.core 0 0) [0, 0, 0, 1] ∧
  WAccepts (wCore (wAll State.reset)) (assertRow 0) 0x0102 (.core 0 0) [] ∧
  WAccepts (wCore (wAll State.reset)) laneRouteRow 0x0103 (.core 0 0) [] ∧
  WAccepts (wCore (wAll State.reset)) returnSetRow 0x0104 (.core 0 0) [] ∧
  WAccepts (wCore (wAll State.reset)) ambSetRow 0x0105 (.core 0 0) [0, 0, 0xFF, 0xFF, 0xFF, 0xFF, 0, 0, 0, 0, 0, 0, 0, 0, 0, 0, 1, 0, 1] ∧
  WAccepts (wCore (wAll State.reset)) laneParamRow 0x0200 (.core 0 0) [0, 0, 0, 0, 4] ∧
  WAccepts (wCore (wAll State.reset)) lpLoadRow 0x0210 (.core 0 0) [1] := by
  refine ⟨?_, ?_, ?_, ?_, ?_, ?_, ?_, ?_, ?_, ?_, ?_, ?_, ?_, ?_, ?_, ?_, ?_, ?_, ?_, ?_, ?_, ?_⟩ <;> decide +kernel

/-- A reserved flag bit refuses a descriptor of every row. -/
theorem refusal_reserved (s : State) (row : Row) (came : Came) (op : Nat) :
    s.refusal (some row) came (descOf op { flags := 0x40 }) = some (stBad, 2) := by
  have h : s.headerBad (some row) (descOf op { flags := 0x40 }) = some 2 := by
    unfold State.headerBad
    exact if_pos (Or.inl (show (64 : Nat) / 64 ≠ 0 by decide))
  unfold State.refusal
  rw [h]

/-- So does one of a descriptor first in a core's queue. -/
theorem witness_descriptorsRefused (row : Row) (op : Nat) :
    let s : State := wCore State.reset; let o : Origin := .core 0 0; let d : Body := { flags := 0x40 }
    s.hold = .run ∧ s.MayTake o ∧ d.chain = false ∧
    (s.front o).refusal (some row) (s.cameFrom o) (descOf op d) = some (stBad, 2) :=
  ⟨by decide +kernel, by decide +kernel, by decide +kernel, refusal_reserved ..⟩

/-- Whatever the snapshot holds, other masters have codes of their own. -/
theorem witness_pacerSnapshot : State.reset.hold = .run ∧ masterCode (.host 0) ≠ masterCode .ssv := by
  decide +kernel

/-- Each operation of a floating-point slot can issue in either slot. -/
theorem witness_lpFloatSlots : ∀ f1 : Bool, ∀ op ∈ List.range 19,
    let s : State := wLp State.reset (fSlot f1) op 0
    s.hold = .run ∧ s.canIssue 0 (fSlot f1) op = true := by
  decide +kernel

theorem witness_pacerWrites :
  (let m : Master := .ssv; let v : Word := 500000000; let s : State := State.reset; s.hold = .run ∧
    s.may m Reg.pcrAdjFreq = true ∧ -500000000 ≤ v.toInt ∧ v.toInt ≤ 500000000) ∧
  (let m : Master := .ssv; let v : Word := 500000001; let s : State := State.reset; s.hold = .run ∧
    s.may m Reg.pcrAdjFreq = true ∧ 500000000 < v.toInt) ∧
  (let m : Master := .ssv; let v : Word := (BitVec.ofInt 32 (-500000001)); let s : State := State.reset; s.hold = .run ∧
    s.may m Reg.pcrAdjFreq = true ∧ v.toInt < -500000000) ∧
  (let m : Master := .ssv; let s : State := State.reset; s.hold = .run ∧ s.may m Reg.pcrSlew = true ∧ s.pcrSt ≠ pcHoldover) ∧
  (let m : Master := .ssv; let s : State := State.reset; let s : State := s.putF Reg.pcrStatus 2 0 pcHoldover; s.hold = .run ∧
    s.may m Reg.pcrSlew = true ∧ s.pcrSt = pcHoldover) ∧
  (let m : Master := .ssv; let s : State := State.reset; let s : State := s.setBit Reg.gblMode 1 true; s.hold = .run ∧
    s.may m Reg.pcrStepHi = true ∧ (s.bit Reg.pcrCtrl 7 = false ∨ s.vaFlag = true)) ∧
  (let m : Master := .ssv; let s : State := State.reset; let s : State := s.setBit Reg.pcrCtrl 7 true;
    let s : State := { s with pacer.step := none }; s.hold = .run ∧ s.may m Reg.pcrStepHi = true ∧ s.bit Reg.pcrCtrl 7 = true ∧
    s.vaFlag = false ∧ s.pacer.step = none ∧ s.pcrSt ≠ pcHoldover) ∧
  (let m : Master := .ssv; let s : State := State.reset; s.hold = .run ∧ s.may m Reg.pcrServoOffset = true) ∧
  (let v : Word := 0#32; let s : State := State.reset; v.toInt.natAbs ≤ s.getF Reg.pcrLockCfg 15 0) ∧
  (let v : Word := 0x7FFFFFFF#32; let s : State := State.reset; s.getF Reg.pcrLockCfg 15 0 < v.toInt.natAbs) := by
  refine ⟨?_, ?_, ?_, ?_, ?_, ?_, ?_, ?_, ?_, ?_⟩ <;> decide +kernel

theorem witness_pacerDiscipline :
  (let t : Nat := 0; let s : State := { State.reset with pacer := { ns := 200000000000#64 } };
    let s : State := s.putF Reg.pcrStatus 2 0 pcAcquire; let s : State := { s with pacer.inSince := some t }; s.hold = .run ∧
    s.pcrSt = pcAcquire ∧ s.pacer.inSince = some t ∧ t + s.getF Reg.pcrLockCfg 23 16 * 1000000000 ≤ s.pacer.ns.toNat) ∧
  (let t : Nat := 0; let s : State := { State.reset with pacer := { ns := 200000000000#64 } };
    let s : State := s.putF Reg.pcrStatus 2 0 pcLocked; let s : State := { s with pacer.outSince := some t }; s.hold = .run ∧
    s.pcrSt = pcLocked ∧ s.pacer.outSince = some t ∧ t + s.getF Reg.pcrLockCfg 23 16 * 1000000000 ≤ s.pacer.ns.toNat) ∧
  (let s : State := State.reset; let s : State := s.putF Reg.pcrStatus 2 0 pcHoldover; s.hold = .run ∧ s.pcrSt = pcHoldover) ∧
  (let s : State := State.reset; let s : State := s.putF Reg.pcrCtrl 15 8 1; s.hold = .run ∧ s.getF Reg.pcrCtrl 15 8 ≠ 0) ∧
  (let off : Word := 0#32; let s : State := State.reset; let s : State := s.putF Reg.pcrCtrl 1 0 3; s.hold = .run ∧
    s.discSrc = 3 ∧ off.toInt.natAbs ≤ s.getF Reg.pcrLockCfg 15 0) ∧
  (let m : Master := .ssv; let v : Word := 1#32; let s : State := State.reset;
    let s : State := s.putF Reg.pcrStatus 2 0 pcLocked; let u : State := (s.rawWrite Reg.pcrCtrl v); s.hold = .run ∧
    s.may m Reg.pcrCtrl = true ∧ u.discSrc ≠ s.discSrc ∧ u.pcrSt = pcLocked) ∧
  (let m : Master := .ssv; let on : Bool := false; let s : State := State.reset;
    let u : State := (s.rawWrite Reg.pcrCtrl (setBitAt (s.reg Reg.pcrCtrl) 6 on)); s.hold = .run ∧ s.may m Reg.pcrCtrl = true ∧
    u.discSrc = s.discSrc) ∧
  (let s : State := State.reset; let s : State := s.putF Reg.pcrCtrl 1 0 3;
    let s : State := s.setBit (Reg.pcrClkmon 0) 7 false; let s : State := s.setBit (Reg.pcrClkmon 2) 15 false;
    let s : State := s.setReg Reg.pcrStatus 0x60; let s : State := s.putF Reg.pcrStatus 2 0 0;
    let s : State := s.putF Reg.pcrStatus 2 0 pcFree; s.pcrSt = pcFree ∧ s.discUsable = true ∧ s.holdForce = false) ∧
  (let s : State := State.reset; let s : State := s.putF Reg.pcrStatus 2 0 1; (s.pcrSt = pcAcquire ∨ s.pcrSt = pcLocked) ∧
    (s.discUsable = false ∨ s.holdForce = true)) ∧
  (let s : State := State.reset; let s : State := s.putF Reg.pcrCtrl 1 0 3;
    let s : State := s.setBit (Reg.pcrClkmon 0) 7 false; let s : State := s.setBit (Reg.pcrClkmon 2) 15 false;
    let s : State := s.setReg Reg.pcrStatus 0x60; let s : State := s.putF Reg.pcrStatus 2 0 3;
    let s : State := s.putF Reg.pcrStatus 2 0 pcHoldover; s.pcrSt = pcHoldover ∧ s.discUsable = true ∧
    s.holdForce = false) := by
  refine ⟨?_, ?_, ?_, ?_, ?_, ?_, ?_, ?_, ?_, ?_⟩ <;> decide +kernel

theorem witness_heatsAndSteps :
  (let s : State := State.reset; s.hold = .run ∧ s.jumped = false ∧ ((s.pacerToHeat true).stepHeat).atJump = false) ∧
  (let s : State := { State.reset with pacer := { ns := 7999999#64, step := some { phase := .rampOut } } }; s.hold = .run ∧
    s.jumped = false ∧ ((s.pacerToHeat true).stepHeat).atJump = true) ∧
  (let x : StepH := { phase := .rampOut }; let s : State := { State.reset with pacer := { ns := 8000000#64 } };
    let s : State := { s with pacer.step := some x }; s.hold = .run ∧ s.pacer.step = some x ∧ x.phase = .rampOut ∧
    s.atJump = true) ∧
  (let x : StepH := { phase := .jumped }; let s : State := State.reset; let s : State := { s with pacer.step := some x };
    s.hold = .run ∧ s.pacer.step = some x ∧ x.phase = .jumped ∧ x.warm = false) ∧
  (let x : StepH := { phase := .rampIn }; let s : State := State.reset; let s : State := { s with pacer.step := some x };
    s.hold = .run ∧ s.pacer.step = some x ∧ x.phase = .rampIn) := by
  refine ⟨?_, ?_, ?_, ?_, ?_⟩ <;> decide +kernel

theorem witness_clocksAndDroop :
  (let s : State := State.reset; let s : State := { s with pacer.synthLost := true }; s.hold = .run ∧
    s.pacer.synthLost = true) ∧
  (let us : BitVec 10 := 1; let s : State := State.reset; let s : State := s.setReg Reg.pcrDroopMax 0; s.hold = .run ∧
    (s.reg Reg.pcrDroopMax).toNat < s.pacer.stretched + us.toNat) ∧
  (let us : BitVec 10 := 0#10; let s : State := State.reset; s.hold = .run ∧
    s.pacer.stretched + us.toNat ≤ (s.reg Reg.pcrDroopMax).toNat) ∧
  (let us : BitVec 10 := 1; let s : State := State.reset; let s : State := s.setReg Reg.pcrDroopCfg 0;
    let s : State := s.setReg Reg.pcrDroopMax 1; s.hold = .run ∧ s.getF Reg.pcrDroopCfg 15 0 < us.toNat ∧
    us.toNat ≤ (s.reg Reg.pcrDroopMax).toNat) ∧
  (let k : Fin 81 := 77; let s : State := State.reset; s.hold = .run ∧ k.val = 77) ∧
  (let k : Fin 81 := 0; let s : State := State.reset; s.hold = .run ∧ k.val = 0) ∧
  (let k : Fin 81 := 0; let s : State := State.reset; s.hold = .run ∧ k.val ≠ 7 ∧ k.val ≠ 79) ∧
  (let k : Fin 81 := 7; let s : State := State.reset; s.hold = .run ∧ (k.val = 7 ∨ k.val = 79)) ∧
  (let k : Fin 11 := 0; k.val < 8) := by
  refine ⟨?_, ?_, ?_, ?_, ?_, ?_, ?_, ?_, ?_⟩ <;> decide +kernel

theorem witness_clockedStreams :
  (let st : Stream := .tdm 0; let i : Nat := 0; let c : Nat := (streamCode st); let s : State := State.reset;
    let s : State := { s with asrc := [(0, some { stream := 0, chans := 2 })] };
    let s : State := s.setConv 0 { s.convAt 0 with ratio := 200#32, prev := 100#32 }; s.hold = .run ∧ s.asrcOf c = some i ∧
    (s.convAt c).jumped = true ∧ s.relocking c = false) ∧
  (let st : Stream := .tdm 0; let s : State := State.reset;
    let s : State := { s with asrc := [(0, some { stream := 0, chans := 2 })] };
    let s : State := s.setBit (Reg.pcrAsrcStatus 0) 2 true; s.hold = .run ∧ s.relocking (streamCode st) = true) ∧
  (let st : Stream := .tdm 0; let i : Nat := 0; let s : State := State.reset;
    let s : State := { s with asrc := [(0, some { stream := 0, chans := 2 })] };
    let s : State := s.setConv 0 { s.convAt 0 with ratio := 1#32 }; s.hold = .run ∧ s.streamLost st = false ∧
    s.asrcOf (streamCode st) = some i ∧ (s.convAt (streamCode st)).outOfRange (s.convRate (streamCode st)) = true) ∧
  (let h : ConvH := { ratio := 1 }; h.ratio ≠ 0) ∧
  (let st : Stream := .tdm 0; let s : State := State.reset; s.hold = .run ∧ s.streamLost st = false) ∧
  (let n : Fin 16 := 0; let s : State := State.reset; let s : State := s.setBit (Reg.tdmStatus 0) 3 true;
    let s : State := s.setTdmRx n.val { s.tdmRxAt n.val with good := 16 }; s.hold = .run ∧ s.streamLost (.tdm n) = true ∧
    s.asrcOf (streamCode (.tdm n)) = none ∧ 16 ≤ (s.tdmRxAt n.val).good) ∧
  (let st : Stream := .tdm 0; let s : State := State.reset; let s : State := s.setBit (Reg.tdmStatus 0) 3 true;
    let s : State := s.setTdmRx 0 { s.tdmRxAt 0 with good := 16 }; s.hold = .run ∧ s.streamLost st = true ∧
    s.streamGood st = true) ∧
  (let st : Stream := .tdm 0; let s : State := State.reset; let s : State := s.setBit (Reg.tdmStatus 0) 3 true;
    s.hold = .run ∧ s.streamLost st = true) := by
  refine ⟨?_, ?_, ?_, ?_, ?_, ?_, ?_, ?_⟩ <;> decide +kernel

theorem witness_tdmReceive :
  (let n : Fin 16 := 0; let high : Bool := true; let b : OpenBlk := { heat := 5 }; let s : State := w0;
    let s : State := s.setBit (Reg.tdmCtrl n.val) 0 true;
    let s : State := s.setTdmRx n.val { s.tdmRxAt n.val with blk := some b };
    let s : State := s.setTdmRx n.val { s.tdmRxAt n.val with maskDue := false }; s.hold = .run ∧
    s.bit (Reg.tdmCtrl n.val) 0 = true ∧ s.inReset (160 + n.val) = false ∧ high ≠ s.bit (Reg.tdmCtrl n.val) 5 ∧
    (s.tdmRxAt n.val).blk = some b ∧ b.heat = s.heat ∧ (s.tdmRxAt n.val).maskDue = false) ∧
  (let n : Nat := 0; let b : OpenBlk := {}; let s : State := State.reset;
    let s : State := s.setTdmRx n { s.tdmRxAt n with blk := some b }; (s.tdmRxAt n).blk = some b ∧
    b.frames.length < frames112 (s.getF (Reg.tdmCtrl n) 11 8)) ∧
  (let f : Word := 0#32; let k : Nat := 0; let i : Nat := 0; k ≤ fld f 20 16 ∧ i < tdmWordBits f) ∧
  (let f : Word := 0#32; let k : Nat := 1; fld f 20 16 < k) ∧
  (let n : Nat := 0; let len : Nat := 0; let glitch : Bool := false; let b : OpenBlk := {}; let s : State := State.reset;
    let s : State := s.setTdmRx n { s.tdmRxAt n with blk := some b }; let s : State := s.setBit (Reg.tdmCtrl n) 3 false;
    (s.tdmRxAt n).blk = some b ∧ s.bit (Reg.tdmCtrl n) 3 = false ∧ (glitch = true ∨ len ≠ s.getF (Reg.tdmFrame n) 31 21)) ∧
  (let n : Nat := 0; let b : OpenBlk := {}; let s : State := State.reset;
    let s : State := s.setTdmRx n { s.tdmRxAt n with blk := some b }; let s : State := s.setBit (Reg.tdmCtrl n) 3 true;
    (s.tdmRxAt n).blk = some b ∧ s.bit (Reg.tdmCtrl n) 3 = true) ∧
  (let n : Fin 16 := 0; let b : OpenBlk := { heat := 4 }; let s : State := w0;
    let s : State := s.setBit (Reg.tdmCtrl n.val) 0 true;
    let s : State := s.setTdmRx n.val { s.tdmRxAt n.val with blk := some b }; s.hold = .run ∧
    s.bit (Reg.tdmCtrl n.val) 0 = true ∧ (s.tdmRxAt n.val).blk = some b ∧ b.heat < s.heat) ∧
  (let n : Fin 8 := 0; let b : OpenBlk := { heat := 4 }; let s : State := w0;
    let s : State := s.setBit (Reg.aesRxCfg n.val) 0 true;
    let s : State := s.setAesRx n.val { s.aesRxAt n.val with blk := some b }; s.hold = .run ∧
    s.bit (Reg.aesRxCfg n.val) 0 = true ∧ (s.aesRxAt n.val).blk = some b ∧ b.heat < s.heat) ∧
  (let g : Fin 4 := 0; let s : State := w0; let s : State := s.setPdm g.val { s.pdmAt g.val with closed := none };
    s.hold = .run ∧ 0 < s.heat ∧ (s.pdmAt g.val).closed = none) ∧
  (let f : Fin 2048 := 0; let s : State := w0; let s : State := s.setBit (Reg.pktRxfState f.val) 0 true;
    let s : State := s.setFlow f.val { s.flowAt f.val with closed := none }; s.hold = .run ∧ 0 < s.heat ∧
    s.bit (Reg.pktRxfState f.val) 0 = true ∧ (s.flowAt f.val).closed = none) := by
  refine ⟨?_, ?_, ?_, ?_, ?_, ?_, ?_, ?_, ?_, ?_⟩ <;> decide +kernel

theorem witness_tdmControl :
  (let m : Master := .ssv; let n : Fin 16 := 0; let v : Word := 0x04000000#32; let s : State := State.reset;
    let s : State := s.putF (Reg.tdmCtrl n.val) 1 0 0; s.hold = .run ∧ s.may m (Reg.tdmFrame n.val) = true ∧
    s.getF (Reg.tdmCtrl n.val) 1 0 = 0 ∧ tdmFrameOk v = true) ∧
  (let m : Master := .ssv; let n : Fin 16 := 0; let v : Word := 0#32; let s : State := State.reset; s.hold = .run ∧
    s.may m (Reg.tdmFrame n.val) = true ∧ (s.getF (Reg.tdmCtrl n.val) 1 0 ≠ 0 ∨ tdmFrameOk v = false)) ∧
  (let m : Master := .ssv; let n : Fin 16 := 0; let v : Word := (setBitAt (setBitAt 0#32 3 false) 0 true);
    let s : State := State.reset; let s : State := s.putF (Reg.tdmCtrl n.val) 1 0 0;
    let s : State := s.setBit (Reg.tdmCtrl n.val) 0 false; s.hold = .run ∧ s.may m (Reg.tdmCtrl n.val) = true ∧
    s.getF (Reg.tdmCtrl n.val) 1 0 = 0 ∧ fld v 11 8 < 7 ∧ bitAt v 3 = false ∧ bitAt v 0 = true ∧
    s.bit (Reg.tdmCtrl n.val) 0 = false) ∧
  (let m : Master := .ssv; let n : Fin 16 := 0; let v : Word := 0x9#32; let s : State := State.reset;
    let s : State := s.putF (Reg.tdmCtrl n.val) 1 0 0; s.hold = .run ∧ s.may m (Reg.tdmCtrl n.val) = true ∧
    s.getF (Reg.tdmCtrl n.val) 1 0 = 0 ∧ fld v 11 8 < 7 ∧ bitAt v 3 = true ∧ fld v 1 0 ≠ 0 ∧
    tdmMasterOk v (s.reg (Reg.tdmFrame n.val)) = false) ∧
  (let m : Master := .ssv; let n : Fin 16 := 0; let v : Word := (setFld 0#32 11 8 7); let s : State := State.reset;
    s.hold = .run ∧ s.may m (Reg.tdmCtrl n.val) = true ∧ 7 ≤ fld v 11 8) ∧
  (let m : Master := .ssv; let n : Fin 16 := 0; let v : Word := 0#32; let s : State := State.reset;
    let s : State := s.setReg (Reg.tdmCtrl 0) 1; let s : State := s.putF (Reg.tdmCtrl n.val) 1 0 1;
    let s : State := s.setBit (Reg.tdmCtrl n.val) 0 true; let w : Word := (setFld (s.reg (Reg.tdmCtrl n.val)) 1 0 (fld v 1 0));
    s.hold = .run ∧ s.may m (Reg.tdmCtrl n.val) = true ∧ fld v 11 8 < 7 ∧
    (v ^^^ s.reg (Reg.tdmCtrl n.val)) &&& 0x01FF0FFC#32 = 0#32 ∧ s.getF (Reg.tdmCtrl n.val) 1 0 ≠ 0 ∧ bitAt w 0 = false ∧
    s.bit (Reg.tdmCtrl n.val) 0 = true) ∧
  (let m : Master := .ssv; let n : Fin 16 := 0; let v : Word := (setFld 0#32 11 8 7); let s : State := State.reset;
    s.hold = .run ∧ s.may m (Reg.tdmCtrl n.val) = true ∧ 7 ≤ fld v 11 8) ∧
  (let n : Nat := 0; let s : State := State.reset; let s : State := s.setBit (Reg.tdmCtrl n) 3 true;
    let s : State := s.putF (Reg.tdmCtrl n) 1 0 1; s.bit (Reg.tdmCtrl n) 3 = true ∧ s.getF (Reg.tdmCtrl n) 1 0 ≠ 0) ∧
  (let m : Master := .ssv; let n : Fin 16 := 0; let v : Word := 0#32; let s : State := State.reset;
    let s : State := s.setBit (Reg.tdmCtrl n.val) 0 true; s.hold = .run ∧ s.may m (Reg.tdmRxMaskNext n.val) = true ∧
    popCount v ≤ s.getF (Reg.tdmChMax n.val) 5 0 ∧ s.bit (Reg.tdmCtrl n.val) 0 = true) ∧
  (let m : Master := .ssv; let n : Fin 16 := 0; let v : Word := 0#32; let s : State := State.reset;
    let s : State := s.setBit (Reg.tdmCtrl n.val) 0 false; s.hold = .run ∧ s.may m (Reg.tdmRxMaskNext n.val) = true ∧
    popCount v ≤ s.getF (Reg.tdmChMax n.val) 5 0 ∧ s.bit (Reg.tdmCtrl n.val) 0 = false) ∧
  (let m : Master := .ssv; let n : Fin 16 := 0; let v : Word := 1#32; let s : State := State.reset;
    let s : State := s.setReg (Reg.tdmChMax 0) 0; s.hold = .run ∧ s.may m (Reg.tdmRxMaskNext n.val) = true ∧
    s.getF (Reg.tdmChMax n.val) 5 0 < popCount v) ∧
  (let m : Master := .ssv; let n : Fin 16 := 0; let v : Word := 0#32; let s : State := State.reset;
    let s : State := s.setBit (Reg.tdmCtrl n.val) 1 true; s.hold = .run ∧ s.may m (Reg.tdmTxMaskNext n.val) = true ∧
    popCount v ≤ s.getF (Reg.tdmChMax n.val) 13 8 ∧ s.bit (Reg.tdmCtrl n.val) 1 = true) ∧
  (let m : Master := .ssv; let n : Fin 16 := 0; let v : Word := 0#32; let s : State := State.reset;
    let s : State := s.setBit (Reg.tdmCtrl n.val) 1 false; s.hold = .run ∧ s.may m (Reg.tdmTxMaskNext n.val) = true ∧
    popCount v ≤ s.getF (Reg.tdmChMax n.val) 13 8 ∧ s.bit (Reg.tdmCtrl n.val) 1 = false) ∧
  (let n : Fin 16 := 0; let s : State := State.reset; let s : State := s.setBit (Reg.tdmCtrl n.val) 1 true; s.hold = .run ∧
    s.bit (Reg.tdmCtrl n.val) 1 = true ∧ s.inReset (160 + n.val) = false) ∧
  (let n : Nat := 0; let s : State := State.reset; let s : State := s.setTdmTx n { s.tdmTxAt n with maskDue := false };
    (s.tdmTxAt n).maskDue = false) ∧
  (let c : Chan := .tdmRx 0 0; let w : GainWait := {}; let s : State := State.reset;
    let s : State := s.setChan (chanKey c) { s.chanAt (chanKey c) with wait := some {} };
    let h : ChanH := ((s.chanAt (chanKey c)).ready s.pacer.ns.toNat); s.hold = .run ∧ h.wait = some w ∧ h.cross = true) ∧
  (let c : Chan := .tdmRx 0 0; let w : GainWait := {}; let s : State := State.reset;
    let s : State := s.setChan (chanKey c) { s.chanAt (chanKey c) with wait := some {} };
    let h : ChanH := ((s.chanAt (chanKey c)).ready s.pacer.ns.toNat); s.hold = .run ∧ h.wait = some w) ∧
  (let h : ChanH := default; let t : Nat := 0; (∀ w ∈ h.due, t < w.start)) := by
  refine ⟨?_, ?_, ?_, ?_, ?_, ?_, ?_, ?_, ?_, ?_, ?_, ?_, ?_, ?_, ?_, ?_, ?_, ?_⟩ <;> decide +kernel

theorem witness_aesPorts :
  (let n : Fin 8 := 0; let k : OpenBlk := { heat := 5 }; let s : State := w0;
    let s : State := s.setBit (Reg.aesRxCfg n.val) 0 true;
    let s : State := s.setAesRx n.val { s.aesRxAt n.val with blk := some k }; s.hold = .run ∧
    s.bit (Reg.aesRxCfg n.val) 0 = true ∧ s.inReset (176 + n.val) = false ∧ (s.aesRxAt n.val).blk = some k ∧ k.heat = s.heat) ∧
  (let n : Fin 8 := 0;
    let a : SubFrame := { ({ bits := 0, invalid := false, parityOk := true } : SubFrame) with parityOk := true };
    let b : SubFrame := { ({ bits := 0, invalid := false, parityOk := true } : SubFrame) with parityOk := true };
    let k : OpenBlk := { heat := 5 }; let s : State := w0; let s : State := s.setBit (Reg.aesRxCfg n.val) 0 true;
    let s : State := s.setAesRx n.val { s.aesRxAt n.val with blk := some k }; s.hold = .run ∧
    s.bit (Reg.aesRxCfg n.val) 0 = true ∧ s.inReset (176 + n.val) = false ∧ (s.aesRxAt n.val).blk = some k ∧ k.heat = s.heat ∧
    a.parityOk = true ∧ b.parityOk = true) ∧
  (let n : Fin 8 := 0; let s : State := State.reset; let s : State := s.setBit (Reg.aesRxCfg n.val) 0 true; s.hold = .run ∧
    s.bit (Reg.aesRxCfg n.val) 0 = true) ∧
  (let n : Fin 8 := 0; let bs : List Byte := []; let s : State := State.reset;
    let s : State := s.setBit (Reg.aesRxCfg n.val) 0 true; s.hold = .run ∧ s.bit (Reg.aesRxCfg n.val) 0 = true ∧
    ((bs.getD 0 0).getLsbD 0 = false ∨ crcc bs = leAt bs 23 1) ∧ ((s.csAt (aesCs n.val 0)).good bs).nonAudio = false) ∧
  (let n : Fin 8 := 0; let hz : Nat := 3000000; let s : State := State.reset;
    let s : State := s.setBit (Reg.aesRxCfg n.val) 0 true; let s : State := s.setBit (Reg.aesRxCfg n.val) 3 true;
    let s : State := s.setBit (Reg.aesRxStatus n.val) 1 false; s.hold = .run ∧ s.bit (Reg.aesRxCfg n.val) 0 = true ∧
    s.bit (Reg.aesRxCfg n.val) 3 = true ∧ aboveMax hz (s.getF (Reg.aesRxCfg n.val) 15 12) = true ∧
    s.bit (Reg.aesRxStatus n.val) 1 = false) ∧
  (let n : Fin 8 := 0; let hz : Nat := 0; let s : State := State.reset; let s : State := s.setBit (Reg.aesRxCfg n.val) 0 true;
    let s : State := s.setBit (Reg.aesRxCfg n.val) 3 true; s.hold = .run ∧ s.bit (Reg.aesRxCfg n.val) 0 = true ∧
    s.bit (Reg.aesRxCfg n.val) 3 = true ∧ aboveMax hz (s.getF (Reg.aesRxCfg n.val) 15 12) = false ∧
    s.getF (Reg.aesRxStatus n.val) 9 6 = nearestRate hz ∧ s.asrcOf (16 + n.val) = none) ∧
  (let k : Nat := 6; k < 7) ∧
  (let m : Master := .ssv; let n : Fin 8 := 0; let v : Word := (setBitAt 0#32 0 true); let s : State := State.reset;
    let s : State := s.setBit (Reg.aesRxCfg n.val) 0 false; s.hold = .run ∧ s.may m (Reg.aesRxCfg n.val) = true ∧
    bitAt v 0 = true ∧ s.bit (Reg.aesRxCfg n.val) 0 = false ∧ s.asrcOf (16 + n.val) = none) ∧
  (let m : Master := .ssv; let n : Fin 4 := 0; let v : Word := (setFld (setBitAt 0#32 0 true) 15 12 2);
    let s : State := State.reset; let s : State := s.setBit (Reg.aesTxCfg n.val) 0 false; s.hold = .run ∧
    s.may m (Reg.aesTxCfg n.val) = true ∧ s.bit (Reg.aesTxCfg n.val) 0 = false ∧ bitAt v 0 = true ∧ fld v 15 12 = 2) ∧
  (let m : Master := .ssv; let n : Fin 4 := 0; let v : Word := 1#32; let s : State := State.reset;
    let s : State := { s with asrc := (List.range 64).map fun i => (i, some { stream := 4096 + i, chans := 32 }) };
    let s : State := s.setBit (Reg.aesTxCfg n.val) 0 false; s.hold = .run ∧ s.may m (Reg.aesTxCfg n.val) = true ∧
    s.bit (Reg.aesTxCfg n.val) 0 = false ∧ bitAt v 0 = true ∧ fld v 15 12 = 0 ∧ s.asrcTake (48 + n.val) 2 2 2 0 0 = none) ∧
  (let m : Master := .ssv; let n : Fin 4 := 0; let v : Word := (setBitAt 0#32 0 true); let s : State := State.reset;
    s.hold = .run ∧ s.may m (Reg.aesTxCsCommit n.val) = true ∧ bitAt v 0 = true) ∧
  (let n : Fin 4 := 0; let s : State := State.reset; let s : State := s.setBit (Reg.aesTxCfg n.val) 0 true;
    let s : State := s.setBit (Reg.aesTxStatus n.val) 0 true; s.hold = .run ∧ s.bit (Reg.aesTxCfg n.val) 0 = true ∧
    s.bit (Reg.aesTxStatus n.val) 0 = true ∧ s.inReset (184 + n.val) = false) := by
  refine ⟨?_, ?_, ?_, ?_, ?_, ?_, ?_, ?_, ?_, ?_, ?_, ?_⟩ <;> decide +kernel

theorem witness_pdmGroups :
  (let m : Master := .ssv; let g : Fin 4 := 0; let v : Word := (setBitAt 0#32 0 true); let s : State := State.reset;
    let s : State := s.setBit (Reg.pdmGrpCfg g.val) 0 false; s.hold = .run ∧ s.may m (Reg.pdmGrpCfg g.val) = true ∧
    bitAt v 0 = true ∧ s.bit (Reg.pdmGrpCfg g.val) 0 = false) ∧
  (let m : Master := .ssv; let g : Fin 4 := 0; let s : State := State.reset; s.hold = .run ∧
    s.may m (Reg.pdmGrpMicEn g.val) = true) ∧
  (let k : Fin 32 := 0; let s : State := State.reset; let s : State := s.setMic 1 { s.micAt 1 with warm := 1 };
    let u : State := (s.setMic k.val { s.micAt k.val with warm := 0 }); s.hold = .run ∧
    ((List.range 8).all fun i => (u.micAt (k.val / 8 * 8 + i)).warm == 0) = false) ∧
  (let k : Fin 32 := 0; let s : State := State.reset; let u : State := (s.setMic k.val { s.micAt k.val with warm := 0 });
    s.hold = .run ∧ ((List.range 8).all fun i => (u.micAt (k.val / 8 * 8 + i)).warm == 0) = true) ∧
  (let k : Fin 32 := 0; let s : State := State.reset; let s : State := s.setMic k.val { s.micAt k.val with stuckHeats := 64 };
    s.hold = .run ∧ 64 ≤ (s.micAt k.val).stuckHeats) ∧
  (let d : Nat := 15; d < 16) ∧
  (let h : MicH := default; h.okRun + 1 < 16) ∧
  (let h : MicH := { okRun := 15 }; 16 ≤ h.okRun + 1) := by
  refine ⟨?_, ?_, ?_, ?_, ?_, ?_, ?_, ?_⟩ <;> decide +kernel

theorem witness_packetPorts :
  (let p : Fin 2 := 0; let s : State := State.reset; let s : State := s.setBit (Reg.pktPCtrl p.val) 0 true;
    let s : State := s.setBit (Reg.pktPStatus p.val) 0 true; s.hold = .run ∧ s.inReset (192 + p.val) = false ∧
    s.bit (Reg.pktPCtrl p.val) 0 = true ∧ s.bit (Reg.pktPStatus p.val) 0 = true) ∧
  (let p : Fin 2 := 0; let bs : List Byte := List.replicate 1519 0; let s : State := State.reset;
    let s : State := s.setBit (Reg.pktPCtrl p.val) 0 true; let s : State := s.setBit (Reg.pktPStatus p.val) 0 true;
    s.hold = .run ∧ s.inReset (192 + p.val) = false ∧ s.bit (Reg.pktPCtrl p.val) 0 = true ∧
    s.bit (Reg.pktPStatus p.val) 0 = true ∧ 1518 < bs.length) ∧
  (let p : Fin 2 := 0; let bs : List Byte := List.replicate 6 0xFF#8; let s : State := State.reset;
    let s : State := s.setBit (Reg.pktPCtrl p.val) 0 true; let s : State := s.setBit (Reg.pktPStatus p.val) 0 true;
    s.hold = .run ∧ s.inReset (192 + p.val) = false ∧ s.bit (Reg.pktPCtrl p.val) 0 = true ∧
    s.bit (Reg.pktPStatus p.val) 0 = true ∧ bs.length ≤ 1518 ∧ beAt bs 12 2 ≠ 0x8100 ∧ beAt bs 12 2 ≠ 0x0800 ∧
    bs.take 6 = List.replicate 6 0xFF#8) ∧
  (let f : Nat := 0; let udp : List Byte := 0x80#8 :: 1 :: List.replicate 10 0; let ts : Nat := 0; let pt : Nat := 1;
    let ssrc : Nat := 0; let pay : List Byte := []; let s : State := State.reset; rtpOf udp = some (ts, pt, ssrc, pay) ∧
    pt ≠ leAt (s.flowAt f).entry 32 1) ∧
  (let f : Fin 2048 := 0; let p : Fin 2 := 0; let s : State := State.reset;
    let s : State := s.setFlow 0 { s.flowAt 0 with entry := List.replicate 33 0#8 ++ [1] };
    let s : State := s.setBit (Reg.pktRxfState f.val) 0 true; s.hold = .run ∧ s.bit (Reg.pktRxfState f.val) 0 = true ∧
    rxLeg (s.flowAt f.val).entry p.val = true ∧ rxTwoLegs (s.flowAt f.val).entry = false ∧ s.streamLost (.flow f) = false ∧
    (s.flowAt f.val).leg0.up = false ∧ (s.flowAt f.val).leg1.up = false) ∧
  (let p : Fin 2 := 0; let s : State := State.reset; let s : State := s.setBit (Reg.pktPStatus p.val) 0 true; s.hold = .run ∧
    s.bit (Reg.pktPStatus p.val) 0 = true ∧ s.flows = []) ∧
  (let p : Fin 2 := 0; let s : State := State.reset; let s : State := s.setBit (Reg.pktPCtrl p.val) 0 true;
    let s : State := s.setBit (Reg.pktPCtrl p.val) 4 false; let s : State := s.setBit (Reg.pktPCtrl p.val) 2 true;
    s.hold = .run ∧ s.bit (Reg.pktPCtrl p.val) 0 = true ∧ s.bit (Reg.pktPCtrl p.val) 4 = false ∧
    s.bit (Reg.pktPCtrl p.val) 2 = true) ∧
  (let p : Fin 2 := 0; let en : List Byte := [14, 0]; let s : State := State.reset;
    let s : State := s.setReg (Reg.hpStatus 0) 0x143; let s : State := s.setReg (Reg.ringCfg 0) 0x88040001;
    let s : State := s.setReg (Reg.ringCfg 1) 0x82040000; let s : State := s.setReg (Reg.ringProd 0) 1;
    let s : State := s.setReg (Reg.pktPRings 0) 0x80000000; let s : State := s.setReg (Reg.pktPCtrl 0) 3;
    let s : State := s.setBit (Reg.pktPStatus 0) 0 true; let r : Nat := (s.getF (Reg.pktPRings p.val) 30 16);
    let u : State := ((s.fetchOne r).setBit (Reg.ringStatus r) 2 false); s.hold = .run ∧ s.inReset (192 + p.val) = false ∧
    s.bit (Reg.pktPRings p.val) 31 = true ∧ s.bit (Reg.pktPCtrl p.val) 0 = true ∧ s.bit (Reg.pktPCtrl p.val) 1 = true ∧
    s.ringEn r = true ∧ s.ringErr r = false ∧ s.ringType r = 8 ∧ s.ringOcc r ≠ 0 ∧ s.stalls r = false ∧ 14 ≤ leAt en 0 2 ∧
    leAt en 0 2 ≤ 1518 ∧ leAt en 2 1 = 0 ∧ firstNonzero en 3 5 = none ∧ firstNonzero en 16 48 = none ∧
    u.bit (Reg.pktPStatus p.val) 0 = true) ∧
  (let f : Fin 512 := 0; let s : State := State.reset; let s : State := s.setBit (Reg.pktTxfState f.val) 0 true;
    s.hold = .run ∧ s.bit (Reg.pktTxfState f.val) 0 = true) := by
  refine ⟨?_, ?_, ?_, ?_, ?_, ?_, ?_, ?_, ?_⟩ <;> decide +kernel

theorem witness_voterBallot :
  (let p : Nat := 2; p ≤ 2) ∧
  (let y : List Word := []; let z : List Word := [1#32]; y ≠ z) ∧
  (let y : List Word := []; let z : List Word := [1#32]; y ≠ z) ∧
  (let x : List Word := [1#32]; let z : List Word := []; let y : List Word := (z); x ≠ y ∧ x ≠ z) ∧
  (let p : Nat := 2; let x : List Word := [0#32]; let y : List Word := [1#32]; let z : List Word := [2#32]; x ≠ y ∧ y ≠ z ∧
    x ≠ z ∧ p ≤ 2) ∧
  (let i : Nat := 0; let j : Nat := 1; let x : List Word := [1#32]; let y : List Word := []; i ≠ j ∧ x ≠ y) := by
  refine ⟨?_, ?_, ?_, ?_, ?_, ?_⟩ <;> decide +kernel

theorem witness_sourceDescriptors :
  (let o : Origin := .core 0 0#32; let d : Body := {}; let s : State := (wDue State.reset chGainRow.blk 0x0603 o d);
    let e : Sched := (wSched chGainRow.blk 0x0603 o d); s.Due chGainRow 0x0603 o d e) ∧
  (let h : ChanH := { due := [{ start := 1 }] }; let w : GainWait := { start := 1 }; let t : Nat := 0; h.due = [w] ∧
    t < w.start) ∧
  (let h : ChanH := { due := [{}] }; let w : GainWait := {}; let t : Nat := 0; h.due = [w] ∧ w.start ≤ t ∧ h.wait = none) ∧
  (let o : Origin := .core 0 0#32; let d : Body := { payload := [0, 0, 1, 0, 0] };
    let s : State := (wDue State.reset srcBindRow.blk 0x0600 o d); let s : State := s.setReg (Reg.tdmCtrl 0) 9;
    let s : State := s.setSrc (d.pl 0 2) { s.srcAt (d.pl 0 2) with bind := .none };
    let e : Sched := (wSched srcBindRow.blk 0x0600 o d); let t : State := (s.unschedule e.id); s.Due srcBindRow 0x0600 o d e ∧
    d.byte 2 = 1 ∧ (t.srcAt (d.pl 0 2)).bind = .none ∧ t.inputLive (.tdm (d.byte 3) (d.byte 4)) = true) ∧
  (let o : Origin := .core 0 0#32; let d : Body := { payload := [0, 0, 1, 0, 0] };
    let s : State := (wDue State.reset srcBindRow.blk 0x0600 o d);
    let s : State := s.setSrc 0 { s.srcAt 0 with bind := .mic 0 }; let e : Sched := (wSched srcBindRow.blk 0x0600 o d);
    let t : State := (s.unschedule e.id); s.Due srcBindRow 0x0600 o d e ∧ d.byte 2 = 1 ∧ (t.srcAt (d.pl 0 2)).bind ≠ .none) ∧
  (let o : Origin := .core 0 0#32; let d : Body := {}; let s : State := (wDue State.reset srcFallbackRow.blk 0x0601 o d);
    let e : Sched := (wSched srcFallbackRow.blk 0x0601 o d); let t : State := (s.unschedule e.id);
    s.Due srcFallbackRow 0x0601 o d e ∧ (t.srcAt (d.pl 0 2)).goHome.lost = false) ∧
  (let o : Origin := .core 0 0#32; let d : Body := { payload := [2] };
    let s : State := (wDue State.reset streamSetRow.blk 0x0602 o d); let e : Sched := (wSched streamSetRow.blk 0x0602 o d);
    let t : State := (s.unschedule e.id); s.Due streamSetRow 0x0602 o d e ∧ d.byte 0 = 2 ∧
    d.pl 4 2 < historyNeed (d.byte 2) (t.getF (Reg.aesRxCfg (d.byte 1)) 15 12)) ∧
  (let o : Origin := .core 0 0#32; let d : Body := { payload := [2, 0, 0, 0, 0xC0, 1] };
    let s : State := (wDue State.reset streamSetRow.blk 0x0602 o d);
    let s : State := s.setBit (Reg.aesRxCfg (d.byte 1)) 0 false; let e : Sched := (wSched streamSetRow.blk 0x0602 o d);
    let t : State := (s.unschedule e.id);
    let u : State := (((t.asrcTake (16 + d.byte 1) 2 2 (d.byte 2) (t.aesRate (d.byte 1)) (d.pl 4 2)).getD t));
    s.Due streamSetRow 0x0602 o d e ∧ d.byte 0 = 2 ∧ d.byte 1 < 8 ∧
    historyNeed (d.byte 2) (t.getF (Reg.aesRxCfg (d.byte 1)) 15 12) ≤ d.pl 4 2 ∧
    t.asrcTake (16 + d.byte 1) 2 2 (d.byte 2) (t.aesRate (d.byte 1)) (d.pl 4 2) = some u ∧ t.wupPath = false ∧
    t.bit (Reg.aesRxCfg (d.byte 1)) 0 = false) ∧
  (let o : Origin := .core 0 0#32; let d : Body := { payload := [0, 0, 0] };
    let s : State := (wDue State.reset flowRxSetRow.blk 0x0610 o d); let e : Sched := (wSched flowRxSetRow.blk 0x0610 o d);
    s.Due flowRxSetRow 0x0610 o d e ∧ d.byte 2 = 0) ∧
  (Config.vatSupplies 2632 = true → let o : Origin := .core 0 0#32;
    let d : Body := { payload := [0, 0, 1] ++ List.replicate 13 0 ++ [110, 181, 82, 98] };
    let e : Sched := { wSched (flowRxSetRow).blk 0x0610 o d with fetched := .data (List.replicate 30 0 ++ [1, 2, 96, 1, 6, 0, 18, 0, 0, 0, 0, 8] ++ List.replicate 6 0) };
    let en : List Byte := List.replicate 30 0 ++ [1, 2, 96, 1, 6, 0, 18, 0, 0, 0, 0, 8] ++ List.replicate 6 0;
    let s : State := { State.reset with pacer := { ns := 5000000#64 }, sched := [e] }; let t : State := (s.unschedule e.id);
    let u : State := (((t.rxResources (d.pl 0 2) en).getD t)); s.Due flowRxSetRow 0x0610 o d e ∧ d.byte 2 = 1 ∧
    t.flowFetch.contains e.id = false ∧ fetchedEntry e = some en ∧ t.rxEntryBad (d.pl 0 2) en = false ∧
    t.rxResources (d.pl 0 2) en = some u) ∧
  (let o : Origin := .core 0 0#32;
    let e : Sched := { id := 7, desc := { opcode := 0x0610, body := { payload := List.replicate 16 0 ++ [149, 179, 136, 242] } } };
    let bs : List Byte := List.replicate 48 0; let s : State := State.reset;
    let s : State := { s with sched := [e], flowFetch := [7] }; s.hold = .run ∧
    s.sched.find? (fun e => decide (e.org = o) && s.flowFetch.contains e.id) = some e ∧
    fetchedEntry { e with fetched := .data bs } ≠ none ∧ decide (e.org = o) = true ∧ s.flowFetch.contains e.id = true) ∧
  (let o : Origin := .core 0 0#32;
    let e : Sched := { id := 7, desc := { opcode := 0x0610, body := { payload := List.replicate 16 0 ++ [149, 179, 136, 242] } } };
    let s : State := State.reset; let s : State := { s with sched := [e], flowFetch := [7] }; s.hold = .run ∧
    s.sched.find? (fun e => decide (e.org = o) && s.flowFetch.contains e.id) = some e) ∧
  (let o : Origin := .core 0 0#32; let d : Body := { payload := [0, 0, 0] };
    let s : State := (wDue State.reset flowTxSetRow.blk 0x0611 o d); let e : Sched := (wSched flowTxSetRow.blk 0x0611 o d);
    s.Due flowTxSetRow 0x0611 o d e ∧ d.byte 2 = 0) ∧
  (let o : Origin := .core 0 0#32; let d : Body := { payload := [0, 0, 1] };
    let s : State := (wDue State.reset flowTxSetRow.blk 0x0611 o d);
    let s : State := s.setBit (Reg.pktTxfState (d.pl 0 2)) 0 false; let e : Sched := (wSched flowTxSetRow.blk 0x0611 o d);
    let t : State := (s.unschedule e.id); s.Due flowTxSetRow 0x0611 o d e ∧ d.byte 2 = 1 ∧
    t.txPortsOk (d.pl 0 2) (txEntry d) = true ∧ t.bit (Reg.pktTxfState (d.pl 0 2)) 0 = false) ∧
  (let o : Origin := .core 0 0#32; let d : Body := {}; let s : State := (wDue State.reset vsrcSetRow.blk 0x0612 o d);
    let e : Sched := (wSched vsrcSetRow.blk 0x0612 o d); s.Due vsrcSetRow 0x0612 o d e ∧ vsEn (vsEntry d) = false) ∧
  (let o : Origin := .core 0 0#32;
    let d : Body := { payload := List.replicate 12 0 ++ [0xFF, 0xFF, 0xFF, 0xFF] ++ List.replicate 7 0 ++ [1] };
    let s : State := (wDue State.reset vsrcSetRow.blk 0x0612 o d); let e : Sched := (wSched vsrcSetRow.blk 0x0612 o d);
    s.Due vsrcSetRow 0x0612 o d e ∧ vsEn (vsEntry d) = true ∧ (vsBound (vsEntry d)).length < 2) := by
  refine ⟨?_, ?_, ?_, ?_, ?_, ?_, ?_, ?_, ?_, ?_, ?_, ?_, ?_, ?_, ?_, ?_⟩
  · decide +kernel
  · decide +kernel
  · decide +kernel
  · decide +kernel
  · decide +kernel
  · decide +kernel
  · decide +kernel
  · decide +kernel
  · decide +kernel
  · intro hc; refine ⟨by decide +kernel, by decide +kernel, by decide +kernel, by decide +kernel, by decide +kernel, ?_⟩
    exact rxResources_ok _ _ _ 2632 hc (by decide +kernel) (by decide +kernel) (by decide +kernel)
  · decide +kernel
  · decide +kernel
  · decide +kernel
  · decide +kernel
  · decide +kernel
  · decide +kernel

theorem witness_lpFloatValues :
  (let a : Word := 0x3F800000#32; let b : Word := 0x3F800000#32; f32Finite a = true ∧ f32Finite b = true ∧
    f32ToRat (flush a) + f32ToRat (flush b) ≠ 0) ∧
  (let a : Word := 0x3F800000#32; let b : Word := 0x3F800000#32; f32Finite a = true ∧ f32Finite b = true ∧
    f32ToRat (flush a) * f32ToRat (flush b) ≠ 0) ∧
  (let a : Word := 0x3F800000#32; let b : Word := 0x3F800000#32; let c : Word := 0#32; f32Finite a = true ∧
    f32Finite b = true ∧ f32Finite c = true ∧ f32ToRat (flush a) * f32ToRat (flush b) + f32ToRat (flush c) ≠ 0) ∧
  (let a : Word := 0#32; let b : Word := 0#32; let c : Word := 0x3F800000#32; f32Finite a = true ∧ f32Finite b = true ∧
    f32Finite c = true ∧ f32ToRat (flush c) - f32ToRat (flush a) * f32ToRat (flush b) ≠ 0) ∧
  (let a : Word := 0x7FC00000#32; let b : Word := 0#32; (f32IsNan a = true ∨ f32IsNan b = true)) ∧
  (let a : Word := 0x7FC00000#32; f32IsNan a = true) ∧
  (let a : Word := 0x7FC00000#32; let b : Word := 0#32; f32IsNan a = true ∧ f32IsNan b = false) ∧
  (let a : Word := 0#32; let b : Word := 0x3F800000#32; f32IsNan a = false ∧ f32IsNan b = false ∧
    f32Key (flush a) < f32Key (flush b)) ∧
  (let a : Word := 0#32; f32IsNan a = false) ∧
  (let b : Word := 0#32; let c : Word := 0xBF800000#32; f32IsNan b = false ∧ f32IsNan c = false ∧ f32Neg c = true ∧
    f32IsZero (flush c) = false) ∧
  (let a : Word := 0x4F000000#32; f32Finite a = true ∧ 2147483647 ≤ f32ToRat (flush a)) ∧
  (let a : Word := 0xCF000000#32; f32Finite a = true ∧ f32ToRat (flush a) ≤ -2147483648) ∧
  (let w : Word := 0#32; f32Exp w = 0) ∧
  (let w : Word := 0x3F800000#32; f32Exp w ≠ 0) := by
  refine ⟨?_, ?_, ?_, ?_, ?_, ?_, ?_, ?_, ?_, ?_, ?_, ?_, ?_, ?_⟩ <;> decide +kernel

theorem witness_lpIssueTiming :
  (let h : LpH := {}; (∀ x ∈ h.wb, h.cyc < x.due)) ∧
  (let h : LpH := { wb := [{ due := 1 }] }; let x : WriteBack := { due := 1 }; h.wb = [x] ∧ x.cur = false ∧ h.cyc < x.due ∧
    x.reg ≠ 64) ∧
  (let h : LpH := {}; h.wb = []) ∧
  (let r : Nat := 0; r ≠ 64) ∧
  (let r : Nat := 0; let r' : Nat := 1; r' ≠ r) ∧
  (let h : LpH := {}; let i : Nat := 0; let j : Nat := 1; let r : Nat := 0; h.wb = [] ∧ i < j ∧ r ≠ 64) ∧
  (let h : LpH := {}; h.loops = []) ∧
  (let h : LpH := { loops := [{ left := 2 }] }; let l : HwLoop := { left := 2 }; let ls : List HwLoop := [];
    h.loops = l :: ls ∧ l.last = h.pc ∧ 1 < l.left) ∧
  (let h : LpH := { loops := [{ left := 1 }] }; let l : HwLoop := { left := 1 }; h.loops = [l] ∧ l.last = h.pc ∧
    l.left ≤ 1) := by
  refine ⟨?_, ?_, ?_, ?_, ?_, ?_, ?_, ?_, ?_⟩ <;> decide +kernel

theorem witness_lpMemorySlot :
  (let n : Fin 16 := 0; let s : State := State.reset; let s : State := wLp s 2 0 0; s.hold = .run ∧
    s.canIssue n.val 2 0x00 = true) ∧
  (let s : State := (wLp State.reset 2 0x01 (0)); let w : Word := ((s.lpAt 0).slotWord 2);
    let h : LpH := (((s.lpAt 0).stallTo (s.lpAt 0).mFree).waitAll ((fun w => [mAB w]) w));
    let a : Nat := (addrOf (h.reg (mAB w)) (mImm w)); s.hold = .run ∧ s.canIssue 0 2 0x01 = true ∧ h.Free a 4) ∧
  (let s : State := (wLp State.reset 2 0x02 (0)); let w : Word := ((s.lpAt 0).slotWord 2);
    let h : LpH := (((s.lpAt 0).stallTo (s.lpAt 0).mFree).waitAll ((fun w => [mAB w, mF w]) w));
    let a : Nat := (addrOf (h.reg (mAB w)) (mImm w)); s.hold = .run ∧ s.canIssue 0 2 0x02 = true ∧ h.Free a 4) ∧
  (let s : State := (wLp State.reset 2 0x03 (0)); let w : Word := ((s.lpAt 0).slotWord 2);
    let h : LpH := (((s.lpAt 0).stallTo (s.lpAt 0).mFree).waitAll ((fun w => [mAB w]) w));
    let a : Nat := ((h.reg (mAB w)).toNat); s.hold = .run ∧ s.canIssue 0 2 0x03 = true ∧ h.Free a 4) ∧
  (let s : State := (wLp State.reset 2 0x04 (0)); let w : Word := ((s.lpAt 0).slotWord 2);
    let h : LpH := (((s.lpAt 0).stallTo (s.lpAt 0).mFree).waitAll ((fun w => [mAB w, mF w]) w));
    let a : Nat := ((h.reg (mAB w)).toNat); s.hold = .run ∧ s.canIssue 0 2 0x04 = true ∧ h.Free a 4) ∧
  (let s : State := (wLp State.reset 2 0x05 (0)); let w : Word := ((s.lpAt 0).slotWord 2);
    let h : LpH := (((s.lpAt 0).stallTo (s.lpAt 0).mFree).waitAll ((fun w => [mAB w]) w));
    let a : Nat := (addrOf (h.reg (mAB w)) (mImm w)); s.hold = .run ∧ s.canIssue 0 2 0x05 = true ∧ h.Free a 4) ∧
  (let s : State := (wLp State.reset 2 0x06 (0)); let w : Word := ((s.lpAt 0).slotWord 2);
    let h : LpH := (((s.lpAt 0).stallTo (s.lpAt 0).mFree).waitAll ((fun w => [mAB w, mA w]) w));
    let a : Nat := (addrOf (h.reg (mAB w)) (mImm w)); s.hold = .run ∧ s.canIssue 0 2 0x06 = true ∧ h.Free a 4) ∧
  (let s : State := (wLp State.reset 2 0x07 (1)); let w : Word := ((s.lpAt 0).slotWord 2);
    let h : LpH := (((s.lpAt 0).stallTo (s.lpAt 0).mFree).waitAll ((fun w => [mA w, mAB w]) w)); s.hold = .run ∧
    s.canIssue 0 2 0x07 = true ∧ 1 ≤ mImmU w ∧ mImmU w ≤ 4096 ∧ (h.reg (mA w)).toNat % 64 = 0 ∧ (h.reg (mAB w)).toNat % 64 = 0 ∧
    (h.reg (mA w)).toNat + mImmU w * 64 ≤ 0x40000 ∧ (h.reg (mAB w)).toNat + mImmU w * 64 ≤ 0x800000 ∧ h.xfers.length < 4 ∧
    h.busyRange (h.reg (mA w)).toNat (mImmU w * 64) = false) ∧
  (let s : State := (wLp State.reset 2 0x08 (1)); let w : Word := ((s.lpAt 0).slotWord 2);
    let h : LpH := (((s.lpAt 0).stallTo (s.lpAt 0).mFree).waitAll ((fun w => [mA w, mAB w]) w)); s.hold = .run ∧
    s.canIssue 0 2 0x08 = true ∧ 1 ≤ mImmU w ∧ mImmU w ≤ 4096 ∧ (h.reg (mA w)).toNat % 64 = 0 ∧ (h.reg (mAB w)).toNat % 64 = 0 ∧
    (h.reg (mA w)).toNat + mImmU w * 64 ≤ 0x40000 ∧ (h.reg (mAB w)).toNat + mImmU w * 64 ≤ 0x800000 ∧ h.xfers.length < 4 ∧
    h.busyRange (h.reg (mA w)).toNat (mImmU w * 64) = false) ∧
  (let n : Fin 16 := 0; let i : Fin 4 := 0; let x : Transfer := { load := true }; let s : State := State.reset;
    let s : State := s.setLp 0 { s.lpAt 0 with xfers := [x] }; s.hold = .run ∧ (s.lpAt n.val).xfers[i.val]? = some x ∧
    x.load = true) ∧
  (let n : Fin 16 := 0; let i : Fin 4 := 0; let x : Transfer := {}; let s : State := State.reset;
    let s : State := s.setLp 0 { s.lpAt 0 with xfers := [x] }; s.hold = .run ∧ (s.lpAt n.val).xfers[i.val]? = some x ∧
    x.load = false) ∧
  (let n : Fin 16 := 0; let s : State := (wLp State.reset 2 0x09 (0)); let s : State := s.setReg (Reg.lpnDlyAlloc 0 0) 48;
    let w : Word := ((s.lpAt 0).slotWord 2);
    let h : LpH := (((s.lpAt 0).stallTo (s.lpAt 0).mFree).waitAll ((fun w => [mA w]) w)); let a : Nat := ((h.reg (mA w)).toNat);
    let t : State := (((s.delayLine n.val (mImmU w % 8) (h.words a 48)).1));
    let ys : List Word := (((s.delayLine n.val (mImmU w % 8) (h.words a 48)).2)); s.hold = .run ∧ s.canIssue 0 2 0x09 = true ∧
    h.Free a 384 ∧
    bankBad (s.getF (Reg.lpnDlyBase n.val (mImmU w % 8)) 22 0) (s.getF (Reg.lpnDlyAlloc n.val (mImmU w % 8)) 15 0 * 4) = false ∧
    s.delayLine n.val (mImmU w % 8) (h.words a 48) = (t, ys)) ∧
  (let n : Nat := 0; let l : Nat := 0; let s : State := State.reset; let s : State := s.setReg (Reg.lpnDlyAlloc 0 0) 48;
    let len : Nat := (s.getF (Reg.lpnDlyAlloc n l) 15 0); let ln : DelayLn := (Sparse.get {} (s.lpAt n).dly l); n < 16 ∧ l < 8 ∧
    ln.fade = none ∧ ln.delay + 48 ≤ len) ∧
  (let s : State := (wLp State.reset 2 0x01 (2 ^ 16)); let s : State := s.setLp 0 { s.lpAt 0 with regs := [(65, 1#32)] };
    let w : Word := ((s.lpAt 0).slotWord 2);
    let h : LpH := (((s.lpAt 0).stallTo (s.lpAt 0).mFree).waitAll ((fun w => [mAB w]) w)); s.hold = .run ∧
    s.canIssue 0 2 0x01 = true ∧ addrOf (h.reg (mAB w)) (mImm w) % 4 ≠ 0 ∧ addrOf (h.reg (mAB w)) (mImm w) + 4 ≤ 0x40000) ∧
  (let s : State := (wLp State.reset 2 0x02 (2 ^ 16));
    let s : State := s.setLp 0 { s.lpAt 0 with regs := [(65, 0x3FFFD#32)] }; let w : Word := ((s.lpAt 0).slotWord 2);
    let h : LpH := (((s.lpAt 0).stallTo (s.lpAt 0).mFree).waitAll ((fun w => [mAB w, mF w]) w)); s.hold = .run ∧
    s.canIssue 0 2 0x02 = true ∧ 0x40000 < addrOf (h.reg (mAB w)) (mImm w) + 4) ∧
  (let s : State := (wLp State.reset 2 0x07 (0x10001));
    let s : State := s.setLp 0 { s.lpAt 0 with regs := [(65, 0x800000#32)] }; let w : Word := ((s.lpAt 0).slotWord 2);
    let h : LpH := (((s.lpAt 0).stallTo (s.lpAt 0).mFree).waitAll ((fun w => [mA w, mAB w]) w)); s.hold = .run ∧
    s.canIssue 0 2 0x07 = true ∧ 1 ≤ mImmU w ∧ mImmU w ≤ 4096 ∧ (h.reg (mA w)).toNat % 64 = 0 ∧ (h.reg (mAB w)).toNat % 64 = 0 ∧
    (h.reg (mA w)).toNat + mImmU w * 64 ≤ 0x40000 ∧ 0x800000 < (h.reg (mAB w)).toNat + mImmU w * 64) := by
  refine ⟨?_, ?_, ?_, ?_, ?_, ?_, ?_, ?_, ?_, ?_, ?_, ?_, ?_, ?_, ?_, ?_⟩ <;> decide +kernel

theorem witness_lpControlSlot :
  (let s : State := (wLp State.reset 3 0x00 (0)); s.hold = .run ∧ s.canClose 0 0x00 = true) ∧
  (let s : State := (wLp State.reset 3 0x01 (0)); s.hold = .run ∧ s.canClose 0 0x01 = true) ∧
  (let s : State := (wLp State.reset 3 0x02 (0)); let w : Word := ((s.lpAt 0).slotWord 3);
    let h : LpH := ((s.lpAt 0).waitAll ((fun w => [cA w]) w)); s.hold = .run ∧ s.canClose 0 0x02 = true ∧ h.reg (cA w) = 0#32) ∧
  (let s : State := (wLp State.reset 3 0x02 (2 ^ 22));
    let s : State := s.setLp 0 { s.lpAt 0 with regs := [(64, 1#32), (65, 1#32)] }; let w : Word := ((s.lpAt 0).slotWord 3);
    let h : LpH := ((s.lpAt 0).waitAll ((fun w => [cA w]) w)); s.hold = .run ∧ s.canClose 0 0x02 = true ∧ h.reg (cA w) ≠ 0#32) ∧
  (let s : State := (wLp State.reset 3 0x03 (2 ^ 22)); let s : State := s.setLp 0 { s.lpAt 0 with regs := [(65, 1#32)] };
    let w : Word := ((s.lpAt 0).slotWord 3); let h : LpH := ((s.lpAt 0).waitAll ((fun w => [cA w]) w)); s.hold = .run ∧
    s.canClose 0 0x03 = true ∧ h.reg (cA w) ≠ 0#32) ∧
  (let s : State := (wLp State.reset 3 0x03 (0)); let w : Word := ((s.lpAt 0).slotWord 3);
    let h : LpH := ((s.lpAt 0).waitAll ((fun w => [cA w]) w)); s.hold = .run ∧ s.canClose 0 0x03 = true ∧ h.reg (cA w) = 0#32) ∧
  (let s : State := (wLp State.reset 3 0x04 (2 ^ 18)); let s : State := s.setLp 0 { s.lpAt 0 with regs := [(65, 1#32)] };
    let w : Word := ((s.lpAt 0).slotWord 3); let h : LpH := ((s.lpAt 0).waitAll ((fun w => [cA w, cB w]) w)); s.hold = .run ∧
    s.canClose 0 0x04 = true ∧ (h.reg (cA w)).toInt < (h.reg (cB w)).toInt) ∧
  (let s : State := (wLp State.reset 3 0x04 (0)); let w : Word := ((s.lpAt 0).slotWord 3);
    let h : LpH := ((s.lpAt 0).waitAll ((fun w => [cA w, cB w]) w)); s.hold = .run ∧ s.canClose 0 0x04 = true ∧
    (h.reg (cB w)).toInt ≤ (h.reg (cA w)).toInt) ∧
  (let s : State := (wLp State.reset 3 0x05 (0)); let w : Word := ((s.lpAt 0).slotWord 3);
    let h : LpH := ((s.lpAt 0).waitAll (noSrcs w)); s.hold = .run ∧ s.canClose 0 0x05 = true ∧ h.stack.length < 8) ∧
  (let s : State := (wLp State.reset 3 0x05 (0)); let s : State := s.setLp 0 { s.lpAt 0 with stack := List.replicate 8 0 };
    let w : Word := ((s.lpAt 0).slotWord 3); let h : LpH := ((s.lpAt 0).waitAll (noSrcs w)); s.hold = .run ∧
    s.canClose 0 0x05 = true ∧ 8 ≤ h.stack.length) ∧
  (let t : Nat := 0; let ts : List Nat := []; let s : State := (wLp State.reset 3 0x06 (0));
    let s : State := s.setLp 0 { s.lpAt 0 with stack := [0] }; let w : Word := ((s.lpAt 0).slotWord 3);
    let h : LpH := ((s.lpAt 0).waitAll (noSrcs w)); s.hold = .run ∧ s.canClose 0 0x06 = true ∧ h.stack = t :: ts) ∧
  (let s : State := (wLp State.reset 3 0x06 (0)); let w : Word := ((s.lpAt 0).slotWord 3);
    let h : LpH := ((s.lpAt 0).waitAll (noSrcs w)); s.hold = .run ∧ s.canClose 0 0x06 = true ∧ h.stack = []) ∧
  (let s : State := (wLp State.reset 3 0x07 (2 ^ 22)); let s : State := s.setLp 0 { s.lpAt 0 with regs := [(65, 1#32)] };
    let w : Word := ((s.lpAt 0).slotWord 3); let h : LpH := ((s.lpAt 0).waitAll ((fun w => [cA w]) w));
    let k : Nat := ((if cA w = 64 then fld w 21 12 else (h.reg (cA w)).toNat)); s.hold = .run ∧ s.canClose 0 0x07 = true ∧
    k ≠ 0 ∧ h.loops.length < 4) ∧
  (let s : State := (wLp State.reset 3 0x07 (0)); let w : Word := ((s.lpAt 0).slotWord 3);
    let h : LpH := ((s.lpAt 0).waitAll ((fun w => [cA w]) w)); s.hold = .run ∧ s.canClose 0 0x07 = true ∧
    (if cA w = 64 then fld w 21 12 else (h.reg (cA w)).toNat) = 0) ∧
  (let s : State := (wLp State.reset 3 0x07 (2 ^ 22));
    let s : State := s.setLp 0 { s.lpAt 0 with regs := [(65, 1#32)], loops := List.replicate 4 {} };
    let w : Word := ((s.lpAt 0).slotWord 3); let h : LpH := ((s.lpAt 0).waitAll ((fun w => [cA w]) w)); s.hold = .run ∧
    s.canClose 0 0x07 = true ∧ (if cA w = 64 then fld w 21 12 else (h.reg (cA w)).toNat) ≠ 0 ∧ 4 ≤ h.loops.length) ∧
  (let s : State := (wLp State.reset 3 0x08 (0)); s.hold = .run ∧ s.canClose 0 0x08 = true) ∧
  (let s : State := (wLp State.reset 3 0x09 (0)); s.hold = .run ∧ s.canClose 0 0x09 = true) ∧
  (let s : State := (wLp State.reset 3 0x0A (0)); s.hold = .run ∧ s.canClose 0 0x0A = true) ∧
  (let s : State := (wLp State.reset 3 0x0B (0)); s.hold = .run ∧ s.canClose 0 0x0B = true) ∧
  (let s : State := (wLp State.reset 3 0x0C (0)); s.hold = .run ∧ s.canClose 0 0x0C = true) ∧
  (let s : State := (wLp State.reset 3 0x0D (0)); s.hold = .run ∧ s.canClose 0 0x0D = true) ∧
  (let s : State := (wLp State.reset 3 0x0E (0)); s.hold = .run ∧ s.canClose 0 0x0E = true) ∧
  (let s : State := (wLp State.reset 3 0x0F (0)); let w : Word := ((s.lpAt 0).slotWord 3);
    let h : LpH := ((s.lpAt 0).waitAll (noSrcs w)); s.hold = .run ∧ s.canClose 0 0x0F = true ∧ h.loops = [] ∧
    ((h.endBundle none 0).stallTo ((h.endBundle none 0).wb.foldl (fun c w => max c w.due) (h.endBundle none 0).cyc)).bundleBad = none) ∧
  (let s : State := (wLp State.reset 3 0x10 (0)); let w : Word := ((s.lpAt 0).slotWord 3);
    let h : LpH := ((s.lpAt 0).waitAll (noSrcs w)); s.hold = .run ∧ s.canClose 0 0x10 = true ∧ h.xfers = []) ∧
  (let s : State := (wLp State.reset 3 0x10 (0)); let s : State := s.setLp 0 { s.lpAt 0 with xfers := [{}] };
    let w : Word := ((s.lpAt 0).slotWord 3); let h : LpH := ((s.lpAt 0).waitAll (noSrcs w)); s.hold = .run ∧
    s.canClose 0 0x10 = true ∧ h.xfers ≠ []) := by
  refine ⟨?_, ?_, ?_, ?_, ?_, ?_, ?_, ?_, ?_, ?_, ?_, ?_, ?_, ?_, ?_, ?_, ?_, ?_, ?_, ?_, ?_, ?_, ?_, ?_, ?_⟩ <;> decide +kernel

theorem witness_lpPrimitives :
  (let n : Fin 16 := 0; let s : State := (wLp State.reset 3 0x20 (0x400));
    let s : State := s.setLp 0 { s.lpAt 0 with regs := [(65, 1#32)], dmem := [] }; let w : Word := ((s.lpAt 0).slotWord 3);
    let h0 : LpH := ((s.lpAt 0).waitAll ((fun w => [pAS w, pAK w, pAD w, pAN w]) w)); let h : LpH := (h0.stallTo h0.mFree);
    let p : PrimArgs := { as_ := (h.reg (pAS w)).toNat, ak := (h.reg (pAK w)).toNat, ad := (h.reg (pAD w)).toNat, n := (h.reg (pAN w)).toNat };
    let ys : List Word := ((biqGo ((h.words p.ak 5).map valOf) (h.words p.as_ p.n) s.freeCtr (h.word (p.ak + 20)) (h.word (p.ak + 24))).1);
    let c : Nat := ((biqGo ((h.words p.ak 5).map valOf) (h.words p.as_ p.n) s.freeCtr (h.word (p.ak + 20)) (h.word (p.ak + 24))).2.1);
    let s1 : Word := ((biqGo ((h.words p.ak 5).map valOf) (h.words p.as_ p.n) s.freeCtr (h.word (p.ak + 20)) (h.word (p.ak + 24))).2.2.1);
    let s2 : Word := ((biqGo ((h.words p.ak 5).map valOf) (h.words p.as_ p.n) s.freeCtr (h.word (p.ak + 20)) (h.word (p.ak + 24))).2.2.2);
    s.hold = .run ∧ s.canClose 0 0x20 = true ∧ 1 ≤ p.n ∧ p.n ≤ 4096 ∧ h.Free p.as_ (4 * p.n) ∧ h.Free p.ak 28 ∧
    biqGo ((h.words p.ak 5).map valOf) (h.words p.as_ p.n) s.freeCtr (h.word (p.ak + 20)) (h.word (p.ak + 24)) = (ys, c, s1, s2)) ∧
  (let n : Fin 16 := 0; let k : Nat := 1; let s : State := (wLp State.reset 3 0x21 (0x400));
    let s : State := s.setLp 0 { s.lpAt 0 with regs := [(65, 1#32)], dmem := [(0, 1#32)] };
    let w : Word := ((s.lpAt 0).slotWord 3); let h0 : LpH := ((s.lpAt 0).waitAll ((fun w => [pAS w, pAK w, pAD w, pAN w]) w));
    let h : LpH := (h0.stallTo h0.mFree);
    let p : PrimArgs := { as_ := (h.reg (pAS w)).toNat, ak := (h.reg (pAK w)).toNat, ad := (h.reg (pAD w)).toNat, n := (h.reg (pAN w)).toNat };
    let ys : List Word := ((primWords s.freeCtr ((List.range p.n).map fun i => firSum (h.words (p.ak + 4) k) (fun j => h.word (p.as_ + 4 * j)) (i + k - 1))).1);
    let c : Nat := ((primWords s.freeCtr ((List.range p.n).map fun i => firSum (h.words (p.ak + 4) k) (fun j => h.word (p.as_ + 4 * j)) (i + k - 1))).2);
    s.hold = .run ∧ s.canClose 0 0x21 = true ∧ 1 ≤ p.n ∧ p.n ≤ 4096 ∧ 1 ≤ k ∧ k ≤ 1024 ∧ k = (h.word p.ak).toNat ∧
    h.Free p.ak (4 + 4 * k) ∧ h.Free p.as_ (4 * (k - 1 + p.n)) ∧ h.Free p.ad (4 * p.n) ∧
    primWords s.freeCtr ((List.range p.n).map fun i => firSum (h.words (p.ak + 4) k) (fun j => h.word (p.as_ + 4 * j)) (i + k - 1)) = (ys, c)) ∧
  (let n : Fin 16 := 0; let s : State := (wLp State.reset 3 0x22 (0x400));
    let s : State := s.setLp 0 { s.lpAt 0 with regs := [(65, 1#32)], dmem := [] }; let w : Word := ((s.lpAt 0).slotWord 3);
    let h0 : LpH := ((s.lpAt 0).waitAll ((fun w => [pAS w, pAK w, pAD w, pAN w]) w)); let h : LpH := (h0.stallTo h0.mFree);
    let p : PrimArgs := { as_ := (h.reg (pAS w)).toNat, ak := (h.reg (pAK w)).toNat, ad := (h.reg (pAD w)).toNat, n := (h.reg (pAN w)).toNat };
    let ys : List Word := ((primWords s.freeCtr ((List.range (8 * p.n)).map fun j => firSum ((List.range 16).map fun k => h.word (p.ak + 4 * (j % 8 + 8 * k))) (fun i => h.word (p.as_ + 4 * i)) (j / 8 + 15))).1);
    let c : Nat := ((primWords s.freeCtr ((List.range (8 * p.n)).map fun j => firSum ((List.range 16).map fun k => h.word (p.ak + 4 * (j % 8 + 8 * k))) (fun i => h.word (p.as_ + 4 * i)) (j / 8 + 15))).2);
    s.hold = .run ∧ s.canClose 0 0x22 = true ∧ 1 ≤ p.n ∧ p.n ≤ 4096 ∧ h.Free p.ak 512 ∧ h.Free p.as_ (4 * (15 + p.n)) ∧
    h.Free p.ad (32 * p.n) ∧
    primWords s.freeCtr ((List.range (8 * p.n)).map fun j => firSum ((List.range 16).map fun k => h.word (p.ak + 4 * (j % 8 + 8 * k))) (fun i => h.word (p.as_ + 4 * i)) (j / 8 + 15)) = (ys, c)) ∧
  (let n : Fin 16 := 0; let s : State := (wLp State.reset 3 0x23 (0x400));
    let s : State := s.setLp 0 { s.lpAt 0 with regs := [(65, 1#32)], dmem := [] }; let w : Word := ((s.lpAt 0).slotWord 3);
    let h0 : LpH := ((s.lpAt 0).waitAll ((fun w => [pAS w, pAK w, pAD w, pAN w]) w)); let h : LpH := (h0.stallTo h0.mFree);
    let p : PrimArgs := { as_ := (h.reg (pAS w)).toNat, ak := (h.reg (pAK w)).toNat, ad := (h.reg (pAD w)).toNat, n := (h.reg (pAN w)).toNat };
    let v : Word := ((envGo (bitAt w 0) (valOf (h.word (p.ak + 4))) (valOf (h.word (p.ak + 8))) (h.words p.as_ p.n) s.freeCtr (h.word p.ak)).1);
    let c : Nat := ((envGo (bitAt w 0) (valOf (h.word (p.ak + 4))) (valOf (h.word (p.ak + 8))) (h.words p.as_ p.n) s.freeCtr (h.word p.ak)).2);
    s.hold = .run ∧ s.canClose 0 0x23 = true ∧ 1 ≤ p.n ∧ p.n ≤ 4096 ∧ h.Free p.as_ (4 * p.n) ∧ h.Free p.ak 12 ∧
    envGo (bitAt w 0) (valOf (h.word (p.ak + 4))) (valOf (h.word (p.ak + 8))) (h.words p.as_ p.n) s.freeCtr (h.word p.ak) = (v, c)) ∧
  (let n : Fin 16 := 0; let k : Nat := 4; let s : State := (wLp State.reset 3 0x24 (0x408));
    let s : State := s.setLp 0 { s.lpAt 0 with regs := [(65, 1#32)], dmem := [(0, 4#32)] };
    let w : Word := ((s.lpAt 0).slotWord 3); let h0 : LpH := ((s.lpAt 0).waitAll ((fun w => [pAS w, pAK w, pAD w, pAN w]) w));
    let h : LpH := (h0.stallTo h0.mFree);
    let p : PrimArgs := { as_ := (h.reg (pAS w)).toNat, ak := (h.reg (pAK w)).toNat, ad := (h.reg (pAD w)).toNat, n := (h.reg (pAN w)).toNat };
    let ys : List Word := ((primWords s.freeCtr ((List.range p.n).map fun i => tblAt h p ((valOf (h.word (p.as_ + 4 * i))).map fun v => if v < 0 then 0 else if 1 < v then 1 else v))).1);
    let c : Nat := ((primWords s.freeCtr ((List.range p.n).map fun i => tblAt h p ((valOf (h.word (p.as_ + 4 * i))).map fun v => if v < 0 then 0 else if 1 < v then 1 else v))).2);
    s.hold = .run ∧ s.canClose 0 0x24 = true ∧ 1 ≤ p.n ∧ p.n ≤ 4096 ∧ k = (h.word p.ak).toNat ∧ 4 ≤ k ∧ k ≤ 12 ∧
    bitAt w 3 = true ∧ bitAt w 1 = false ∧ h.Free p.ak (4 + 4 * (2 ^ k + 1)) ∧ h.Free p.ad (4 * p.n) ∧ h.Free p.as_ (4 * p.n) ∧
    primWords s.freeCtr ((List.range p.n).map fun i => tblAt h p ((valOf (h.word (p.as_ + 4 * i))).map fun v => if v < 0 then 0 else if 1 < v then 1 else v)) = (ys, c)) ∧
  (let n : Fin 16 := 0; let k : Nat := 4; let s : State := (wLp State.reset 3 0x24 (0x400));
    let s : State := s.setLp 0 { s.lpAt 0 with regs := [(65, 1#32)], dmem := [(0, 4#32)] };
    let w : Word := ((s.lpAt 0).slotWord 3); let h0 : LpH := ((s.lpAt 0).waitAll ((fun w => [pAS w, pAK w, pAD w, pAN w]) w));
    let h : LpH := (h0.stallTo h0.mFree);
    let p : PrimArgs := { as_ := (h.reg (pAS w)).toNat, ak := (h.reg (pAK w)).toNat, ad := (h.reg (pAD w)).toNat, n := (h.reg (pAN w)).toNat };
    let ys : List Word := ((primWords s.freeCtr ((List.range p.n).map fun i => tblAt h p (h.phase (fld w 9 4) (sampleTime h.zbHeat i (if bitAt w 2 then 384 else 96))))).1);
    let c : Nat := ((primWords s.freeCtr ((List.range p.n).map fun i => tblAt h p (h.phase (fld w 9 4) (sampleTime h.zbHeat i (if bitAt w 2 then 384 else 96))))).2);
    s.hold = .run ∧ s.canClose 0 0x24 = true ∧ 1 ≤ p.n ∧ p.n ≤ 4096 ∧ k = (h.word p.ak).toNat ∧ 4 ≤ k ∧ k ≤ 12 ∧
    bitAt w 3 = false ∧ bitAt w 1 = false ∧ h.Free p.ak (4 + 4 * (2 ^ k + 1)) ∧ h.Free p.ad (4 * p.n) ∧
    primWords s.freeCtr ((List.range p.n).map fun i => tblAt h p (h.phase (fld w 9 4) (sampleTime h.zbHeat i (if bitAt w 2 then 384 else 96)))) = (ys, c)) ∧
  (let n : Fin 16 := 0; let s : State := (wLp State.reset 3 0x25 (0x400));
    let s : State := s.setLp 0 { s.lpAt 0 with regs := [(65, 1#32)], dmem := [] }; let w : Word := ((s.lpAt 0).slotWord 3);
    let h0 : LpH := ((s.lpAt 0).waitAll ((fun w => [pAS w, pAK w, pAD w, pAN w]) w)); let h : LpH := (h0.stallTo h0.mFree);
    let p : PrimArgs := { as_ := (h.reg (pAS w)).toNat, ak := (h.reg (pAK w)).toNat, ad := (h.reg (pAD w)).toNat, n := (h.reg (pAN w)).toNat };
    let l : LockIn := (h.lockGo (fld w 9 4) (h.words p.as_ p.n) 0 s.freeCtr (Sparse.get {} h.lock (fld w 9 4))).1;
    let c : Nat := (h.lockGo (fld w 9 4) (h.words p.as_ p.n) 0 s.freeCtr (Sparse.get {} h.lock (fld w 9 4))).2; s.hold = .run ∧
    s.canClose 0 0x25 = true ∧ 1 ≤ p.n ∧ p.n ≤ 4096 ∧ fld w 9 4 < 48 ∧ h.Free p.as_ (4 * p.n) ∧
    h.lockGo (fld w 9 4) (h.words p.as_ p.n) 0 s.freeCtr (Sparse.get {} h.lock (fld w 9 4)) = (l, c)) ∧
  (let n : Fin 16 := 0; let x : Rat := 0; let y : Rat := 0; let s : State := (wLp State.reset 3 0x26 (0));
    let w : Word := ((s.lpAt 0).slotWord 3); let h0 : LpH := ((s.lpAt 0).waitAll ((fun w => [pAS w, pAK w, pAD w, pAN w]) w));
    let h : LpH := (h0.stallTo h0.mFree);
    let p : PrimArgs := { as_ := (h.reg (pAS w)).toNat, ak := (h.reg (pAK w)).toNat, ad := (h.reg (pAD w)).toNat, n := (h.reg (pAN w)).toNat };
    let l : LockIn := (Sparse.get {} h.lock (fld w 9 4)); s.hold = .run ∧ s.canClose 0 0x26 = true ∧ fld w 9 4 < 48 ∧
    h.Free p.ad 12 ∧ f64Val l.i = some x ∧ f64Val l.q = some y ∧ bitAt w 3 = false) ∧
  (let n : Fin 16 := 0; let x : Rat := 0; let y : Rat := 0; let s : State := (wLp State.reset 3 0x26 (0x8));
    let w : Word := ((s.lpAt 0).slotWord 3); let h0 : LpH := ((s.lpAt 0).waitAll ((fun w => [pAS w, pAK w, pAD w, pAN w]) w));
    let h : LpH := (h0.stallTo h0.mFree);
    let p : PrimArgs := { as_ := (h.reg (pAS w)).toNat, ak := (h.reg (pAK w)).toNat, ad := (h.reg (pAD w)).toNat, n := (h.reg (pAN w)).toNat };
    let l : LockIn := (Sparse.get {} h.lock (fld w 9 4)); s.hold = .run ∧ s.canClose 0 0x26 = true ∧ fld w 9 4 < 48 ∧
    h.Free p.ad 12 ∧ f64Val l.i = some x ∧ f64Val l.q = some y ∧ bitAt w 3 = true) ∧
  (let n : Fin 16 := 0; let s : State := (wLp State.reset 3 0x27 (0)); let w : Word := ((s.lpAt 0).slotWord 3);
    let h0 : LpH := ((s.lpAt 0).waitAll ((fun w => [pAS w, pAK w, pAD w, pAN w]) w)); let h : LpH := (h0.stallTo h0.mFree);
    let p : PrimArgs := { as_ := (h.reg (pAS w)).toNat, ak := (h.reg (pAK w)).toNat, ad := (h.reg (pAD w)).toNat, n := (h.reg (pAN w)).toNat };
    s.hold = .run ∧ s.canClose 0 0x27 = true ∧ fld w 9 4 < 48 ∧ h.Free p.ak 8) ∧
  (let n : Fin 16 := 0; let s : State := (wLp State.reset 3 0x28 (0x400));
    let s : State := s.setLp 0 { s.lpAt 0 with regs := [(65, 1#32)], dmem := [(4, 1#32)] };
    let w : Word := ((s.lpAt 0).slotWord 3); let h0 : LpH := ((s.lpAt 0).waitAll ((fun w => [pAS w, pAK w, pAD w, pAN w]) w));
    let h : LpH := (h0.stallTo h0.mFree);
    let p : PrimArgs := { as_ := (h.reg (pAS w)).toNat, ak := (h.reg (pAK w)).toNat, ad := (h.reg (pAD w)).toNat, n := (h.reg (pAN w)).toNat };
    let ys : List Word := ((rampGo h.zbHeat (h.words p.as_ p.n) (fld w 9 4) s.freeCtr (rampBlk h p.ak)).1);
    let r : RampBlk := ((rampGo h.zbHeat (h.words p.as_ p.n) (fld w 9 4) s.freeCtr (rampBlk h p.ak)).2.1);
    let c : Nat := ((rampGo h.zbHeat (h.words p.as_ p.n) (fld w 9 4) s.freeCtr (rampBlk h p.ak)).2.2); s.hold = .run ∧
    s.canClose 0 0x28 = true ∧ 1 ≤ p.n ∧ p.n ≤ 4096 ∧ h.Free p.as_ (4 * p.n) ∧ h.Free p.ak 32 ∧ 1 ≤ (rampBlk h p.ak).len ∧
    (rampBlk h p.ak).len ≤ 480000 ∧ (rampBlk h p.ak).shape ≤ 2 ∧
    rampGo h.zbHeat (h.words p.as_ p.n) (fld w 9 4) s.freeCtr (rampBlk h p.ak) = (ys, r, c)) ∧
  (let n : Fin 16 := 0; let s : State := (wLp State.reset 3 0x20 (0)); let w : Word := ((s.lpAt 0).slotWord 3);
    let h0 : LpH := ((s.lpAt 0).waitAll ((fun w => [pAS w, pAK w, pAD w, pAN w]) w)); let h : LpH := (h0.stallTo h0.mFree);
    let p : PrimArgs := { as_ := (h.reg (pAS w)).toNat, ak := (h.reg (pAK w)).toNat, ad := (h.reg (pAD w)).toNat, n := (h.reg (pAN w)).toNat };
    s.hold = .run ∧ s.canClose 0 0x20 = true ∧ (p.n = 0 ∨ 4096 < p.n)) ∧
  (let n : Fin 16 := 0; let s : State := (wLp State.reset 3 0x25 (0)); let w : Word := ((s.lpAt 0).slotWord 3);
    let h0 : LpH := ((s.lpAt 0).waitAll ((fun w => [pAS w, pAK w, pAD w, pAN w]) w)); let h : LpH := (h0.stallTo h0.mFree);
    let p : PrimArgs := { as_ := (h.reg (pAS w)).toNat, ak := (h.reg (pAK w)).toNat, ad := (h.reg (pAD w)).toNat, n := (h.reg (pAN w)).toNat };
    s.hold = .run ∧ s.canClose 0 0x25 = true ∧ (p.n = 0 ∨ 4096 < p.n)) ∧
  (let cf : List (Option Rat) := List.replicate 5 (some 0); let k : Nat → Rat := fun _ => 0; let s1 : Word := 0#32;
    let x : Word := 0#32; (∀ i, i < 5 → cf.getD i none = some (k i)) ∧ f32Finite x = true ∧ f32Finite s1 = true) ∧
  (let heat : Nat := 0; let k : Nat := 0;
    let r : RampBlk := { ({ g := 0, target := 0, heat := 0, sample := 0, len := 1, shape := 0, g0 := 0, pos := 0 } : RampBlk) with len := 1 };
    heat + k / 48 < 2 ^ 32 ∧ heat + k / 48 = r.heat ∧ k % 48 = r.sample ∧ r.len = 1) ∧
  (let heat : Nat := 0; let k : Nat := 0;
    let r : RampBlk := { g := 0, target := 0, heat := 1, sample := 0, len := 1, shape := 0, g0 := 0, pos := 0 };
    (heat + k / 48) % 2 ^ 32 ≠ r.heat ∧ r.pos = 0) := by
  refine ⟨?_, ?_, ?_, ?_, ?_, ?_, ?_, ?_, ?_, ?_, ?_, ?_, ?_, ?_, ?_, ?_⟩
  · decide +kernel
  · decide +kernel
  · decide +kernel
  · decide +kernel
  · decide +kernel
  · decide +kernel
  · exact ⟨by decide +kernel, by decide +kernel, by decide +kernel, by decide +kernel, by decide +kernel, by decide +kernel, rfl⟩
  · decide +kernel
  · decide +kernel
  · decide +kernel
  · exact ⟨by decide +kernel, by decide +kernel, by decide +kernel, by decide +kernel, by decide +kernel, by decide +kernel, by decide +kernel, by decide +kernel, by decide +kernel, rfl⟩
  · decide +kernel
  · decide +kernel
  · decide +kernel
  · decide +kernel
  · decide +kernel

theorem witness_lpPrograms :
  (let o : Origin := .core 0 0#32; let d : Body := {}; let s : State := (wDue State.reset laneParamInlineRow.blk 0x0201 o d);
    let e : Sched := (wSched laneParamInlineRow.blk 0x0201 o d); let t : State := (s.unschedule e.id);
    s.Due laneParamInlineRow 0x0201 o d e ∧ t.paramHeat ≠ e.heat ∧ e.pend = none) ∧
  (let o : Origin := .core 0 0#32; let d : Body := {}; let s : State := (wDue State.reset laneParamRow.blk 0x0200 o d);
    let e : Sched := (wSched laneParamRow.blk 0x0200 o d); s.Due laneParamRow 0x0200 o d e ∧ paramData e = none) ∧
  (let o : Origin := .core 0 0#32;
    let d : Body := { payload := [0, 0, 0, 0, 4, 0, 0, 0, 0, 0, 0, 0, 0, 0, 0, 0, 0x1C, 0xDF, 0x44, 0x21] };
    let e : Sched := { wSched (laneParamRow).blk 0x0200 o d with fetched := .data [0, 0, 0, 0], pend := some 0 };
    let k : Nat := 0; let bs : List Byte := [0, 0, 0, 0];
    let s : State := { State.reset with pacer := { ns := 5000000#64 }, sched := [e] }; let t : State := (s.unschedule e.id);
    s.Due laneParamRow 0x0200 o d e ∧ t.paramHeat ≠ e.heat ∧ paramData e = some bs ∧ e.pend = some k) ∧
  (let e : Sched := { desc := { opcode := 0x0200, body := { payload := [0, 0, 0, 0, 4, 0, 0, 0, 0, 0, 0, 0, 0, 0, 0, 0, 0x1C, 0xDF, 0x44, 0x21] } }, fetched := .data [0, 0, 0, 0] };
    let k : Nat := 0; let bs : List Byte := [0, 0, 0, 0]; let n : Nat := (e.desc.body.byte 0 / 8); let s : State := State.reset;
    paramData e = some bs ∧ (List.range 32).find? (fun k => !((s.pending_ n).filterMap (·.pend)).contains k) = some k) ∧
  (let e : Sched := { desc := { opcode := 0x0201 }, heat := 4 }; let s : State := w0;
    let s : State := { s with sched := [e] }; s.hold = .run ∧ 0 < s.heat ∧ s.paramsDue (s.heat - 1) = [e]) ∧
  (let o : Origin := .core 0 0#32; let d : Body := {}; let n : Nat := (d.byte 0 / 8); let l : Nat := (d.byte 0 % 8);
    let s : State := (wDue State.reset laneDelayRow.blk 0x0202 o d); let e : Sched := (wSched laneDelayRow.blk 0x0202 o d);
    let t : State := (s.unschedule e.id); s.Due laneDelayRow 0x0202 o d e ∧ t.getF (Reg.lpnDlyAlloc n l) 15 0 < d.pl 4 4 + 48) ∧
  (let o : Origin := .core 0 0#32; let d : Body := { payload := [0, 0, 0, 0, 0] }; let n : Nat := (d.byte 0 / 8);
    let l : Nat := (d.byte 0 % 8); let s : State := (wDue State.reset laneDelayRow.blk 0x0202 o d);
    let s : State := s.setReg (Reg.lpnDlyAlloc 0 0) 48; let e : Sched := (wSched laneDelayRow.blk 0x0202 o d);
    let t : State := (s.unschedule e.id); s.Due laneDelayRow 0x0202 o d e ∧ d.pl 4 4 + 48 ≤ t.getF (Reg.lpnDlyAlloc n l) 15 0) ∧
  (let o : Origin := .core 0 0#32; let d : Body := {}; let x : LpLoad := { upd := { id := 7 }, verdict := some true };
    let s : State := (wDue State.reset lpLoadRow.blk 0x0210 o d); let s : State := { s with lpLoads := [x] };
    let e : Sched := (wSched lpLoadRow.blk 0x0210 o d); let t : State := (s.unschedule e.id); s.Due lpLoadRow 0x0210 o d e ∧
    t.vaRefuses = false ∧ t.lpLoads.find? (fun x => x.upd.id == e.id) = some x ∧ x.verdict = some true) ∧
  (let o : Origin := .core 0 0#32; let d : Body := {}; let x : LpLoad := { upd := { id := 7 }, verdict := some false };
    let s : State := (wDue State.reset lpLoadRow.blk 0x0210 o d); let s : State := { s with lpLoads := [x] };
    let e : Sched := (wSched lpLoadRow.blk 0x0210 o d); let t : State := (s.unschedule e.id); s.Due lpLoadRow 0x0210 o d e ∧
    t.vaRefuses = false ∧ t.lpLoads.find? (fun x => x.upd.id == e.id) = some x ∧ x.verdict = some false) ∧
  (let x : LpLoad := { due := true, verdict := some true, upd := { id := 7 }, mask := 1 }; let s : State := State.reset;
    let s : State := { s with lpLoads := [x] }; s.lpLoads = [x] ∧ x.due = true ∧ x.begun = false ∧ x.verdict = some true ∧
    (∀ n ∈ lpsOf x.mask, s.lpSt n ≠ lpReset)) ∧
  (let o : Origin := .core 0 0#32;
    let x : LpLoad := { mask := 1, image := wImg, upd := { desc := { body := { payload := [0, 0, 0, 0, 16, 1] } } } };
    let n : Nat := 0; let s : State := State.reset; let s : State := { s with lpLoads := [x] }; s.hold = .run ∧
    s.lpLoads.find? (fun x => decide (x.upd.org = o) && x.verdict.isNone) = some x ∧ lpsOf x.mask = [n] ∧
    x.image.length = x.upd.desc.body.pl 4 4 ∧ imgSigned x.image = false ∧
    ((s.setBit (Reg.lpnStatus n) 9 false)).imageOk x.image = true) ∧
  (let n : Fin 16 := 0; let x : LpLoad := { begun := true, left := 1 }; let s : State := State.reset;
    let s : State := { s with lpLoads := [x] }; s.hold = .run ∧ s.loadOf n.val = some x ∧ s.lpSt n.val ≠ lpReset) ∧
  (let n : Fin 16 := 0; let s : State := State.reset; let s : State := s.setLp n.val { s.lpAt n.val with stopping := true };
    s.hold = .run ∧ s.loadOf n.val = none ∧ (s.lpAt n.val).stopping = true ∧ s.lpStops = []) ∧
  (let n : Fin 16 := 0; let x : LpLoad := { begun := true, left := 1, start := true }; let s : State := State.reset;
    let s : State := { s with lpLoads := [x] }; let s : State := s.setBit (Reg.lpnCtrl 0) 0 true; s.hold = .run ∧
    s.loadOf n.val = some x ∧ s.lpSt n.val ≠ lpReset ∧ x.start = true ∧
    (s.showImage n.val x.image).bit (Reg.lpnCtrl n.val) 0 = true ∧ s.wup = false ∧ (s.showImage n.val x.image).wup = false) ∧
  (let n : Fin 16 := 0; let x : LpLoad := { begun := true, left := 1 }; let s : State := State.reset;
    let s : State := { s with lpLoads := [x] }; s.hold = .run ∧ s.loadOf n.val = some x ∧ s.lpSt n.val ≠ lpReset ∧
    x.start = false) ∧
  (let o : Origin := .core 0 0#32; let d : Body := { payload := [1, 0] }; let n : Nat := 0;
    let s : State := (wDue State.reset lpRunStartRow.blk 0x0211 o d); let s : State := s.setLpSt 0 lpStandby;
    let s : State := s.setBit (Reg.lpnCtrl 0) 0 true; let s : State := s.setBit (Reg.lpnCtrl n) 0 true;
    let e : Sched := (wSched lpRunStartRow.blk 0x0211 o d); let t : State := (s.unschedule e.id);
    s.Due lpRunStartRow 0x0211 o d e ∧ t.wup = false ∧ lpsOf (lpMask d) = [n] ∧ t.lpSt n = lpStandby ∧
    t.bit (Reg.lpnCtrl n) 0 = true) ∧
  (let o : Origin := .core 0 0#32; let d : Body := {}; let s : State := (wDue State.reset lpRunStartRow.blk 0x0211 o d);
    let s : State := s.setBit Reg.gblMode 6 true; let e : Sched := (wSched lpRunStartRow.blk 0x0211 o d);
    let t : State := (s.unschedule e.id); s.Due lpRunStartRow 0x0211 o d e ∧ t.wup = true) ∧
  (let o : Origin := .core 0 0#32; let d : Body := {}; let s : State := (wDue State.reset lpRunStopRow.blk 0x0211 o d);
    let e : Sched := (wSched lpRunStopRow.blk 0x0211 o d); let t : State := (s.unschedule e.id);
    s.Due lpRunStopRow 0x0211 o d e ∧ t.vaRefuses = false ∧ (lpsOf (lpMask d)).filter (fun n => t.lpSt n == lpRunning) = []) ∧
  (let o : Origin := .core 0 0#32; let d : Body := { payload := [1, 0] }; let n : Nat := 0;
    let s : State := (wDue State.reset lpRunStopRow.blk 0x0211 o d); let s : State := s.setLpSt 0 lpRunning;
    let e : Sched := (wSched lpRunStopRow.blk 0x0211 o d); let t : State := (s.unschedule e.id);
    s.Due lpRunStopRow 0x0211 o d e ∧ t.vaRefuses = false ∧ (lpsOf (lpMask d)).filter (fun n => t.lpSt n == lpRunning) = [n]) ∧
  (let m : Master := .ssv; let n : Fin 16 := 0; let v : Word := 0#32; let s : State := State.reset; s.hold = .run ∧
    s.may m (Reg.lpnCtrl n.val) = true ∧ (s.bit (Reg.lpnCtrl n.val) 0 = false ∨ bitAt v 0 = true)) ∧
  (let m : Master := .ssv; let n : Fin 16 := 0; let v : Word := (setBitAt 0#32 0 false); let s : State := State.reset;
    let s : State := s.setBit (Reg.lpnCtrl n.val) 0 true; s.hold = .run ∧ s.may m (Reg.lpnCtrl n.val) = true ∧
    s.bit (Reg.lpnCtrl n.val) 0 = true ∧ bitAt v 0 = false ∧ s.vaRefuses = false) ∧
  (let n : Fin 16 := 0; let s : State := State.reset; let s : State := s.setBit (Reg.lpnStatus 0) 8 true; s.hold = .run ∧
    s.inHeat n.val = true) ∧
  (let n : Fin 16 := 0; let s : State := State.reset; let s : State := s.setLp n.val { s.lpAt n.val with hangRun := 16 };
    s.hold = .run ∧ 16 ≤ (s.lpAt n.val).hangRun) ∧
  (let n : Fin 16 := 0; let s : State := State.reset; let s : State := s.setLpSt 0 lpReset;
    let s : State := s.setLp 0 { s.lpAt 0 with was := lpRunning, hash := (0#8 :: sha384 []) };
    let bs : List Byte := (s.vatBytes (s.stageByte n.val) (s.lpAt n.val).stageLen);
    let t : State := (s.vatTouch (.privateLp n.val) (s.stageByte n.val) (s.lpAt n.val).stageLen);
    let u : State := ((t.setLpSt n.val lpFaulted).emit (144 + n.val) 0x78 (syn12 0x78 0xFFF 0)); s.hold = .run ∧
    s.lpSt n.val = lpReset ∧ s.fc.held.contains (144 + n.val) = false ∧ sha384 bs ≠ (s.lpAt n.val).hash ∧ u.lpLoads = []) ∧
  (let n : Fin 16 := 0; let s : State := State.reset; let s : State := s.setLpSt 0 lpReset;
    let s : State := s.setLp 0 { s.lpAt 0 with pc := 1, was := lpRunning, hash := sha384 [] };
    let s : State := s.setLp n.val { s.lpAt n.val with was := lpRunning };
    let bs : List Byte := (s.vatBytes (s.stageByte n.val) (s.lpAt n.val).stageLen);
    let t : State := (s.vatTouch (.privateLp n.val) (s.stageByte n.val) (s.lpAt n.val).stageLen);
    let u : State := ((t.setLp n.val ((t.lpAt n.val).loadImage bs)).showImage n.val bs); s.hold = .run ∧
    s.lpSt n.val = lpReset ∧ s.fc.held.contains (144 + n.val) = false ∧ sha384 bs = (s.lpAt n.val).hash ∧
    (s.lpAt n.val).was = lpRunning ∧ u.lpLoads = []) := by
  refine ⟨?_, ?_, ?_, ?_, ?_, ?_, ?_, ?_, ?_, ?_, ?_, ?_, ?_, ?_, ?_, ?_, ?_, ?_, ?_, ?_, ?_, ?_, ?_, ?_, ?_⟩
  · decide +kernel
  · decide +kernel
  · decide +kernel
  · decide +kernel
  · decide +kernel
  · decide +kernel
  · decide +kernel
  · decide +kernel
  · decide +kernel
  · decide +kernel
  · decide +kernel
  · decide +kernel
  · decide +kernel
  · decide +kernel
  · decide +kernel
  · decide +kernel
  · decide +kernel
  · decide +kernel
  · decide +kernel
  · decide +kernel
  · decide +kernel
  · decide +kernel
  · decide +kernel
  · refine ⟨by decide +kernel, by decide +kernel, by decide +kernel, ?_, by decide +kernel⟩
    intro h
    have hl := congrArg List.length (show sha384 [] = 0#8 :: sha384 [] from h)
    exact absurd hl (Nat.ne_of_lt (Nat.lt_succ_self _))
  · exact ⟨by decide +kernel, by decide +kernel, by decide +kernel, rfl, by decide +kernel, by decide +kernel⟩

theorem witness_zoneDescriptors :
  (let o : Origin := .core 0 0#32; let d : Body := { payload := [0, 0, 0xFF, 0xFF, 1] }; let z : Nat := (d.pl 0 2);
    let s : State := (wDue State.reset zoneSetRow.blk 0x0100 o d); let e : Sched := (wSched zoneSetRow.blk 0x0100 o d);
    let t : State := (s.unschedule e.id); let h : ZoneH := (t.zoneAt z); s.Due zoneSetRow 0x0100 o d e ∧ d.pl 4 2 ≠ 0 ∧
    h.en = (d.byte 8 % 2 == 1) ∧ levelOf (d.pls 2) (d.byte 8 / 2 % 2 == 1) ≠ levelOf h.gain h.mute) ∧
  (let o : Origin := .core 0 0#32; let d : Body := { payload := [0, 0, 0xFF, 0xFF] }; let z : Nat := (d.pl 0 2);
    let s : State := (wDue State.reset zoneSetRow.blk 0x0100 o d); let e : Sched := (wSched zoneSetRow.blk 0x0100 o d);
    let t : State := (s.unschedule e.id); let h : ZoneH := (t.zoneAt z); s.Due zoneSetRow 0x0100 o d e ∧ d.pl 4 2 = 0 ∧
    d.pls 2 ≠ h.gain) ∧
  (let o : Origin := .core 0 0#32; let d : Body := { payload := [0, 0, 0, 1, 5] };
    let s : State := (wDue State.reset layerSetRow.blk 0x0101 o d); let e : Sched := (wSched layerSetRow.blk 0x0101 o d);
    let t : State := (s.unschedule e.id); s.Due layerSetRow 0x0101 o d e ∧ t.graphBad e = true) ∧
  (let o : Origin := .core 0 0#32; let d : Body := {}; let s : State := (wDue State.reset layerSetRow.blk 0x0101 o d);
    let e : Sched := (wSched layerSetRow.blk 0x0101 o d); let t : State := (s.unschedule e.id); s.Due layerSetRow 0x0101 o d e ∧
    t.graphBad e = false ∧ t.playerTaken d = false ∧ d.byte 3 % 2 = 0) ∧
  (let o : Origin := .core 0 0#32; let d : Body := { payload := [0, 0, 0, 1] };
    let e : Sched := { wSched (layerSetRow).blk 0x0101 o d with asked := 1 };
    let s : State := { State.reset with pacer := { ns := 5000000#64 }, sched := [e] }; let t : State := (s.unschedule e.id);
    s.Due layerSetRow 0x0101 o d e ∧ t.graphBad e = false ∧ t.playerTaken d = false ∧ d.byte 3 % 2 = 1 ∧
    t.updReady e e.heat = true ∧ e.heat ≤ e.asked) ∧
  (let o : Origin := .core 0 0#32; let d : Body := { payload := [0, 0, 0, 1] };
    let e : Sched := { wSched (assertRow 1).blk 0x0102 o d with asked := 1 };
    let s : State := { State.reset with pacer := { ns := 5000000#64 }, sched := [e] };
    let s : State := s.setLayer 0 0 { s.layerAt 0 0 with srcType := 1, abandon := true }; let t : State := (s.unschedule e.id);
    s.Due (assertRow 1) 0x0102 o d e ∧ d.byte 3 = 1 ∧ t.updReady e e.heat = false ∧ t.policyOf e = (0, true) ∧
    e.heat = e.asked) ∧
  (let o : Origin := .core 0 0#32; let d : Body := { payload := [0, 0, 0, 1] };
    let e : Sched := { wSched (assertRow 1).blk 0x0102 o d with asked := 1 };
    let s : State := { State.reset with pacer := { ns := 5000000#64 }, sched := [e] };
    let s : State := s.setLayer 0 0 { s.layerAt 0 0 with srcType := 1 }; let t : State := (s.unschedule e.id);
    s.Due (assertRow 1) 0x0102 o d e ∧ d.byte 3 = 1 ∧ t.updReady e e.heat = false ∧ t.policyOf e = (0, false) ∧
    e.heat = e.asked ∧ voteOk e = true) ∧
  (let o : Origin := .core 0 0#32; let d : Body := { payload := [0, 0, 0, 1] };
    let e : Sched := { wSched (assertRow 1).blk 0x0102 o d with asked := 1 };
    let s : State := { State.reset with pacer := { ns := 5000000#64 }, sched := [e] }; let t : State := (s.unschedule e.id);
    s.Due (assertRow 1) 0x0102 o d e ∧ d.byte 3 = 1 ∧ t.updReady e e.heat = true ∧ e.heat ≤ e.asked) ∧
  (let o : Origin := .core 0 0#32; let d : Body := { payload := [0, 0, 0, 0] };
    let s : State := (wDue State.reset ((assertRow 0)).blk 0x0102 o d); let e : Sched := (wSched (assertRow 0).blk 0x0102 o d);
    s.Due (assertRow 0) 0x0102 o d e ∧ d.byte 3 = 0) ∧
  (let d : Body := { payload := [0, 0, 0, 1] }; d.byte 3 = 1) ∧
  (let d : Body := { payload := [0, 0, 0, 0] }; d.byte 3 = 0) ∧
  (let o : Origin := .core 0 0#32; let d : Body := {}; let n : Nat := 0;
    let s : State := (wDue State.reset laneRouteRow.blk 0x0103 o d);
    let s : State := s.setRoute n { s.routeAt n with partner := false }; let e : Sched := (wSched laneRouteRow.blk 0x0103 o d);
    let t : State := (s.unschedule e.id); s.Due laneRouteRow 0x0103 o d e ∧ t.bondLanes (d.pl 0 2) = [n] ∧ d.pl 2 2 < 256 ∧
    (t.routeAt n).partner = false) ∧
  (let o : Origin := .core 0 0#32; let d : Body := { payload := [0, 0, 255, 255] }; let n : Nat := 0;
    let s : State := (wDue State.reset laneRouteRow.blk 0x0103 o d);
    let s : State := s.setRoute n { s.routeAt n with partner := true }; let e : Sched := (wSched laneRouteRow.blk 0x0103 o d);
    let t : State := (s.unschedule e.id); s.Due laneRouteRow 0x0103 o d e ∧ t.bondLanes (d.pl 0 2) = [n] ∧ d.pl 2 2 = 0xFFFF ∧
    (t.routeAt n).partner = true) ∧
  (let o : Origin := .core 0 0#32; let d : Body := { payload := [1] };
    let s : State := (wDue State.reset returnSetRow.blk 0x0104 o d); let e : Sched := (wSched returnSetRow.blk 0x0104 o d);
    s.Due returnSetRow 0x0104 o d e ∧ d.byte 0 = 1) ∧
  (let o : Origin := .core 0 0#32; let d : Body := { payload := [0, 0, 0, 0, 255, 255] };
    let s : State := (wDue State.reset returnSetRow.blk 0x0104 o d); let e : Sched := (wSched returnSetRow.blk 0x0104 o d);
    s.Due returnSetRow 0x0104 o d e ∧ d.byte 0 = 0 ∧ d.pl 4 2 = 0xFFFF) ∧
  (let o : Origin := .core 0 0#32; let d : Body := { payload := [2] };
    let s : State := (wDue State.reset returnSetRow.blk 0x0104 o d); let s : State := s.setReg (Reg.zmRcap 1) 0x80000000;
    let e : Sched := (wSched returnSetRow.blk 0x0104 o d); let t : State := (s.unschedule e.id);
    s.Due returnSetRow 0x0104 o d e ∧ d.byte 0 = 2 ∧ t.capBad e = true) ∧
  (let o : Origin := .core 0 0#32; let d : Body := { payload := [2] };
    let s : State := (wDue State.reset returnSetRow.blk 0x0104 o d); let e : Sched := (wSched returnSetRow.blk 0x0104 o d);
    let t : State := (s.unschedule e.id); s.Due returnSetRow 0x0104 o d e ∧ d.byte 0 = 2 ∧ t.capBad e = false ∧
    d.pl 4 2 ≠ 0xFFFF) ∧
  (let o : Origin := .core 0 0#32; let d : Body := {}; let s : State := (wDue State.reset ambSetRow.blk 0x0105 o d);
    let e : Sched := (wSched ambSetRow.blk 0x0105 o d); s.Due ambSetRow 0x0105 o d e) := by
  refine ⟨?_, ?_, ?_, ?_, ?_, ?_, ?_, ?_, ?_, ?_, ?_, ?_, ?_, ?_, ?_, ?_, ?_, ?_⟩ <;> decide +kernel

theorem witness_zoneEvents :
  (let z : Fin 256 := 0; let l : Fin 8 := 0; let s : State := State.reset; s.hold = .run ∧
    (s.layerAt z.val l.val).srcType ≠ 2) ∧
  (let h : LayerH := { wait := some (0, false, false) }; let g : Int := 0; let m : Bool := false; let b : Bool := false;
    h.wait = some (g, m, b)) ∧
  (let h : ZoneH := { wait := some (0, false, false) }; let g : Int := 0; let m : Bool := false; let b : Bool := false;
    h.wait = some (g, m, b)) ∧
  (let o : Origin := .core 0 0#32;
    let e : Sched := { id := 7, desc := { opcode := 0x0102, body := { payload := [0, 0, 0, 1] } }, asked := 1, heat := 4 };
    let s : State := w0;
    let s : State := { s.setLayer 0 0 { s.layerAt 0 0 with srcType := 1, readyDl := 3, abandon := true } with sched := [e] };
    let t : State := (s.unschedule e.id); s.hold = .run ∧
    s.sched.find? (fun e => decide (e.org = o) && needsReady e && !e.silent && decide (e.asked + (s.policyOf e).1 + 1 ≤ s.heat)) = some e ∧
    (s.policyOf e).1 = 3 ∧ e.heat = e.asked + 3 ∧ t.policyOf { e with sample := 0 } = (3, true) ∧
    t.updReady { e with sample := 0 } e.heat = false ∧ isAssert e = true) ∧
  (let z : Fin 256 := 0; let l : Fin 8 := 0; let w : Nat × Nat := (0, 0); let s : State := State.reset;
    let s : State := s.setLayer 0 0 { s.layerAt 0 0 with silent := some (0, 0) }; s.hold = .run ∧
    (s.layerAt z.val l.val).silent = some w ∧ (s.layerAt z.val l.val).voteWait = none ∧ (s.layerAt z.val l.val).srcType ≠ 2 ∧
    s.srcReady (s.layerAt z.val l.val).srcType (s.layerAt z.val l.val).srcId (s.heat - 1) = true) ∧
  (let z : Fin 256 := 0; let s : State := State.reset; let s : State := s.setZone z.val { s.zoneAt z.val with late := false };
    s.hold = .run ∧ (s.zoneAt z.val).late = false) ∧
  (let h : LayerH := default; h.voteWait = none) := by
  refine ⟨?_, ?_, ?_, ?_, ?_, ?_, ?_⟩ <;> decide +kernel

theorem witness_players :
  (let o : Origin := .core 0 0#32; let d : Body := { payload := [0, 1, 0, 0, 0, 0, 255, 255] }; let p : Nat := (d.byte 0);
    let s : State := (wDue State.reset playerSetRow.blk 0x0300 o d); let e : Sched := (wSched playerSetRow.blk 0x0300 o d);
    let t : State := (s.unschedule e.id); s.Due playerSetRow 0x0300 o d e ∧ t.plySt p = plyDisabled ∧ d.byte 1 = 1 ∧
    d.pl 6 2 = 0xFFFF) ∧
  (let o : Origin := .core 0 0#32; let d : Body := { payload := [0, 0] }; let p : Nat := (d.byte 0);
    let s : State := (wDue State.reset playerSetRow.blk 0x0300 o d); let s : State := s.setPlySt 0 plyIdle;
    let e : Sched := (wSched playerSetRow.blk 0x0300 o d); let t : State := (s.unschedule e.id);
    s.Due playerSetRow 0x0300 o d e ∧ t.plySt p = plyIdle ∧ d.byte 1 = 0 ∧ d.pl 6 2 < 1024) ∧
  (let o : Origin := .core 0 0#32; let d : Body := {}; let s : State := (wCore State.reset);
    let t : State := ((s.front o).bump Reg.rngAcceptCnt 32);
    let e : Sched := ((s.front o).newSched playerFlushRow (s.frontAt o) (descOf 0x0301 d) .error);
    s.Accepts playerFlushRow 0x0301 o d .error t e) ∧
  (let o : Origin := .core 0 0#32; let d : Body := { payload := [0, 0, 0] }; let s : State := (wCore State.reset);
    let s : State := s.setBit (Reg.plyClipInfo 0) 31 true; let t : State := ((s.front o).bump Reg.rngAcceptCnt 32);
    let e : Sched := ((s.front o).newSched clipPinRow (s.frontAt o) (descOf 0x0303 d) .error);
    s.Accepts clipPinRow 0x0303 o d .error t e) ∧
  (let o : Origin := .core 0 0#32; let d : Body := { payload := [0, 0, 0] }; let s : State := (wCore State.reset);
    let s : State := s.setBit (Reg.plyClipInfo 0) 31 true; let t : State := ((s.front o).bump Reg.rngAcceptCnt 32);
    let e : Sched := ((s.front o).newSched clipDropRow (s.frontAt o) (descOf 0x0304 d) .error);
    let v : State := ({ t with nextId := t.nextId + 1 }); s.Accepts clipDropRow 0x0304 o d .error t e ∧
    v.clipBusy (d.pl 0 2) = false) ∧
  (let o : Origin := .core 0 0#32; let d : Body := { payload := [0, 0, 0, 0, 1] }; let a : List Nat := [0];
    let b : List Nat := []; let s : State := (wCore State.reset); let s : State := s.setReg Reg.plyCachePages 1;
    let t : State := ((s.front o).bump Reg.rngAcceptCnt 32);
    let e : Sched := ((s.front o).newSched clipLoadRow (s.frontAt o) (descOf 0x0302 d) .error);
    let v : State := ({ t with nextId := t.nextId + 1 }); let u : State := (v); s.Accepts clipLoadRow 0x0302 o d .error t e ∧
    State.makeRoom (ceilDiv (loadBytes d) 4096) (loadCopy2 d) (v.evictable (d.pl 0 2)) v = some (u, a, b)) ∧
  (let o : Origin := .core 0 0#32; let x : LoadH := {}; let s : State := State.reset;
    let s : State := { s with clipLoads := [x] }; s.hold = .run ∧
    s.clipLoads.find? (fun x => decide (x.upd.org = o)) = some x) ∧
  (let o : Origin := .core 0 0#32; let bs : List Byte := [0, 0];
    let x : LoadH := { upd := { desc := { body := { payload := [0, 0, 0, 0, 1, 0, 0, 0, 0, 0, 0, 0, 0, 0, 0, 0, 0xFF, 0x12, 0xD9, 0x41] } } } };
    let c : Nat := (x.upd.desc.body.pl 0 2); let s : State := State.reset; let s : State := { s with clipLoads := [x] };
    let t : State := ({ s with clipLoads := s.clipLoads.filter fun y => y.upd.id != x.upd.id }); s.hold = .run ∧
    s.clipLoads.find? (fun x => decide (x.upd.org = o)) = some x ∧ bs.length = loadBytes x.upd.desc.body ∧
    crc32 bs = BitVec.ofNat 32 (x.upd.desc.body.pl 16 4) ∧ t.clipBusy c = false ∧ x.pages2 = []) ∧
  (let p : Fin 64 := 0; let s : State := State.reset; let s : State := s.setReg (Reg.hpStatus 0) 0x143;
    let s : State := s.setReg (Reg.ringCfg 0) 0x83040001; let s : State := s.setReg (Reg.ringCfg 1) 0x82040000;
    let s : State := s.setReg (Reg.ringProd 0) 1; let s : State := s.setBit Reg.plyCtrl 0 true;
    let s : State := s.setPlySt 0 plyIdle; let s : State := s.setPlayer 0 { s.playerAt 0 with cpl := 1 };
    let h : PlayerH := (s.playerAt p.val); s.hold = .run ∧ s.bit Reg.plyCtrl 0 = true ∧ s.plySt p.val = plyIdle ∧
    s.ringEn h.ring = true ∧ s.ringType h.ring = 3 ∧ s.ringOcc h.ring ≠ 0 ∧ h.queue.length < 8 ∧ h.dropping = false ∧
    s.usable (s.ringPort h.ring) = true ∧ s.ringOcc h.cpl + (s.ringAt h.cpl).resv < s.ringSize h.cpl) ∧
  (let p : Fin 64 := 0; let i : Fin 10 := 0; let bs : List Byte := [];
    let x : PEntry := { bytes := List.replicate 16 0 ++ [1] }; let s : State := State.reset;
    let s : State := s.setPlayer 0 { s.playerAt 0 with queue := [x] }; let u : State := (((s.plyFeed p.val x bs).1));
    let y : PEntry := (((s.plyFeed p.val x bs).2)); s.hold = .run ∧ (s.playerAt p.val).entries[i.val]? = some x ∧ x.kind = 0 ∧
    x.fetched = false ∧ x.bad = false ∧ (x.data ++ bs).length < x.len * clipWordBytes x.fmt ∧ s.plyFeed p.val x bs = (u, y)) ∧
  (let p : Fin 64 := 0; let x : PEntry := { bytes := List.replicate 28 0 ++ [1] }; let xs : List PEntry := [];
    let s : State := State.reset; let s : State := s.setPlySt 0 plyPlaying;
    let s : State := s.setPlayer p.val { s.playerAt p.val with queue := x :: xs }; s.hold = .run ∧
    (s.playerAt p.val).queue = x :: xs ∧ s.plySt p.val = plyPlaying ∧ s.entryPlay x ≤ x.at_ ∧
    lastPlay (s.plyLost p.val) x = false) ∧
  (let p : Fin 64 := 0; let s : State := State.reset; let s : State := s.setPlySt 0 plyPlaying;
    let s : State := s.setPlayer p.val { s.playerAt p.val with queue := [] };
    let s : State := s.setPlayer p.val { s.playerAt p.val with ended := false }; s.hold = .run ∧ (s.playerAt p.val).queue = [] ∧
    (s.playerAt p.val).ended = false ∧ s.plySt p.val = plyPlaying) ∧
  (let p : Fin 64 := 0; let s : State := State.reset; let s : State := s.setPlySt 0 plyPlaying;
    let s : State := s.setPlayer p.val { s.playerAt p.val with hold := true }; s.hold = .run ∧ s.plySt p.val = plyPlaying ∧
    (s.playerAt p.val).hold = true) ∧
  (let p : Fin 64 := 0; let s : State := State.reset; let s : State := s.setPlySt 0 plyIdle;
    let u : State := ((s.setBit (Reg.plyPState p.val) 5 true).emit 220 0x64 (syn16 0x64 p.val 0xFFFF)); s.hold = .run ∧
    s.plySt p.val = plyIdle ∧ s.plyLost p.val = false ∧ s.hostLost p.val = true ∧ u.plySt p.val = plyIdle) := by
  refine ⟨?_, ?_, ?_, ?_, ?_, ?_, ?_, ?_, ?_, ?_, ?_, ?_, ?_, ?_⟩ <;> decide +kernel

theorem witness_loudspeakerProtection :
  (let o : Origin := .core 0 0#32; let d : Body := {}; let s : State := (wDue State.reset rindSetRow.blk 0x0230 o d);
    let s : State := s.setBit (Reg.tlRindCtrl (d.byte 0 / 8)) 31 true; let e : Sched := (wSched rindSetRow.blk 0x0230 o d);
    let t : State := (s.unschedule e.id); s.Due rindSetRow 0x0230 o d e ∧ t.bit (Reg.tlRindCtrl (d.byte 0 / 8)) 31 = true) ∧
  (let o : Origin := .core 0 0#32; let d : Body := { payload := [0, 1] }; let n : Nat := (d.byte 0);
    let s : State := (wDue State.reset rindSetRow.blk 0x0230 o d); let s : State := s.setBit (Reg.tlRindCtrl (n / 8)) 31 false;
    let e : Sched := (wSched rindSetRow.blk 0x0230 o d); let t : State := (s.unschedule e.id); s.Due rindSetRow 0x0230 o d e ∧
    t.bit (Reg.tlRindCtrl (n / 8)) 31 = false ∧ d.byte 1 = 1 ∧ t.ssvHalted = false) ∧
  (let o : Origin := .core 0 0#32; let d : Body := { payload := [0, 128] };
    let s : State := (wDue State.reset rindSetRow.blk 0x0230 o d);
    let s : State := s.setBit (Reg.tlRindCtrl (d.byte 0 / 8)) 31 false; let e : Sched := (wSched rindSetRow.blk 0x0230 o d);
    let t : State := (s.unschedule e.id); s.Due rindSetRow 0x0230 o d e ∧ t.bit (Reg.tlRindCtrl (d.byte 0 / 8)) 31 = false ∧
    d.byte 1 = 128 ∧ t.ssvHalted = false) ∧
  (let o : Origin := .core 0 0#32; let d : Body := {}; let s : State := (wDue State.reset rindClearRow.blk 0x0231 o d);
    let s : State := s.setLane (d.byte 0) { s.laneAt (d.byte 0) with rindLocked := false };
    let e : Sched := (wSched rindClearRow.blk 0x0231 o d); let t : State := (s.unschedule e.id);
    s.Due rindClearRow 0x0231 o d e ∧ (t.laneAt (d.byte 0)).rindLocked = false) ∧
  (let o : Origin := .core 0 0#32; let d : Body := {}; let n : Nat := (d.byte 0);
    let s : State := (wDue State.reset rindClearRow.blk 0x0231 o d);
    let s : State := s.setLane n { s.laneAt n with rindLocked := true }; let e : Sched := (wSched rindClearRow.blk 0x0231 o d);
    let t : State := (s.unschedule e.id); s.Due rindClearRow 0x0231 o d e ∧ (t.laneAt n).rindLocked = true) ∧
  (let o : Origin := .core 0 0#32; let d : Body := { payload := [0, 0] };
    let s : State := (wDue State.reset battSetRow.blk 0x0232 o d); let e : Sched := (wSched battSetRow.blk 0x0232 o d);
    s.Due battSetRow 0x0232 o d e ∧ d.pl 0 2 = 0) ∧
  (let o : Origin := .core 0 0#32; let d : Body := { payload := [1, 0] };
    let s : State := (wDue State.reset battSetRow.blk 0x0232 o d); let e : Sched := (wSched battSetRow.blk 0x0232 o d);
    s.Due battSetRow 0x0232 o d e ∧ d.pl 0 2 = 1) ∧
  (let o : Origin := .core 0 0#32; let d : Body := {}; let s : State := (wDue State.reset poolSetRow.blk 0x0233 o d);
    let e : Sched := (wSched poolSetRow.blk 0x0233 o d); s.Due poolSetRow 0x0233 o d e) ∧
  (let n : Fin 128 := 0; let c : Nat := 1; let s : State := State.reset; let s : State := s.putF (laneReg 0) 2 0 lsRunning;
    let s : State := s.setLane 0 { s.laneAt 0 with rind := { ii := [9600000000] } }; let v : Nat := ((s.rindOver 0).2);
    s.rindOver n.val = (c, v) ∧ c ≠ 0 ∧ (s.laneSt n.val = lsRunning ∨ s.laneSt n.val = lsProbe)) ∧
  (let n : Fin 128 := 0; let s : State := State.reset; (s.rindOver n.val).1 = 0) ∧
  (let n : Nat := 0; let s : State := State.reset; (s.lastMinute (s.laneAt n).trips).length < 2) ∧
  (let n : Nat := 0; let s : State := State.reset; let s : State := s.setLane 0 { s.laneAt 0 with trips := [0, 0] };
    2 ≤ (s.lastMinute (s.laneAt n).trips).length) ∧
  (let n : Fin 128 := 0; let s : State := State.reset;
    let s : State := s.setLane n.val { s.laneAt n.val with rindLocked := false };
    let s : State := s.setBit (rindReg n.val) 2 true; (s.laneAt n.val).rindLocked = false ∧ s.bit (rindReg n.val) 2 = true) ∧
  (let n : Fin 128 := 0; let s : State := State.reset;
    let s : State := s.setLane n.val { s.laneAt n.val with rindLocked := true }; (s.laneAt n.val).rindLocked = true) ∧
  (let t : Fin 16 := 0; let x : MboxOp := { op := 3 }; let xs : List MboxOp := []; let s : State := State.reset;
    let s : State := s.setTile 0 { s.tileAt 0 with mbox := [x] }; s.hold = .run ∧
    ((s.tileAt t.val).mbox ++ (s.tileAt t.val).resp.toList ++ (s.tileAt t.val).unsent).filter (fun x => x.op == 3) = x :: xs) ∧
  (let t : Fin 16 := 0; let c : BitVec 16 := 1000; let s : State := State.reset; (s.tdie t.val : Int) ≤ c.toInt + 10) ∧
  (let t : Fin 16 := 0; let c : BitVec 16 := 1000; let s : State := State.reset; (s.tdie t.val : Int) ≤ c.toInt ∧
    s.bit (laneReg (t.val * 8)) (16 + hcTdie) = false) ∧
  (let t : Fin 16 := 0; let c : BitVec 16 := 0#16; let s : State := State.reset; c.toInt + 15 < (s.tdie t.val : Int)) ∧
  (let n : Fin 128 := 0; let j : Fin 8 := 0; let rail : BitVec 16 := 0#16; let s : State := State.reset;
    let s : State := s.setLane 0 { s.laneAt 0 with samples := [0x7FFFFFFF#32] };
    let s : State := s.setReg (Reg.tlRailNom 0) 0x42C80000; let s : State := s.putF (laneReg n.val) 2 0 lsRunning;
    let s : State := s.setLane n.val { s.laneAt n.val with fastAct := false };
    let s : State := s.setLane n.val { s.laneAt n.val with fastPrev := false };
    let x : Rat := ((((s.laneAt n.val).samples.getD j.val 0#32).toInt : Rat) / 2147483648 * s.vNom (n.val / 8));
    let most : Rat := ((s.laneAt n.val).fastMost x (railVolts rail.toNat)); s.laneSt n.val = lsRunning ∧
    most < (s.laneAt n.val).fast ∧ most < 1 ∧ most ≤ (s.laneAt n.val).fastLow ∧ (s.laneAt n.val).fastAct = false ∧
    (s.laneAt n.val).fastPrev = false) ∧
  (Config.standardImage 0#32 = true → let n : Fin 128 := 0;
    let b : List Byte := [0, 0, 0, 8] ++ List.replicate 0xAFE 0 ++ [8]; let re : Rat := 1; let t : Nat := (n.val / 8);
    let l : Nat := (2 * (n.val % 8)); let s : State := State.reset; let s : State := s.setLpSt 0 lpRunning;
    let s : State := s.setDiag 0 { s.diagAt 0 with good := some b };
    let s : State := s.setLock 0 0 { s.lockAt 0 0 with i := 0x3FF0000000000000#64, count := 1 };
    let s : State := s.setLock 0 1 { s.lockAt 0 1 with i := 0x3FF0000000000000#64, count := 1 }; s.hold = .run ∧
    (s.diagAt n.val).good = some b ∧ s.standard t = true ∧ s.modelsOn b = true ∧ leAt b 2 1 = 0 ∧ s.probes b = true ∧
    reReading (s.lockAt t (l + 1)) (s.lockAt t l) = some re ∧ (leAt b 0xB02 1).testBit 4 = false) ∧
  (Config.standardImage 0#32 = true → let n : Fin 128 := 0;
    let b : List Byte := [0, 0, 0, 8] ++ List.replicate 0xAFE 0 ++ [24]; let t : Nat := (n.val / 8);
    let l : Nat := (2 * (n.val % 8)); let s : State := State.reset; let s : State := s.setLpSt 0 lpRunning;
    let s : State := s.setDiag 0 { s.diagAt 0 with good := some b }; s.hold = .run ∧ (s.diagAt n.val).good = some b ∧
    s.standard t = true ∧ s.modelsOn b = true ∧ leAt b 2 1 = 0 ∧ s.probes b = true ∧
    reReading (s.lockAt t (l + 1)) (s.lockAt t l) = none ∧ (leAt b 0xB02 1).testBit 4 = true) ∧
  (let i : LockIn := default; magSq i.phasor < 2 / 1000000) ∧
  (let f : Rat := 0; 0 ≤ f) := by
  refine ⟨?_, ?_, ?_, ?_, ?_, ?_, ?_, ?_, ?_, ?_, ?_, ?_, ?_, ?_, ?_, ?_, ?_, ?_, ?_, ?_, ?_, ?_, ?_⟩
  · decide +kernel
  · decide +kernel
  · decide +kernel
  · decide +kernel
  · decide +kernel
  · decide +kernel
  · decide +kernel
  · decide +kernel
  · decide +kernel
  · decide +kernel
  · decide +kernel
  · decide +kernel
  · decide +kernel
  · decide +kernel
  · decide +kernel
  · decide +kernel
  · decide +kernel
  · decide +kernel
  · decide +kernel
  · intro hc
    refine ⟨by decide +kernel, by decide +kernel, ?_, by decide +kernel⟩
    unfold State.standard
    rw [Bool.and_eq_true]
    exact ⟨by decide +kernel, by rw [show State.reg _ _ = 0#32 from by decide +kernel]; exact hc⟩
  · intro hc
    refine ⟨by decide +kernel, by decide +kernel, ?_, by decide +kernel⟩
    unfold State.standard
    rw [Bool.and_eq_true]
    exact ⟨by decide +kernel, by rw [show State.reg _ _ = 0#32 from by decide +kernel]; exact hc⟩
  · decide +kernel
  · decide +kernel

theorem witness_tileLanes :
  (let t : Fin 16 := 0; let s : State := State.reset; s.hold = .run ∧ s.present t.val = false) ∧
  (let t : Fin 16 := 0; let s : State := State.reset; let s : State := s.setBit (Reg.tlLinkStatus t.val) 1 true;
    s.hold = .run ∧ s.bit (Reg.tlLinkStatus t.val) 1 = true) ∧
  (let t : Fin 16 := 0; let s : State := State.reset; let s : State := s.setBit (Reg.tlLinkStatus t.val) 0 true;
    let s : State := s.setBit (Reg.tlLinkStatus t.val) 1 false; s.hold = .run ∧ s.present t.val = true ∧
    s.bit (Reg.tlLinkStatus t.val) 1 = false) ∧
  (let t : Fin 16 := 0; let s : State := State.reset; let s : State := s.setBit (Reg.tlLinkStatus t.val) 1 false;
    s.hold = .run ∧ s.bit (Reg.tlLinkStatus t.val) 1 = false) ∧
  (let t : Fin 16 := 0; let s : State := State.reset; let s : State := s.putF (Reg.tlLinkStatus t.val) 15 8 1;
    let s : State := s.setTile t.val { s.tileAt t.val with missSeen := true }; s.getF (Reg.tlLinkStatus t.val) 15 8 = 1 ∧
    (s.tileAt t.val).missSeen = true) ∧
  (let n : Fin 128 := 0; let s : State := State.reset; let s : State := s.setBit (laneReg 0) 7 true;
    let s : State := s.putF (laneReg n.val) 2 0 lsSafeLow;
    let s : State := s.setTile (n.val / 8) { s.tileAt (n.val / 8) with aux12 := true };
    let u : State := ((s.setLane n.val { s.laneAt n.val with edges := { (s.laneAt n.val).edges with shaper := [] } }).putF (laneReg n.val) 2 0 lsRunning);
    s.laneSt n.val = lsSafeLow ∧ s.laneRun n.val = true ∧ s.groupHold n.val = 0#11 ∧ (s.tileAt (n.val / 8)).aux12 = true ∧
    s.groupLanes n.val = [n.val] ∧ u.silenced = false) ∧
  (let n : Fin 128 := 0; let s : State := { State.reset with pacer := { synthLost := true } };
    let s : State := s.setBit (laneReg 0) 7 true; let s : State := s.putF (laneReg n.val) 2 0 lsSafeLow;
    let s : State := s.setTile (n.val / 8) { s.tileAt (n.val / 8) with aux12 := true };
    let u : State := ((s.setLane n.val { s.laneAt n.val with edges := { (s.laneAt n.val).edges with shaper := [] } }).putF (laneReg n.val) 2 0 lsRunning);
    s.laneSt n.val = lsSafeLow ∧ s.laneRun n.val = true ∧ s.groupHold n.val = 0#11 ∧ (s.tileAt (n.val / 8)).aux12 = true ∧
    s.groupLanes n.val = [n.val] ∧ (u.silenced && !u.bit (Reg.tlLinkStatus (n.val / 8)) 5) = true) ∧
  (let n : Fin 128 := 0; let s : State := State.reset; let s : State := s.setBit (laneReg 0) 7 true;
    let s : State := s.putF (laneReg n.val) 2 0 lsSafeLow;
    let s : State := s.setTile (n.val / 8) { s.tileAt (n.val / 8) with aux12 := true }; s.laneSt n.val = lsSafeLow ∧
    s.laneRun n.val = true ∧ s.groupHold n.val = 0#11 ∧ (s.tileAt (n.val / 8)).aux12 = true) ∧
  (let n : Fin 128 := 0; let e : Sched := {}; let s : State := State.reset;
    let s : State := s.setLane n.val { s.laneAt n.val with gain := .rampIn };
    let s : State := s.setLane n.val { s.laneAt n.val with rampPos := rampLen };
    let s : State := s.setLane n.val { s.laneAt n.val with cmd := some e }; (s.laneAt n.val).gain = .rampIn ∧
    (s.laneAt n.val).rampPos = rampLen ∧ (s.laneAt n.val).cmd = some e) ∧
  (let o : Origin := .core 0 0#32; let d : Body := {};
    let s : State := (wDue State.reset ((laneRunRow 1 laneStart)).blk 0x0220 o d);
    let s : State := s.putF (laneReg 0) 2 0 lsLockout; let e : Sched := (wSched (laneRunRow 1 laneStart).blk 0x0220 o d);
    let t : State := (s.unschedule e.id); s.Due (laneRunRow 1 laneStart) 0x0220 o d e ∧
    (t.railForbids (d.byte 0) = true ∨ t.laneSt (d.byte 0) = lsLockout)) ∧
  (let o : Origin := .core 0 0#32; let d : Body := {}; let n : Nat := (d.byte 0);
    let s : State := (wDue State.reset ((laneRunRow 1 laneStart)).blk 0x0220 o d);
    let s : State := s.putF (laneReg n) 2 0 lsRunning; let s : State := s.setLane n { s.laneAt n with cmd := none };
    let e : Sched := (wSched (laneRunRow 1 laneStart).blk 0x0220 o d); let t : State := (s.unschedule e.id);
    s.Due (laneRunRow 1 laneStart) 0x0220 o d e ∧ t.railForbids n = false ∧ t.laneSt n = lsRunning ∧ (t.laneAt n).cmd = none) ∧
  (let o : Origin := .core 0 0#32; let d : Body := {}; let n : Nat := (d.byte 0);
    let s : State := (wDue State.reset ((laneRunRow 1 laneStart)).blk 0x0220 o d);
    let s : State := s.putF (laneReg n) 2 0 lsOff; let e : Sched := (wSched (laneRunRow 1 laneStart).blk 0x0220 o d);
    let t : State := (s.unschedule e.id); let u : State := ((t.supersede n e).setRun n true);
    s.Due (laneRunRow 1 laneStart) 0x0220 o d e ∧ t.railForbids n = false ∧ t.laneSt n = lsOff ∧
    (u.setLane n { u.laneAt n with stopped := false }).laneSt n = lsOff) ∧
  (let o : Origin := .core 0 0#32; let d : Body := {}; let n : Nat := (d.byte 0);
    let s : State := (wDue State.reset ((laneRunRow 0 laneStop)).blk 0x0220 o d);
    let e : Sched := (wSched (laneRunRow 0 laneStop).blk 0x0220 o d); let t : State := (s.unschedule e.id);
    let u : State := ((t.supersede n e).setLane n { (t.supersede n e).laneAt n with stopped := true });
    s.Due (laneRunRow 0 laneStop) 0x0220 o d e ∧ u.laneSt n ≠ lsRunning) ∧
  (let o : Origin := .core 0 0#32; let d : Body := {}; let n : Nat := (d.byte 0);
    let s : State := (wDue State.reset ((laneRunRow 0 laneStop)).blk 0x0220 o d);
    let s : State := s.putF (laneReg n) 2 0 lsRunning; let e : Sched := (wSched (laneRunRow 0 laneStop).blk 0x0220 o d);
    let t : State := (s.unschedule e.id);
    let u : State := ((t.supersede n e).setLane n { (t.supersede n e).laneAt n with stopped := true });
    s.Due (laneRunRow 0 laneStop) 0x0220 o d e ∧ u.laneSt n = lsRunning) ∧
  (let o : Origin := .core 0 0#32; let d : Body := {}; let n : Nat := (d.byte 0);
    let s : State := (wDue State.reset ((laneRunRow 2 laneMute)).blk 0x0220 o d);
    let e : Sched := (wSched (laneRunRow 2 laneMute).blk 0x0220 o d); let t : State := (s.unschedule e.id);
    s.Due (laneRunRow 2 laneMute) 0x0220 o d e ∧ (t.supersede n e).laneSt n ≠ lsRunning) ∧
  (let o : Origin := .core 0 0#32; let d : Body := {}; let n : Nat := (d.byte 0);
    let s : State := (wDue State.reset ((laneRunRow 3 laneUnmute)).blk 0x0220 o d);
    let s : State := s.setLane 0 { s.laneAt 0 with mute := true }; let s : State := s.putF (laneReg n) 2 0 lsOff;
    let e : Sched := (wSched (laneRunRow 3 laneUnmute).blk 0x0220 o d); let t : State := (s.unschedule e.id);
    s.Due (laneRunRow 3 laneUnmute) 0x0220 o d e ∧ t.laneSt n = lsOff ∧ (t.supersede n e).laneSt n = lsOff ∧
    ((t.supersede n e).laneAt n).mute = true ∧ ((t.supersede n e).setMute n false).laneSt n = lsOff) ∧
  (let o : Origin := .core 0 0#32; let d : Body := {}; let s : State := (wDue State.reset scClearRow.blk 0x0221 o d);
    let e : Sched := (wSched scClearRow.blk 0x0221 o d); let t : State := (s.unschedule e.id); s.Due scClearRow 0x0221 o d e ∧
    t.laneSt (d.byte 0) ≠ lsLockout) ∧
  (let o : Origin := .core 0 0#32; let d : Body := {}; let n : Nat := (d.byte 0);
    let s : State := (wDue State.reset scClearRow.blk 0x0221 o d); let s : State := s.putF (laneReg n) 2 0 lsLockout;
    let e : Sched := (wSched scClearRow.blk 0x0221 o d); let t : State := (s.unschedule e.id); s.Due scClearRow 0x0221 o d e ∧
    t.laneSt n = lsLockout ∧ t.groupLanes n = [n]) ∧
  (let o : Origin := .core 0 0#32; let d : Body := {}; let s : State := (wDue State.reset relaySetRow.blk 0x0222 o d);
    let e : Sched := (wSched relaySetRow.blk 0x0222 o d); s.Due relaySetRow 0x0222 o d e) := by
  refine ⟨?_, ?_, ?_, ?_, ?_, ?_, ?_, ?_, ?_, ?_, ?_, ?_, ?_, ?_, ?_, ?_, ?_, ?_, ?_⟩ <;> decide +kernel

theorem witness_tileEvents :
  (let n : Fin 128 := 0; let s : State := State.reset; let s : State := s.putF (laneReg n.val) 2 0 lsOff;
    s.laneSt n.val = lsOff) ∧
  (let n : Fin 128 := 0; let s : State := State.reset; let s : State := s.setReg (Reg.tlLaneIlim 0 0) 0x101000;
    let s : State := s.putF (laneReg n.val) 2 0 lsRunning;
    let s : State := s.setLane n.val { s.laneAt n.val with ilimHeat := true };
    let t : State := ((s.bump (Reg.tlLaneIlimCnt (n.val / 8) (n.val % 8)) 32).setLane n.val { s.laneAt n.val with ilimRun := 1, ilimHeat := true, ilimFrame := (s.laneAt n.val).ilimFrame + 1, edges := { (s.laneAt n.val).edges with ilim := (s.laneAt n.val).edges.ilim + 1 } });
    let a : BitVec 16 := ((BitVec.ofNat 16 (s.laneIlim n.val))); s.laneSt n.val = lsRunning ∧ s.laneIlim n.val ≤ a.toNat ∧
    (s.laneAt n.val).ilimHeat = true ∧ 1 < t.laneN n.val ∧ a.toNat * 2 ≤ min (t.laneIlim n.val * 3) 48000) ∧
  (let n : Fin 128 := 0; let a : BitVec 16 := 0xFFFF; let s : State := State.reset;
    let s : State := s.putF (laneReg n.val) 2 0 lsRunning;
    let s : State := s.setLane n.val { s.laneAt n.val with ilimHeat := true };
    let t : State := ((s.bump (Reg.tlLaneIlimCnt (n.val / 8) (n.val % 8)) 32).setLane n.val { s.laneAt n.val with ilimRun := 1, ilimHeat := true, ilimFrame := (s.laneAt n.val).ilimFrame + 1, edges := { (s.laneAt n.val).edges with ilim := (s.laneAt n.val).edges.ilim + 1 } });
    s.laneSt n.val = lsRunning ∧ s.laneIlim n.val ≤ a.toNat ∧ (s.laneAt n.val).ilimHeat = true ∧
    min (t.laneIlim n.val * 3) 48000 < a.toNat * 2) ∧
  (let n : Fin 128 := 0; let s : State := State.reset; let s : State := s.putF (laneReg 0) 26 16 0x100;
    let s : State := s.putF (laneReg n.val) 2 0 lsSafeOff;
    let s : State := s.setTile (n.val / 8) { s.tileAt (n.val / 8) with aux12 := true }; s.laneSt n.val = lsSafeOff ∧
    s.groupHold n.val = 0x100#11 ∧ (s.tileAt (n.val / 8)).aux12 = true ∧ s.groupLanes n.val = [n.val]) ∧
  (let n : Fin 128 := 0; let z : Word := 0#32; let s : State := State.reset; let s : State := s.putF (laneReg 0) 2 0 lsProbe;
    let s : State := s.setLane 0 { s.laneAt 0 with probe := { taken := 2000, v := (0, 0), i := (1, 0) }, probeHit := true };
    let t : State := ((s.setReg (Reg.tlLaneProbeZ (n.val / 8) (n.val % 8)) z).setBit (Reg.tlLaneSc (n.val / 8) (n.val % 8)) 6 false);
    s.laneSt n.val = lsProbe ∧ probeLen ≤ (s.laneAt n.val).probe.taken ∧ z = (s.laneAt n.val).probe.z ∧ f32Finite z = true ∧
    ((s.laneAt n.val).probeHit = true ∨ f32ToRat z * 20 < (t.laneZmin n.val : Rat))) ∧
  (let n : Fin 128 := 0; let z : Word := 0#32; let s : State := State.reset;
    let s : State := s.setReg (Reg.tlLaneZmin 0 0) 0#32;
    let s : State := s.setLane 0 { s.laneAt 0 with probe := { taken := 2000, v := (0, 0), i := (1, 0) } };
    let s : State := s.putF (laneReg n.val) 2 0 lsProbe;
    let s : State := s.setLane n.val { s.laneAt n.val with probeHit := false };
    let t : State := ((s.setReg (Reg.tlLaneProbeZ (n.val / 8) (n.val % 8)) z).setBit (Reg.tlLaneSc (n.val / 8) (n.val % 8)) 6 false);
    s.laneSt n.val = lsProbe ∧ probeLen ≤ (s.laneAt n.val).probe.taken ∧ z = (s.laneAt n.val).probe.z ∧ f32Finite z = true ∧
    (s.laneAt n.val).probeHit = false ∧ (t.laneZmin n.val : Rat) ≤ f32ToRat z * 20) ∧
  (let t : Fin 16 := 0; let v : BitVec 16 := 0xFFFF; let s : State := State.reset;
    s.getF (Reg.tlRailOv t.val) 15 0 < v.toNat ∧ s.bit (laneReg (t.val * 8)) (16 + hcOv) = false) ∧
  (let t : Fin 16 := 0; let v : BitVec 16 := 0xFFFF; let s : State := State.reset;
    let s : State := s.setBit (laneReg 0) 25 true; s.getF (Reg.tlRailOv t.val) 15 0 < v.toNat ∧
    s.bit (laneReg (t.val * 8)) (16 + hcOv) = true) ∧
  (let t : Fin 16 := 0; let v : BitVec 16 := 0#16; let s : State := State.reset;
    v.toNat + 50 < s.getF (Reg.tlRailOv t.val) 15 0) ∧
  (let t : Fin 16 := 0; let v : BitVec 16 := 0#16; let s : State := State.reset; v.toNat < s.getF (Reg.tlRailUv t.val) 15 0 ∧
    s.bit (laneReg (t.val * 8)) (16 + hcUv) = false) ∧
  (let t : Fin 16 := 0; let v : BitVec 16 := 0xFFFF; let s : State := State.reset;
    s.getF (Reg.tlRailUv t.val) 15 0 + 20 < v.toNat) ∧
  (let t : Fin 16 := 0; let s : State := State.reset; s.bit (laneReg (t.val * 8)) (16 + hcHk) = false) ∧
  (let t : Fin 16 := 0; let s : State := State.reset; (s.tileAt t.val).islOut &&& 0x600#11 = 0#11) ∧
  (let n : Fin 128 := 0; let s : State := State.reset; s.bit (laneReg n.val) (16 + hcGate) = false) ∧
  (let n : Fin 128 := 0; let s : State := State.reset; let s : State := s.setReg (Reg.tlBond 0) 1;
    let s : State := s.setLane n.val { s.laneAt n.val with uneven := 9600 }; 9600 ≤ (s.laneAt n.val).uneven) ∧
  (let t : Fin 16 := 0; let s : State := State.reset; let s : State := s.setTile 0 { s.tileAt 0 with omitFrames := 1 };
    let s : State := s.setBit (Reg.tlLinkStatus t.val) 1 true; s.bit (Reg.tlLinkStatus t.val) 1 = true ∧
    0 < (s.tileAt t.val).omitFrames) ∧
  (let t : Fin 16 := 0; let s : State := State.reset; let s : State := s.setBit (Reg.tlLinkStatus t.val) 1 true;
    let s : State := s.setTile t.val { s.tileAt t.val with omitFrames := 0 }; s.bit (Reg.tlLinkStatus t.val) 1 = true ∧
    (s.tileAt t.val).omitFrames = 0) ∧
  (let t : Fin 16 := 0; let m : TileMeasure := default; let s : State := State.reset;
    let s : State := s.setBit (Reg.tlLinkStatus t.val) 1 true; let u : State := (s.tileMeasured t.val m);
    u.bit (Reg.tlLinkStatus t.val) 1 = true ∧ m.good = true) ∧
  (let t : Fin 16 := 0; let m : TileMeasure := { good := false }; let s : State := State.reset;
    let s : State := s.setBit (Reg.tlLinkStatus t.val) 1 true; let u : State := (s.tileMeasured t.val m);
    u.bit (Reg.tlLinkStatus t.val) 1 = true ∧ m.good = false) ∧
  (let t : Fin 16 := 0; let m : TileMeasure := default; let s : State := State.reset;
    let s : State := s.setBit (Reg.tlLinkStatus t.val) 1 false; let u : State := (s.tileMeasured t.val m);
    u.bit (Reg.tlLinkStatus t.val) 1 = false) ∧
  (let t : Nat := 0; let s : State := State.reset; let s : State := s.setTile t { s.tileAt t with evs := [] };
    (s.tileAt t).evs = []) := by
  refine ⟨?_, ?_, ?_, ?_, ?_, ?_, ?_, ?_, ?_, ?_, ?_, ?_, ?_, ?_, ?_, ?_, ?_, ?_, ?_, ?_, ?_⟩
  · decide +kernel
  · decide +kernel
  · decide +kernel
  · decide +kernel
  · refine ⟨by decide +kernel, by decide +kernel, (probe_zero _ (by decide +kernel)).symm, by decide +kernel, by decide +kernel⟩
  · refine ⟨by decide +kernel, by decide +kernel, (probe_zero _ (by decide +kernel)).symm, by decide +kernel, by decide +kernel, by decide +kernel⟩
  · decide +kernel
  · decide +kernel
  · decide +kernel
  · decide +kernel
  · decide +kernel
  · decide +kernel
  · decide +kernel
  · decide +kernel
  · decide +kernel
  · decide +kernel
  · decide +kernel
  · decide +kernel
  · decide +kernel
  · decide +kernel
  · decide +kernel

theorem witness_diagnostics :
  (let o : Origin := .core 0 0#32; let d : Body := {}; let s : State := (wDue State.reset testReqRow.blk 0x0400 o d);
    let s : State := s.setBit Reg.lpDiagCtrl 0 false; let e : Sched := (wSched testReqRow.blk 0x0400 o d);
    let t : State := (s.unschedule e.id); s.Due testReqRow 0x0400 o d e ∧ d.byte 2 % 2 = 0 ∧ t.bit Reg.lpDiagCtrl 0 = false) ∧
  (let o : Origin := .core 0 0#32; let d : Body := { payload := [0, 1] }; let n : Nat := (d.byte 0);
    let k : Nat := (d.byte 1); let s : State := (wDue State.reset testReqRow.blk 0x0400 o d);
    let s : State := s.setReg (admitReg 1) 0x3FF; let s : State := s.setBit Reg.lpDiagCtrl 0 true;
    let e : Sched := (wSched testReqRow.blk 0x0400 o d); let t : State := (s.unschedule e.id); s.Due testReqRow 0x0400 o d e ∧
    d.byte 2 % 2 = 0 ∧ t.bit Reg.lpDiagCtrl 0 = true ∧ t.wup = false ∧ t.admitEntry k (t.diagState n) false = adRun ∧
    t.tests = [] ∧ t.testRoom { upd := e, lane := n, kind := k, forced := false } = true) ∧
  (let o : Origin := .core 0 0#32; let d : Body := { payload := [0, 1] }; let n : Nat := (d.byte 0);
    let k : Nat := (d.byte 1); let s : State := (wDue State.reset testReqRow.blk 0x0400 o d);
    let s : State := s.setReg (admitReg 1) 0x155; let s : State := s.setBit Reg.lpDiagCtrl 0 true;
    let e : Sched := (wSched testReqRow.blk 0x0400 o d); let t : State := (s.unschedule e.id); s.Due testReqRow 0x0400 o d e ∧
    d.byte 2 % 2 = 0 ∧ t.bit Reg.lpDiagCtrl 0 = true ∧ t.wup = false ∧ t.admitEntry k (t.diagState n) false ≠ adRefuse ∧
    t.admitEntry k (t.diagState n) false ≠ adRun ∧ t.admitEntry k (t.diagState n) false ≠ adInaud ∧ t.tests = []) ∧
  (let o : Origin := .core 0 0#32; let d : Body := {}; let s : State := (wDue State.reset testCancelRow.blk 0x0401 o d);
    let e : Sched := (wSched testCancelRow.blk 0x0401 o d); let t : State := (s.unschedule e.id);
    s.Due testCancelRow 0x0401 o d e ∧ t.tests = []) ∧
  (let o : Origin := .core 0 0#32; let d : Body := { payload := [0, 0] }; let x : TestH := { running := true };
    let s : State := (wDue State.reset testCancelRow.blk 0x0401 o d); let s : State := { s with tests := [x] };
    let e : Sched := (wSched testCancelRow.blk 0x0401 o d); let t : State := (s.unschedule e.id);
    s.Due testCancelRow 0x0401 o d e ∧ t.tests = [x] ∧ x.lane = d.byte 0 ∧ d.byte 1 = 0 ∧ x.running = true) ∧
  (let o : Origin := .core 0 0#32; let d : Body := {}; let s : State := (wDue State.reset testgenSetRow.blk 0x0402 o d);
    let e : Sched := (wSched testgenSetRow.blk 0x0402 o d); s.Due testgenSetRow 0x0402 o d e) ∧
  (let n : Fin 128 := 0; let x : TestH := { running := true, kind := 5 }; let s : State := State.reset;
    let s : State := { s with tests := [x] }; let s : State := s.setLane 0 { s.laneAt 0 with cal := some { taken := 20000 } };
    s.hold = .run ∧ s.tests.find? (fun t => t.running && t.lane == n.val) = some x ∧ x.kind = tkCal ∧ s.calFull n.val = true) ∧
  (let n : Fin 128 := 0; let x : TestH := { running := true, kind := 3 }; let e : EarthH := { taken := 2000000 };
    let s : State := State.reset; let s : State := { s with tests := [x] };
    let s : State := s.setLane 0 { s.laneAt 0 with earth := some e };
    let s : State := s.setLane n.val { s.laneAt n.val with earth := some e }; s.hold = .run ∧
    s.tests.find? (fun t => t.running && t.lane == n.val) = some x ∧ x.kind = tkEarth ∧ (s.laneAt n.val).earth = some e ∧
    2 * e.frames ≤ e.taken) ∧
  (let n : Fin 128 := 0;
    let x : TestH := { running := true, kind := 1, upd := { desc := { body := { payload := List.replicate 8 0 ++ [0xFF, 0x7F] } } } };
    let s : State := State.reset; let s : State := { s with tests := [x] };
    let s : State := s.vatWrite .egress 100 [0, 0, 0, 0, 0, 0, 0, 1]; s.hold = .run ∧
    s.tests.find? (fun t => t.running && t.lane == n.val) = some x ∧ s.progDone x = true) ∧
  (let n : Fin 128 := 0; let x : TestH := { running := true }; let s : State := State.reset;
    let s : State := { s with tests := [x] }; s.hold = .run ∧ s.tests.find? (fun t => t.running && t.lane == n.val) = some x) ∧
  (let n : Fin 128 := 0; let k : Fin 6 := 0;
    let x : TestH := { upd := { desc := { body := { payload := [0, 0, 0, 0, 0, 0, 1] } } }, kind := 0 };
    let s : State := { State.reset with pacer := { ns := 2000000000#64 } }; let s : State := { s with tests := [x] };
    s.hold = .run ∧
    s.tests.find? (fun t => !t.running && t.lane == n.val && t.kind == k.val && t.upd.desc.body.pl 6 2 != 0 && decide (t.since + t.upd.desc.body.pl 6 2 * 1000 ≤ s.heat)) = some x) ∧
  (let n : Fin 128 := 0; let s : State := (wLane State.reset); let s : State := s.putF (laneReg 0) 2 0 0; s.hold = .run ∧
    s.diagState n.val = dsMuted) ∧
  (let n : Fin 128 := 0; let s : State := (wLane State.reset);
    let s : State := s.setDiag 0 { s.diagAt 0 with good := some (List.replicate 0xE02 0#8 ++ [1#8]), win := 1, winOk := false };
    let s : State := s.setDiag n.val { s.diagAt n.val with winOk := false }; s.hold = .run ∧ s.diagState n.val ≠ dsFaulted ∧
    s.diagState n.val ≠ dsMuted ∧ s.relayOn n.val = false ∧ s.pilotOn n.val = true ∧ 0 < (s.diagAt n.val).win ∧
    (supF ((s.diagAt n.val).good.getD []) 0x0C).floor.toNat ≤ (s.diagAt n.val).win ∧ (s.diagAt n.val).winOk = false) ∧
  (let n : Fin 128 := 0; let b : List Byte := List.replicate 0xE02 0#8 ++ [1#8]; let s : State := (wLane State.reset);
    let s : State := s.setDiag 0 { s.diagAt 0 with good := some b, win := 1, winOk := true };
    let s : State := s.setDiag n.val { s.diagAt n.val with good := some b };
    let s : State := s.setDiag n.val { s.diagAt n.val with winOk := true };
    let z : Word := ((pilotWords (s.pilotPair n.val).1 (s.pilotPair n.val).2).1);
    let ph : Word := ((pilotWords (s.pilotPair n.val).1 (s.pilotPair n.val).2).2.1);
    let v : Word := ((pilotWords (s.pilotPair n.val).1 (s.pilotPair n.val).2).2.2.1);
    let i : Word := ((pilotWords (s.pilotPair n.val).1 (s.pilotPair n.val).2).2.2.2); s.hold = .run ∧
    s.diagState n.val ≠ dsFaulted ∧ s.diagState n.val ≠ dsMuted ∧ s.relayOn n.val = false ∧ s.pilotOn n.val = true ∧
    0 < (s.diagAt n.val).win ∧ (s.diagAt n.val).good = some b ∧ (supF b 0x0C).floor.toNat ≤ (s.diagAt n.val).win ∧
    (s.diagAt n.val).winOk = true ∧ pilotWords (s.pilotPair n.val).1 (s.pilotPair n.val).2 = (z, ph, v, i) ∧
    verdictOf b z ph i = s.verdict n.val) ∧
  (let b : List Byte := wRec; let i : Word := 0#32; leAt b 0xE02 1 / 2 % 2 = 1 ∧ sampleVal i < 1 / 100000) ∧
  (let b : List Byte := []; leAt b 0xE02 1 / 2 % 2 = 0) ∧
  (let b : List Byte := List.replicate 0xE02 0#8 ++ [2] ++ List.replicate 13 0#8 ++ [0, 0, 0x80, 0x3F] ++ List.replicate 12 0#8 ++ [0, 0, 0x80, 0x3F, 0, 0, 0, 0x40];
    let z : Word := 0x3F800000; let i : Word := 0x3F800000; leAt b 0xE02 1 / 2 % 2 = 1 ∧ 1 / 100000 ≤ sampleVal i ∧
    f32Finite z = true ∧ f32ToRat z ≤ supF b 0x20 * supF b 0x10 ∧ f32ToRat z < supF b 0x24 * supF b 0x10) ∧
  (let n : Fin 128 := 0; let s : State := (wLane State.reset);
    let s : State := s.setDiag 0 { s.diagAt 0 with good := some wRec };
    let s : State := s.setDiag 0 { s.diagAt 0 with noWin := 2000 };
    let s : State := s.setDiag n.val { s.diagAt n.val with noWin := 2000 }; s.hold = .run ∧ s.pilotBase n.val = true ∧
    s.verdict n.val ≠ vdBlind ∧ 2000 ≤ (s.diagAt n.val).noWin) ∧
  (let n : Fin 128 := 0; let s : State := (wLane State.reset);
    let s : State := s.setDiag 0 { s.diagAt 0 with good := some wRec };
    let s : State := s.setDiag 0 { s.diagAt 0 with noWin := 102000 };
    let s : State := s.setLp 0 ((s.lpAt 0).putWord (tlmAddr 0 + 96) (0x50#32));
    let s : State := s.setDiag n.val { s.diagAt n.val with noWin := 102000 }; s.hold = .run ∧ s.pilotBase n.val = true ∧
    s.verdict n.val = vdBlind ∧ 102000 ≤ (s.diagAt n.val).noWin) ∧
  (let m : Master := .ssv; let k : Fin 5 := 0; let v : Word := 0x3FF#32; let s : State := State.reset; s.hold = .run ∧
    s.may m (admitReg (k.val + 1)) = true ∧ admitBad (k.val + 1) (fld v 9 0) = true) ∧
  (let m : Master := .ssv; let k : Fin 5 := 0; let v : Word := 0#32; let s : State := State.reset; s.hold = .run ∧
    s.may m (admitReg (k.val + 1)) = true ∧ admitBad (k.val + 1) (fld v 9 0) = false) := by
  refine ⟨?_, ?_, ?_, ?_, ?_, ?_, ?_, ?_, ?_, ?_, ?_, ?_, ?_, ?_, ?_, ?_, ?_, ?_, ?_, ?_, ?_⟩
  · decide +kernel
  · decide +kernel
  · decide +kernel
  · decide +kernel
  · decide +kernel
  · decide +kernel
  · decide +kernel
  · decide +kernel
  · decide +kernel
  · decide +kernel
  · decide +kernel
  · decide +kernel
  · decide +kernel
  · exact ⟨by decide +kernel, by decide +kernel, by decide +kernel, by decide +kernel, by decide +kernel, by decide +kernel, by decide +kernel, by decide +kernel, by decide +kernel, rfl, by decide +kernel⟩
  · decide +kernel
  · decide +kernel
  · decide +kernel
  · decide +kernel
  · decide +kernel
  · decide +kernel
  · decide +kernel

theorem witness_modes :
  (let o : Origin := .core 0 0#32; let d : Body := { payload := [0, 1] };
    let s : State := (wDue State.reset modeVaRow.blk 0x0500 o d); let e : Sched := (wSched modeVaRow.blk 0x0500 o d);
    let t : State := (s.unschedule e.id); s.Due modeVaRow 0x0500 o d e ∧ t.wup = false ∧ d.byte 1 = 1 ∧ t.vaFlag = false) ∧
  (let o : Origin := .core 0 0#32; let d : Body := { payload := [0, 0] };
    let s : State := (wDue State.reset modeVaRow.blk 0x0500 o d); let s : State := s.setBit Reg.gblMode 1 true;
    let e : Sched := (wSched modeVaRow.blk 0x0500 o d); let t : State := (s.unschedule e.id); s.Due modeVaRow 0x0500 o d e ∧
    t.wup = false ∧ d.byte 1 = 0 ∧ t.vaFlag = true) ∧
  (let o : Origin := .core 0 0#32; let d : Body := { payload := [0, 1] };
    let s : State := (wDue State.reset modeBatRow.blk 0x0500 o d); let e : Sched := (wSched modeBatRow.blk 0x0500 o d);
    let t : State := (s.unschedule e.id); s.Due modeBatRow 0x0500 o d e ∧ t.wup = false ∧ d.byte 1 = 1 ∧ t.batMode = false ∧
    (t.setMode 15 true).bit Reg.gblMode 15 = true ∧ (t.setMode 15 true).batMode = false) ∧
  (let o : Origin := .core 0 0#32; let d : Body := { payload := [0, 1] };
    let s : State := (wDue State.reset modeMntRow.blk 0x0500 o d); let s : State := s.setBit Reg.gblMode 1 true;
    let e : Sched := (wSched modeMntRow.blk 0x0500 o d); let t : State := (s.unschedule e.id); s.Due modeMntRow 0x0500 o d e ∧
    t.wup = false ∧ d.byte 1 = 1 ∧ t.mnt = false ∧ t.vaFlag = true) ∧
  (let o : Origin := .core 0 0#32; let d : Body := { payload := [0, 1] };
    let s : State := (wDue State.reset modeMntRow.blk 0x0500 o d); let e : Sched := (wSched modeMntRow.blk 0x0500 o d);
    let t : State := (s.unschedule e.id); s.Due modeMntRow 0x0500 o d e ∧ t.wup = false ∧ d.byte 1 = 1 ∧ t.mnt = false ∧
    t.vaFlag = false) ∧
  (let o : Origin := .core 0 0#32; let d : Body := { payload := [0, 0] };
    let s : State := (wDue State.reset modeMntRow.blk 0x0500 o d); let s : State := s.setBit Reg.gblMode 10 true;
    let e : Sched := (wSched modeMntRow.blk 0x0500 o d); let t : State := (s.unschedule e.id); s.Due modeMntRow 0x0500 o d e ∧
    t.wup = false ∧ d.byte 1 = 0 ∧ t.mnt = true) ∧
  (let o : Origin := .core 0 0#32; let d : Body := { payload := [0, 1] };
    let s : State := (wDue State.reset modeWupRow.blk 0x0500 o d); let e : Sched := (wSched modeWupRow.blk 0x0500 o d);
    let t : State := (s.unschedule e.id); s.Due modeWupRow 0x0500 o d e ∧ d.byte 1 = 1 ∧ t.stepPending = false) ∧
  (let o : Origin := .core 0 0#32; let d : Body := { payload := [0, 0] };
    let s : State := (wDue State.reset modeWupRow.blk 0x0500 o d); let s : State := s.setBit Reg.gblMode 6 true;
    let s : State := s.setBit Reg.zmCtrl 0 true; let e : Sched := (wSched modeWupRow.blk 0x0500 o d);
    let t : State := (s.unschedule e.id); s.Due modeWupRow 0x0500 o d e ∧ d.byte 1 = 0 ∧ t.stepPending = false ∧ t.wup = true ∧
    t.bit Reg.zmCtrl 0 = true ∧ t.presentTiles.any (fun n => t.lpSt n != lpStandby) = false) ∧
  (let o : Origin := .core 0 0#32; let d : Body := { payload := [0, 0] };
    let s : State := (wDue State.reset modeFtmRow.blk 0x0500 o d); let e : Sched := (wSched modeFtmRow.blk 0x0500 o d);
    let t : State := (s.unschedule e.id); s.Due modeFtmRow 0x0500 o d e ∧ d.byte 1 = 0 ∧ t.stepPending = false) ∧
  (let o : Origin := .core 0 0#32; let d : Body := { payload := [0, 1] };
    let s : State := (wDue State.reset modeFtmRow.blk 0x0500 o d); let s : State := s.setBit Reg.gblMode 18 false;
    let e : Sched := (wSched modeFtmRow.blk 0x0500 o d); let t : State := (s.unschedule e.id); s.Due modeFtmRow 0x0500 o d e ∧
    d.byte 1 = 1 ∧ t.wup = false ∧ t.ftm = false ∧ t.bit Reg.gblMode 18 = false) ∧
  (let o : Origin := .core 0 0#32; let d : Body := { payload := [0, 1] };
    let s : State := (wDue State.reset modeFtmRow.blk 0x0500 o d); let s : State := s.setBit Reg.gblMode 18 true;
    let e : Sched := (wSched modeFtmRow.blk 0x0500 o d); let t : State := (s.unschedule e.id);
    let u : State := (((t.setMode 11 true).setMode 18 false).modeEvent 0xE6 mdFtm); s.Due modeFtmRow 0x0500 o d e ∧
    d.byte 1 = 1 ∧ t.wup = false ∧ t.ftm = false ∧ t.bit Reg.gblMode 18 = true ∧ t.vaFlag = false ∧ u.wup = false) ∧
  (let s : State := State.reset; let s : State := s.setBit Reg.gblMode 10 true;
    let s : State := { s with modes := { s.modes with mntHeats := 60000000 } }; let s : State := s.putF Reg.gblModeCfg 31 24 1;
    s.hold = .run ∧ s.mnt = true ∧ s.getF Reg.gblModeCfg 31 24 ≠ 0 ∧ s.getF Reg.gblModeCfg 31 24 * 60000 ≤ s.modes.mntHeats) ∧
  (let s : State := State.reset; let s : State := s.setBit Reg.gblMode 10 true;
    let s : State := s.putF Reg.gblModeCfg 31 24 0; s.hold = .run ∧ s.mnt = true ∧ s.getF Reg.gblModeCfg 31 24 = 0) ∧
  (let n : Fin 128 := 0; let s : State := { State.reset with pacer := { ns := 200000000#64 } };
    let s : State := { s with xover := { lanes := [(0, .waiting)] } }; s.xover.lanes.contains (n.val, XPhase.waiting) = true ∧
    s.xover.since + 1000000 + zcTaken (s.getF Reg.zmCtrl 24 16) * 100000 ≤ s.pacer.ns.toNat) ∧
  (let n : Fin 128 := 0; let s : State := { State.reset with pacer := { ns := 200000000#64 } };
    let s : State := { s with xover := { lanes := [(0, .waiting)] } };
    let s : State := s.setLane n.val { s.laneAt n.val with crossed := true };
    s.xover.lanes.contains (n.val, XPhase.waiting) = true ∧ s.xover.since + 1000000 ≤ s.pacer.ns.toNat ∧
    (s.laneAt n.val).crossed = true) ∧
  (let n : Fin 128 := 0; let h : Nat := 0; let s : State := w0;
    let s : State := { s with xover.lanes := [(n.val, XPhase.zeroed h)] }; s.xover.lanes = [(n.val, XPhase.zeroed h)] ∧
    h < s.heat ∧ s.laneSt n.val ≠ lsRunning) ∧
  (let e : Sched := {}; let s : State := State.reset;
    let s : State := { s with xover := { active := true, upd := some e, lanes := [] } }; s.hold = .run ∧
    s.xover = { active := true, upd := some e, lanes := [] }) := by
  refine ⟨?_, ?_, ?_, ?_, ?_, ?_, ?_, ?_, ?_, ?_, ?_, ?_, ?_, ?_, ?_, ?_, ?_⟩ <;> decide +kernel

theorem witness_troxlink :
  (let bs : List Byte := []; let s : State := State.reset; let s : State := s.setBit Reg.txlCtrl 0 true; s.hold = .run ∧
    s.inReset 221 = false ∧ s.bit Reg.txlCtrl 0 = true ∧ (s.setBit Reg.txlStatus 1 true).bit Reg.txlCtrl 0 = true ∧
    bs.length ≠ 128) ∧
  (let bs : List Byte := List.replicate 124 0 ++ [12, 14, 215, 21];
    let s : State := { State.reset with straps := { engineId := 1 } }; let s : State := s.setBit Reg.txlCtrl 0 true;
    let t : State := (s.setBit Reg.txlStatus 1 true); s.hold = .run ∧ s.inReset 221 = false ∧ t.bit Reg.txlCtrl 0 = true ∧
    bs.length = 128 ∧ (crc32 (bs.take 124)).toNat = leAt bs 124 4 ∧
    leAt bs 8 1 % 64 = (t.putF Reg.txlPartner 13 8 (leAt bs 8 1 % 64)).getF Reg.txlCtrl 21 16 ∧
    leAt bs 8 1 % 64 ≠ t.straps.engineId.toNat) ∧
  (let bs : List Byte := List.replicate 8 0 ++ [1] ++ List.replicate 115 0 ++ [228, 104, 79, 20];
    let s : State := State.reset; let s : State := s.setBit Reg.txlCtrl 0 true;
    let t : State := (s.setBit Reg.txlStatus 1 true); s.hold = .run ∧ s.inReset 221 = false ∧ t.bit Reg.txlCtrl 0 = true ∧
    bs.length = 128 ∧ (crc32 (bs.take 124)).toNat = leAt bs 124 4 ∧
    (leAt bs 8 1 % 64 ≠ (t.putF Reg.txlPartner 13 8 (leAt bs 8 1 % 64)).getF Reg.txlCtrl 21 16 ∨ leAt bs 8 1 % 64 = t.straps.engineId.toNat)) ∧
  (let bs : List Byte := List.replicate 204 0 ++ [39, 30, 231, 108]; let s : State := State.reset;
    let s : State := s.setBit Reg.txlCtrl 0 true; let t : State := (s.setBit Reg.txlStatus 1 true); s.hold = .run ∧
    s.inReset 221 = false ∧ t.bit Reg.txlCtrl 0 = true ∧ bs.length = 208 ∧ (crc32 (bs.take 204)).toNat = leAt bs 204 4 ∧
    t.heat < leAt bs 0 8 + 2) ∧
  (let s : State := State.reset; let s : State := s.setBit Reg.txlStatus 2 true; s.bit Reg.txlStatus 2 = true ∧ s.bound = []) ∧
  (let s : State := State.reset; s.hold = .run ∧ s.txl.miss < s.hbTimeout) ∧
  (let s : State := State.reset; let s : State := { s with txl := { s.txl with miss := 64 } };
    let t : State := ((s.setBit Reg.txlStatus 3 true).txlDown); s.hold = .run ∧ s.hbTimeout ≤ s.txl.miss ∧ t.bound = []) ∧
  (let s : State := State.reset; let s : State := { s with txl := { s.txl with lostFor := some 250 } };
    let s : State := s.setPairSt 0 bsWatch; let s : State := s.putF (Reg.tlLevStat 0 0) 1 0 1;
    let s : State := { s with txl.checked := false }; let t : State := ({ s with txl := { s.txl with checked := true } });
    s.hold = .run ∧ s.txl.checked = false ∧ s.txl.lostFor.any (s.evidHeats ≤ ·) = true ∧ t.bound.any t.lineLive = true) ∧
  (let n : Fin 128 := 0; let s : State := State.reset; let s : State := s.setPairL n.val { s.pairLAt n.val with miss := 4 };
    let s : State := s.setBit (Reg.txlBstate n.val) 8 true; s.hold = .run ∧ 4 ≤ (s.pairLAt n.val).miss ∧
    s.bit (Reg.txlBstate n.val) 8 = true ∧ s.groupLanes n.val = [n.val]) ∧
  (let n : Fin 128 := 0; let s : State := State.reset; let s : State := s.putF (laneReg 0) 2 0 lsSafeLow;
    let s : State := s.setLane 0 { s.laneAt 0 with pairMute := true }; let s : State := s.setPairSt n.val bsSwitchIn;
    let s : State := s.setPairL n.val { s.pairLAt n.val with step := .rampOut };
    let s : State := s.setBit (Reg.txlBstate n.val) 9 true; s.hold = .run ∧ s.pairSt n.val = bsSwitchIn ∧
    (s.pairLAt n.val).step = .rampOut ∧ s.pairSafe n.val = true ∧ s.bit (Reg.txlBstate n.val) 9 = true) ∧
  (let n : Fin 128 := 0; let s : State := State.reset; let s : State := s.putF (laneReg 0) 2 0 lsSafeLow;
    let s : State := s.setLane 0 { s.laneAt 0 with pairMute := true }; let s : State := s.setPairSt n.val bsSwitchIn;
    let s : State := s.setPairL n.val { s.pairLAt n.val with step := .rampOut };
    let s : State := s.setBit (Reg.txlBstate n.val) 9 false; s.hold = .run ∧ s.pairSt n.val = bsSwitchIn ∧
    (s.pairLAt n.val).step = .rampOut ∧ s.pairSafe n.val = true ∧ s.bit (Reg.txlBstate n.val) 9 = false) ∧
  (let n : Fin 128 := 0; let s : State := { State.reset with pacer := { ns := 200000000#64 } };
    let s : State := s.setBit (Reg.tlRelay 0) 0 true; let s : State := s.setPairSt n.val bsSwitchIn;
    let s : State := s.setPairL n.val { s.pairLAt n.val with step := .relay }; s.hold = .run ∧ s.pairSt n.val = bsSwitchIn ∧
    (s.pairLAt n.val).step = .relay ∧ s.settled n.val = true ∧ s.relayShown n.val = true) ∧
  (let n : Fin 128 := 0; let s : State := { State.reset with pacer := { ns := 200000000#64 } };
    let s : State := s.setPairSt n.val bsSwitchIn; let s : State := s.setPairL n.val { s.pairLAt n.val with step := .relay };
    s.hold = .run ∧ s.pairSt n.val = bsSwitchIn ∧ (s.pairLAt n.val).step = .relay ∧ s.settled n.val = true ∧
    s.relayShown n.val = false) ∧
  (let n : Fin 128 := 0; let s : State := State.reset; let s : State := s.setLane 0 { s.laneAt 0 with gain := .full };
    let s : State := s.setPairSt n.val bsSwitchIn; let s : State := s.setPairL n.val { s.pairLAt n.val with step := .rampIn };
    s.hold = .run ∧ s.pairSt n.val = bsSwitchIn ∧ (s.pairLAt n.val).step = .rampIn ∧ s.pairFull n.val = true) ∧
  (let n : Fin 128 := 0; let s : State := State.reset;
    let s : State := s.setPairL n.val { s.pairLAt n.val with silent := 2000 }; let s : State := s.setPairSt n.val bsReturnWait;
    s.hold = .run ∧ 2000 ≤ (s.pairLAt n.val).silent ∧ s.pairSt n.val = bsReturnWait ∧ s.pairVa n.val = false) ∧
  (let n : Fin 128 := 0; let s : State := State.reset; s.hold = .run ∧ (s.pairLAt n.val).silent < 2000) ∧
  (let n : Fin 128 := 0; let s : State := State.reset; let s : State := s.setPairL 0 { s.pairLAt 0 with waited := 100000000 };
    let s : State := s.setPairSt n.val bsReturnWait; s.hold = .run ∧
    clampNat 10 65535 (s.getF Reg.txlCfg 31 16) * 1000 ≤ (s.pairLAt n.val).waited ∧ s.pairSt n.val = bsReturnWait ∧
    s.pairVa n.val = false) ∧
  (let n : Fin 128 := 0; let s : State := State.reset; let s : State := s.setPairSt n.val bsSwitchOut;
    let s : State := s.setPairL n.val { s.pairLAt n.val with step := .none }; s.hold = .run ∧ s.pairSt n.val = bsSwitchOut ∧
    (s.pairLAt n.val).step = .none ∧ (s.pairLAt n.val).retHeat ≤ s.heat) ∧
  (let n : Fin 128 := 0; let s : State := State.reset; let s : State := s.putF (laneReg 0) 2 0 lsSafeLow;
    let s : State := s.setLane 0 { s.laneAt 0 with pairMute := true }; let s : State := s.setPairSt n.val bsSwitchOut;
    let s : State := s.setPairL n.val { s.pairLAt n.val with step := .rampOut }; s.hold = .run ∧ s.pairSt n.val = bsSwitchOut ∧
    (s.pairLAt n.val).step = .rampOut ∧ s.pairSafe n.val = true) ∧
  (let n : Fin 128 := 0; let s : State := { State.reset with pacer := { ns := 200000000#64 } };
    let s : State := s.setPairSt n.val bsSwitchOut; let s : State := s.setPairL n.val { s.pairLAt n.val with step := .relay };
    s.hold = .run ∧ s.pairSt n.val = bsSwitchOut ∧ (s.pairLAt n.val).step = .relay ∧ s.relayShown n.val = false ∧
    s.settled n.val = true) ∧
  (let n : Fin 128 := 0; let s : State := { State.reset with pacer := { ns := 200000000#64 } };
    let s : State := s.setLane 0 { s.laneAt 0 with gain := .full }; let s : State := s.setPairSt n.val bsSwitchOut;
    let s : State := s.setPairL n.val { s.pairLAt n.val with step := .rampIn }; s.hold = .run ∧ s.pairSt n.val = bsSwitchOut ∧
    (s.pairLAt n.val).step = .rampIn ∧ s.pairFull n.val = true ∧ (s.pairLAt n.val).since + 9100000 ≤ s.pacer.ns.toNat) ∧
  (let o : Origin := .core 0 0#32; let d : Body := {}; let s : State := (wDue State.reset pairBindRow.blk 0x0800 o d);
    let s : State := s.setReg (Reg.txlBind 1) 0x80000000; let e : Sched := (wSched pairBindRow.blk 0x0800 o d);
    let t : State := (s.unschedule e.id); s.Due pairBindRow 0x0800 o d e ∧ t.planeUsed (d.byte 0) (d.byte 1) = true) ∧
  (let o : Origin := .core 0 0#32; let d : Body := {}; let s : State := (wDue State.reset pairBindRow.blk 0x0800 o d);
    let s : State := s.setPairSt 0 (bsWatch + 1); let e : Sched := (wSched pairBindRow.blk 0x0800 o d);
    let t : State := (s.unschedule e.id); s.Due pairBindRow 0x0800 o d e ∧ t.planeUsed (d.byte 0) (d.byte 1) = false ∧
    bsWatch < t.pairSt (d.byte 0)) ∧
  (let o : Origin := .core 0 0#32; let d : Body := { payload := [0, 0, 0] }; let n : Nat := (d.byte 0);
    let s : State := (wDue State.reset pairBindRow.blk 0x0800 o d); let e : Sched := (wSched pairBindRow.blk 0x0800 o d);
    let t : State := (s.unschedule e.id); s.Due pairBindRow 0x0800 o d e ∧ t.planeUsed n (d.byte 1) = false ∧
    t.pairSt n ≤ bsWatch ∧ d.byte 2 = 0) ∧
  (let o : Origin := .core 0 0#32; let d : Body := {}; let s : State := (wDue State.reset pairBusRow.blk 0x0801 o d);
    let e : Sched := (wSched pairBusRow.blk 0x0801 o d); s.Due pairBusRow 0x0801 o d e) ∧
  (let o : Origin := .core 0 0#32; let d : Body := {}; let s : State := (wDue State.reset pairReturnRow.blk 0x0802 o d);
    let e : Sched := (wSched pairReturnRow.blk 0x0802 o d); let t : State := (s.unschedule e.id);
    s.Due pairReturnRow 0x0802 o d e ∧ t.pairSt (d.byte 0) ≠ bsReturnWait) ∧
  (let o : Origin := .core 0 0#32; let d : Body := {}; let n : Nat := (d.byte 0);
    let s : State := (wDue State.reset pairReturnRow.blk 0x0802 o d); let s : State := s.setPairSt n bsReturnWait;
    let e : Sched := (wSched pairReturnRow.blk 0x0802 o d); let t : State := (s.unschedule e.id);
    s.Due pairReturnRow 0x0802 o d e ∧ t.pairSt n = bsReturnWait ∧ t.pairVa n = false) := by
  refine ⟨?_, ?_, ?_, ?_, ?_, ?_, ?_, ?_, ?_, ?_, ?_, ?_, ?_, ?_, ?_, ?_, ?_, ?_, ?_, ?_, ?_, ?_, ?_, ?_, ?_, ?_, ?_⟩ <;> decide +kernel

theorem witness_batonClaims :
  (let v : Word := (setFld (setBitAt 0#32 8 false) 29 16 10); let s : State := State.reset; s.hold = .run ∧ s.batonSt ≠ 4 ∧
    bitAt v 8 = false ∧ 10 ≤ fld v 29 16 ∧ fld v 29 16 ≤ 10000) ∧
  (let v : Word := (setBitAt 0#32 8 false); let s : State := State.reset; s.hold = .run ∧ s.batonSt ≠ 4 ∧ bitAt v 8 = false ∧
    (fld v 29 16 < 10 ∨ 10000 < fld v 29 16)) ∧
  (let v : Word := (setBitAt 0#32 8 true); let s : State := State.reset; s.hold = .run ∧ s.batonSt ≠ 4 ∧ bitAt v 8 = true) ∧
  (let p : Fin 3 := 0; let s : State := State.reset; let s : State := s.putF Reg.gblBatonState 2 0 2;
    let s : State := s.putF Reg.gblBatonState 5 4 p.val; s.hold = .run ∧ s.batonSt ≠ 4 ∧ s.owns p.val = true) ∧
  (let p : Fin 3 := 0; let s : State := State.reset; s.hold = .run ∧ s.batonSt ≠ 4 ∧ s.owns p.val = false) ∧
  (let s : State := State.reset; let s : State := s.putF Reg.gblBatonState 2 0 1; s.hold = .run ∧ s.batonSt = 1 ∧
    s.winner = none) ∧
  (let p : Nat := 0; let s : State := State.reset; let s : State := s.setBit (Reg.gblBatonClaimOf 0) 31 true;
    let s : State := s.putF Reg.gblBatonState 2 0 1; s.hold = .run ∧ s.batonSt = 1 ∧ s.winner = some p) ∧
  (let p : Nat := 0; let s : State := State.reset; let s : State := s.setBit (Reg.gblBatonClaimOf 0) 31 true;
    s.winner = some p) := by
  refine ⟨?_, ?_, ?_, ?_, ?_, ?_, ?_, ?_⟩ <;> decide +kernel

theorem witness_batonLeases :
  (let m : Master := .ssv; let v : Word := 10; let s : State := State.reset; let s : State := s.putF Reg.gblBatonState 2 0 2;
    s.hold = .run ∧ s.may m Reg.gblBatonLease = true ∧ 10 ≤ v.toNat ∧ v.toNat ≤ 10000 ∧ s.held = true) ∧
  (let m : Master := .ssv; let v : Word := 0#32; let s : State := State.reset; s.hold = .run ∧
    s.may m Reg.gblBatonLease = true ∧ (v.toNat < 10 ∨ 10000 < v.toNat)) ∧
  (let m : Master := .host 1; let s : State := State.reset; s.hold = .run ∧ s.may m Reg.gblBatonLease = false) ∧
  (let p : Fin 3 := 0; let v : Word := 0x101#32; let s : State := State.reset;
    let s : State := s.putF Reg.gblBatonState 2 0 2; let s : State := s.putF Reg.gblBatonState 5 4 p.val;
    let s : State := s.putF Reg.gblBatonState 2 0 2; let s : State := s.putF (Reg.hpStatus (fld v 1 0)) 1 0 1;
    let t : State := (((s.putF Reg.gblBatonState 7 6 (fld v 1 0)).putF Reg.gblBatonState 2 0 3).portEvent (fld v 1 0) 11);
    s.hold = .run ∧ s.owns p.val = true ∧ s.batonSt = 2 ∧ bitAt v 8 = true ∧ fld v 1 0 ≠ 3 ∧ fld v 1 0 ≠ s.owner ∧
    t.getF (Reg.hpStatus (fld v 1 0)) 1 0 ≠ 0) ∧
  (let p : Fin 3 := 0; let s : State := State.reset; s.hold = .run ∧ s.batonSt ≠ 4 ∧ s.owns p.val = false) ∧
  (let p : Fin 3 := 0; let v : Word := (setFld (setBitAt 0#32 0 true) 29 16 10); let s : State := State.reset;
    let s : State := s.putF Reg.gblBatonState 2 0 3; s.hold = .run ∧ s.batonSt = 3 ∧ s.getF Reg.gblBatonState 7 6 = p.val ∧
    bitAt v 0 = true ∧ 10 ≤ fld v 29 16 ∧ fld v 29 16 ≤ 10000) ∧
  (let p : Fin 3 := 0; let s : State := State.reset; s.hold = .run ∧ s.batonSt ≠ 3 ∧ s.owns p.val = false) ∧
  (let s : State := State.reset; let s : State := s.putF Reg.gblBatonState 2 0 2;
    let s : State := s.setReg Reg.gblBatonLeft 0; s.hold = .run ∧ s.held = true ∧ s.reg Reg.gblBatonLeft = 0) ∧
  (let s : State := State.reset; let s : State := s.putF Reg.gblBatonState 2 0 3; s.hold = .run ∧ s.batonSt = 3) ∧
  (let s : State := State.reset; s.hold = .run ∧ s.batonSt ≠ 3) ∧
  (let s : State := State.reset; let s : State := s.putF Reg.gblBatonState 2 0 4; s.hold = .run ∧ s.batonSt = 4) ∧
  (let s : State := State.reset; s.hold = .run ∧ s.batonSt ≠ 4) ∧
  (let v : Word := (setBitAt 0#32 8 false); let s : State := State.reset; let s : State := s.putF Reg.gblBatonState 2 0 4;
    s.hold = .run ∧ s.batonSt = 4 ∧ bitAt v 8 = false) := by
  refine ⟨?_, ?_, ?_, ?_, ?_, ?_, ?_, ?_, ?_, ?_, ?_, ?_, ?_⟩ <;> decide +kernel

theorem witness_hostPorts :
  (let m : Master := .ssv; let k : Fin 64 := 0; let v : Word := (setBitAt 0#32 31 true); let s : State := State.reset;
    s.hold = .run ∧ s.may m (Reg.gblShadow k.val) = true ∧ bitAt v 31 = true ∧
    s.ringPort (fld v 30 16) = s.ringPort (fld v 14 0)) ∧
  (let m : Master := .ssv; let k : Fin 64 := 0; let v : Word := 0x00010000#32; let s : State := State.reset;
    let s : State := s.putF (Reg.ringCfg 1) 23 22 1; let s : State := s.putF (Reg.ringCfg (fld v 30 16)) 27 24 0;
    let s : State := s.putF (Reg.ringCfg (fld v 14 0)) 27 24 0; s.hold = .run ∧ s.may m (Reg.gblShadow k.val) = true ∧
    s.ringPort (fld v 30 16) ≠ s.ringPort (fld v 14 0) ∧ s.ringType (fld v 30 16) = 0 ∧ s.ringType (fld v 14 0) = 0) ∧
  (let k : Fin 64 := 0; let i : Nat := 0; let s : State := State.reset;
    let s : State := s.setPair 0 { s.pairAt 0 with shadow := [{ heats := 255 }] }; s.hold = .run ∧
    (s.pairAt k.val).shadow.findIdx? (fun e => !e.lagged && !e.settled && decide (max 1 (s.getF Reg.gblShadowCfg 15 8) ≤ e.heats)) = some i) ∧
  (let p : Fin 3 := 0; let s : State := State.reset; let s : State := s.putF Reg.gblBatonState 2 0 2;
    let s : State := s.putF Reg.gblBatonState 5 4 p.val; let t : State := (s.release 0x22 1); s.hold = .run ∧
    s.owns p.val = true ∧ t.batonSt ≠ 3) ∧
  (let s : State := State.reset; s.players = []) ∧
  (let p : Fin 3 := 0; let s : State := State.reset; let t : State := (s.setClaim p.val 0); s.hold = .run ∧
    s.owns p.val = false ∧ t.batonSt ≠ 3) ∧
  (let p : Fin 3 := 0; let s : State := State.reset;
    let t : State := (((s.putF (Reg.hpStatus p.val) 1 0 0).putF (Reg.hpStatus p.val) 7 4 0).setClaim p.val 0); s.hold = .run ∧
    t.batonSt ≠ 3) ∧
  (let o : Origin := .core 0 0#32; let d : Body := {}; let s : State := (wDue State.reset voteMarkRow.blk 0x0041 o d);
    let e : Sched := (wSched voteMarkRow.blk 0x0041 o d); s.Due voteMarkRow 0x0041 o d e) ∧
  (let o : Origin := .core 0 0#32; let e : Sched := { vote := .open_, copies := [{ org := .core 0 0 }] };
    let s : State := State.reset; let s : State := { s with sched := [e], votes := [{}] }; s.hold = .run ∧
    s.sched.find? (fun e => e.vote == .open_ && e.copies.any (·.org == o) && s.votes.any (fun v => v.id == e.id && v.left == 0)) = some e ∧
    e.silent = false) ∧
  (let o : Origin := .core 0 0#32; let s : State := State.reset; s.hold = .run ∧
    s.sched.find? (fun e => e.vote == .open_ && e.copies.any (·.org == o) && s.votes.any (fun v => v.id == e.id && v.left == 0)) = none) ∧
  (let o : Origin := .core 0 0#32; let d : Body := { payload := [0, 1] }; let s : State := (wCore State.reset);
    let s : State := s.setBit Reg.gblBatonState 14 true; let s : State := s.putF Reg.gblBatonState 13 12 1;
    let t : State := ((s.front o).bump Reg.rngAcceptCnt 32);
    let e : Sched := ((s.front o).newSched (adoptRow 0 []) (s.frontAt o) (descOf 0x0040 d) .error);
    s.Accepts (adoptRow 0 []) 0x0040 o d .error t e) ∧
  (let o : Origin := .core 0 0#32; let d : Body := { payload := [1, 1] }; let rds : List ReadResult := [];
    let s : State := (wCore State.reset); let s : State := s.setBit Reg.gblBatonState 14 true;
    let s : State := s.putF Reg.gblBatonState 13 12 1; let t : State := ((s.front o).bump Reg.rngAcceptCnt 32);
    let e : Sched := ((s.front o).newSched (adoptRow 1 rds) (s.frontAt o) (descOf 0x0040 d) .error);
    s.Accepts (adoptRow 1 rds) 0x0040 o d .error t e) ∧
  (let p : Nat := 0; let d : Desc := {}; let x : VoteH := { left := 1, ports := [0] }; let s : State := State.reset;
    let s : State := { s with votes := [x] }; s.votes.find? (fun v => decide (0 < v.left) && sameBut v.desc d) = some x ∧
    x.status = none ∧ (x.complete = true ∨ x.ports.contains p = true)) ∧
  (let o : Origin := .core 0 0#32; let p : Nat := 0; let d : Desc := {}; let x : VoteH := { left := 1, ports := [1] };
    let e : Sched := { copies := [{ org := .core 0 0, port := 0 }] };
    let y : VoteH := ({ x with complete := true, ports := x.ports ++ [p] }); let s : State := State.reset;
    let s : State := { s with votes := [x], sched := [{}] }; let s : State := s.putF Reg.gblBatonState 2 0 2;
    let t : State := (s.addCopy x.id { org := o, port := p, tag := d.body.tag, irq := d.body.irq });
    let u : State := ((State.bump { t with votes := t.votes.map fun z => if z.id = x.id then y else z } Reg.gblVoteOkCnt 32).showVotes);
    s.votes.find? (fun v => decide (0 < v.left) && sameBut v.desc d) = some x ∧ x.status = none ∧ x.complete = false ∧
    x.ports.contains p = false ∧ u.sched.find? (fun z => z.id == x.id) = some e ∧ u.held = true) := by
  refine ⟨?_, ?_, ?_, ?_, ?_, ?_, ?_, ?_, ?_, ?_, ?_, ?_, ?_, ?_⟩ <;> decide +kernel

theorem witness_doorbells :
  (let p : Fin 3 := 0; let r : Fin 32768 := 0; let s : State := State.reset; s.hold = .run ∧ s.doorbellOk p.val r.val = false) ∧
  (let m : Master := .ssv; let r : Fin 32768 := 0; let s : State := State.reset;
    let s : State := s.setBit (Reg.ringCfg r.val) 31 false; s.hold = .run ∧ s.doorbellMay m r.val = true ∧
    s.ringEn r.val = false) ∧
  (let m : Master := .ssv; let r : Fin 32768 := 0; let x : Word := 0xFFFFFFFF#32; let s : State := State.reset;
    let s : State := s.setBit (Reg.ringCfg r.val) 31 true; s.hold = .run ∧ s.doorbellMay m r.val = true ∧
    s.ringEn r.val = true ∧ s.doorbellRange r.val x = false) ∧
  (let m : Master := .ssv; let r : Fin 32768 := 0; let x : Word := 0#32; let s : State := State.reset;
    let s : State := s.setBit (Reg.ringCfg r.val) 31 true; let s : State := s.putF (Reg.ringCfg r.val) 27 24 0; s.hold = .run ∧
    s.doorbellMay m r.val = true ∧ s.ringEn r.val = true ∧ s.doorbellRange r.val x = true ∧ s.ringType r.val = 0) ∧
  (let m : Master := .ssv; let r : Fin 32768 := 0; let x : Word := 0#32; let s : State := State.reset;
    let s : State := s.setBit (Reg.ringCfg r.val) 31 true; let s : State := s.putF (Reg.ringCfg r.val) 27 24 2; s.hold = .run ∧
    s.doorbellMay m r.val = true ∧ s.ringEn r.val = true ∧ s.doorbellRange r.val x = true ∧ s.ringType r.val = 2) ∧
  (let r : Nat := 0; let s : State := State.reset; let s : State := s.putF (Reg.ringCfg r) 27 24 0; s.ringType r = 0) := by
  refine ⟨?_, ?_, ?_, ?_, ?_, ?_⟩ <;> decide +kernel

theorem witness_ringContexts :
  (let m : Master := .ssv; let r : Fin 32768 := 0; let v : Word := 0#32; let s : State := State.reset;
    let s : State := s.setBit (Reg.ringCfg r.val) 31 false; s.hold = .run ∧ s.may m (Reg.ringCfg r.val) = true ∧
    s.ringEn r.val = false ∧ s.ringCfgOk v = false) ∧
  (let m : Master := .ssv; let r : Fin 32768 := 0; let v : Word := 0x02040000#32; let s : State := State.reset;
    let s : State := s.setBit (Reg.ringCfg r.val) 31 false; s.hold = .run ∧ s.may m (Reg.ringCfg r.val) = true ∧
    s.ringEn r.val = false ∧ s.ringCfgOk v = true) ∧
  (let m : Master := .ssv; let r : Fin 32768 := 0; let s : State := State.reset;
    let s : State := s.setBit (Reg.ringCfg r.val) 31 true; s.hold = .run ∧ s.may m (Reg.ringCfg r.val) = true ∧
    s.ringEn r.val = true) ∧
  (let m : Master := .host 1; let r : Fin 32768 := 0; let s : State := State.reset; s.hold = .run ∧
    s.may m (Reg.ringCfg r.val) = false) ∧
  (let m : Master := .ssv; let r : Fin 32768 := 1; let s : State := (wRing State.reset); s.hold = .run ∧
    s.may m (Reg.ringCfg r.val) = true ∧ s.ringEn r.val = true ∧ s.ringType r.val = 2 ∧ s.linked r.val = true) ∧
  (let m : Master := .ssv; let r : Fin 32768 := 0; let v : Word := 0#32; let s : State := State.reset;
    let s : State := s.setBit (Reg.ringCfg r.val) 31 true;
    let s : State := s.setRing r.val { s.ringAt r.val with group := none };
    let s : State := s.setRing r.val { s.ringAt r.val with group := none }; let t : State := ((s.ringCfgKept r.val v));
    s.hold = .run ∧ s.may m (Reg.ringCfg r.val) = true ∧ s.ringEn r.val = true ∧ s.ringType r.val ≠ 2 ∧
    (s.ringAt r.val).group = none ∧ (t.ringAt r.val).group = none) := by
  refine ⟨?_, ?_, ?_, ?_, ?_, ?_⟩ <;> decide +kernel

theorem witness_ringsAndQueues :
  (let r : Fin 32768 := 0; let s : State := State.reset; let s : State := s.setBit (Reg.ringCfg r.val) 31 true;
    let s : State := s.putF (Reg.ringCfg r.val) 27 24 2; s.hold = .run ∧ s.ringEn r.val = true ∧
    s.ringType r.val ∈ [2, 4, 5, 6, 7]) ∧
  (let r : Fin 32768 := 0; let s : State := State.reset; let s : State := s.setBit (Reg.ringCfg r.val) 31 true;
    let s : State := s.setRing r.val { s.ringAt r.val with stallHeats := 100 }; s.hold = .run ∧ s.ringEn r.val = true ∧
    100 ≤ (s.ringAt r.val).stallHeats) ∧
  (let r : Fin 32768 := 0; let s : State := State.reset; let s : State := s.setBit (Reg.ringCfg r.val) 31 false;
    s.hold = .run ∧ s.ringEn r.val = false) ∧
  (let r : Fin 32768 := 0; let s : State := State.reset;
    let s : State := s.setRing 0 { s.ringAt 0 with coRun := true, unsig := 1 };
    let s : State := s.setRing r.val { s.ringAt r.val with coRun := true };
    let s : State := s.setBit (Reg.ringIrq r.val) 15 true; s.hold = .run ∧ (s.ringAt r.val).coRun = true ∧
    (s.ringAt r.val).unsig ≠ 0 ∧ s.bit (Reg.ringIrq r.val) 15 = true ∧
    (s.ringAt r.val).coFrom + s.getF (Reg.ringIrq r.val) 31 24 * 8000 ≤ s.pacer.ns.toNat) ∧
  (let r : Fin 32768 := 0; let s : State := State.reset; let s : State := s.setRing r.val { s.ringAt r.val with unsig := 0 };
    s.hold = .run ∧ (s.ringAt r.val).unsig = 0) ∧
  (let o : Origin := .core 0 0#32; let d : Body := {}; let s : State := (wDue State.reset nopRow.blk 0x0000 o d);
    let e : Sched := (wSched nopRow.blk 0x0000 o d); s.Due nopRow 0x0000 o d e) ∧
  (let r : Fin 32768 := 0; let i : Word := 0#32; let d : Body := {}; let s : State := (wRing State.reset);
    let t : State := ((s.front (.ring r i)).bump Reg.rngAcceptCnt 32);
    let e : Sched := ((s.front (.ring r i)).newSched barrierRow (s.frontAt (.ring r i)) (descOf 0x0001 d) .error);
    let v : State := ({ t with nextId := t.nextId + 1 }); s.Accepts barrierRow 0x0001 (.ring r i) d .error t e ∧
    v.barrierClear r.val = true) ∧
  (let n : Fin 4 := 0; let i : Word := 0#32; let d : Body := {}; let s : State := (wCore State.reset);
    let t : State := ((s.front (.core n i)).bump Reg.rngAcceptCnt 32);
    let e : Sched := ((s.front (.core n i)).newSched barrierRow (s.frontAt (.core n i)) (descOf 0x0001 d) .error);
    s.Accepts barrierRow 0x0001 (.core n i) d .error t e) ∧
  (let r : Fin 32768 := 0; let e : Sched := {}; let s : State := State.reset;
    let s : State := s.setRing r.val { s.ringAt r.val with barrier := some e }; s.hold = .run ∧
    (s.ringAt r.val).barrier = some e ∧ s.barrierClear r.val = true) ∧
  (let r : Fin 32768 := 0; let s : State := State.reset;
    let s : State := s.setRing r.val { s.ringAt r.val with barrier := none }; s.hold = .run ∧ (s.ringAt r.val).barrier = none) ∧
  (let r : Fin 32768 := 0; let e : Sched := {}; let s : State := State.reset;
    let s : State := s.setReg (Reg.ringInflight 0) 2;
    let s : State := s.setRing r.val { s.ringAt r.val with barrier := some e }; s.hold = .run ∧
    (s.ringAt r.val).barrier = some e ∧ s.barrierClear r.val = false) ∧
  (let p : Fin 3 := 0; let timeout : Bool := false; let r : Fin 32768 := 0;
    let code : Nat := ((if timeout then 0x04 else 0x05)); let s : State := State.reset;
    let s : State := s.setBit (Reg.ringCfg r.val) 31 true; let s : State := s.putF (Reg.ringCfg r.val) 27 24 0;
    let t : State := (s.emit (214 + p.val) code (batonSyn code p.val 1)); s.hold = .run ∧ t.ringEn r.val = true ∧
    t.ringPort r.val = p.val ∧ t.ringType r.val = 0) ∧
  (let r : Fin 32768 := 0; let s : State := State.reset; s.hold = .run ∧ 0 < s.readLimit r.val) ∧
  (let m : Master := .ssv; let n : Fin 4 := 0; let v : Word := (setBitAt 0#32 0 true); let s : State := State.reset;
    let s : State := s.setCore 0 { s.coreAt 0 with dq := List.replicate 16 ({}, .error) }; s.hold = .run ∧
    s.may m (Reg.coreAcDqPush n.val) = true ∧ bitAt v 0 = true ∧ 16 ≤ (s.coreAt n.val).dq.length) ∧
  (let m : Master := .ssv; let n : Fin 4 := 0; let v : Word := (setBitAt 0#32 0 true); let rd : ReadResult := .error;
    let s : State := State.reset;
    let h : CoreH := ({ s.coreAt n.val with dq := (s.coreAt n.val).dq ++ [(s.windowDesc n.val, rd)] });
    let t : State := ((s.setCore n.val h).showQueues n.val); s.hold = .run ∧ s.may m (Reg.coreAcDqPush n.val) = true ∧
    bitAt v 0 = true ∧ (s.coreAt n.val).dq.length < 16 ∧ t.mayTakeCore n.val = false) ∧
  (let m : Master := .ssv; let n : Fin 4 := 0; let v : Word := (setBitAt 0#32 0 true); let s : State := State.reset;
    let s : State := s.setCore n.val { s.coreAt n.val with dq := [] };
    let h : CoreH := ({ s.coreAt n.val with cq := (s.coreAt n.val).cq.drop 1 });
    let t : State := ((s.setCore n.val h).showQueues n.val); s.hold = .run ∧ s.may m (Reg.coreAcCqPop n.val) = true ∧
    bitAt v 0 = true ∧ (t.coreAt n.val).dq = []) := by
  refine ⟨?_, ?_, ?_, ?_, ?_, ?_, ?_, ?_, ?_, ?_, ?_, ?_, ?_, ?_, ?_, ?_⟩ <;> decide +kernel

theorem witness_collector :
  (let s : State := State.reset; let s : State := { s with fc.oscStopped := true }; s.fc.oscStopped = true) ∧
  (let e : Ev := { src := 144, cls := .f, react := 0, syn := 0 }; let s : State := State.reset;
    let s : State := { s with fc.oscStopped := false }; s.fc.oscStopped = false ∧ srcReserved e.src.val = false ∧
    144 ≤ e.src.val) ∧
  (let e : Ev := { src := 232, cls := .f, react := 0, syn := 0 }; let s : State := State.reset;
    let s : State := { s with fc.oscStopped := false }; s.fc.oscStopped = false ∧ srcReserved e.src.val = true) ∧
  (let e : Ev := { src := 0, cls := .f, react := 0, syn := 0 }; let s : State := State.reset;
    let t : State := ((s.bump Reg.fcEvtCnt 32).bump (Reg.fcSrcCnt e.src.val) 32); t.shadowOf e = none ∧
    t.openEntry e.src.val = none) ∧
  (let e : Ev := { src := 144, cls := .f, react := 0, syn := 0 }; let slot : Nat := 0; let s : State := State.reset;
    let s : State := s.bitVecSet Reg.fcOpen 144 true; let s : State := s.setReg (Reg.fcHist 0 3) 0x9080;
    let t : State := ((s.bump Reg.fcEvtCnt 32).bump (Reg.fcSrcCnt e.src.val) 32); t.shadowOf e = none ∧
    t.openEntry e.src.val = some slot) ∧
  (let e : Ev := { src := 144, cls := .c, react := 0, syn := 0 }; let sh : ShadowFc := { src := 144 };
    let s : State := State.reset; let s : State := { s with fc := { s.fc with shadows := [{ src := 144 }] } };
    let t : State := ((s.bump Reg.fcEvtCnt 32).bump (Reg.fcSrcCnt e.src.val) 32); t.shadowOf e = some sh) ∧
  (let e : Ev := { ({ src := 0, cls := .f, react := 0, syn := 0 } : Ev) with cls := .f }; e.cls = .f) ∧
  (let src : Nat := 144; srcResettable src = true) ∧
  (let src : Nat := 0; srcResettable src = false) := by
  refine ⟨?_, ?_, ?_, ?_, ?_, ?_, ?_, ?_, ?_⟩ <;> decide +kernel

theorem witness_collectorCommands :
  (let k : Fin 256 := 0; let s : State := State.reset; s.fc.resets.contains k.val = false) ∧
  (let k : Fin 256 := 144; let s : State := State.reset; let s : State := { s with fc := { s.fc with resets := [144] } };
    s.fc.resets.contains k.val = true) ∧
  (let k : Fin 256 := 0; let s : State := State.reset; s.fc.resets.contains k.val = false) ∧
  (let k : Fin 256 := 144; let s : State := State.reset; let s : State := { s with fc := { s.fc with resets := [144] } };
    s.fc.resets.contains k.val = true) ∧
  (let p : Fin 3 := 0; let s : State := State.reset; let s : State := { s with fc := { s.fc with irqWait := [0] } };
    s.fc.irqWait.contains p.val = true) ∧
  (let p : Fin 3 := 0; let s : State := State.reset; s.fc.irqWait.contains p.val = false) ∧
  (let m : Master := .ssv; let v : Word := (setBitAt 0#32 31 false); let s : State := State.reset;
    let s : State := s.bitVecSet Reg.fcOpen (fld v 7 0) true; s.hold = .run ∧ s.may m Reg.fcAck = true ∧ bitAt v 31 = false ∧
    s.bitVecGet Reg.fcOpen (fld v 7 0) = true) ∧
  (let m : Master := .ssv; let v : Word := (setBitAt 0#32 31 false); let s : State := State.reset;
    let s : State := s.bitVecSet Reg.fcOpen (fld v 7 0) false; s.hold = .run ∧ s.may m Reg.fcAck = true ∧ bitAt v 31 = false ∧
    s.bitVecGet Reg.fcOpen (fld v 7 0) = false) ∧
  (let m : Master := .ssv; let v : Word := (setBitAt 0#32 31 true); let s : State := State.reset; s.hold = .run ∧
    s.may m Reg.fcAck = true ∧ bitAt v 31 = true) ∧
  (let m : Master := .ssv; let v : Word := (setBitAt 0#32 0 true); let s : State := State.reset; s.hold = .run ∧
    s.may m Reg.fcPfClear = true ∧ bitAt v 0 = true) ∧
  (let m : Master := .ssv; let v : Word := (setBitAt 0#32 0 false); let s : State := State.reset; s.hold = .run ∧
    s.may m Reg.fcPfClear = true ∧ bitAt v 0 = false) ∧
  (let m : Master := .ssv; let w : Fin 8 := 0; let s : State := State.reset; s.hold = .run ∧ s.may m (Reg.fcFsw w.val) = true) ∧
  (let k : Fin 33 := 0; let s : State := State.reset; s.hold = .run ∧ k.val < 32) := by
  refine ⟨?_, ?_, ?_, ?_, ?_, ?_, ?_, ?_, ?_, ?_, ?_, ?_, ?_⟩ <;> decide +kernel

theorem witness_faultDescriptors :
  (let o : Origin := .core 0 0#32; let d : Body := {}; let s : State := (wCore State.reset);
    let s : State := s.bitVecSet Reg.fcOpen (d.pl 0 2) true; let t : State := ((s.front o).bump Reg.rngAcceptCnt 32);
    let e : Sched := ((s.front o).newSched faultAckRow (s.frontAt o) (descOf 0x0700 d) .error);
    let v : State := ({ t with nextId := t.nextId + 1 }); s.Accepts faultAckRow 0x0700 o d .error t e ∧ d.pl 0 2 ≠ 0xFFFF ∧
    v.bitVecGet Reg.fcOpen (d.pl 0 2) = true) ∧
  (let o : Origin := .core 0 0#32; let d : Body := {}; let s : State := (wCore State.reset);
    let s : State := s.bitVecSet Reg.fcOpen (d.pl 0 2) false; let t : State := ((s.front o).bump Reg.rngAcceptCnt 32);
    let e : Sched := ((s.front o).newSched faultAckRow (s.frontAt o) (descOf 0x0700 d) .error);
    let v : State := ({ t with nextId := t.nextId + 1 }); s.Accepts faultAckRow 0x0700 o d .error t e ∧ d.pl 0 2 ≠ 0xFFFF ∧
    v.bitVecGet Reg.fcOpen (d.pl 0 2) = false) ∧
  (let o : Origin := .core 0 0#32; let d : Body := { payload := [255, 255] }; let s : State := (wCore State.reset);
    let t : State := ((s.front o).bump Reg.rngAcceptCnt 32);
    let e : Sched := ((s.front o).newSched faultAckRow (s.frontAt o) (descOf 0x0700 d) .error);
    s.Accepts faultAckRow 0x0700 o d .error t e ∧ d.pl 0 2 = 0xFFFF) ∧
  (let o : Origin := .core 0 0#32; let d : Body := {}; let s : State := (wCore State.reset);
    let t : State := ((s.front o).bump Reg.rngAcceptCnt 32);
    let e : Sched := ((s.front o).newSched faultClearRow (s.frontAt o) (descOf 0x0701 d) .error);
    s.Accepts faultClearRow 0x0701 o d .error t e) ∧
  (let o : Origin := .core 0 0#32; let d : Body := {}; let s : State := (wCore State.reset);
    let t : State := ((s.front o).bump Reg.rngAcceptCnt 32);
    let e : Sched := ((s.front o).newSched faultPfClearRow (s.frontAt o) (descOf 0x0702 d) .error);
    s.Accepts faultPfClearRow 0x0702 o d .error t e) ∧
  (let o : Origin := .core 0 0#32; let d : Body := {}; let s : State := (wDue State.reset faultReactRow.blk 0x0703 o d);
    let s : State := s.setBit Reg.fcLock 0 true; let e : Sched := (wSched faultReactRow.blk 0x0703 o d);
    let t : State := (s.unschedule e.id); s.Due faultReactRow 0x0703 o d e ∧ t.bit Reg.fcLock 0 = true) ∧
  (let o : Origin := .core 0 0#32; let d : Body := { payload := [0, 1] };
    let s : State := (wDue State.reset faultReactRow.blk 0x0703 o d); let s : State := s.setBit Reg.fcLock 0 false;
    let e : Sched := (wSched faultReactRow.blk 0x0703 o d); let t : State := (s.unschedule e.id);
    s.Due faultReactRow 0x0703 o d e ∧ t.bit Reg.fcLock 0 = false ∧ d.byte 1 = 1) ∧
  (let o : Origin := .core 0 0#32; let d : Body := { payload := [0, 4] };
    let s : State := (wDue State.reset faultReactRow.blk 0x0703 o d); let s : State := s.setBit Reg.fcLock 0 false;
    let e : Sched := (wSched faultReactRow.blk 0x0703 o d); let t : State := (s.unschedule e.id);
    s.Due faultReactRow 0x0703 o d e ∧ t.bit Reg.fcLock 0 = false ∧ d.byte 1 = 4) ∧
  (let o : Origin := .core 0 0#32; let d : Body := { payload := [0, 6] };
    let s : State := (wDue State.reset faultReactRow.blk 0x0703 o d); let s : State := s.setBit Reg.fcLock 0 false;
    let e : Sched := (wSched faultReactRow.blk 0x0703 o d); let t : State := (s.unschedule e.id);
    s.Due faultReactRow 0x0703 o d e ∧ t.bit Reg.fcLock 0 = false ∧ d.byte 1 = 6) ∧
  (let p : Fin 3 := 0; let s : State := State.reset; let s : State := s.putF Reg.gblBatonState 2 0 2;
    let s : State := s.putF Reg.gblBatonState 5 4 p.val; let s : State := s.setBit Reg.gblMode 17 true;
    let s : State := { s with modes.unlock := 0 }; s.hold = .run ∧ s.may (.host p) Reg.gblFtmUnlock = true ∧
    s.owns p.val = true ∧ s.bit Reg.gblMode 17 = true ∧ s.modes.unlock = 0) ∧
  (let p : Fin 3 := 0; let s : State := State.reset; let s : State := s.putF Reg.gblBatonState 2 0 2;
    let s : State := s.putF Reg.gblBatonState 5 4 p.val; let s : State := s.setBit Reg.gblMode 17 true;
    let s : State := { s with modes.unlock := 2 }; s.hold = .run ∧ s.may (.host p) Reg.gblFtmUnlock = true ∧
    s.owns p.val = true ∧ s.bit Reg.gblMode 17 = true ∧ s.modes.unlock = 2 ∧ s.modes.unlockHeat < 100) ∧
  (let s : State := State.reset; let s : State := { s with modes := { s.modes with unlockHeat := 1000 } }; s.hold = .run ∧
    1000 ≤ s.modes.unlockHeat) ∧
  (let s : State := State.reset; let s : State := { s with modes := { s.modes with unlockHeat := 100 } }; s.hold = .run ∧
    100 ≤ s.modes.unlockHeat) ∧
  (let s : State := State.reset; s.hold = .run ∧ s.modes.unlockHeat < 100) ∧
  (let p : Fin 3 := 0; let v : Word := 0; let s : State := (wLane State.reset); let s : State := s.setBit Reg.gblMode 11 true;
    let s : State := s.putF Reg.gblBatonState 2 0 2; let s : State := s.putF Reg.gblBatonState 5 4 p.val;
    let s : State := s.setBit Reg.gblMode 17 true; let t : State := ((s.inject (setFld v 31 30 0)).getD s); s.hold = .run ∧
    s.owns p.val = true ∧ s.ftm = true ∧ s.inject (setFld v 31 30 0) = some t) ∧
  (let p : Fin 3 := 0; let v : Word := 1#32; let s : State := (wLane State.reset);
    let s : State := s.setBit Reg.gblMode 11 true; let s : State := s.putF Reg.gblBatonState 2 0 2;
    let s : State := s.putF Reg.gblBatonState 5 4 p.val; let s : State := s.setBit Reg.gblMode 17 true;
    let t : State := ((s.inject (setFld v 31 30 1)).getD s); s.hold = .run ∧ s.owns p.val = true ∧ s.ftm = true ∧
    s.inject (setFld v 31 30 1) = some t) ∧
  (let p : Fin 3 := 0; let v : Word := 1#32; let s : State := (wLane State.reset);
    let s : State := s.setBit Reg.gblMode 11 true; let s : State := s.putF Reg.gblBatonState 2 0 2;
    let s : State := s.putF Reg.gblBatonState 5 4 p.val; let s : State := s.setBit Reg.gblMode 17 true;
    let t : State := ((s.inject (setFld v 31 30 2)).getD s); s.hold = .run ∧ s.owns p.val = true ∧ s.ftm = true ∧
    s.inject (setFld v 31 30 2) = some t) ∧
  (let p : Fin 3 := 0; let v : Word := 0; let s : State := (wLane State.reset); let s : State := s.setBit Reg.gblMode 11 true;
    let s : State := s.putF Reg.gblBatonState 2 0 2; let s : State := s.putF Reg.gblBatonState 5 4 p.val;
    let s : State := s.setBit Reg.gblMode 17 true; let t : State := ((s.inject (setFld v 31 30 3)).getD s); s.hold = .run ∧
    s.owns p.val = true ∧ s.ftm = true ∧ s.inject (setFld v 31 30 3) = some t) ∧
  (let p : Fin 3 := 0; let s : State := State.reset; let s : State := s.putF Reg.gblBatonState 2 0 2;
    let s : State := s.putF Reg.gblBatonState 5 4 p.val; s.hold = .run ∧ s.owns p.val = true ∧ s.ftm = false) ∧
  (let v : Word := (setFld (setFld 0#32 31 30 2) 15 0 1); let s : State := State.reset;
    let s : State := s.setBit (Reg.tlLinkStatus (fld v 27 20)) 0 true; fld v 31 30 = 2 ∧ fld v 27 20 < 16 ∧
    s.present (fld v 27 20) = true ∧ 1 ≤ fld v 15 0 ∧ fld v 15 0 ≤ 255) ∧
  (let v : Word := (setFld 0#32 31 30 1); fld v 31 30 = 1 ∧ (128 ≤ fld v 27 20 ∨ fld v 15 0 = 0 ∨ 4095 < fld v 15 0)) ∧
  (let v : Word := (setFld 0#32 31 30 3); fld v 31 30 = 3 ∧ fld v 27 20 < 16 ∧ fld v 19 16 ≤ 1) ∧
  (let n : Fin 128 := 0; let c : Fin 11 := 0; let s : State := State.reset;
    let s : State := s.setLane 0 { s.laneAt 0 with injected := [(0, 0)] };
    let u : State := (s.setLane n.val { s.laneAt n.val with injected := (s.laneAt n.val).injected.filter (·.1 != c.val) });
    ((s.laneAt n.val).injected.any fun x => x.1 == c.val && x.2 ≤ s.heat) = true ∧ u.causeStands n.val c.val = false) ∧
  (let n : Fin 128 := 0; let c : Fin 11 := 0; let s : State := State.reset;
    let s : State := s.setLane 0 { s.laneAt 0 with injected := [(0, 0)] }; let s : State := s.setBit (laneReg 0) 6 true;
    let u : State := (s.setLane n.val { s.laneAt n.val with injected := (s.laneAt n.val).injected.filter (·.1 != c.val) });
    ((s.laneAt n.val).injected.any fun x => x.1 == c.val && x.2 ≤ s.heat) = true ∧ u.causeStands n.val c.val = true) := by
  refine ⟨?_, ?_, ?_, ?_, ?_, ?_, ?_, ?_, ?_, ?_, ?_, ?_, ?_, ?_, ?_, ?_, ?_, ?_, ?_, ?_, ?_, ?_, ?_, ?_⟩ <;> decide +kernel

theorem witness_controlCores :
  (let s : State := State.reset; s.hold = .run ∧ s.ssvHalted = false) ∧
  (let c : Fin 5 := 0; let s : State := State.reset; let s : State := s.setBit (Reg.coreWdog c.val) 31 false; s.hold = .run ∧
    s.bit (Reg.coreWdog c.val) 31 = false) ∧
  (let n : Fin 4 := 0; let s : State := State.reset; let s : State := s.setCore 0 { s.coreAt 0 with wdogHeats := 100000 };
    let s : State := s.setBit (Reg.coreWdog n.val) 31 true; let s : State := { s with fc.oscStopped := false }; s.hold = .run ∧
    s.bit (Reg.coreWdog n.val) 31 = true ∧ s.fc.oscStopped = false ∧
    s.getF (Reg.coreWdog n.val) 15 0 * 98 ≤ (s.coreAt n.val).wdogHeats * 100) ∧
  (let s : State := State.reset; let s : State := s.setCore 4 { s.coreAt 4 with wdogHeats := 100000 };
    let s : State := s.setBit (Reg.coreWdog 4) 31 true; let s : State := { s with fc.oscStopped := false }; s.hold = .run ∧
    s.bit (Reg.coreWdog 4) 31 = true ∧ s.fc.oscStopped = false ∧
    s.getF (Reg.coreWdog 4) 15 0 * 98 ≤ (s.coreAt 4).wdogHeats * 100) ∧
  (let m : Master := .ssv; let c : Fin 5 := 0; let s : State := State.reset; s.hold = .run ∧
    s.may m (Reg.coreKick c.val) = true) ∧
  (let m : Master := .ssv; let c : Fin 5 := 0; let v : Word := 0#32; let s : State := State.reset; s.hold = .run ∧
    s.may m (Reg.coreKick c.val) = true ∧ v ≠ 0x0000A5C3#32) ∧
  (let m : Master := .ssv; let c : Fin 5 := 0; let s : State := State.reset; s.hold = .run ∧
    s.may m (Reg.coreMboxBell c.val) = true) ∧
  (let m : Master := .ssv; let c : Fin 5 := 0; let v : Word := 0x80008000; let s : State := State.reset;
    let s : State := s.setReg (Reg.coreMboxCtrl 0) 0x8000; let s : State := s.setBit (Reg.coreMboxCtrl c.val) 15 true;
    let s : State := s.putF Reg.gblBatonState 2 0 2;
    let t : State := (s.rawWrite (Reg.coreMboxCtrl c.val) (setBitAt v 31 false)); s.hold = .run ∧
    s.may m (Reg.coreMboxCtrl c.val) = true ∧ bitAt v 31 = true ∧ t.bit (Reg.coreMboxCtrl c.val) 15 = true ∧ t.held = true) ∧
  (let m : Master := .ssv; let c : Fin 5 := 0; let v : Word := (setBitAt 0#32 31 false); let s : State := State.reset;
    s.hold = .run ∧ s.may m (Reg.coreMboxCtrl c.val) = true ∧ bitAt v 31 = false) ∧
  (let m : Master := .ssv; let n : Fin 4 := 0; let v : Word := (setBitAt 0#32 1 false); let s : State := State.reset;
    s.hold = .run ∧ s.may m (Reg.coreAcCtrl n.val) = true ∧ bitAt v 1 = false) ∧
  (let m : Master := .ssv; let n : Fin 4 := 0; let v : Word := (setBitAt 0#32 1 true); let s : State := State.reset;
    let t : State := (s.setReg (Reg.coreAcCtrl n.val) (v &&& 1#32));
    let u : State := (t.setBit (Reg.coreAcStatus n.val) 0 (bitAt v 0 && !t.bit (Reg.coreAcStatus n.val) 1)); s.hold = .run ∧
    s.may m (Reg.coreAcCtrl n.val) = true ∧ bitAt v 1 = true ∧ u.inReset (223 + n.val) = false) := by
  refine ⟨?_, ?_, ?_, ?_, ?_, ?_, ?_, ?_, ?_, ?_, ?_⟩ <;> decide +kernel

theorem witness_otpCryptoScrub :
  (let m : Master := .host 0; let s : State := State.reset; s.hold = .run ∧ m ≠ .ssv) ∧
  (let s : State := State.reset; let s : State := s.setBit Reg.coreOtpStatus 0 false; s.hold = .run ∧
    s.bit Reg.coreOtpStatus 0 = false) ∧
  (let s : State := State.reset; let s : State := s.setBit Reg.coreOtpStatus 0 false;
    let w : Nat := (s.getF Reg.coreOtpAddr 12 2); let t : State := (s.setReg Reg.coreOtpCmd 2#32); s.hold = .run ∧
    s.bit Reg.coreOtpStatus 0 = false ∧ t.otpRefused w = true) ∧
  (let s : State := State.reset; let s : State := s.setReg Reg.coreOtpAddr 8;
    let s : State := s.setBit Reg.coreOtpStatus 0 false; let w : Nat := (s.getF Reg.coreOtpAddr 12 2);
    let t : State := (s.setReg Reg.coreOtpCmd 2#32); s.hold = .run ∧ s.bit Reg.coreOtpStatus 0 = false ∧
    t.otpRefused w = false) ∧
  (let w : Nat := 0; let v : Word := 0#32; let s : State := State.reset; let s : State := { s with otpProg := some (w, v) };
    s.hold = .run ∧ s.otpProg = some (w, v)) ∧
  (let s : State := State.reset; let s : State := { s with otpProg := none }; s.hold = .run ∧ s.otpProg = none) ∧
  (let w : Nat := 1; w < 2) ∧
  (let s : State := State.reset; let s : State := s.setBit Reg.coreCryStatus 0 false; s.hold = .run ∧
    s.bit Reg.coreCryStatus 0 = false) ∧
  (let s : State := State.reset; let s : State := s.setBit Reg.coreCryStatus 0 false; s.hold = .run ∧
    s.bit Reg.coreCryStatus 0 = false) ∧
  (let m : Master := .host 0; let s : State := State.reset; s.hold = .run ∧ m ≠ .ssv) ∧
  (let m : Master := .host 0; let s : State := State.reset; s.hold = .run ∧ m ≠ .ssv) ∧
  (let s : State := State.reset; let s : State := { s with crypto := none }; s.hold = .run ∧ s.crypto = none) ∧
  (let x : CryptoH := { ({} : CryptoH) with op := 1 }; let s : State := State.reset;
    let s : State := { s with crypto := some x }; s.hold = .run ∧ s.crypto = some x ∧ x.op = 1) ∧
  (let x : CryptoH := { ({} : CryptoH) with op := 2 }; let s : State := State.reset;
    let s : State := { s with crypto := some x }; s.hold = .run ∧ s.crypto = some x ∧ x.op = 2) ∧
  (let s : State := State.reset; let s : State := s.setBit Reg.mxCtrl 0 false; s.hold = .run ∧ s.bit Reg.mxCtrl 0 = false) ∧
  (let bank : Fin 18 := 0; let s : State := State.reset; let s : State := s.setBit Reg.mxCtrl 0 true;
    let b : BankH := (s.bankAt bank.val); s.hold = .run ∧ s.bit Reg.mxCtrl 0 = true ∧ bank.val < 16 ∧ b.lineBad = [] ∧
    b.line < 131071) ∧
  (let s : State := State.reset; let s : State := s.setBit Reg.mxCtrl 0 true; s.hold = .run ∧ s.bit Reg.mxCtrl 0 = true) := by
  refine ⟨?_, ?_, ?_, ?_, ?_, ?_, ?_, ?_, ?_, ?_, ?_, ?_, ?_, ?_, ?_, ?_, ?_⟩ <;> decide +kernel

theorem witness_boot :
  (let s : State := State.reset; let s : State := s.putF Reg.coreBootStatus 31 24 3; s.hold = .run ∧
    3 ≤ s.getF Reg.coreBootStatus 31 24) ∧
  (let s : State := State.reset; let t : State := (s.otpTouch 0 2048); s.hold = .run ∧ s.getF Reg.coreBootStatus 31 24 < 3 ∧
    t.presentTiles = [] ∧ t.wup = false) ∧
  (let p : TileProbe := default; let s : State := State.reset; let t : State := ((s.otpTouch 0 2048).markPresent p);
    let a : State × Bool := (t.tileCheck p); let u : State := (a.1.presentTiles.foldl (fun s t => s.tileSafeOff t) a.1);
    s.hold = .run ∧ s.getF Reg.coreBootStatus 31 24 < 3 ∧ u.wup = false ∧ u.straps.bootSrc = 0#2) ∧
  (let img : FwImage := { which := 0, readOk := true, bytes := wFw }; let s : State := State.reset;
    let s : State := s.setReg Reg.mxCsramSsv 0x1000; let s : State := s.putF Reg.coreBootStatus 31 24 4;
    let t : State := (s.fwOtp.corePend 4 6); s.hold = .run ∧ s.getF Reg.coreBootStatus 31 24 = 4 ∧ s.straps.bootSrc = 0#2 ∧
    img.which.val = 0 ∧ img.readOk = true ∧ t.fwRefusal true img.bytes = none) ∧
  (let img : FwImage := { ({ which := 0, readOk := true, bytes := [] } : FwImage) with readOk := true }; let r : Nat := 1;
    let s : State := State.reset; let s : State := s.putF Reg.coreBootStatus 31 24 4; let t : State := (s.fwOtp.corePend 4 6);
    s.hold = .run ∧ s.getF Reg.coreBootStatus 31 24 = 4 ∧ s.straps.bootSrc = 0#2 ∧ img.which.val = 0 ∧ img.readOk = true ∧
    t.fwRefusal true img.bytes = some r) ∧
  (let img : FwImage := { which := 1, readOk := true, bytes := [] }; let r : Nat := 1; let s : State := State.reset;
    let s : State := s.putF Reg.coreBootStatus 31 24 5; let t : State := (s.fwOtp.corePend 4 6); s.hold = .run ∧
    s.getF Reg.coreBootStatus 31 24 = 5 ∧ s.straps.bootSrc = 0#2 ∧ img.which.val = 1 ∧ img.readOk = true ∧
    t.fwRefusal true img.bytes = some r) ∧
  (let bs : List Byte := wFw; let s : State := State.reset; let s : State := s.setReg Reg.mxCsramSsv 0x1000;
    s.fwRefusal true bs = none) ∧
  (let m : Master := .ssv; let v : Word := 0x80000000#32; let s : State := State.reset;
    let s : State := s.setReg Reg.mxCsramSsv 0x1000; let s : State := s.setReg Reg.coreHostbootLen 260;
    let s : State := { s with vat := (wFw.zipIdx.filterMap fun (p : Byte × Nat) => if p.1 = 0 then none else some (p.2, p.1)) };
    let s : State := s.putF Reg.coreBootStatus 31 24 7; let t : State := (s.rawWrite Reg.coreHostboot (setBitAt v 31 false));
    let a : Nat := (t.getF Reg.coreHostboot 26 0); let n : Nat := (t.getF Reg.coreHostbootLen 20 0);
    let bs : List Byte := (t.vatBytes a n); let u : State := ((t.vatTouch .ssv a n).fwOtp); s.hold = .run ∧
    s.may m Reg.coreHostboot = true ∧ bitAt v 31 = true ∧ t.getF Reg.coreBootStatus 31 24 = 7 ∧ u.fwRefusal true bs = none) ∧
  (let m : Master := .ssv; let v : Word := (setBitAt 0#32 31 false); let s : State := State.reset; s.hold = .run ∧
    s.may m Reg.coreHostboot = true ∧ bitAt v 31 = false) ∧
  (let m : Master := .host 0; let s : State := State.reset; s.hold = .run ∧ m ≠ .ssv) ∧
  (let t : Fin 16 := 0; let v : Word := (setBitAt 0#32 0 true); let s : State := State.reset;
    let s : State := s.setBit (Reg.tlDefCtrl t.val) 1 false; s.hold = .run ∧ bitAt v 0 = true ∧
    s.bit (Reg.tlDefCtrl t.val) 1 = false) ∧
  (let t : Fin 16 := 0; let s : State := State.reset;
    let s : State := (List.range 64).foldl (fun (s : State) (w : Nat) => s.setReg (Reg.tlDef 0 w) (BitVec.ofNat 32 (leAt wDefs (4 * w) 4))) s;
    let s : State := s.setBit (Reg.tlDefCtrl t.val) 1 true;
    let img : List Byte := ((List.range 64).flatMap (fun w => leBytes 4 (s.reg (Reg.tlDef t.val w)).toNat)); s.hold = .run ∧
    s.bit (Reg.tlDefCtrl t.val) 1 = true ∧ defsStorable img = true) ∧
  (let t : Fin 16 := 0; let s : State := State.reset; let s : State := s.setBit (Reg.tlDefCtrl t.val) 1 true;
    let img : List Byte := ((List.range 64).flatMap (fun w => leBytes 4 (s.reg (Reg.tlDef t.val w)).toNat)); s.hold = .run ∧
    s.bit (Reg.tlDefCtrl t.val) 1 = true ∧ defsStorable img = false) := by
  refine ⟨?_, ?_, ?_, ?_, ?_, ?_, ?_, ?_, ?_, ?_, ?_, ?_, ?_⟩ <;> decide +kernel

theorem witness_resetsAndPower :
  (let s : State := State.reset; let s : State := { s with fc.engReset := true }; s.hold = .run ∧ s.fc.engReset = true) ∧
  (let s : State := State.reset; let s : State := { s with fc.engReset := false }; s.hold = .run ∧ s.fc.engReset = false) ∧
  (let m : Master := .ssv; let v : Word := 0#32; let s : State := State.reset; let s : State := { s with key := none };
    s.hold = .run ∧ s.may m Reg.gblReset = true ∧ v ≠ 0x5A3C#32 ∧ s.key = none) ∧
  (let m : Master := .ssv; let s : State := State.reset; s.hold = .run ∧ s.may m Reg.gblReset = true) ∧
  (let p : Fin 3 := 0; let k : Nat := 0; let s : State := State.reset; let s : State := s.putF Reg.gblBatonState 2 0 2;
    let s : State := s.putF Reg.gblBatonState 5 4 0; let s : State := s.setBit Reg.gblMode 1 true;
    let s : State := { s with key := some (.host p, k) }; let t : State := ({ s with key := none }); s.hold = .run ∧
    s.may (.host p) Reg.gblReset = true ∧ s.key = some (.host p, k) ∧ s.pacer.ns.toNat ≤ k + 1000000 ∧ t.vaFlag = true) ∧
  (let p : Fin 3 := 0; let k : Nat := 0; let s : State := State.reset; let s : State := s.putF Reg.gblBatonState 2 0 2;
    let s : State := s.putF Reg.gblBatonState 5 4 0; let s : State := { s with key := some (.host p, k) };
    let s : State := { s with fc.engReset := false }; let t : State := ({ s with key := none }); s.hold = .run ∧
    s.may (.host p) Reg.gblReset = true ∧ s.key = some (.host p, k) ∧ s.pacer.ns.toNat ≤ k + 1000000 ∧ t.vaFlag = false ∧
    t.fc.engReset = false) ∧
  (let m : Master := .host 0; let s : State := State.reset; s.hold = .run ∧ m ≠ .ssv) ∧
  (let v : Word := (setBitAt 0#32 0 true); let s : State := State.reset; s.hold = .run ∧ s.may .ssv Reg.gblLock = true ∧
    bitAt v 0 = true) ∧
  (let m : Master := .ssv; let v : Word := (setBitAt 0#32 0 false); let s : State := State.reset; s.hold = .run ∧
    s.may m Reg.gblLock = true ∧ bitAt v 0 = false) ∧
  (let x : BitVec 16 := 100; let s : State := State.reset; let s : State := { s with dieOver := 0 }; s.hold ≠ .power ∧
    s.dieOver = 0 ∧ 100 ≤ x.toInt ∧ x.toInt < 110) ∧
  (let x : BitVec 16 := 0#16; let s : State := State.reset; let s : State := { s with dieOver := 1 }; s.hold ≠ .power ∧
    s.dieOver = 1 ∧ x.toInt < 95) ∧
  (let x : BitVec 16 := 95; let s : State := State.reset; let s : State := { s with dieOver := 1 }; s.hold ≠ .power ∧
    s.dieOver = 1 ∧ 95 ≤ x.toInt ∧ x.toInt < 110) ∧
  (let s : State := State.reset; s.hold ≠ .thermal) ∧
  (let s : State := State.reset; let s : State := { s with hold := .thermal }; s.hold = .thermal) ∧
  (let s : State := State.reset; let s : State := s.setBit (Reg.tlLinkStatus 0) 0 true;
    let s : State := s.setTile 0 { s.tileAt 0 with railLow := 100 }; s.hold = .run ∧
    (s.presentTiles.any fun t => 100 ≤ (s.tileAt t).railLow) = true) ∧
  (let s : State := State.reset; s.hold = .run ∧ (s.presentTiles.any fun t => 100 ≤ (s.tileAt t).railLow) = false) ∧
  (let s : State := State.reset; let s : State := { s with modes := { s.modes with batHigh := 1000000 } }; s.hold = .run ∧
    max 1 (s.getF Reg.gblModeCfg 15 8) * 1000 ≤ s.modes.batHigh) := by
  refine ⟨?_, ?_, ?_, ?_, ?_, ?_, ?_, ?_, ?_, ?_, ?_, ?_, ?_, ?_, ?_, ?_, ?_⟩ <;> decide +kernel

theorem witness_registerAccess :
  (let o : Nat := 0; let be : BitVec 4 := 0#4; let s : State := State.reset; s.hold = .run ∧
    (o / 4 * 4 < 0x8000 ∨ 0x10000 ≤ o / 4 * 4) ∧ be ≠ 0xF#4) ∧
  (let m : Master := .ssv; let o : Nat := 0x1FFFC; let v : Word := 0#32; let s : State := State.reset; s.hold = .run ∧
    0x10000 ≤ o / 4 * 4 ∧ s.may m (o / 4 * 4) = true ∧ regRow (o / 4 * 4) = none ∧ rowCommand m (o / 4 * 4) v = none) ∧
  (let m : Master := .host 1; let o : Nat := Reg.pcrCtrl; let v : Word := 0#32; let s : State := State.reset; s.hold = .run ∧
    0x10000 ≤ o / 4 * 4 ∧ o / 4 * 4 < 0x440000 ∧ s.may m (o / 4 * 4) = false ∧ rowCommand m (o / 4 * 4) v = none) ∧
  (let m : Master := .ssv; let o : Nat := Reg.pcrCtrl; let r : RegRow := ((regRow Reg.pcrCtrl).getD {});
    let s : State := State.reset; s.hold = .run ∧ 0x10000 ≤ o / 4 * 4 ∧ s.may m (o / 4 * 4) = true ∧
    regRow (o / 4 * 4) = some r ∧ ownRow (o / 4 * 4) = false ∧ (r.ssvw = false ∨ m = .ssv)) ∧
  (let o : Nat := 0x8000; let s : State := State.reset; s.hold = .run ∧ 0x8000 ≤ o / 4 * 4 ∧ o / 4 * 4 < 0x10000) ∧
  (let a : Word := 0x02000000#32; let s : State := State.reset; s.hold = .run ∧ 0x02000000 ≤ a.toNat ∧ a.toNat < 0x10000000) ∧
  (let m : Master := .ssv; let off : BitVec 25 := 0x20048; let r : RegRow := ((regRow 0x20048).getD {});
    let o : Nat := (off.toNat / 4 * 4); let s : State := State.reset; s.hold = .run ∧ regRow o = some r ∧ r.rc = true ∧
    s.mayClear m = true) ∧
  (let m : Master := .ac 0; let off : BitVec 25 := 0x20048; let r : RegRow := ((regRow 0x20048).getD {});
    let o : Nat := (off.toNat / 4 * 4); let s : State := State.reset; s.hold = .run ∧ regRow o = some r ∧
    s.mayClear m = false) ∧
  (let p : Fin 3 := 0; let s : State := State.reset; let s : State := s.putF Reg.gblBatonState 2 0 2;
    let s : State := s.putF Reg.gblBatonState 5 4 p.val; s.hold = .run ∧ s.owns p.val = true) ∧
  (let p : Fin 3 := 0; let s : State := State.reset; s.hold = .run ∧ s.owns p.val = false) ∧
  (let s : State := State.reset; let s : State := { s with baton.dropSeen := true }; s.baton.dropSeen = true) ∧
  (let o : Nat := 0x440000; let s : State := State.reset; s.hold = .run ∧ 0x440000 ≤ o / 4 * 4) ∧
  (let m : Master := .ssv; let o : Nat := Reg.pcrAdjFreq; let v : Word := 0#32; let f : RowAct := (execPcrAdjFreqWrite m v);
    rowCommand m (o / 4 * 4) v = some f) := by
  refine ⟨?_, ?_, ?_, ?_, ?_, ?_, ?_, ?_, ?_, ?_, ?_, ?_, ?_⟩
  · decide +kernel
  · decide +kernel
  · decide +kernel
  · decide +kernel
  · decide +kernel
  · decide +kernel
  · decide +kernel
  · decide +kernel
  · decide +kernel
  · decide +kernel
  · decide +kernel
  · decide +kernel
  · rfl

theorem witness_stepRunsFront :
  (let c : Instr := .heatBoundary []; let cs : List Instr := []; let s : State := State.reset;
    let s : State := { s with pending := c :: cs }; s.pending = c :: cs) := by
  decide +kernel

theorem witness_stepCompletes :
  (let c : Instr := .heatBoundary []; let cs : List Instr := []; let s : State := State.reset;
    let s : State := { s with pending := c :: cs }; s.pending = c :: cs) ∧
  (let s : State := State.reset; let s : State := { s with pending := [] }; s.pending = []) := by
  refine ⟨?_, ?_⟩ <;> decide +kernel

theorem witness_idleStep :
  (let s : State := State.reset; let s : State := { s with hold := .thermal }; let s : State := { s with pending := [] };
    s.pending = [] ∧ s.hold ≠ .run) ∧
  (let s : State := State.reset; let s : State := { s with pending := [] }; s.pending = [] ∧ s.hold = .run ∧
    (s.pacerCycles 1).heat = s.heat) ∧
  (let s : State := { State.reset with pacer := { ns := 999999#64, frac := 0xFFFFFFFF#32 } };
    let s : State := { s with pending := [] }; s.pending = [] ∧ s.hold = .run ∧ (s.pacerCycles 1).heat ≠ s.heat) ∧
  (let s : State := State.reset; let s : State := { s with pacer.slew := 0 }; let s : State := { s with pacer.frozen := 0 };
    s.pacer.slew = 0 ∧ s.pacer.frozen = 0 ∧ s.adjFreq = 0 ∧ s.pacer.ns.toNat + 1 < 2 ^ 64) := by
  refine ⟨?_, ?_, ?_, ?_⟩ <;> decide +kernel

theorem witness_pinsInvariant :
  (let s : State := { State.reset with hold := .power }; let t : State := { State.reset with hold := .power }; s.PinsAgree ∧
    step s = .next t) := by
  · exact ⟨by decide +kernel, rfl⟩

theorem witness_atReset :
  (let t := default; t < 16) := by
  decide +kernel

theorem witness_heldController :
  (let i : Instr := .heatBoundary []; let s : State := State.reset; let s : State := { s with hold := .power };
    s.hold ≠ .run ∧ actsWhileHeld i = false) ∧
  (let i : Instr := .heatBoundary []; let s : State := State.reset; let s : State := { s with hold := .power };
    let s : State := { s with fc.queue := [] }; s.hold ≠ .run ∧ actsWhileHeld i = false ∧ s.fc.queue = [] ∧ s.PinsAgree ∧
    Sparse.wf resetWord s.regs = true) := by
  refine ⟨?_, ?_⟩ <;> decide +kernel

theorem witness_pacerFromReset :
  (let s : State := State.reset; let s : State := { s with fc := { s.fc with engReset := true } };
    let s : State := { s with fc.engReset := true }; s.hold = .run ∧ s.fc.engReset = true) ∧
  (let k : Nat := 0; let u : State := State.reset; u.pacer.ns = 0#64 ∧ u.pacer.frac = 0#32 ∧ u.pacer.slew = 0 ∧
    u.pacer.frozen = 0 ∧ u.adjFreq = 0 ∧ k < 2 ^ 64) ∧
  (let h : Nat := 0; let s : State := State.reset; let s : State := { s with pacer.slew := 0 };
    let s : State := { s with pacer.frozen := 0 }; let s : State := { s with pacer.frac := 0#32 }; s.heat = h ∧
    s.pacer.slew = 0 ∧ s.pacer.frozen = 0 ∧ s.adjFreq = 0 ∧ s.pacer.frac = 0#32 ∧ (h + 1) * 1000000 < 2 ^ 64) := by
  refine ⟨?_, ?_, ?_⟩ <;> decide +kernel

theorem witness_aesChannelStatus :
  (let n : Fin 8 := 0; let bs : List Byte := List.replicate 23 0; let s : State := State.reset;
    let s : State := s.setBit (Reg.aesRxCfg n.val) 0 true; s.hold = .run ∧ s.bit (Reg.aesRxCfg n.val) 0 = true ∧
    bs.length = 23 ∧ (bs.getD 0 0).getLsbD 0 = false) ∧
  (let n : Fin 8 := 0; let bs : List Byte := 1 :: List.replicate 22 0; let s : State := State.reset;
    let s : State := s.setBit (Reg.aesRxCfg n.val) 0 true; s.hold = .run ∧ s.bit (Reg.aesRxCfg n.val) 0 = true ∧
    bs.length = 23 ∧ (bs.getD 0 0).getLsbD 0 = true) := by
  refine ⟨?_, ?_⟩ <;> decide +kernel

theorem witness_writesDropped :
  (let p : Fin 3 := 0; let s : State := State.reset; s.hold = .run ∧ s.owns p.val = false) ∧
  (let p : Fin 3 := 0; let s : State := State.reset; s.hold = .run ∧ s.owns p.val = false) ∧
  (let p : Fin 3 := 0; let s : State := State.reset; s.hold = .run ∧ s.owns p.val = false) ∧
  (let p : Fin 3 := 0; let s : State := State.reset; s.hold = .run ∧ s.owns p.val = false) ∧
  (let p : Fin 3 := 0; let s : State := State.reset; s.hold = .run ∧ s.owns p.val = false) ∧
  (let p : Fin 3 := 0; let s : State := State.reset; s.hold = .run ∧ s.owns p.val = false) ∧
  (let p : Fin 3 := 0; let s : State := State.reset; s.hold = .run ∧ s.owns p.val = false) ∧
  (let p : Fin 3 := 0; let s : State := State.reset; s.hold = .run ∧ s.owns p.val = false) ∧
  (let p : Fin 3 := 0; let s : State := State.reset; s.hold = .run ∧ s.owns p.val = false) ∧
  (let p : Fin 3 := 0; let s : State := State.reset; s.hold = .run ∧ s.owns p.val = false) ∧
  (let p : Fin 3 := 0; let s : State := State.reset; s.hold = .run ∧ s.owns p.val = false) ∧
  (let p : Fin 3 := 0; let s : State := State.reset; s.hold = .run ∧ s.owns p.val = false) ∧
  (let p : Fin 3 := 0; let s : State := State.reset; s.hold = .run ∧ s.owns p.val = false) ∧
  (let p : Fin 3 := 0; let s : State := State.reset; s.hold = .run ∧ s.owns p.val = false) ∧
  (let p : Fin 3 := 0; let s : State := State.reset; s.hold = .run ∧ s.owns p.val = false) ∧
  (let p : Fin 3 := 0; let s : State := State.reset; s.hold = .run ∧ s.owns p.val = false) ∧
  (let p : Fin 3 := 0; let s : State := State.reset; s.hold = .run ∧ s.owns p.val = false) ∧
  (let p : Fin 3 := 0; let s : State := State.reset; s.hold = .run ∧ s.owns p.val = false) ∧
  (let s : State := State.reset; let s : State := { s with baton.dropSeen := false }; s.baton.dropSeen = false) := by
  refine ⟨?_, ?_, ?_, ?_, ?_, ?_, ?_, ?_, ?_, ?_, ?_, ?_, ?_, ?_, ?_, ?_, ?_, ?_, ?_⟩ <;> decide +kernel

theorem witness_vatWrites :
  (let a : Nat := (vatSize - 1); let bs : List Byte := [1]; a + bs.length ≤ vatSize) ∧
  (let w : VatWriter := .ssv; let a : Nat := (vatSize - 1); let bs : List Byte := [1]; let s : State := State.reset;
    a + bs.length ≤ vatSize ∧ w.bit = none ∧ (∀ n, (s.bankAt n).bad = [] ∧ (s.bankAt n).inject = 0)) ∧
  (let s : State := State.reset; Memory.wf s.vat = true) ∧
  (let p : Fin 3 := 0; let off : BitVec 27 := (BitVec.ofNat 27 (vatSize - 1)); let bs : List Byte := [1];
    let s : State := State.reset; let s : State := s.putF Reg.gblBatonState 2 0 2;
    let s : State := s.putF Reg.gblBatonState 5 4 p.val; s.hold = .run ∧ s.owns p.val = true ∧
    off.toNat + bs.length ≤ vatSize) ∧
  (let p : Fin 3 := 0; let s : State := State.reset; s.hold = .run ∧ s.owns p.val = false) := by
  refine ⟨?_, ?_, ?_, ?_, ?_⟩
  · decide +kernel
  · exact ⟨by decide +kernel, rfl, fun n => ⟨rfl, rfl⟩⟩
  · decide +kernel
  · decide +kernel
  · decide +kernel

theorem witness_registerFile :
  (let hi : Nat := 31; let lo : Nat := 0; lo ≤ hi ∧ hi < 32) ∧
  (let s : State := State.reset; Sparse.wf resetWord s.regs = true) ∧
  (let s : State := State.reset; Sparse.wf resetWord s.regs = true) ∧
  (let s : State := State.reset; Sparse.wf resetWord s.regs = true) ∧
  (let o : Nat := 0; let r : Nat := 1; r ≠ o) := by
  refine ⟨?_, ?_, ?_, ?_, ?_⟩ <;> decide +kernel

theorem witness_eventsPresented :
  (let src : Nat := 232; srcReserved (src % 256) = true) ∧
  (let src : Nat := 127; let s : State := State.reset; src < 128 ∧ s.present (src / 8) = false) ∧
  (let t : Nat := 15; let s : State := State.reset; t < 16 ∧ s.present t = false) ∧
  (let src : Nat := 144; let s : State := State.reset; 144 ≤ src ∧ src < 256 ∧ srcReserved src = false ∧
    (s.fc.queue.filter (fun q => q.src.val == src)).length < 8) ∧
  (let src : Nat := 144; let syn : Word := 0#32; let s : State := State.reset;
    let s : State := { s with fc := { s.fc with queue := List.replicate 8 { src := 144, cls := .f, react := 0, syn := 0 } } };
    144 ≤ src ∧ src < 256 ∧ srcReserved src = false ∧ 8 ≤ (s.fc.queue.filter (fun q => q.src.val == src)).length) := by
  refine ⟨?_, ?_, ?_, ?_, ?_⟩ <;> decide +kernel

theorem witness_historyEntries :
  (let e : Ev := { src := 0, cls := .f, react := 0, syn := 0 }; let s : State := State.reset;
    s.effMask e.src.val e.cls e.react = 0#6 ∧ e.cls ≠ .c ∧ (∀ p, p < 3 → bitAt (s.reg (Reg.fcEvring p)) 31 = false)) := by
  decide +kernel

theorem witness_refusalOrder :
  (let row : Row := nopRow; let d : Desc := { body := { flags := 0x40 } }; let off : Nat := 2; let s : State := State.reset;
    s.headerBad (some row) d = some off) ∧
  (let row : Row := barrierRow; let d : Desc := { body := { payload := [1] } }; let off : Nat := 0;
    let s : State := State.reset; s.headerBad (some row) d = none ∧
    (s.votedEligible d.opcode.toNat d.body && d.body.chain) = false ∧ row.check s d.body = .bad off) ∧
  (let row : Row := nopRow; let n : Nat := 0; let d : Desc := {}; let c : Chk := .ok; let s : State := State.reset;
    s.headerBad (some row) d = none ∧ d.body.chain = false ∧ s.votedEligible d.opcode.toNat d.body = false ∧
    row.check s d.body = c ∧ c ∈ [.ok, .mode, .short] ∧ s.bit (Reg.coreAcOpmask n) (d.opcode.toNat / 256 % 16) = false) ∧
  (let row : Row := lpRunStartRow; let d : Desc := { opcode := 0x0211, body := { payload := [1, 0, 1] } };
    let s : State := State.reset; let s : State := s.setBit Reg.gblMode 6 true; s.headerBad (some row) d = none ∧
    d.body.chain = false ∧ row.check s d.body = .mode) ∧
  (let row : Row := clipLoadRow; let d : Desc := { opcode := 0x0302, body := { payload := [0, 0, 0, 0, 1] } };
    let s : State := State.reset; let s : State := s.setReg Reg.plyCachePages 0; s.headerBad (some row) d = none ∧
    d.body.chain = false ∧ row.check s d.body = .short) ∧
  (let row : Row := zoneSetRow; let d : Desc := {}; let s : State := State.reset; let s : State := s.setBit Reg.zmCtrl 0 true;
    let s : State := s.putF Reg.zmSchedUsed 13 0 8192; s.headerBad (some row) d = none ∧ d.body.chain = false ∧
    row.check s d.body = .ok ∧ row.blk = .zone ∧ 8192 ≤ s.getF Reg.zmSchedUsed 13 0) ∧
  (let row : Row := nopRow; let d : Desc := {}; let s : State := State.reset; s.headerBad (some row) d = none ∧
    d.body.chain = false ∧ row.check s d.body = .ok ∧ s.getF Reg.zmSchedUsed 13 0 < 8192) ∧
  (let row : Row := nopRow; let d : Desc := {}; let s : State := State.reset; s.headerBad (some row) d = none) := by
  refine ⟨?_, ?_, ?_, ?_, ?_, ?_, ?_, ?_⟩ <;> decide +kernel

theorem witness_commitTimes :
  (let b : Blk := default; let c : Nat := 7; let s : State := w0; s.heat + 1 < c ∧ b ≠ .now) ∧
  (let c : Nat := 0; let s : State := State.reset; c ≤ s.heat) ∧
  (let c : Nat := 4; let s : State := w0; c < s.heat) ∧
  (let c : Nat := 5000001; let s : State := w0; s.heat * 1000000 < c) ∧
  (let t := default; let h := default; let k := default; sampleAt t = (h, k)) := by
  refine ⟨?_, ?_, ?_, ?_, ?_⟩ <;> decide +kernel

end Sys2Proof.Tests
end

section
/-! Proofs: the register file (O56). What a read of a register or a field returns after each operation that writes one, and that each
of them keeps the stored form canonical. -/

namespace Sys2Proof.Machine

/-- The stored form lists rising offsets, and no register that reads its reset value. -/
abbrev State.RegsCanonical (s : State) : Prop := Sparse.wf resetWord s.regs = true

theorem State.regsCanonical_setReg {s : State} (o : Nat) (v : Word) (h : s.RegsCanonical) : (s.setReg o v).RegsCanonical :=
  Sparse.wf_set resetWord s.regs o v h

theorem State.regsCanonical_bump {s : State} (o n : Nat) (h : s.RegsCanonical) : (s.bump o n).RegsCanonical :=
  State.regsCanonical_setReg o _ h

/-- A plain write leaves the state, or writes one word to its own register. -/
theorem State.rawWrite_cases (s : State) (o : Nat) (v : Word) : s.rawWrite o v = s ∨ ∃ x, s.rawWrite o v = s.setReg o x := by
  unfold State.rawWrite
  split
  · exact .inl rfl
  · split
    · exact .inl rfl
    · exact .inr ⟨_, rfl⟩

theorem State.regsCanonical_rawWrite {s : State} (o : Nat) (v : Word) (h : s.RegsCanonical) : (s.rawWrite o v).RegsCanonical := by
  obtain hw | ⟨x, hw⟩ := s.rawWrite_cases o v <;> rw [hw]
  · exact h
  · exact State.regsCanonical_setReg o x h

theorem State.reg_rawWrite_ne (s : State) (o : Nat) (v : Word) (r : Nat) (h : r ≠ o) : (s.rawWrite o v).reg r = s.reg r := by
  obtain hw | ⟨x, hw⟩ := s.rawWrite_cases o v <;> rw [hw]
  exact State.reg_setReg_ne s o x r h

/-- A cleared register reads its reset value, every other as before. -/
theorem State.reg_clearReg (s : State) (o r : Nat) : (s.clearReg o).reg r = if r = o then resetWord r else s.reg r :=
  Sparse.get_del _ _ _ _

/-- A field of another register, or of the same one outside the bits written, reads as before. -/
theorem State.getF_putF_of_disjoint (s : State) {o hi lo v r a b : Nat} (h : lo ≤ hi) (hd : r ≠ o ∨ hi < a ∨ b < lo)
    (hab : a ≤ b) :
    (s.putF o hi lo v).getF r b a = s.getF r b a := by
  by_cases hr : r = o
  · subst hr
    have hd : hi < a ∨ b < lo := hd.resolve_left (not_not_intro rfl)
    simp only [State.getF, State.reg_putF, if_true, fld_setFld_of_disjoint _ _ _ _ _ _ h hd hab]
  · exact State.getF_putF_ne s o hi lo v r b a hr

/-- Settles O56: each clause is the rule of the operation it speaks of. -/
theorem registerFile : Obligations.RegisterFile := by
  unfold Obligations.RegisterFile
  refine ⟨fun s o v => ⟨s.reg_setReg_same o v, s.reg_setReg_ne o v⟩, fun s o hi lo v r a b h h32 => ⟨?_, ?_⟩,
    fun _ => State.regsCanonical_setReg, fun _ => State.regsCanonical_bump, fun _ => State.regsCanonical_rawWrite,
    State.reg_rawWrite_ne, fun s o => ⟨?_, fun r hr => ?_⟩⟩
  · exact s.getF_putF_same o hi lo v h h32
  · exact s.getF_putF_of_disjoint h
  · rw [s.reg_clearReg, if_pos rfl]
  · rw [s.reg_clearReg, if_neg hr]

end Sys2Proof.Machine
end

section
/-! Proofs: register writes and reads, and writes through BAR2 (O43). First when a register write has no row of its own, then what a
word written in BAR0 or at an address of the matrix does. -/

namespace Sys2Proof.Machine

/-! ### Where an array of registers lies -/

/-- The last element of an array ends within its span. -/
theorem indexIn_bounds {base st n off i : Nat} (h : indexIn base st n off = some i) : base ≤ off ∧ off + st ≤ base + n * st := by
  unfold indexIn at h
  split at h
  case isFalse => cases h
  case isTrue hin =>
    obtain ⟨hb, hmod, hn⟩ := hin
    have hspan : ((off - base) / st + 1) * st ≤ n * st := Nat.mul_le_mul_right st hn
    rw [Nat.add_mul, Nat.div_mul_cancel (Nat.dvd_of_mod_eq_zero hmod)] at hspan
    omega

theorem indexIn_eq_none_of_ge {base st n off : Nat} (hst : 0 < st) (h : base + n * st ≤ off) : indexIn base st n off = none :=
  Option.eq_none_iff_forall_ne_some.mpr fun i hi => by
    have := indexIn_bounds hi
    omega

/-- The first offset past a register or an array of registers. -/
def RegSpec.top (r : RegSpec) : Nat := r.base + match r.dims with
  | [] => 1
  | (st, n) :: _ => n * st

theorem RegSpec.lt_top_of_hit {r : RegSpec} {off : Nat} (hst : ∀ d ∈ r.dims, 0 < d.1) (h : r.hit off = true) : off < r.top := by
  obtain ⟨base, dims, row⟩ := r
  simp only [RegSpec.hit, Bool.and_eq_true, decide_eq_true_eq] at h
  obtain ⟨hb, hd⟩ := h
  cases dims with
  | nil =>
    have : off - base = 0 := by simpa [dimsHit] using hd
    show off < base + 1
    omega
  | cons d ds =>
    obtain ⟨st, n⟩ := d
    simp only [dimsHit, Bool.and_eq_true, decide_eq_true_eq] at hd
    have : off - base < n * st := (Nat.div_lt_iff_lt_mul (hst (st, n) List.mem_cons_self)).mp hd.1
    show off < base + n * st
    omega

/-- Register space holds no register from 0x0044_0000 upwards (R9). -/
theorem regRow_of_ge {off : Nat} (h : 0x440000 ≤ off) : regRow off = none := by
  have hb : blockSpecs off = regs14 := by
    have hlt : ∀ n, n ≤ 0x200000 → ¬ off < n := fun n hn => by omega
    simp [blockSpecs, hlt]
  have htop : ∀ r ∈ regs14, (∀ d ∈ r.dims, 0 < d.1) ∧ r.top ≤ 0x440000 := by decide
  have hmiss : ∀ r ∈ regs14, ¬ r.hit off = true := fun r hr hh =>
    absurd (RegSpec.lt_top_of_hit (htop r hr).1 hh) (Nat.not_lt.mpr ((htop r hr).2.trans h))
  rw [regRow, hb, List.find?_eq_none.mpr hmiss]
  rfl

/-! ### Which register writes have a row of their own -/

/-- Where a row is taken at `off`, `ownRow` says that the register has one. -/
def Owned (off : Nat) (o : Option RowAct) : Prop := o.isSome = true → ownRow off = true

theorem owned_none (off : Nat) : Owned off none := fun h => nomatch h

theorem rowAt_owned {off r : Nat} {f : RowAct} (hr : ownRow r = true) : Owned off (rowAt off r f) := by
  unfold rowAt
  split
  case isTrue h => exact fun _ => h ▸ hr
  case isFalse => exact owned_none off

theorem hostRow_owned {m : Master} {off r : Nat} {f : Fin 3 → RowAct} (hr : ownRow r = true) : Owned off (hostRow m off r f) := by
  cases m with
  | host p => exact rowAt_owned hr
  | _ => exact owned_none off

theorem rowsAt_owned {off base st n : Nat} {f : Nat → RowAct} (h : inArray base st n off = true → ownRow off = true) :
    Owned off (rowsAt off base st n f) := fun hs => h (by simpa [rowsAt, inArray] using hs)

theorem find_owned {off : Nat} {l : List (Option RowAct)} (h : ∀ o ∈ l, Owned off o) : Owned off (l.findSome? id) := by
  intro hs
  obtain ⟨f, hf⟩ := Option.isSome_iff_exists.mp hs
  obtain ⟨o, ho, hf⟩ := List.exists_of_findSome?_eq_some hf
  exact h o ho (Option.isSome_iff_exists.mpr ⟨f, hf⟩)

/-- The doorbells are the registers from 0x0040_0000 to 0x0044_0000. -/
theorem ownRow_of_doorbell {off : Nat} (h : 0x400000 ≤ off ∧ off < 0x440000) : ownRow off = true := by
  simp [ownRow, h]

theorem globalRows_owned (m : Master) (off : Nat) (v : Word) : ∀ o ∈ globalRows m off v, Owned off o := by
  simp only [globalRows, List.forall_mem_cons]
  exact ⟨rowAt_owned rfl, rowAt_owned rfl, rowAt_owned rfl, hostRow_owned rfl, rowAt_owned rfl, rowAt_owned rfl, hostRow_owned rfl,
    rowAt_owned rfl, rowAt_owned rfl, rowsAt_owned fun h => by simp [ownRow, h], by simp⟩

theorem faultsRows_owned (m : Master) (off : Nat) (v : Word) : ∀ o ∈ faultsRows m off v, Owned off o := by
  simp only [faultsRows, List.forall_mem_cons]
  exact ⟨rowAt_owned rfl, rowAt_owned rfl, rowsAt_owned fun h => by simp [ownRow, h], by simp⟩

theorem pacerRows_owned (m : Master) (off : Nat) (v : Word) : ∀ o ∈ pacerRows m off v, Owned off o := by
  simp only [pacerRows, List.forall_mem_cons]
  exact ⟨rowAt_owned rfl, rowAt_owned rfl, rowAt_owned rfl, rowAt_owned rfl, by simp⟩

theorem portsRows_owned (m : Master) (off : Nat) (v : Word) : ∀ o ∈ portsRows m off v, Owned off o := by
  simp only [portsRows, List.forall_mem_cons]
  refine ⟨?_, ?_, ?_, ?_, ?_, ?_, ?_, ?_, by simp⟩ <;> exact rowsAt_owned fun h => by simp [ownRow, h]

theorem lanesRows_owned (m : Master) (off : Nat) (v : Word) : ∀ o ∈ lanesRows m off v, Owned off o := by
  simp only [lanesRows, List.forall_mem_cons]
  refine ⟨?_, ?_, ?_, by simp⟩ <;> exact rowsAt_owned fun h => by simp [ownRow, h]

theorem coresRows_owned (m : Master) (off : Nat) (v : Word) : ∀ o ∈ coresRows m off v, Owned off o := by
  simp only [coresRows, List.forall_mem_cons]
  refine ⟨rowAt_owned rfl, rowAt_owned rfl, rowAt_owned rfl, ?_, ?_, ?_, ?_, ?_, by simp⟩ <;>
    exact rowsAt_owned fun h => by simp [ownRow, h]

theorem ringsRows_owned (m : Master) (off : Nat) (v : Word) : ∀ o ∈ ringsRows m off v, Owned off o := by
  simp only [ringsRows, List.forall_mem_cons]
  refine ⟨rowsAt_owned fun h => by simp [ownRow, h], rowsAt_owned fun h => ?_, rowsAt_owned fun h => ?_, by simp⟩ <;>
  · obtain ⟨i, hi⟩ := Option.isSome_iff_exists.mp h
    have := indexIn_bounds hi
    exact ownRow_of_doorbell (by omega)

/-- Every register whose write is a command of its own is one that `ownRow` lists. -/
theorem rowCommand_owned (m : Master) (off : Nat) (v : Word) : Owned off (rowCommand m off v) := by
  refine find_owned fun o ho => ?_
  repeat' split at ho
  · exact globalRows_owned m off v o ho
  · exact faultsRows_owned m off v o ho
  · exact pacerRows_owned m off v o ho
  · exact portsRows_owned m off v o ho
  · exact lanesRows_owned m off v o ho
  · exact coresRows_owned m off v o ho
  · exact ringsRows_owned m off v o ho
  · cases ho

theorem rowCommand_of_not_ownRow (m : Master) {off : Nat} (v : Word) (h : ownRow off = false) : rowCommand m off v = none := by
  rw [← Option.not_isSome_iff_eq_none]
  exact fun hs => by simp [rowCommand_owned m off v hs] at h

/-- No register of the MSI-X window has a row of its own. -/
theorem rowCommand_of_msix (m : Master) {off : Nat} (v : Word) (h : 0x8000 ≤ off) (h' : off < 0x10000) : rowCommand m off v = none := by
  have hrow : ∀ {r : Nat} {f : RowAct}, r < 0x8000 → rowAt off r f = none := fun hr => if_neg (by omega)
  have hhost : ∀ {r : Nat} {f : Fin 3 → RowAct}, r < 0x8000 → hostRow m off r f = none := fun hr => by
    cases m with
    | host p => exact hrow hr
    | _ => rfl
  have hshadow : ∀ {f : Nat → RowAct}, rowsAt off (Reg.gblShadow 0) 4 64 f = none := fun {f} => by
    rw [rowsAt, indexIn_eq_none_of_ge (by decide) (le_trans (by decide) h), Option.map_none]
  rw [rowCommand, if_pos h']
  refine List.findSome?_eq_none_iff.mpr ?_
  simp only [globalRows, List.forall_mem_cons]
  exact ⟨hrow (by decide), hrow (by decide), hrow (by decide), hhost (by decide), hrow (by decide), hrow (by decide), hhost (by decide),
    hrow (by decide), hrow (by decide), hshadow, by simp⟩

/-- No register write from 0x0044_0000 upwards has a row of its own. -/
theorem rowCommand_of_ge (m : Master) {off : Nat} (v : Word) (h : 0x440000 ≤ off) : rowCommand m off v = none := by
  have hlt : ∀ n, n ≤ 0x440000 → ¬ off < n := fun n hn => by omega
  simp [rowCommand, hlt]

/-! ### A word written in BAR0 -/

/-- A port's write in the MSI-X window goes to its own table (R409). -/
theorem State.bar0Write_msix (s : State) (p : Fin 3) {off : Nat} (be : BitVec 4) (v : Word) (h : 0x8000 ≤ off) (h' : off < 0x10000) :
    s.bar0Write (.host p) off be v = s.msixWrite p.val ((off - 0x8000) / 4) be v := by
  simp [State.bar0Write, h, h']

/-- Elsewhere a write of less than a word, and one from 0x0044_0000 upwards, changes nothing. -/
theorem State.bar0Write_discarded (s : State) (m : Master) {off : Nat} (be : BitVec 4) (v : Word)
    (hw : off < 0x8000 ∨ 0x10000 ≤ off) (h : be ≠ 0xF#4 ∨ 0x440000 ≤ off) : s.bar0Write m off be v = s := by
  have hn : ¬ (0x8000 ≤ off ∧ off < 0x10000) := by omega
  cases m <;> simp only [State.bar0Write, hn, decide_false, if_pos h]

/-- Past the global block a full word is a plain write, if the master may write there. -/
theorem State.bar0Write_block (s : State) (m : Master) {off : Nat} (v : Word) (h : 0x10000 ≤ off) (h' : off < 0x440000) :
    s.bar0Write m off 0xF#4 v = s.gated m off fun s => s.plainWrite m off v := by
  have hn : ¬ (0x8000 ≤ off ∧ off < 0x10000) := by omega
  have hf : ¬ (0xF#4 ≠ 0xF#4 ∨ 0x440000 ≤ off) := by simp; omega
  have hp : indexIn 0x700 0x40 3 (off / 8 * 8) = none := indexIn_eq_none_of_ge (by decide) (by omega)
  cases m <;> simp only [State.bar0Write, hn, decide_false, if_neg hf, hp]

theorem State.gated_of_may {s : State} {m : Master} {off : Nat} (f : State → State) (h : s.may m off = true) :
    s.gated m off f = f s := if_pos h

theorem State.gated_of_not_may {s : State} {m : Master} {off : Nat} (f : State → State) (h : s.may m off = false) :
    s.gated m off f = s.refuseWrite m := if_neg (by simp [h])

/-- A hole discards what is written to it (R554). -/
theorem State.plainWrite_hole (s : State) (m : Master) {off : Nat} (v : Word) (h : regRow off = none) : s.plainWrite m off v = s := by
  simp only [State.plainWrite, h]

/-- A register without a command of its own takes the effect its block gives a write. -/
theorem State.plainWrite_register (s : State) {m : Master} {off : Nat} (v : Word) {r : RegRow} (h : regRow off = some r)
    (hown : ownRow off = false) (hm : r.ssvw = false ∨ m = .ssv) : s.plainWrite m off v = s.blockWrite off r.ssvw v := by
  have hadmit : (r.ssvw && decide (m ≠ .ssv)) = false := by rcases hm with h | h <;> simp [h]
  simp only [State.plainWrite, h, hown, hadmit, Bool.or_self, Bool.false_eq_true, if_false]

/-! ### A register write that has no row of its own -/

theorem targetRow_bar0_eq_none (m : Master) {o : Nat} (be : BitVec 4) {v : Word} (h : rowCommand m (o / 4 * 4) v = none) :
    targetRow m (.bar0 o) be v = none := by
  simp [targetRow, targetOffset, h]

theorem does_bar0Write {m : Master} {o : Nat} {be : BitVec 4} {v : Word} {s u : State} (hrun : s.hold = .run)
    (hrow : targetRow m (.bar0 o) be v = none) (hu : s.bar0Write m (o / 4 * 4) be v = u) : Does (.registerWrite m (.bar0 o) be v) s u :=
  does_of_run (fun s => s.bar0Write m (o / 4 * 4) be v) (by rw [arm_registerWrite, execRegisterWrite, hrow]) hrun hu

theorem does_configWrite {p : Fin 3} {b e f : Bool} {be : BitVec 4} {v : Word} {s : State} (hrun : s.hold = .run) :
    Does (.registerWrite (.host p) (.config b e f) be v) s (s.configWrite p.val b e f) :=
  does_of_run (fun s => s.configWrite p.val b e f)
    (by rw [arm_registerWrite, execRegisterWrite, show targetRow (.host p) (.config b e f) be v = none by simp [targetRow, targetOffset]])
    hrun rfl

/-- The matrix has no target from 0x0200_0000 to 0x1000_0000, so a port's write there is a decode error (R505). -/
theorem State.matrixWrite_unmapped (s : State) {a : Word} (id : Nat) (be : BitVec 4) (v : Word) (h : 0x02000000 ≤ a.toNat)
    (h' : a.toNat < 0x10000000) : s.matrixWrite (.host 0) a id be v = s.decodeError (.host 0) id true a := by
  have h1 : ¬ (0x40000000 ≤ a.toNat / 4 * 4 ∧ a.toNat / 4 * 4 < 0x48000000) := by omega
  have h2 : ¬ (0x20000000 ≤ a.toNat / 4 * 4 ∧ a.toNat / 4 * 4 < 0x22000000) := by omega
  have h3 : ¬ (csramBase ≤ a.toNat / 4 * 4 ∧ a.toNat / 4 * 4 < csramBase + 0x100000) := by simp only [csramBase]; omega
  simp only [State.matrixWrite, if_neg h1, if_neg h2, if_neg h3, Bool.false_eq_true, false_and, and_false, if_false]

theorem does_matrixWrite_unmapped {a : Word} {id : Fin 32} {be : BitVec 4} {v : Word} {s : State} (hrun : s.hold = .run)
    (h : 0x02000000 ≤ a.toNat) (h' : a.toNat < 0x10000000) :
    Does (.registerWrite (.host 0) (.matrix a id) be v) s (s.decodeError (.host 0) id.val true a) := by
  have hoff : targetOffset (.matrix a id) = none := if_neg (by omega)
  have hrow : targetRow (.host 0) (.matrix a id) be v = none := by simp [targetRow, hoff]
  exact does_of_run (fun s => s.matrixWrite (.host 0) a id.val be v) (by rw [arm_registerWrite, execRegisterWrite, hrow]) hrun
    (s.matrixWrite_unmapped id.val be v h h')

/-! ### Reads that clear, and BAR2 -/

theorem does_rcRegisterRead_clear {m : Master} {off : BitVec 25} {r : RegRow} {s : State} (hrun : s.hold = .run)
    (hreg : regRow (off.toNat / 4 * 4) = some r) (hrc : r.rc = true) (hm : s.mayClear m = true) :
    Does (.rcRegisterRead m off) s
      (State.clearReg { s with rdata := s.readWord m (off.toNat / 4 * 4) } (off.toNat / 4 * 4)) :=
  does_of_run _ (by rw [arm_rcRegisterRead, execRcRegisterRead]) hrun (by simp [hreg, hrc, hm])

theorem does_rcRegisterRead_keep {m : Master} {off : BitVec 25} {r : RegRow} {s : State} (hrun : s.hold = .run)
    (hreg : regRow (off.toNat / 4 * 4) = some r) (hm : s.mayClear m = false) :
    Does (.rcRegisterRead m off) s { s with rdata := s.readWord m (off.toNat / 4 * 4) } :=
  does_of_run _ (by rw [arm_rcRegisterRead, execRcRegisterRead]) hrun (by simp [hreg, hm])

theorem does_hostBar2Write {p : Fin 3} {off : BitVec 27} {bs : List Byte} {s u : State} (hrun : s.hold = .run)
    (hu : (if s.owns p.val then s.vatWrite (.host p.val) off.toNat bs else s.dropWrite p.val) = u) : Does (.hostBar2Write p off bs) s u :=
  does_of_run _ (by rw [arm_hostBar2Write, execHostBar2Write]) hrun hu

/-- After the first dropped write of a heat the next is only counted (R411). -/
theorem State.dropWrite_of_seen {s : State} (p : Nat) (h : s.baton.dropSeen = true) :
    s.dropWrite p = s.bump Reg.gblBatonDropCnt 32 := if_pos h

/-- Settles O43, by the kind of address and master: each clause of a register write first shows that the write has no row of its own,
then what a word written there does. -/
theorem registerAccess : Obligations.RegisterAccess := by
  unfold Obligations.RegisterAccess
  refine ⟨fun m o be v s hrun hw hbe => ?short, fun m o v s hrun hlo hmay hhole hrow => ?hole,
    fun m o v s hrun hlo hhi hmay hrow => ?refused, fun m o v r s hrun hlo hmay hreg hown hadmit => ?register,
    fun p o be v s hrun hlo hhi => ?msix, fun p b e f be v s hrun => does_configWrite hrun,
    fun a id be v s hrun => does_matrixWrite_unmapped hrun, ?clears, ?keeps,
    fun p off bs s hrun hown => does_hostBar2Write hrun (if_pos hown),
    fun p off bs s hrun hown => does_hostBar2Write hrun (if_neg (by simp [hown])),
    fun s t p ht hseen => ht ▸ State.dropWrite_of_seen p hseen, fun m o be v s hrun hhi => ?above, fun m o v f s hrow => ?row⟩
  case short => exact does_bar0Write hrun (if_neg hbe) (s.bar0Write_discarded m be v hw (.inl hbe))
  case hole =>
    refine does_bar0Write hrun (targetRow_bar0_eq_none m _ hrow) ?_
    rcases Nat.lt_or_ge (o / 4 * 4) 0x440000 with hhi | hhi
    · rw [s.bar0Write_block m v hlo hhi, State.gated_of_may _ hmay, s.plainWrite_hole m v hhole]
    · exact s.bar0Write_discarded m _ v (.inr hlo) (.inr hhi)
  case refused =>
    refine does_bar0Write hrun (targetRow_bar0_eq_none m _ hrow) ?_
    rw [s.bar0Write_block m v hlo hhi, State.gated_of_not_may _ hmay]
  case register =>
    have hhi : o / 4 * 4 < 0x440000 := by
      by_contra hge
      cases (regRow_of_ge (Nat.not_lt.mp hge)).symm.trans hreg
    refine does_bar0Write hrun (targetRow_bar0_eq_none m _ (rowCommand_of_not_ownRow m v hown)) ?_
    rw [s.bar0Write_block m v hlo hhi, State.gated_of_may _ hmay, s.plainWrite_register v hreg hown hadmit]
  case msix => exact does_bar0Write hrun (targetRow_bar0_eq_none _ _ (rowCommand_of_msix _ v hlo hhi)) (s.bar0Write_msix p be v hlo hhi)
  case clears =>
    rintro m off o r s t hrun rfl hreg rfl hrc hm
    exact does_rcRegisterRead_clear hrun hreg hrc hm
  case keeps =>
    rintro m off o r s hrun rfl hreg hm
    exact does_rcRegisterRead_keep hrun hreg hm
  case above =>
    exact does_bar0Write hrun (targetRow_bar0_eq_none m be (rowCommand_of_ge m v hhi))
      (s.bar0Write_discarded m be v (.inr (by omega)) (.inr hhi))
  case row =>
    have hrow' : targetRow m (.bar0 o) 0xF#4 v = some f := hrow
    rw [arm_registerWrite, execRegisterWrite, hrow']

end Sys2Proof.Machine
end

section
/-! Proofs: presenting an event (O57). What becomes of an event, by its source and by how many of the source wait before it. -/

namespace Sys2Proof.Machine

/-- The event that the tables give for `code` on source `src`. -/
def eventOf (src code : Nat) (syn : Word) : Ev :=
  { src := Fin.ofNat 256 src, cls := (evRow src code).1, react := (evRow src code).2, syn := syn }

theorem State.emit_eq_emitEv (s : State) (src code : Nat) (syn : Word) : s.emit src code syn = s.emitEv (eventOf src code syn) := rfl

theorem eventOf_src {src : Nat} (code : Nat) (syn : Word) (h : src < 256) : (eventOf src code syn).src.val = src :=
  Nat.mod_eq_of_lt h

/-- The events of a source that wait in its block. -/
def State.waitingOf (s : State) (src : Nat) : List Ev := s.fc.queue.filter fun q => q.src.val == src

theorem State.waitingOf_src (s : State) (e : Ev) : s.waitingOf e.src.val = s.fc.queue.filter fun q => q.src == e.src := by
  unfold State.waitingOf
  congr 1
  funext q
  exact Bool.eq_iff_iff.mpr (by simp [Fin.ext_iff])

/-! ### Sources that never raise (R21, R474) -/

theorem State.emitEv_of_reserved (s : State) {e : Ev} (h : srcReserved e.src.val = true) : s.emitEv e = s := if_pos h

theorem State.emitEv_of_absent_lane (s : State) {e : Ev} (h : e.src.val < 128) (hp : s.present (e.src.val / 8) = false) :
    s.emitEv e = s := by
  have hbit : s.bit (Reg.tlLinkStatus (e.src.val / 8)) 0 = false := hp
  unfold State.emitEv
  rw [if_neg (by simp [srcReserved]; omega), if_neg (by omega), if_pos ⟨h, by rw [hbit]; rfl⟩]

theorem State.emitEv_of_absent_tile (s : State) {e : Ev} (h : 128 ≤ e.src.val) (h' : e.src.val < 144)
    (hp : s.present (e.src.val - 128) = false) : s.emitEv e = s := by
  have hbit : s.bit (Reg.tlLinkStatus (e.src.val - 128)) 0 = false := hp
  unfold State.emitEv
  rw [if_neg (by simp [srcReserved]; omega), if_pos ⟨h, h', by rw [hbit]; rfl⟩]

/-! ### Sources of the engine (R472) -/

/-- The state with `e` discarded, which its source remembers. -/
def State.discardEv (s : State) (e : Ev) : State :=
  { s with fc := { s.fc with lostSrc := e.src.val :: s.fc.lostSrc.filter (· != e.src.val) } }

/-- The state with `e` last of those that wait, with LOST where its source has discarded one since its last. -/
def State.queueEv (s : State) (e : Ev) : State :=
  { s with fc := { s.fc with
      queue := s.fc.queue ++ [{ e with lost := e.lost || s.fc.lostSrc.contains e.src.val }]
      lostSrc := s.fc.lostSrc.filter (· != e.src.val) } }

/-- An event of a source that is no tile's is discarded behind eight of its source, and otherwise waits. -/
theorem State.emitEv_of_engine_source (s : State) {e : Ev} (h : 144 ≤ e.src.val) (hr : srcReserved e.src.val = false) :
    s.emitEv e = if 8 ≤ (s.waitingOf e.src.val).length then s.discardEv e else s.queueEv e := by
  unfold State.emitEv
  rw [if_neg (by simp [hr]), if_neg (by omega), if_neg (by omega), s.waitingOf_src]
  rfl

theorem State.emit_of_engine_source (s : State) {src : Nat} (code : Nat) (syn : Word) (hlo : 144 ≤ src) (hhi : src < 256)
    (hr : srcReserved src = false) : s.emit src code syn =
      if 8 ≤ (s.waitingOf src).length then s.discardEv (eventOf src code syn) else s.queueEv (eventOf src code syn) := by
  have hsrc := eventOf_src code syn hhi
  rw [s.emit_eq_emitEv, s.emitEv_of_engine_source (hsrc.symm ▸ hlo) (hsrc.symm ▸ hr), hsrc]

theorem State.discardEv_lostSrc (s : State) {e : Ev} {src : Nat} (h : e.src.val = src) :
    (s.discardEv e).fc.lostSrc.contains src = true := by simp [State.discardEv, h]

theorem State.queueEv_lostSrc (s : State) {e : Ev} {src : Nat} (h : e.src.val = src) :
    (s.queueEv e).fc.lostSrc.contains src = false := by simp [State.queueEv, h]

/-- An event that waits carries LOST where its source has discarded one since its last. -/
theorem State.queueEv_queue (s : State) {src : Nat} (code : Nat) (syn : Word) (h : src < 256) :
    (s.queueEv (eventOf src code syn)).fc.queue =
      s.fc.queue ++ [{ eventOf src code syn with lost := s.fc.lostSrc.contains src }] := by
  simp only [State.queueEv, eventOf_src code syn h]
  rfl

/-- Settles O57, by the source of the event and the number of its source that wait. -/
theorem eventsPresented : Obligations.EventsPresented := by
  unfold Obligations.EventsPresented
  refine ⟨fun s src code syn hr => s.emitEv_of_reserved hr, fun s src code syn hlt habs => ?lane,
    fun s src code syn t hsrc ht habs => ?tile, fun s src code syn hlo hhi hr hroom => ?waits,
    fun s src code syn hlo hhi hr hfull => ?discarded, fun s src code syn => ?frame⟩
  case lane =>
    have hsrc := eventOf_src code syn (show src < 256 by omega)
    exact s.emitEv_of_absent_lane (hsrc.symm ▸ hlt) (hsrc.symm ▸ habs)
  case tile =>
    have he := eventOf_src code syn (show src < 256 by omega)
    refine s.emitEv_of_absent_tile (e := eventOf src code syn) (by omega) (by omega) ?_
    rwa [show (eventOf src code syn).src.val - 128 = t by omega]
  case waits =>
    have hsrc := eventOf_src code syn hhi
    rw [s.emit_of_engine_source code syn hlo hhi hr, if_neg (show ¬ 8 ≤ (s.waitingOf src).length from Nat.not_le.mpr hroom)]
    exact ⟨{ eventOf src code syn with lost := s.fc.lostSrc.contains src }, hsrc, rfl, rfl, rfl, rfl, s.queueEv_queue code syn hhi,
      s.queueEv_lostSrc hsrc⟩
  case discarded =>
    rw [s.emit_of_engine_source code syn hlo hhi hr, if_pos (show 8 ≤ (s.waitingOf src).length from hfull)]
    exact ⟨rfl, s.discardEv_lostSrc (eventOf_src code syn hhi)⟩
  case frame =>
    obtain ⟨q, l, h⟩ := s.emit_eq src code syn
    rw [h]

end Sys2Proof.Machine
end

section
/-! Proofs: the held controller (O51). Where the pins agree with the registers and the registers are canonical, closing a command has
nothing left to do. -/

namespace Sys2Proof.Machine

theorem setBitAt_bitAt_self (w : Word) {i : Nat} (hi : i < 32) : setBitAt w i (bitAt w i) = w := by
  refine BitVec.eq_of_getLsbD_eq fun j _ => ?_
  change bitAt (setBitAt w i (bitAt w i)) j = bitAt w j
  rw [bitAt_setBitAt w i _ j hi]
  split
  case isTrue h => rw [h]
  case isFalse => rfl

/-- A canonical register file is unchanged by writing what a register reads. -/
theorem State.setReg_reg_self {s : State} (o : Nat) (h : s.RegsCanonical) : s.setReg o (s.reg o) = s :=
  congrArg (fun r => ({ s with regs := r } : State)) (Sparse.set_get_self resetWord s.regs o h)

/-- The pins and shown bits that agree with their rules stay as they are when a command is closed. -/
theorem State.settle_of_agree {s : State} (hp : s.PinsAgree) (hc : s.RegsCanonical) : s.settle = s := by
  obtain ⟨hva, hgen, h0, h1, h2, h3, hsh⟩ := hp
  have hpins : ({ s with pins := { s.pins with va := s.vaLevel, genLow := !s.fc.running || s.genHeld } } : State) = s := by
    rw [← hva, ← hgen]
  have hst : setBitAt (setBitAt (setBitAt (setBitAt (s.reg Reg.fcStatus) 0 (!s.fc.running || s.genHeld)) 1 (s.vaLevel == .low)) 2
      (!s.fc.shadows.isEmpty)) 3 (s.bitVecGet Reg.fcFsw 255) = s.reg Reg.fcStatus := by
    rw [← hgen, ← hva, ← h0, ← h1, ← h2, ← h3]
    simp only [State.bit, setBitAt_bitAt_self _ (show 0 < 32 by decide), setBitAt_bitAt_self _ (show 1 < 32 by decide),
      setBitAt_bitAt_self _ (show 2 < 32 by decide), setBitAt_bitAt_self _ (show 3 < 32 by decide)]
  simp only [State.settle, hpins, hst, ← hsh, State.setReg_reg_self _ hc]

/-- A command without an effect of its own leaves a quiet state in which the pins agree as it found it. -/
theorem closed_self {s : State} (hq : s.fc.queue = []) (hp : s.PinsAgree) (hc : s.RegsCanonical) : s.closed s = s := by
  rw [closed_of_quiet s s hq, State.settle_of_agree hp hc]

/-- Settles O51: a held controller gives the command no effect of its own, and closing it leaves the state. -/
theorem heldController : Obligations.HeldController := by
  unfold Obligations.HeldController
  refine ⟨does_held, fun i s hs hi hq hp hc => ?_⟩
  have h : exec i s = .next (s.closed s) := does_held i s hs hi
  rw [h, closed_self hq hp hc]

end Sys2Proof.Machine
end

section
/-! Proofs: boot (O41). The end of the training window; what the ROM demands of a firmware image and what it does with one; the
lane-defaults memory. -/

namespace Sys2Proof.Machine

/-! ### The end of the training window (R20, R538) -/

theorem does_linkTrainingWindowEnd_late {ps : List TileProbe} {s : State} (hrun : s.hold = .run)
    (hst : 3 ≤ s.getF Reg.coreBootStatus 31 24) : Does (.linkTrainingWindowEnd ps) s s := by
  refine does_of_run _ (by rw [arm_linkTrainingWindowEnd, execLinkTrainingWindowEnd]) hrun ?_
  exact if_pos hst

/-- With no trained link and no warm-up strapped, boot goes on at once. -/
theorem does_linkTrainingWindowEnd_nil {s t : State} (hrun : s.hold = .run) (hst : s.getF Reg.coreBootStatus 31 24 < 3)
    (ht : t = s.otpTouch 0 2048) (hp : t.presentTiles = []) (hw : t.wup = false) :
    Does (.linkTrainingWindowEnd []) s (t.putF Reg.coreBootStatus 31 24 (if t.straps.bootSrc = 3#2 then 7 else 4)) := by
  subst ht
  refine does_of_run _ (by rw [arm_linkTrainingWindowEnd, execLinkTrainingWindowEnd]) hrun ?_
  simp only [if_neg (Nat.not_le.mpr hst), List.foldl_nil, hp, hw, Bool.false_eq_true, if_false]

/-- One trained port is marked present and checked, and the TILE_SAFE_n of the present tiles is released. -/
theorem does_linkTrainingWindowEnd_one {p : TileProbe} {s t u : State} {a : State × Bool} (hrun : s.hold = .run)
    (hst : s.getF Reg.coreBootStatus 31 24 < 3) (ht : t = (s.otpTouch 0 2048).markPresent p) (ha : a = t.tileCheck p)
    (hu : u = a.1.presentTiles.foldl (fun s t => s.tileSafeOff t) a.1) (hw : u.wup = false) :
    Does (.linkTrainingWindowEnd [p]) s (u.putF Reg.coreBootStatus 31 24 (if u.straps.bootSrc = 3#2 then 7 else 4)) := by
  subst ht ha hu
  refine does_of_run _ (by rw [arm_linkTrainingWindowEnd, execLinkTrainingWindowEnd]) hrun ?_
  simp only [if_neg (Nat.not_le.mpr hst), List.foldl_cons, List.foldl_nil, hw, Bool.false_eq_true, if_false]

/-- A port marked present shows its identification and offset, and its tile is present. -/
theorem State.markPresent_shows (s : State) (p : TileProbe) :
    (s.markPresent p).reg (Reg.tlTileId p.tile.val) = p.id ∧
    (s.markPresent p).reg (Reg.tlPresOfs p.tile.val) = BitVec.ofNat 32 p.ofs.toNat ∧ (s.markPresent p).present p.tile.val = true := by
  have hid : Reg.tlTileId p.tile.val ≠ Reg.tlPresOfs p.tile.val := by simp only [Reg.tlTileId, Reg.tlPresOfs]; omega
  have hlink : Reg.tlLinkStatus p.tile.val ≠ Reg.tlPresOfs p.tile.val := by simp only [Reg.tlLinkStatus, Reg.tlPresOfs]; omega
  have hlink' : Reg.tlLinkStatus p.tile.val ≠ Reg.tlTileId p.tile.val := by simp only [Reg.tlLinkStatus, Reg.tlTileId]; omega
  have hset : ∀ (u : State) (h : TileH) (o : Nat), (u.setTile p.tile.val h).reg o = u.reg o := fun u h o =>
    State.reg_congr (u.setTile_regs _ h) o
  unfold State.markPresent
  refine ⟨?_, ?_, ?_⟩
  · rw [hset, State.reg_setReg_ne _ _ _ _ hid, State.reg_setReg_same]
  · rw [hset, State.reg_setReg_same]
  · rw [State.present, State.bit, hset, State.reg_setReg_ne _ _ _ _ hlink, State.reg_setReg_ne _ _ _ _ hlink']
    simp [State.reg_setBit]

/-! ### Firmware images (R529 to R531, R551) -/

/-- What holds of an image that the ROM accepts. -/
theorem State.accepts_of_fwRefusal_eq_none {s : State} {bs : List Byte} (h : s.fwRefusal true bs = none) :
    fwFormed (s.getF Reg.mxCsramSsv 20 0) bs = true ∧ bs.length = fwLength bs ∧ s.fwMinVer ≤ leAt bs 8 4 ∧
    (fwSigned bs = false → bitAt (s.otpWord 2) 0 = false) ∧
    (fwSigned bs = true → s.fwKeyOk bs = true ∧
      ecdsa384 ((bs.drop 64).take 96) ((bs.drop 160).take 96) (bs.take 160 ++ bs.drop 256) = true) := by
  unfold State.fwRefusal at h
  split_ifs at h with _ hform hlen hunsigned hkey hsig hver
  refine ⟨by simpa using hform, by simpa using hlen, Nat.not_lt.mp hver, fun hs => ?_, fun hs => ⟨?_, ?_⟩⟩
  · simpa [hs] using hunsigned
  · simpa [hs] using hkey
  · simpa [hs] using hsig

/-- The first image of one flash, accepted, boots. -/
theorem does_firmwareBoot_accepted {img : FwImage} {s t : State} (hrun : s.hold = .run)
    (hst : s.getF Reg.coreBootStatus 31 24 = 4) (hsrc : s.straps.bootSrc = 0#2) (hk : img.which.val = 0) (hok : img.readOk = true)
    (ht : t = s.fwOtp.corePend 4 6) (hacc : t.fwRefusal true img.bytes = none) :
    Does (.firmwareBoot img) s (t.fwBoot img.bytes 0) := by
  subst ht
  refine does_of_run _ (by rw [arm_firmwareBoot, execFirmwareBoot]) hrun ?_
  simp [hst, hsrc, hk, hok, hacc]

/-- A refused image of one flash raises 0x01 with the reason; the next is tried, and after the second the service loop is entered. -/
theorem does_firmwareBoot_refused {img : FwImage} {s t u : State} {r : Nat} (hrun : s.hold = .run)
    (hst : s.getF Reg.coreBootStatus 31 24 = 4 ∨ s.getF Reg.coreBootStatus 31 24 = 5) (hsrc : s.straps.bootSrc = 0#2)
    (hk : img.which.val < 2) (hok : img.readOk = true) (ht : t = s.fwOtp.corePend 4 6) (href : t.fwRefusal true img.bytes = some r)
    (hu : u = (t.fwRefused r).putF Reg.coreBootStatus 31 24 5) :
    Does (.firmwareBoot img) s
      (if img.which.val = 0 then u else (u.putF Reg.coreBootStatus 31 24 7).emit 229 0x03 (syn16 0x03 0 0)) := by
  subst ht hu
  refine does_of_run _ (by rw [arm_firmwareBoot, execFirmwareBoot]) hrun ?_
  have hstage : ¬ (s.getF Reg.coreBootStatus 31 24 ≠ 4 ∧ s.getF Reg.coreBootStatus 31 24 ≠ 5) := by omega
  have hnext : img.which.val + 1 < 2 ↔ img.which.val = 0 := by omega
  simp [hstage, hsrc, hok, href, hnext, Nat.not_le.mpr hk]

/-- In the service loop GO boots the image in the vat (R536). -/
theorem does_coreHostbootGo_boot {m : Master} {v : Word} {s t u : State} {bs : List Byte} (hrun : s.hold = .run)
    (hmay : s.may m Reg.coreHostboot = true) (ht : t = s.rawWrite Reg.coreHostboot (setBitAt v 31 false)) (hgo : bitAt v 31 = true)
    (hst : t.getF Reg.coreBootStatus 31 24 = 7)
    (hbs : bs = t.vatBytes (t.getF Reg.coreHostboot 26 0) (t.getF Reg.coreHostbootLen 20 0))
    (hu : u = (t.vatTouch .ssv (t.getF Reg.coreHostboot 26 0) (t.getF Reg.coreHostbootLen 20 0)).fwOtp)
    (hacc : u.fwRefusal true bs = none) : Does (.coreHostbootGo m v) s (u.fwBoot bs 2) := by
  subst ht hu hbs
  refine does_of_run _ (by rw [arm_coreHostbootGo, execCoreHostbootGo]) hrun ?_
  rw [State.gated_of_may _ hmay]
  simp [hgo, hst, hacc]

/-- Without GO the write is a plain one. -/
theorem does_coreHostbootGo_plain {m : Master} {v : Word} {s : State} (hrun : s.hold = .run)
    (hmay : s.may m Reg.coreHostboot = true) (hgo : bitAt v 31 = false) :
    Does (.coreHostbootGo m v) s (s.rawWrite Reg.coreHostboot (setBitAt v 31 false)) := by
  refine does_of_run _ (by rw [arm_coreHostbootGo, execCoreHostbootGo]) hrun ?_
  rw [State.gated_of_may _ hmay]
  exact if_pos (.inl (by rw [hgo]; rfl))

/-! ### The lane-defaults memory (R540, R541) -/

theorem State.ssvOnly_of_ne {s : State} {m : Master} (f : State → State) (h : m ≠ .ssv) : s.ssvOnly m f = s := if_neg h

theorem does_tlDefCommit_other {m : Master} {t : Fin 16} {v : Word} {s : State} (hrun : s.hold = .run) (hm : m ≠ .ssv) :
    Does (.tlDefCommit m t v) s s := by
  refine does_of_run _ (by rw [arm_tlDefCommit, execTlDefCommit]) hrun ?_
  exact State.ssvOnly_of_ne _ hm

theorem does_tlDefCommit_ssv {t : Fin 16} {v : Word} {s : State} (hrun : s.hold = .run) (hv : bitAt v 0 = true)
    (hidle : s.bit (Reg.tlDefCtrl t.val) 1 = false) :
    Does (.tlDefCommit .ssv t v) s ((s.setBit (Reg.tlDefCtrl t.val) 1 true).setBit (Reg.tlDefCtrl t.val) 2 false) :=
  does_of_run _ (by rw [arm_tlDefCommit, execTlDefCommit]) hrun (by simp [State.ssvOnly, hv, hidle])

/-- A commit under way ends with the image stored where it is sound, and otherwise with CRC_BAD. -/
theorem does_tlDefStoreDone {t : Fin 16} {s u : State} {img : List Byte} (hrun : s.hold = .run)
    (hbusy : s.bit (Reg.tlDefCtrl t.val) 1 = true)
    (himg : img = (List.range 64).flatMap (fun w => leBytes 4 (s.reg (Reg.tlDef t.val w)).toNat))
    (hu : u = s.setBit (Reg.tlDefCtrl t.val) 1 false) :
    Does (.tlDefStoreDone t) s
      (if defsStorable img then u.setTile t.val { u.tileAt t.val with defs := img } else u.setBit (Reg.tlDefCtrl t.val) 2 true) := by
  subst himg hu
  refine does_of_run _ (by rw [arm_tlDefStoreDone, execTlDefStoreDone]) hrun ?_
  simp only [hbusy, Bool.not_true, Bool.false_eq_true, if_false]

/-- Settles O41: each clause is what one command of boot does in the state it names. -/
theorem boot : Obligations.Boot := by
  unfold Obligations.Boot
  refine ⟨fun ps s => does_linkTrainingWindowEnd_late, fun s t => does_linkTrainingWindowEnd_nil,
    fun p s t u a hrun hst ht ha hu hw hsrc => ?checked, fun p s t ht => ht ▸ s.markPresent_shows p,
    fun img s t => does_firmwareBoot_accepted, fun img s t r hrun hst hsrc hk hok ht href => ?first,
    fun img s t r hrun hst hsrc hk hok ht href => ?last, fun s bs => State.accepts_of_fwRefusal_eq_none,
    fun m v s t u a n bs hrun hmay ht hgo hst ha hn hbs hu hacc => ?host, fun m v s t hrun hmay ht hgo => ?noGo,
    fun m t v s => does_tlDefCommit_other, fun t v s => does_tlDefCommit_ssv,
    fun t s u img hrun hbusy himg hgood hu => ?stored, fun t s img hrun hbusy himg hbad => ?crcBad⟩
  case checked => simpa [hsrc] using does_linkTrainingWindowEnd_one hrun hst ht ha hu hw
  case first =>
    have h := does_firmwareBoot_refused hrun (.inl hst) hsrc (by omega) hok ht href rfl
    rwa [if_pos hk] at h
  case last =>
    have h := does_firmwareBoot_refused hrun (.inr hst) hsrc (by omega) hok ht href rfl
    rwa [if_neg (by omega)] at h
  case host =>
    subst ha hn
    exact does_coreHostbootGo_boot hrun hmay ht hgo hst hbs hu hacc
  case noGo => exact ht ▸ does_coreHostbootGo_plain hrun hmay hgo
  case stored =>
    have h := does_tlDefStoreDone hrun hbusy himg hu
    rwa [if_pos hgood] at h
  case crcBad =>
    have h := does_tlDefStoreDone hrun hbusy himg rfl
    rwa [if_neg (by simp [hbad])] at h

end Sys2Proof.Machine
end

section
/-! Proofs: the read of the pacer's time (O1). What a latch of some words leaves for the reading master and for the others. -/

namespace Sys2Proof.Machine

/-- After a latch a key reads `v`, where the latch gives it nothing else, and gives it `v` or leaves what reads `v`. -/
theorem Sparse.get_latched (key : Nat → Nat) (f : Nat → Word) (k : Nat) (v : Option Word) (offs : List Nat)
    (t : Sparse (Option Word)) (hf : ∀ o ∈ offs, key o = k → some (f o) = v) (h : k ∈ offs.map key ∨ Sparse.get none t k = v) :
    Sparse.get none (offs.foldl (fun t o => Sparse.set none t (key o) (some (f o))) t) k = v := by
  induction offs generalizing t with
  | nil => exact h.resolve_left (by simp)
  | cons o os ih =>
    refine ih _ (fun o' ho' => hf o' (List.mem_cons_of_mem _ ho')) ?_
    rw [Sparse.get_set]
    by_cases hk : k = key o
    · exact .inr ((if_pos hk).trans (hf o List.mem_cons_self hk.symm))
    · rw [if_neg hk]
      simpa [hk] using h

/-- A latched word reads as it stood, for the master it was latched for. -/
theorem State.latched_latchWords_same (s : State) (m : Master) (offs : List Nat) (f : Nat → Word) {off : Nat} (live : Word)
    (h : off ∈ offs) : (s.latchWords m offs f).latched m off live = f off := by
  have hget := Sparse.get_latched (latchKey m) f (latchKey m off) (some (f off)) offs s.latch
    (fun o _ ho => by rw [Nat.add_left_cancel ho]) (.inl (List.mem_map_of_mem h))
  simp only [State.latched, State.latchWords, hget, Option.getD_some]

/-- What a master with another code has latched stays, at every offset of BAR0. -/
theorem State.latched_latchWords_other (s : State) {m m' : Master} (offs : List Nat) (f : Nat → Word) {off : Nat} (live : Word)
    (hm : masterCode m' ≠ masterCode m) (hoff : off < 2 ^ 25) (hoffs : ∀ o ∈ offs, o < 2 ^ 25) :
    (s.latchWords m offs f).latched m' off live = s.latched m' off live := by
  have hne : ∀ o ∈ offs, latchKey m o ≠ latchKey m' off := fun o ho => by
    have := hoffs o ho
    unfold latchKey
    omega
  have hget := Sparse.get_latched (latchKey m) f (latchKey m' off) _ offs s.latch (fun o ho h => absurd h (hne o ho)) (.inr rfl)
  simp only [State.latched, State.latchWords, hget]

/-- Settles O1: the read latches the four words under the keys of its master. -/
theorem pacerSnapshot : Obligations.PacerSnapshot := by
  unfold Obligations.PacerSnapshot
  refine fun m s hrun => ⟨_, does_of_run _ (arm_pcrTimeLoRead m s) hrun rfl, rfl, fun live => ⟨?_, ?_, ?_, ?_⟩,
    fun m' off live hm hoff => s.latched_latchWords_other _ _ live hm hoff (by decide), rfl⟩ <;>
  exact s.latched_latchWords_same m _ _ live (by decide)

end Sys2Proof.Machine
end

section
/-! Proofs: the registers of the pacer (O2). What each of its writes does, by the range of the value and the state of the pacer. -/

namespace Sys2Proof.Machine

theorem does_of_gated {i : Instr} {s u : State} {m : Master} {off : Nat} (f : State → State)
    (hx : exec i s = act s fun s => s.gated m off f) (hrun : s.hold = .run) (hmay : s.may m off = true) (hf : f s = u) : Does i s u :=
  does_of_run _ hx hrun (by rw [State.gated_of_may f hmay, hf])

theorem clampInt_of_mem {lo hi v : Int} (hlo : lo ≤ v) (hhi : v ≤ hi) : clampInt lo hi v = v := by
  rw [clampInt, if_neg (Int.not_lt.mpr hlo), if_neg (Int.not_lt.mpr hhi)]

theorem clampInt_of_lt {lo hi v : Int} (h : v < lo) : clampInt lo hi v = lo := if_pos h

theorem clampInt_of_gt {lo hi v : Int} (hlo : lo ≤ hi) (h : hi < v) : clampInt lo hi v = hi := by
  rw [clampInt, if_neg (Int.not_lt.mpr (hlo.trans h.le)), if_pos h]

/-! ### The state of the pacer -/

/-- A new state of the pacer shows in `PCR_STATUS`. -/
theorem State.pcrSt_setPcrSt (s : State) {st : Nat} (h : st < 8) : (s.setPcrSt st).pcrSt = st :=
  (State.getF_putF_same _ _ 2 0 st (by decide) (by decide)).trans (Nat.mod_eq_of_lt h)

theorem State.reg_setPcrSt_ne (s : State) (st : Nat) {o : Nat} (h : o ≠ Reg.pcrStatus) : (s.setPcrSt st).reg o = s.reg o :=
  (State.reg_putF ..).trans (if_neg h)

/-- The source selected is a field of `PCR_CTRL`, which a write of another register leaves. -/
theorem State.discSrc_setBit (s : State) {o : Nat} (i : Nat) (b : Bool) (h : Reg.pcrCtrl ≠ o) : (s.setBit o i b).discSrc = s.discSrc :=
  congrArg (fld · 1 0) (State.reg_setReg_ne s o _ _ h)

/-! ### Writes of PCR_ADJ_FREQ and PCR_SLEW (R48, R52, R54) -/

/-- A frequency inside the limits is stored; outside them the limit is, with ADJ_CLAMP. -/
theorem State.adjFreqWrite_of_mem (s : State) {v : Word} (hlo : -fLimit ≤ v.toInt) (hhi : v.toInt ≤ fLimit) :
    s.adjFreqWrite v = s.setReg Reg.pcrAdjFreq v := by
  simp only [State.adjFreqWrite, clampInt_of_mem hlo hhi, BitVec.ofInt_toInt, if_true]

theorem State.adjFreqWrite_of_clamped (s : State) {v : Word} {f : Int} (hf : clampInt (-fLimit) fLimit v.toInt = f) (hne : f ≠ v.toInt) :
    s.adjFreqWrite v = (s.setReg Reg.pcrAdjFreq (BitVec.ofInt 32 f)).setBit Reg.pcrStatus 4 true := by
  simp only [State.adjFreqWrite, hf, if_neg hne]

/-! ### Writes of PCR_STEP_HI (R53, R55) -/

/-- A refused step sets STEP_REFUSED and raises event 0x06 with the source and the state of the pacer. -/
theorem State.stepRefused_eq (s : State) : s.stepRefused =
    (s.setBit Reg.pcrStatus 3 true).emit 194 0x06 (syn8 6 s.discSrc 0 (s.setBit Reg.pcrStatus 3 true).pcrSt) := by
  rw [State.stepRefused, State.pacerEvent, s.discSrc_setBit 3 true (by decide)]

theorem State.stepWrite_of_refused (s : State) (v : Word) (h : s.bit Reg.pcrCtrl 7 = false ∨ s.vaFlag = true) :
    s.stepWrite v = s.stepRefused := if_pos (by simpa using h)

/-- With no step pending the write arms one of the 64-bit value. -/
theorem State.stepWrite_of_armed (s : State) (v : Word) (hen : s.bit Reg.pcrCtrl 7 = true) (hva : s.vaFlag = false)
    (hnone : s.pacer.step = none) (hst : s.pcrSt ≠ pcHoldover) :
    s.stepWrite v =
      { (s.setReg Reg.pcrStepHi v).setPcrSt pcStepping with
        pacer := { s.pacer with step := some { value := v ++ s.reg Reg.pcrStepLo }, inSince := none, outSince := none } } := by
  simp only [State.stepWrite, hen, hva, hnone, if_neg hst, Bool.not_true, Bool.or_self, Bool.false_eq_true, if_false]
  rfl

/-! ### Offsets of the servo (R49, R51) -/

/-- An offset inside ±THRESH goes on with, or begins, the run inside the window; any other the run outside it. -/
theorem State.reportOffset_of_inside (s : State) {v : Word} (h : v.toInt.natAbs ≤ s.getF Reg.pcrLockCfg 15 0) :
    s.reportOffset v = State.setReg { s with pacer := { s.pacer with
      inSince := some (s.pacer.inSince.getD s.pacer.ns.toNat), outSince := none } } Reg.pcrServoOffset v := by
  simp only [State.reportOffset, if_pos h]

theorem State.reportOffset_of_outside (s : State) {v : Word} (h : s.getF Reg.pcrLockCfg 15 0 < v.toInt.natAbs) :
    s.reportOffset v = State.setReg { s with pacer := { s.pacer with
      inSince := none, outSince := some (s.pacer.outSince.getD s.pacer.ns.toNat) } } Reg.pcrServoOffset v := by
  simp only [State.reportOffset, if_neg (Nat.not_le.mpr h)]

/-- Settles O2: each clause is one case of the write it speaks of. -/
theorem pacerWrites : Obligations.PacerWrites := by
  unfold Obligations.PacerWrites
  refine ⟨fun m v s hrun hmay hlo hhi => ?inside, fun m v s hrun hmay hv => ?above, fun m v s hrun hmay hv => ?below,
    fun m v s hrun hmay hst => ?slew, fun m v s hrun hmay hst => ?pending, fun m v s hrun hmay h => ?refused,
    fun m v s hrun hmay hen hva hnone hst => ?armed, fun m v s u hrun hmay hu => ?servo,
    fun v s => s.reportOffset_of_inside, fun v s => s.reportOffset_of_outside⟩
  case inside => exact does_of_gated _ (arm_pcrAdjFreqWrite m v s) hrun hmay (s.adjFreqWrite_of_mem hlo hhi)
  case above =>
    exact does_of_gated _ (arm_pcrAdjFreqWrite m v s) hrun hmay
      (s.adjFreqWrite_of_clamped (clampInt_of_gt (by decide) hv) (Int.ne_of_lt hv))
  case below =>
    exact does_of_gated _ (arm_pcrAdjFreqWrite m v s) hrun hmay (s.adjFreqWrite_of_clamped (clampInt_of_lt hv) (Int.ne_of_gt hv))
  case slew => exact does_of_gated _ (arm_pcrSlewWrite m v s) hrun hmay (if_neg hst)
  case pending => exact does_of_gated _ (arm_pcrSlewWrite m v s) hrun hmay (if_pos hst)
  case refused =>
    exact does_of_gated _ (arm_pcrStepHiWrite m v s) hrun hmay ((s.stepWrite_of_refused v h).trans s.stepRefused_eq)
  case armed =>
    refine ⟨_, does_of_gated _ (arm_pcrStepHiWrite m v s) hrun hmay (s.stepWrite_of_armed v hen hva hnone hst), ?_, ?_, rfl,
      fun o hhi hst => ?_, rfl⟩
    · exact State.pcrSt_setPcrSt _ (by decide)
    · exact (State.reg_setPcrSt_ne _ _ (by decide)).trans (s.reg_setReg_same _ v)
    · exact (State.reg_setPcrSt_ne _ _ hst).trans (s.reg_setReg_ne _ v o hhi)
  case servo =>
    subst hu
    exact does_of_gated _ (arm_pcrServoOffsetWrite m v s) hrun hmay rfl

end Sys2Proof.Machine
end

section
/-! Proofs: the discipline of the pacer (O3). The evaluation of R51 by state and usability, and the 1PPS edge inside the window. -/

namespace Sys2Proof.Machine

/-! ### The evaluation (R51, R52) -/

theorem State.discipline_of_free (s : State) (hst : s.pcrSt = pcFree) (hok : s.discUsable = true) (hf : s.holdForce = false) :
    s.discipline = s.setPcrSt pcAcquire := by
  simp [State.discipline, hst, hok, hf]

/-- ACQUIRE and LOCKED go to HOLDOVER, with event 0x03, when the source is lost or HOLD_FORCE is set. -/
theorem State.discipline_of_lost (s : State) (hst : s.pcrSt = pcAcquire ∨ s.pcrSt = pcLocked)
    (h : s.discUsable = false ∨ s.holdForce = true) : s.discipline = s.enterHoldover.pacerEvent 0x03 0 := by
  have hfree : s.pcrSt ≠ pcFree := by rcases hst with h | h <;> rw [h] <;> decide
  have hok : (s.discUsable && !s.holdForce) = false := by rcases h with h | h <;> simp [h]
  simp only [State.discipline, if_neg hfree, if_pos hst, hok, Bool.false_eq_true, if_false]

theorem State.enterHoldover_pcrSt (s : State) : s.enterHoldover.pcrSt = pcHoldover := State.pcrSt_setPcrSt _ (by decide)

theorem State.discipline_of_holdover (s : State) (hst : s.pcrSt = pcHoldover) (hok : s.discUsable = true) (hf : s.holdForce = false) :
    s.discipline = s.leaveHoldover pcAcquire := by
  simp [State.discipline, hst, hok, hf]

/-! ### Runs of offsets (R51) -/

theorem State.ranLong_of_le {s : State} {since : Option Nat} {t : Nat} (ht : since = some t)
    (h : t + s.getF Reg.pcrLockCfg 23 16 * 1000000000 ≤ s.pacer.ns.toNat) : s.ranLong since = true := by
  simpa [State.ranLong, ht] using h

/-! ### The 1PPS edge (R49, R50) -/

/-- The lock window is a field of `PCR_LOCK_CFG`, which counting a second and reporting an offset leave. -/
theorem State.getF_lockCfg_set64 (s : State) (v : Nat) :
    (s.set64 Reg.pcrRefSecLo Reg.pcrRefSecHi v).getF Reg.pcrLockCfg 15 0 = s.getF Reg.pcrLockCfg 15 0 := by
  simp only [State.getF, State.set64, State.reg_setReg_ne _ _ _ _ (show Reg.pcrLockCfg ≠ Reg.pcrRefSecHi by decide),
    State.reg_setReg_ne _ _ _ _ (show Reg.pcrLockCfg ≠ Reg.pcrRefSecLo by decide)]

theorem State.getF_lockCfg_reportOffset (s : State) (v : Word) :
    (s.reportOffset v).getF Reg.pcrLockCfg 15 0 = s.getF Reg.pcrLockCfg 15 0 := by
  rw [State.getF, State.reportOffset, State.reg_setReg_ne _ _ _ _ (by decide)]
  rfl

/-- On the reference input an edge inside the window is reported and slewed out, and makes 1PPS usable. -/
theorem State.ppsEdge_of_inside {off : Word} {s u : State} (hsrc : s.discSrc = 3) (hoff : off.toInt.natAbs ≤ s.getF Reg.pcrLockCfg 15 0)
    (hu : u = (s.set64 Reg.pcrRefSecLo Reg.pcrRefSecHi
      ((s.get64 Reg.pcrRefSecLo Reg.pcrRefSecHi + 1) % 0x1000000000000)).reportOffset off) :
    s.ppsEdge off =
      ((State.setBit { u with pacer := { u.pacer with ppsBad := 0 } } Reg.pcrStatus 6 true).addSlew (-off.toInt)).discipline := by
  have hin : ¬ u.getF Reg.pcrLockCfg 15 0 < off.toInt.natAbs := by
    rw [hu, State.getF_lockCfg_reportOffset, State.getF_lockCfg_set64]
    exact Nat.not_lt.mpr hoff
  simp only [State.ppsEdge, hsrc, beq_self_eq_true, if_true, ← hu, if_neg hin]

/-! ### Writes of PCR_CTRL (R50, R51) -/

/-- A change of the source in LOCKED leads to ACQUIRE, PTP waiting for a fresh offset. -/
theorem State.pcrCtrlWrite_of_change {v : Word} {s u : State} (hu : u = s.rawWrite Reg.pcrCtrl v) (hsrc : u.discSrc ≠ s.discSrc)
    (hst : u.pcrSt = pcLocked) : s.pcrCtrlWrite v =
      (State.setPcrSt { u with pacer := { u.pacer with ptpSince := false } } pcAcquire).discipline := by
  have hst' : State.pcrSt { u with pacer := { u.pacer with ptpSince := false } } = pcLocked := hst
  simp only [State.pcrCtrlWrite, ← hu, if_neg hsrc, if_pos hst']

theorem State.pcrCtrlWrite_of_same {v : Word} {s u : State} (hu : u = s.rawWrite Reg.pcrCtrl v) (hsrc : u.discSrc = s.discSrc) :
    s.pcrCtrlWrite v = u.discipline := by
  simp only [State.pcrCtrlWrite, ← hu, if_pos hsrc]

/-- Settles O3: each event by its condition, and the evaluation by the state it finds. -/
theorem pacerDiscipline : Obligations.PacerDiscipline := by
  unfold Obligations.PacerDiscipline
  refine ⟨fun t s hrun hst ht hlong => ?gained, fun t s hrun hst ht hlong => ?lost, fun s hrun hst => ?limit,
    fun s hrun => ?refLost, fun s hrun => ?refBack, fun s hrun => ?ppsLost, fun s hrun hwd => ?watchdog,
    fun off s u hrun hsrc hoff hu => ?edge, fun m v s u hrun hmay hu hsrc hst => ?source, fun m on s u hrun hmay hu hsrc => ?force,
    fun s => s.discipline_of_free, fun s hst h => ?holdover, fun s => s.discipline_of_holdover⟩
  case gained => exact does_of_run _ (arm_lockGained s) hrun (if_pos ⟨hst, State.ranLong_of_le ht hlong⟩)
  case lost => exact does_of_run _ (arm_lockLost s) hrun (if_pos ⟨hst, State.ranLong_of_le ht hlong⟩)
  case limit => exact does_of_run _ (arm_holdoverLimitReached s) hrun (if_pos hst)
  case refLost => exact does_of_run _ (arm_ref10mLoss s) hrun rfl
  case refBack => exact does_of_run _ (arm_ref10mReturn s) hrun rfl
  case ppsLost => exact does_of_run _ (arm_ref1ppsTimeout s) hrun rfl
  case watchdog => exact does_of_run _ (arm_servoWatchdogExpiry s) hrun (if_neg hwd)
  case edge => exact does_of_run _ (arm_ref1ppsEdge off s) hrun (State.ppsEdge_of_inside hsrc hoff hu)
  case source => exact does_of_gated _ (arm_discSrcChange m v s) hrun hmay (State.pcrCtrlWrite_of_change hu hsrc hst)
  case force => exact does_of_gated _ (arm_holdForce m on s) hrun hmay (State.pcrCtrlWrite_of_same hu hsrc)
  case holdover =>
    rw [s.discipline_of_lost hst h]
    exact ⟨(State.emit_getF ..).trans s.enterHoldover_pcrSt, congrArg PacerH.frozen (State.emit_pacer ..)⟩

end Sys2Proof.Machine
end

section
/-! Proofs: the arithmetic of the pacer and the step of an empty queue (O48). -/

namespace Sys2Proof.Machine

/-! ### Cycles of the undisciplined pacer (R44, R45) -/

/-- No slew is outstanding, and the frequency is adjusted neither by what is frozen nor by what is written. -/
structure State.Undisciplined (s : State) : Prop where
  slew : s.pacer.slew = 0
  frozen : s.pacer.frozen = 0
  adj : s.adjFreq = 0

theorem State.slewRate_nonneg (s : State) : 0 ≤ s.slewRate := Int.natCast_nonneg _

/-- The undisciplined pacer runs at its nominal frequency, in HOLDOVER and outside it. -/
theorem State.Undisciplined.pacerF {s : State} (h : s.Undisciplined) : s.pacerF = (0, 0, false) := by
  have hrate := s.slewRate_nonneg
  have hslew : clampInt (-s.slewRate) s.slewRate 0 = 0 := clampInt_of_mem (by omega) hrate
  have hf : clampInt (-fLimit) fLimit 0 = 0 := clampInt_of_mem (by decide) (by decide)
  unfold State.pacerF
  split
  · rw [h.frozen]
  · simp [h.adj, h.slew, hslew, hf]

/-- At the nominal frequency a cycle adds 1 ns. -/
theorem pacerInc_zero : pacerInc 0 = 2 ^ 32 := by
  have hq : (2 ^ 32 : Rat) + (2 ^ 32 : Rat) * 0 / 1000000000000 = ((2 ^ 32 : Int) : Rat) := by norm_num
  simp only [pacerInc, hq, Rat.floor_intCast, if_true]
  rfl

/-- `k` cycles of the undisciplined pacer add `k` ns and leave all else. -/
theorem State.Undisciplined.pacerCycles {s : State} (h : s.Undisciplined) (k : Nat) :
    s.pacerCycles k = { s with pacer := { s.pacer with ns := s.pacer.ns + BitVec.ofNat 64 k } } := by
  have hfrac := s.pacer.frac.isLt
  have hns : BitVec.ofNat 64 ((s.pacerVal + k * 2 ^ 32) / 2 ^ 32) = s.pacer.ns + BitVec.ofNat 64 k := by
    rw [show (s.pacerVal + k * 2 ^ 32) / 2 ^ 32 = s.pacer.ns.toNat + k by unfold State.pacerVal; omega, BitVec.ofNat_add,
      BitVec.ofNat_toNat, BitVec.setWidth_eq]
  have hfr : BitVec.ofNat 32 (s.pacerVal + k * 2 ^ 32) = s.pacer.frac := by
    apply BitVec.eq_of_toNat_eq
    rw [BitVec.toNat_ofNat]
    unfold State.pacerVal
    omega
  simp only [State.pacerCycles, h.pacerF, pacerInc_zero, hns, hfr, mul_zero, sub_zero, Bool.false_eq_true, if_false]

/-- While the count does not overflow it is `k` higher after `k` cycles. -/
theorem State.Undisciplined.toNat_ns_pacerCycles {s : State} (h : s.Undisciplined) {k : Nat} (hk : s.pacer.ns.toNat + k < 2 ^ 64) :
    (s.pacerCycles k).pacer.ns.toNat = s.pacer.ns.toNat + k := by
  rw [h.pacerCycles, BitVec.toNat_add, BitVec.toNat_ofNat]
  omega

/-! ### An empty queue (R46) -/

theorem step_of_empty {s : State} (h : s.pending = []) : step s = .next s.idle := by
  rw [step, h]

theorem State.idle_of_held {s : State} (h : s.hold ≠ .run) : s.idle = s := if_neg h

theorem State.idle_of_run {s : State} (h : s.hold = .run) : s.idle = if (s.pacerCycles 1).heat = s.heat then s.pacerCycles 1 else s :=
  if_pos h

/-- Settles O48: an empty queue is one cycle, kept where it stays in the heat. -/
theorem idleStep : Obligations.IdleStep := by
  unfold Obligations.IdleStep
  refine ⟨fun s hp hh => ?_, fun s hp hrun hheat => ?_, fun s hp hrun hheat => ?_, fun s hslew hfrozen hadj hlt => ?_, fun s => rfl⟩
  · rw [step_of_empty hp, State.idle_of_held hh]
  · rw [step_of_empty hp, State.idle_of_run hrun, if_pos hheat]
  · rw [step_of_empty hp, State.idle_of_run hrun, if_neg hheat]
  · have h : s.Undisciplined := ⟨hslew, hfrozen, hadj⟩
    exact ⟨h.toNat_ns_pacerCycles hlt, by rw [h.pacerCycles]⟩

end Sys2Proof.Machine
end

section
/-! Proofs: the pacer from an engine reset (O52). What an engine reset leaves in the registers and lanes, and that the tiles left on
their own touch nothing of the pacer. -/

namespace Sys2Proof.Machine

/-! ### Tables that a reset cuts down -/

/-- What a cut of a table does not keep reads the default. -/
theorem Sparse.get_filter_of_not_kept {α : Type} (d : α) (m : Sparse α) (keep : Nat → Bool) {k : Nat} (h : keep k = false) :
    Sparse.get d (m.filter fun p => keep p.1) k = d := by
  induction m with
  | nil => rfl
  | cons p m ih =>
    obtain ⟨i, a⟩ := p
    by_cases hi : keep i = true
    · have hne : k ≠ i := fun he => by simp [he ▸ h] at hi
      simpa [List.filter_cons_of_pos, hi, Sparse.get, hne] using ih
    · simpa [List.filter_cons_of_neg, hi] using ih

/-- What holds of the default and of every listed value holds of what an index reads. -/
theorem Sparse.get_of_forall {α : Type} {P : α → Prop} {d : α} (m : Sparse α) (hd : P d) (h : ∀ p ∈ m, P p.2) (k : Nat) :
    P (Sparse.get d m k) := by
  induction m with
  | nil => exact hd
  | cons p m ih =>
    obtain ⟨i, a⟩ := p
    rw [Sparse.get]
    split
    · exact h (i, a) List.mem_cons_self
    · exact ih fun q hq => h q (List.mem_cons_of_mem _ hq)

/-! ### Loops -/

/-- A loop keeps what each of its rounds keeps. -/
theorem foldl_keeps {σ ι : Type} {P : σ → Prop} {f : σ → ι → σ} {l : List ι} {s : σ} (hf : ∀ i ∈ l, ∀ s, P s → P (f s i))
    (h : P s) : P (l.foldl f s) := by
  induction l generalizing s with
  | nil => exact h
  | cons i l ih => exact ih (fun j hj => hf j (List.mem_cons_of_mem _ hj)) (hf i List.mem_cons_self s h)

theorem forUpto_keeps {σ : Type} {P : σ → Prop} {n : Nat} {f : Nat → σ → σ} {s : σ} (hf : ∀ i < n, ∀ s, P s → P (f i s))
    (h : P s) : P (forUpto n f s) :=
  foldl_keeps (fun i hi => hf i (List.mem_range.mp hi)) h

/-! ### A pacer in reset -/

/-- The pacer and the registers of its block (R556) are as after power-on, and no lane has a command under way. -/
structure State.PacerInReset (s : State) : Prop where
  pacer : s.pacer = {}
  reg : ∀ o, 0x20000 ≤ o → o < 0x30000 → s.reg o = resetWord o
  cmd : ∀ n, (s.laneAt n).cmd = none

theorem State.PacerInReset.setReg {s : State} (h : s.PacerInReset) {o : Nat} (v : Word) (ho : o < 0x20000 ∨ 0x30000 ≤ o) :
    (s.setReg o v).PacerInReset :=
  ⟨h.pacer, fun r hlo hhi => (s.reg_setReg_ne o v r (by omega)).trans (h.reg r hlo hhi), h.cmd⟩

theorem State.PacerInReset.setLane {s : State} (h : s.PacerInReset) (n : Nat) {l : LaneH} (hl : l.cmd = none) :
    (s.setLane n l).PacerInReset :=
  ⟨h.pacer, h.reg, fun k => by
    rw [State.laneAt, State.setLane, Sparse.get_set]
    split
    · exact hl
    · exact h.cmd k⟩

/-! ### The tiles on their own -/

theorem le_laneReg (n : Nat) : 0x30000 ≤ laneReg n := by
  simp only [laneReg, Reg.tlLaneState]
  omega

/-- A lane without a command has none to complete when it is cut. -/
theorem State.PacerInReset.laneCut {s : State} (h : s.PacerInReset) (n : Nat) : (s.laneCut n).PacerInReset := by
  simp only [State.laneCut, h.cmd n]
  exact h.setLane n rfl

theorem State.PacerInReset.laneStep {s : State} (h : s.PacerInReset) (code n : Nat) : (s.laneStep code n).PacerInReset := by
  have hput : ∀ {u : State} (hi lo v : Nat), u.PacerInReset → (u.putF (laneReg n) hi lo v).PacerInReset :=
    fun hi lo v hu => hu.setReg _ (.inr (le_laneReg n))
  have hcnt : 0x30000 ≤ Reg.tlLaneSafeCnt (n / 8) (n % 8) := by
    simp only [Reg.tlLaneSafeCnt]
    omega
  unfold State.laneStep
  extract_lets st hold nx u w
  have hu : u.PacerInReset := hput 2 0 nx h
  have hw : w.PacerInReset := by
    unfold w
    split
    · exact hput 15 8 code (hu.setReg _ (.inr hcnt))
    · exact hu
  split_ifs
  · exact h
  · exact hw.setLane n (hw.cmd n)
  · exact hw.laneCut n
  · exact hw

theorem State.PacerInReset.setHold {s : State} (h : s.PacerInReset) (n c : Nat) (b : Bool) (code : Nat) :
    (s.setHold n c b code).PacerInReset :=
  foldl_keeps (fun k _ _ hu => hu.laneStep code k) (h.setReg _ (.inr (le_laneReg n)))

theorem State.PacerInReset.tileEval {s : State} (h : s.PacerInReset) (t code : Nat) : (s.tileEval t code).PacerInReset :=
  forUpto_keeps (fun l _ _ hu => hu.laneStep code (t * 8 + l)) h

theorem State.PacerInReset.tilesAlone {s : State} (h : s.PacerInReset) : s.tilesAlone.PacerInReset := by
  have hlink : ∀ t, 0x30000 ≤ Reg.tlLinkStatus t := fun t => by
    simp only [Reg.tlLinkStatus]
    omega
  refine forUpto_keeps (fun t _ s hs => ?_) h
  refine State.PacerInReset.setReg (.tileEval (forUpto_keeps (fun l _ u hu => ?_) (hs.setReg _ (.inr (hlink t)))) t 0) _ (.inr (hlink t))
  exact ((hu.setReg _ (.inr (le_laneReg _))).setReg _ (.inr (le_laneReg _))).setHold _ hcMute false 0

/-! ### The engine reset (R539) -/

/-- A reset that keeps nothing of the pacer's block leaves the pacer in reset. -/
theorem State.blocksReset_pacerInReset (s : State) (keep : Nat → Bool) (hkeep : ∀ o, 0x20000 ≤ o → o < 0x30000 → keep o = false) :
    (s.blocksReset keep).PacerInReset := by
  unfold State.blocksReset
  extract_lets u b b' b''
  have hcmd : ∀ n, (b'.laneAt n).cmd = none :=
    Sparse.get_of_forall (P := fun l : LaneH => l.cmd = none) b'.lanes rfl fun p hp => by
      obtain ⟨q, -, rfl⟩ := List.mem_map.mp (List.mem_filter.mp hp).1
      rfl
  have hb' : b'.PacerInReset := ⟨rfl, fun o hlo hhi => Sparse.get_filter_of_not_kept _ _ keep (hkeep o hlo hhi), hcmd⟩
  refine State.PacerInReset.tilesAlone (forUpto_keeps (fun p hp v hv => ?_) hb')
  exact hv.setReg _ (.inl (by simp only [Reg.hpStatus]; omega))

/-- None of the registers that an engine reset keeps is the pacer's (R481, R539). -/
theorem engineReset_keeps_no_pacer {o : Nat} (hlo : 0x20000 ≤ o) (hhi : o < 0x30000) : (resetKeeps o || fcKeeps o) = false := by
  simp only [resetKeeps, fcKeeps, inTiles, Bool.or_eq_false_iff, Bool.and_eq_false_iff, beq_eq_false_iff_ne, decide_eq_false_iff_not,
    Reg.gblDevIdLo, Reg.gblDevIdHi, Reg.gblStraps, Reg.gblResetInfo, Reg.hpStatus, Reg.fcFsw, Reg.fcVasel, Reg.fcHoldva, Reg.fcHistLost,
    Reg.fcResetCause, Reg.fcStatus, Reg.fcHist, Reg.fcPf]
  omega

theorem State.PacerInReset.romStart {s : State} (h : s.PacerInReset) : s.romStart.PacerInReset := by
  unfold State.romStart
  extract_lets cfg mode strapped lpg ssv
  have hmode : mode.PacerInReset := h.setReg _ (.inl (by decide))
  have hstrapped : strapped.PacerInReset := hmode.setReg _ (.inl (by decide))
  have hlpg : lpg.PacerInReset := hstrapped.setReg _ (.inr (by decide))
  have hssv : ssv.PacerInReset := hlpg.setReg _ (.inr (by decide))
  have hboot := hssv.setReg (o := Reg.coreBootStatus) 0x02000300#32 (.inr (by decide))
  exact ⟨hboot.pacer, hboot.reg, hboot.cmd⟩

theorem State.PacerInReset.withFc {s : State} (h : s.PacerInReset) (fc : FcH) : State.PacerInReset { s with fc := fc } :=
  ⟨h.pacer, h.reg, h.cmd⟩

theorem State.engineReset_pacerInReset (s : State) : s.engineReset.PacerInReset := by
  have hb := s.tilesSafe.blocksReset_pacerInReset (fun off => resetKeeps off || fcKeeps off) fun o => engineReset_keeps_no_pacer
  exact ((hb.setReg (o := Reg.fcStatus) _ (.inl (by decide))).withFc _).romStart

/-- Settles O52: the pacer in reset, and the count of an undisciplined pacer. -/
theorem pacerFromReset : Obligations.PacerFromReset := by
  unfold Obligations.PacerFromReset
  refine ⟨fun s hrun hreq => ?reset, fun u k hns hfrac hslew hfrozen hadj hk => ?count,
    fun s h hheat hslew hfrozen hadj hfrac hlt => ?nextHeat⟩
  case reset =>
    obtain ⟨hp, hreg, -⟩ := s.engineReset_pacerInReset
    refine ⟨_, does_of_run _ (arm_engineReset s) hrun (if_pos hreq), congrArg PacerH.ns hp, congrArg PacerH.frac hp,
      congrArg PacerH.slew hp, congrArg PacerH.frozen hp, ?_, ?_, by rw [State.heat, hp]; rfl⟩
    · rw [State.adjFreq, hreg _ (by decide) (by decide)]
      decide
    · rw [State.pcrSt, State.getF, hreg _ (by decide) (by decide)]
      decide
  case count =>
    have hu : u.Undisciplined := ⟨hslew, hfrozen, hadj⟩
    have hcount : (u.pacerCycles k).pacer.ns = BitVec.ofNat 64 k := by rw [hu.pacerCycles, hns, BitVec.zero_add]
    refine ⟨hcount, by rw [hu.pacerCycles, hfrac], ?_⟩
    rw [State.heat, hcount, BitVec.toNat_ofNat, Nat.mod_eq_of_lt hk]
  case nextHeat =>
    have hs : s.Undisciplined := ⟨hslew, hfrozen, hadj⟩
    unfold State.heat at hheat
    rw [State.heat, hs.toNat_ns_pacerCycles (by omega)]
    omega

end Sys2Proof.Machine
end

section
/-! Proofs: heat boundaries and the sequence of a step (O4). -/

namespace Sys2Proof.Machine

/-! ### Heat boundaries (R55, R58) -/

theorem does_heatBoundary {c : List (List Bool)} {s u : State} (hrun : s.hold = .run) (hj : s.jumped = false)
    (hu : u = (s.pacerToHeat true).stepHeat) :
    Does (.heatBoundary c) s (if u.atJump then u.pdmHeat (bfShort ||| bfDisc ||| bfStep) c else u.heatStart c) := by
  subst hu
  exact does_of_run _ (arm_heatBoundary c s) hrun (if_neg (by rw [hj]; decide))

/-! ### The moves of a step (R55, R56) -/

/-- The jump of a step whose ramp-out ends, and what the machine timers make of the new time. -/
theorem does_stepJump {x : StepH} {s : State} (hrun : s.hold = .run) (hx : s.pacer.step = some x) (hph : x.phase = .rampOut)
    (hat : s.atJump = true) : Does .stepJump s (s.stepJump x).timersEval := by
  refine does_of_run _ (arm_stepJump s) hrun ?_
  simp only [hx, hph, hat, and_self, if_true]

theorem does_stepResume {x : StepH} {s u : State} (hrun : s.hold = .run) (hx : s.pacer.step = some x) (hph : x.phase = .jumped)
    (hwarm : x.warm = false) (hu : u = s.pacerToHeat false) :
    Does .stepResume s (State.heatStart
      { u with
        firstHeat := u.heat
        pacer := { u.pacer with step := some { x with phase := .rampIn, h0 := u.heat } }
        sched := u.sched.map fun e => e.regrid (e.desc.body.whenF == 0) u.heat
        groups := u.groups.map (GroupH.regrid u.heat) } []) := by
  subst hu
  refine does_of_run _ (arm_stepResume s) hrun ?_
  simp only [hx, hph, hwarm, ne_eq, not_true_eq_false, if_false, Bool.false_eq_true]

theorem does_stepApplied {x : StepH} {s : State} (hrun : s.hold = .run) (hx : s.pacer.step = some x) (hph : x.phase = .rampIn) :
    Does .stepApplied s s.stepDone := by
  refine does_of_run _ (arm_stepApplied s) hrun ?_
  simp only [hx, hph, if_true]

/-! ### Updates on the new grid (R56) -/

theorem Sched.regrid_now (e : Sched) (h : Nat) : (e.regrid true h).heat = h := Nat.max_self h

theorem Sched.regrid_of_le (e : Sched) {h : Nat} (hle : h ≤ e.asked) :
    (e.regrid false h).heat = e.asked ∧ (e.regrid false h).sample = e.askedSample :=
  ⟨Nat.max_eq_left hle, if_pos ⟨hle, by decide⟩⟩

theorem Sched.regrid_of_lt (e : Sched) {h : Nat} (hlt : e.asked < h) : (e.regrid false h).heat = h ∧ (e.regrid false h).sample = 0 :=
  ⟨Nat.max_eq_right hlt.le, if_neg fun hle => absurd hlt (Nat.not_lt.mpr hle.1)⟩

/-- Settles O4: the boundary by whether the step jumps there, each move of a step by its phase, and the move of an update by its time. -/
theorem heatsAndSteps : Obligations.HeatsAndSteps := by
  unfold Obligations.HeatsAndSteps
  refine ⟨fun c s hrun hj hat => ?heat, fun c s hrun hj hat => ?jumpHeat, fun x s => does_stepJump, fun x s u => does_stepResume,
    fun e h => ⟨e.regrid_now h, e.regrid_of_le, e.regrid_of_lt⟩, fun x s => does_stepApplied⟩
  case heat =>
    have h := does_heatBoundary (c := c) hrun hj rfl
    rwa [if_neg (by simp [hat])] at h
  case jumpHeat =>
    have h := does_heatBoundary (c := c) hrun hj rfl
    rwa [if_pos hat] at h

end Sys2Proof.Machine
end

section
/-! Proofs: the state after reset (O50). -/

namespace Sys2Proof.Machine

/-- Every register of the rings' block resets to zero (R434). -/
theorem resetWord_of_ring {off : Nat} (h : 0x200000 ≤ off) : resetWord off = 0#32 := by
  have hdbw : ¬ (off = Reg.hpDbw 0 0 ∨ off = Reg.hpDbw 1 0 ∨ off = Reg.hpDbw 2 0) := by
    simp only [Reg.hpDbw]
    omega
  have hb : blockSpecs off = regs14 := by
    have hlt : ∀ n, n ≤ 0x200000 → ¬ off < n := fun n hn => by omega
    simp [blockSpecs, hlt]
  have hzero : ∀ r ∈ regs14, r.row.reset = 0 := by decide
  rw [resetWord, if_neg hdbw, regRow, hb]
  cases hf : regs14.find? (·.hit off) with
  | none => rfl
  | some r => simp [hzero r (List.mem_of_find?_eq_some hf)]

theorem State.reset_ringEn (r : Nat) : State.reset.ringEn r = false := by
  have hreg : State.reset.reg (Reg.ringCfg r) = 0#32 := resetWord_of_ring (by simp only [Reg.ringCfg]; omega)
  rw [State.ringEn, State.bit, hreg]
  rfl

/-- Settles O50: the tables of the state after reset are empty, so that each register reads its reset value. -/
theorem atReset : Obligations.AtReset := by
  unfold Obligations.AtReset
  refine ⟨by decide, rfl, fun _ => rfl, rfl, rfl, State.reset_ringEn, fun _ => rfl, by decide, by decide, by decide, by decide,
    by decide⟩

end Sys2Proof.Machine
end

section
/-! Proofs: when a descriptor commits (O60). -/

namespace Sys2Proof.Machine

/-! ### Rounding up -/

theorem le_ceilDiv_mul (a : Nat) {b : Nat} (hb : 0 < b) : a ≤ ceilDiv a b * b := by
  have h := Nat.div_add_mod' (a + b - 1) b
  have hlt := Nat.mod_lt (a + b - 1) hb
  unfold ceilDiv
  omega

theorem ceilDiv_mul_lt (a : Nat) {b : Nat} (hb : 0 < b) : ceilDiv a b * b < a + b := by
  have h := Nat.div_add_mod' (a + b - 1) b
  unfold ceilDiv
  omega

/-- The sample found is the first at or after its time (R59, R60). -/
theorem sampleAt_spec {t h k : Nat} (hs : sampleAt t = (h, k)) :
    k < 48 ∧ t * 48 ≤ h * 48000000 + k * 1000000 ∧ h * 48000000 + k * 1000000 < t * 48 + 1000000 := by
  have hle := le_ceilDiv_mul (t * 48) (show 0 < 1000000 by decide)
  have hlt := ceilDiv_mul_lt (t * 48) (show 0 < 1000000 by decide)
  obtain ⟨rfl, rfl⟩ := Prod.mk.inj hs
  omega

/-! ### Commit heats by block (R176, R242, R449, R450) -/

theorem State.laneFirst_le_heat (s : State) : s.laneFirst ≤ s.heat := by
  unfold State.laneFirst
  split
  · exact Nat.sub_le _ _
  · exact Nat.le_refl _

/-- A heat still to come that is named is the commit heat, whatever the block. -/
theorem State.whenOf_of_named (s : State) {b : Blk} {c : Nat} (h : s.heat + 1 < c) (hb : b ≠ .now) :
    (s.whenOf b 1 c).heat = c ∧ (s.whenOf b 1 c).late = false ∧ (s.whenOf b 1 c).sample = 0 := by
  have hlane := s.laneFirst_le_heat
  cases b with
  | zone => simp [State.whenOf, show ¬ c < s.heat by omega]
  | lane => simp [State.whenOf, show ¬ c < s.laneFirst by omega]
  | port => simp [State.whenOf, show ¬ c < s.heat by omega, show c ≠ s.heat by omega]
  | other => simp [State.whenOf, show ¬ c ≤ s.heat by omega]
  | now => exact absurd rfl hb

theorem State.whenOf_other_of_past (s : State) {c : Nat} (h : c ≤ s.heat) :
    (s.whenOf .other 1 c).heat = s.heat + 1 ∧ (s.whenOf .other 1 c).late = true := by
  simp [State.whenOf, h]

theorem State.whenOf_zone_of_past (s : State) {c : Nat} (h : c < s.heat) :
    (s.whenOf .zone 1 c).heat = s.heat ∧ (s.whenOf .zone 1 c).sample = 0 ∧ (s.whenOf .zone 1 c).late = true := by
  simp [State.whenOf, h]

/-- A time still to come is rounded up to the first boundary at or after it. -/
theorem State.whenOf_other_of_time (s : State) {c : Nat} (h : s.heat * 1000000 < c) : (s.whenOf .other 2 c).late = false ∧
    c ≤ (s.whenOf .other 2 c).heat * 1000000 ∧ (s.whenOf .other 2 c).heat * 1000000 < c + 1000000 := by
  have hle := le_ceilDiv_mul c (show 0 < 1000000 by decide)
  have hlt := ceilDiv_mul_lt c (show 0 < 1000000 by decide)
  have hn : ¬ ceilDiv c 1000000 ≤ s.heat := by omega
  simpa [State.whenOf, hn] using ⟨hle, hlt⟩

/-- No lane update commits before the first heat a lane can still take, and a late one commits in it. -/
theorem State.whenOf_lane (s : State) (w c : Nat) : s.laneFirst ≤ (s.whenOf .lane w c).heat ∧
    ((s.whenOf .lane w c).late = true → (s.whenOf .lane w c).heat = s.laneFirst) := by
  unfold State.whenOf
  extract_lets h f a
  by_cases ha : a < f
  · rw [if_pos ha]
    exact ⟨Nat.le_refl _, fun _ => rfl⟩
  · rw [if_neg ha]
    exact ⟨Nat.not_lt.mp ha, fun h => nomatch h⟩

/-- Settles O60, by the block and by what the descriptor names. -/
theorem commitTimes : Obligations.CommitTimes := by
  unfold Obligations.CommitTimes
  refine ⟨fun s c => ?zone, fun s c => ?other, fun s b c => s.whenOf_of_named, fun s c => s.whenOf_other_of_past,
    fun s c => s.whenOf_zone_of_past, fun s c => s.whenOf_other_of_time, fun s w c => s.whenOf_lane w c,
    fun t h k => sampleAt_spec⟩
  case zone => simp [State.whenOf]
  case other => simp [State.whenOf]

end Sys2Proof.Machine
end

section
/-! Proofs: streams with a clock of their own (O6). What the status bits, the flags and the entries of a stream leave alone, and what
becomes of a stream that jumps, is lost, or returns. -/

namespace Sys2Proof.Machine

/-! ### What the operations on a stream leave -/

theorem State.bit_setBit (s : State) (o : Nat) {i : Nat} (b : Bool) (r j : Nat) (hi : i < 32) :
    (s.setBit o i b).bit r j = if r = o ∧ j = i then b else s.bit r j := by
  unfold State.bit
  rw [State.reg_setBit]
  by_cases hr : r = o
  · subst hr
    simp [bitAt_setBitAt _ _ _ _ hi]
  · simp [hr]

theorem State.nextFlag_regs (s : State) (st : Stream) (b : Nat) : (s.nextFlag st b).regs = s.regs := by
  cases st <;> rfl

theorem State.nextFlag_convs (s : State) (st : Stream) (b : Nat) : (s.nextFlag st b).convs = s.convs := by
  cases st <;> rfl

/-- The entries of a stream are its sources alone. -/
theorem State.mapStream_frame (s : State) (st : Stream) (f : SrcH → SrcH) : ∃ m, s.mapStream st f = { s with srcs := m } := by
  refine foldl_keeps (P := fun t => ∃ m, t = { s with srcs := m }) (fun x _ t ht => ?_) ⟨s.srcs, rfl⟩
  obtain ⟨m, rfl⟩ := ht
  exact ⟨_, rfl⟩

@[simp] theorem State.asrcBit_asrc (s : State) (code b : Nat) (v : Bool) : (s.asrcBit code b v).asrc = s.asrc := by
  unfold State.asrcBit
  split <;> rfl

@[simp] theorem State.asrcBit_convs (s : State) (code b : Nat) (v : Bool) : (s.asrcBit code b v).convs = s.convs := by
  unfold State.asrcBit
  split <;> rfl

@[simp] theorem State.streamBits_asrc (s : State) (st : Stream) (locked lost relock : Bool) :
    (s.streamBits st locked lost relock).asrc = s.asrc := by
  cases st <;> simp [State.streamBits]

@[simp] theorem State.streamBits_convs (s : State) (st : Stream) (locked lost relock : Bool) :
    (s.streamBits st locked lost relock).convs = s.convs := by
  cases st <;> simp [State.streamBits]

/-- Which converter serves a stream is no matter of its status bits. -/
theorem State.asrcOf_streamBits (s : State) (st : Stream) (locked lost relock : Bool) (code : Nat) :
    (s.streamBits st locked lost relock).asrcOf code = s.asrcOf code := by
  simp only [State.asrcOf, State.streamBits_asrc]

/-- What a converter holds stays when its stream's bits, its count of re-locks and the flags of the next block change. -/
theorem State.convAt_relock (s : State) (st : Stream) (locked lost relock : Bool) (o n b code : Nat) :
    (((s.streamBits st locked lost relock).bump o n).nextFlag st b).convAt code = s.convAt code := by
  simp only [State.convAt, State.nextFlag_convs, State.bump_convs, State.streamBits_convs]

/-! ### A stream that jumps or is lost (R72, R77) -/

theorem State.relock_of_converter {s : State} {st : Stream} {i : Nat} (h : s.asrcOf (streamCode st) = some i) :
    s.relock st = (((s.streamBits st false (s.streamLost st) true).bump (Reg.pcrAsrcRelock i) 32).nextFlag st 3).setConv (streamCode st)
      { (((s.streamBits st false (s.streamLost st) true).bump (Reg.pcrAsrcRelock i) 32).nextFlag st 3).convAt (streamCode st) with
        hist := [], last := none, prev := 0 } := by
  rw [State.convAt_relock]
  simp only [State.relock, h]

theorem State.relock_of_none {s : State} {st : Stream} (h : s.asrcOf (streamCode st) = none) : s.relock st = s := by
  simp only [State.relock, h]

theorem ConvH.outOfRange_iff {h : ConvH} (code : Nat) (hr : h.ratio ≠ 0) :
    h.outOfRange code = true ↔ nominalRatio code < 8 * ((h.ratio.toNat : Int) - nominalRatio code).natAbs := by
  have hne : (h.ratio != 0) = true := bne_iff_ne.mpr hr
  simp only [ConvH.outOfRange, hne, Bool.true_and, decide_eq_true_eq]

/-- A stream that is lost is declared so. -/
theorem State.streamLost_loseStream (s : State) (st : Stream) : (s.loseStream st).streamLost st = true := by
  unfold State.loseStream
  extract_lets u v
  obtain ⟨m, hm⟩ := v.mapStream_frame st SrcH.lose
  rw [hm]
  have hbit : ∀ o i, u.bit o i = (s.streamBits st false true false).bit o i := State.bit_congr (State.nextFlag_regs _ st 4)
  cases st with
  | tdm n => exact (hbit _ _).trans (by simp [State.streamBits, State.bit_setBit])
  | aes n => exact (hbit _ _).trans (by simp [State.streamBits, State.bit_setBit])
  | pdm g => simp [State.streamLost, v, State.pdmAt, State.setPdm]
  | flow f => exact (hbit _ _).trans (by simp [State.streamBits, State.bit_setBit])

/-! ### A stream that returns (R77, R78) -/

/-- The sources of a TDM port without a converter return from the next block on. -/
theorem State.streamBack_tdm {s : State} {n : Fin 16} (h : s.asrcOf (streamCode (.tdm n)) = none) :
    s.streamBack (.tdm n) = State.streamEvent
      (((s.streamBits (.tdm n) true false false).nextFlag (.tdm n) 5).mapStream (.tdm n)
        (SrcH.regain (((s.streamBits (.tdm n) true false false).nextFlag (.tdm n) 5).heat + 1))) (.tdm n) 0x07 0x36 := by
  have hbits : (s.streamBits (.tdm n) true false false).asrcOf (streamCode (.tdm n)) = none := (s.asrcOf_streamBits ..).trans h
  simp only [State.streamBack, h, Option.isNone_none, State.relock_of_none hbits]

/-- Settles O6: each command by the condition under which it acts. -/
theorem clockedStreams : Obligations.ClockedStreams := by
  unfold Obligations.ClockedStreams
  refine ⟨fun st i c s hrun hc hi hj hre => ?jump, fun h => rfl, fun st s hrun hre => ?relocked, fun st i s hrun hlost hi hout => ?range,
    fun h code => h.outOfRange_iff code, fun st s hrun hlost => ?clock, fun n s => s.streamLost_loseStream _,
    fun n s => s.streamLost_loseStream _, fun g s => s.streamLost_loseStream _, fun f s => s.streamLost_loseStream _,
    fun n s hrun hlost hnone hgood => ?returnTdm, fun st s hrun hlost hgood => ?back, fun st s hrun hlost => ?stays⟩
  case jump =>
    subst hc
    refine does_of_run _ (arm_rateJump st s) hrun ?_
    simp only [hi, hj, hre, Option.isSome_some, Bool.not_false, Bool.and_self, if_true, State.relock_of_converter hi]
  case relocked =>
    refine does_of_run _ (arm_converterRelockDone st s) hrun (if_neg ?_)
    simp [hre]
  case range =>
    refine does_of_run _ (arm_ratioOutOfRange st s) hrun (if_neg ?_)
    simp [hlost, hi, hout]
  case clock => exact does_of_run _ (arm_portClockLoss st s) hrun (if_neg (by simp [hlost]))
  case stays => exact does_of_run _ (arm_portClockLoss st s) hrun (if_pos hlost)
  case back => exact does_of_run _ (arm_portClockReturn st s) hrun (if_pos (by rw [hlost, hgood]; rfl))
  case returnTdm =>
    have hback : s.streamLost (.tdm n) && s.streamGood (.tdm n) := by simp [hlost, State.streamGood, hgood]
    exact does_of_run _ (arm_portClockReturn (.tdm n) s) hrun ((if_pos hback).trans (State.streamBack_tdm hnone))

end Sys2Proof.Machine
end

section
/-! Proofs: frames and blocks of the receive ports (O7). What a frame leaves in the open block of a TDM port, the bits of a slot's word,
and when the block of the heat before closes. -/

namespace Sys2Proof.Machine

/-! ### Bits and fields of a register, and receivers -/

/-- The spelling of a bit and of a field of a register is that of the statements. -/
theorem State.bitAt_reg (s : State) (o i : Nat) : bitAt (s.reg o) i = s.bit o i := rfl

theorem State.fld_reg (s : State) (o hi lo : Nat) : fld (s.reg o) hi lo = s.getF o hi lo := rfl

@[simp] theorem State.tdmRxAt_setTdmRx_same (s : State) (n : Nat) (h : RxH) : (s.setTdmRx n h).tdmRxAt n = h :=
  Sparse.get_set_same ..

theorem State.tdmRxAt_setBit_unless (s : State) (c : Bool) (o i : Nat) (b : Bool) (n : Nat) :
    (if c then s else s.setBit o i b).tdmRxAt n = s.tdmRxAt n := by
  cases c <;> rfl

/-! ### The word of a slot (R83) -/

/-- Binary digits read first to last make the number whose highest bit is the first. -/
theorem testBit_foldl_digits (p : Nat → Bool) {n i : Nat} (hi : i < n) :
    ((List.range n).foldl (fun a j => 2 * a + if p j then 1 else 0) 0).testBit (n - 1 - i) = p i := by
  induction n with
  | zero => omega
  | succ n ih =>
    rw [List.range_succ, List.foldl_append, List.foldl_cons, List.foldl_nil]
    obtain rfl | hlt := Nat.eq_or_lt_of_le (Nat.le_of_lt_succ hi)
    · rw [Nat.add_sub_cancel, Nat.sub_self, Nat.testBit_zero]
      cases p i <;> simp
    · rw [show n + 1 - 1 - i = (n - 1 - i) + 1 by omega, Nat.testBit_succ, ← ih hlt]
      congr 1
      split <;> omega

theorem testBit_tdmWord {f : Word} (line : BitVec 1024) {k i : Nat} (hk : k ≤ fld f 20 16) (hi : i < tdmWordBits f) :
    (tdmWord f line k).testBit (tdmWordBits f - 1 - i) = line.getLsbD (fld f 15 8 + k * (fld f 7 3 + 16) + i) := by
  rw [tdmWord, if_neg (Nat.not_lt.mpr hk)]
  exact testBit_foldl_digits (fun j => line.getLsbD (fld f 15 8 + k * (fld f 7 3 + 16) + j)) hi

/-! ### A frame in the open block (R77, R85, R99) -/

theorem State.tdmMask_of_not_due {s : State} {n : Nat} (h : (s.tdmRxAt n).maskDue = false) : s.tdmMask n = s :=
  if_pos (by rw [h]; rfl)

/-- A frame of the right length with room in the block joins it, and counts as a good one. -/
theorem State.tdmRxAt_tdmTake_good {n len : Nat} (line : BitVec 1024) {s : State} {b : OpenBlk} (hb : (s.tdmRxAt n).blk = some b)
    (hlen : len = s.getF (Reg.tdmFrame n) 31 21) (hroom : b.frames.length < frames112 (s.getF (Reg.tdmCtrl n) 11 8)) :
    ∃ out, (s.tdmTake n len line false false).tdmRxAt n =
      { s.tdmRxAt n with
        blk := some { b with
          time := if b.frames.isEmpty then s.pacer.ns else b.time
          frames := b.frames ++ [out]
          raws := b.raws ++ [((List.range 32).filter fun k => bitAt b.mask k).map
            fun k => pcmSample (tdmWordBits (s.reg (Reg.tdmFrame n))) (tdmWord (s.reg (Reg.tdmFrame n)) line k)] }
        good := (s.tdmRxAt n).good + 1 } := by
  simp only [State.tdmTake, hb, State.fld_reg, hlen, bne_self_eq_false, Bool.or_self, Bool.and_false, Bool.false_or, decide_eq_true_eq,
    Nat.not_le.mpr hroom, Bool.false_eq_true, if_false]
  generalize hfold : List.foldl _ (s, ([] : List Word)) _ = a
  have hpacer : a.1.pacer = s.pacer :=
    hfold ▸ foldl_keeps (P := fun a : State × List Word => a.1.pacer = s.pacer) (fun p _ a h => h) rfl
  exact ⟨a.2, by simp only [State.tdmRxAt_setBit_unless, State.tdmRxAt_setTdmRx_same, hpacer]⟩

/-- In slave mode a glitch or a wrong length drops the frame whole. -/
theorem State.tdmTake_glitch {n len : Nat} (line : BitVec 1024) {glitch : Bool} (full : Bool) {s : State} {b : OpenBlk}
    (hb : (s.tdmRxAt n).blk = some b) (hslave : s.bit (Reg.tdmCtrl n) 3 = false)
    (hbad : glitch = true ∨ len ≠ s.getF (Reg.tdmFrame n) 31 21) :
    s.tdmTake n len line glitch full =
      (((s.setTdmRx n { s.tdmRxAt n with
          blk := some { b with glitch := b.glitch + 1, overrun := b.overrun + 1, flags := b.flags ||| bfDisc }, good := 0 }).bump
        (Reg.tdmGlitchCnt n) 32).bump (Reg.tdmOvrCnt n) 32).serialEvent (160 + n) 0x01 0xFF 1 := by
  have hdrop : (glitch || len != s.getF (Reg.tdmFrame n) 31 21) = true := by simpa using hbad
  simp only [State.tdmTake, hb, State.bitAt_reg, State.fld_reg, hslave, hdrop, Bool.not_false, Bool.and_self, if_true]

/-- In master mode a frame that finds the FIFO full is dropped. -/
theorem State.tdmTake_full {n : Nat} (len : Nat) (line : BitVec 1024) {s : State} {b : OpenBlk} (hb : (s.tdmRxAt n).blk = some b)
    (hmaster : s.bit (Reg.tdmCtrl n) 3 = true) :
    s.tdmTake n len line false true =
      ((s.setTdmRx n { s.tdmRxAt n with blk := some { b with overrun := b.overrun + 1, flags := b.flags ||| bfDisc } }).bump
        (Reg.tdmOvrCnt n) 32).serialEvent (160 + n) 0x02 0xFF 1 := by
  simp only [State.tdmTake, hb, State.bitAt_reg, hmaster, Bool.not_true, Bool.false_and, Bool.false_eq_true, if_false, Bool.true_or,
    if_true]

/-- Settles O7: which frames reach the open block, what they leave in it, and which blocks are due at the end of a heat. -/
theorem tdmReceive : Obligations.TdmReceive := by
  unfold Obligations.TdmReceive
  refine ⟨fun n high len rise fall glitch full s b hrun hen hreset hedge hb hheat hmask => ?leading,
    fun n high len rise fall glitch full s hrun hedge => ?other, fun n len line s b => State.tdmRxAt_tdmTake_good line,
    fun f line k i => testBit_tdmWord line, fun f line k hk => if_pos hk,
    fun n len line glitch full s b => State.tdmTake_glitch line full, fun n len line s b => State.tdmTake_full len line,
    fun n c s b hrun hen hb hheat => ?tdm, fun n c s b hrun hen hb hheat => ?aes, fun g c s hrun hheat hclosed => ?pdm,
    fun f c s hrun hheat hen hclosed => ?flow⟩
  case leading =>
    have hedge : (high == s.bit (Reg.tdmCtrl n.val) 5) = false := beq_eq_false_iff_ne.mpr hedge
    refine does_of_run _ (by rw [arm_tdmRxFrame, execTdmRxFrame]) hrun ?_
    simp only [State.bitAt_reg, hen, hreset, hedge, hb, hheat, State.tdmMask_of_not_due hmask, Option.isNone_some, Bool.not_true,
      Bool.or_self, Bool.false_eq_true, if_false, if_true]
    rfl
  case other =>
    refine does_of_run _ (by rw [arm_tdmRxFrame, execTdmRxFrame]) hrun ?_
    simp only [State.bitAt_reg, hedge, beq_self_eq_true, Bool.or_true, if_true]
  case tdm =>
    refine does_of_run _ (by rw [arm_rxBlockClose, execRxBlockClose]) hrun ?_
    simp [Nat.ne_of_gt (Nat.zero_lt_of_lt hheat), hen, hb, hheat]
  case aes =>
    refine does_of_run _ (by rw [arm_rxBlockClose, execRxBlockClose]) hrun ?_
    simp [Nat.ne_of_gt (Nat.zero_lt_of_lt hheat), hen, hb, hheat]
  case pdm =>
    refine does_of_run _ (by rw [arm_rxBlockClose, execRxBlockClose]) hrun ?_
    simp [Nat.ne_of_gt hheat, hclosed]
  case flow =>
    refine does_of_run _ (by rw [arm_rxBlockClose, execRxBlockClose]) hrun ?_
    simp [Nat.ne_of_gt hheat, hen, hclosed]

end Sys2Proof.Machine
end

section
/-! Proofs: configuration, masks and channels of the TDM ports (O8). What a write of `TDMn_CTRL` does, by what it changes, and a
change of a port channel at a zero crossing or at its timeout. -/

namespace Sys2Proof.Machine

theorem State.bit_setReg_ne (s : State) {o r : Nat} (v : Word) (i : Nat) (h : r ≠ o) : (s.setReg o v).bit r i = s.bit r i :=
  congrArg (bitAt · i) (s.reg_setReg_ne o v r h)

/-! ### Writes of TDMn_CTRL (R87, R89) -/

/-- A reserved rate code sets CFG_BUSY and does nothing else. -/
theorem State.tdmCtrlWrite_of_reserved_rate (s : State) (n : Nat) {v : Word} (h : 7 ≤ fld v 11 8) : s.tdmCtrlWrite n v = s.cfgBusy n :=
  if_pos h

/-- A port without a direction enabled takes the register as written and starts the receiver. -/
theorem State.tdmCtrlWrite_of_rx_on {s : State} {n : Nat} {v : Word} (hoff : s.getF (Reg.tdmCtrl n) 1 0 = 0) (hrate : fld v 11 8 < 7)
    (hslave : bitAt v 3 = false) (hrx : bitAt v 0 = true) (hwas : s.bit (Reg.tdmCtrl n) 0 = false) :
    s.tdmCtrlWrite n v = (((s.rawWrite (Reg.tdmCtrl n) v).tdmRxOn n).setBit (Reg.tdmStatus n) 1 (bitAt v 1)).tdmDrive n := by
  simp [State.tdmCtrlWrite, State.bitAt_reg, State.fld_reg, hoff, Nat.not_le.mpr hrate, hslave, hrx, hwas]

/-- A master-mode port that R87 does not admit stays disabled. -/
theorem State.tdmCtrlWrite_of_not_admitted {s : State} {n : Nat} {v : Word} (hoff : s.getF (Reg.tdmCtrl n) 1 0 = 0)
    (hrate : fld v 11 8 < 7) (hmaster : bitAt v 3 = true) (hdir : fld v 1 0 ≠ 0)
    (hbad : tdmMasterOk v (s.reg (Reg.tdmFrame n)) = false) : s.tdmCtrlWrite n v = s.cfgBusy n := by
  simp [State.tdmCtrlWrite, State.fld_reg, hoff, Nat.not_le.mpr hrate, hmaster, hdir, hbad]

/-- On an enabled port a write that changes the enables alone, and clears that of the receiver, stops it. -/
theorem State.tdmCtrlWrite_of_rx_off {s : State} {n : Nat} {v w : Word}
    (hw : w = setFld (s.reg (Reg.tdmCtrl n)) 1 0 (fld v 1 0)) (hrate : fld v 11 8 < 7)
    (hsame : (v ^^^ s.reg (Reg.tdmCtrl n)) &&& 0x01FF0FFC#32 = 0#32) (hon : s.getF (Reg.tdmCtrl n) 1 0 ≠ 0) (hrx : bitAt w 0 = false)
    (hwas : s.bit (Reg.tdmCtrl n) 0 = true) :
    s.tdmCtrlWrite n v = (((s.rawWrite (Reg.tdmCtrl n) w).tdmRxOff n).setBit (Reg.tdmStatus n) 1 (bitAt w 1)).tdmDrive n := by
  simp [State.tdmCtrlWrite, State.bitAt_reg, State.fld_reg, ← hw, hon, Nat.not_le.mpr hrate, hsame, hrx, hwas]

/-! ### Clocks and frames (R86, R87, R99, R101) -/

/-- In master mode an enabled port drives its clocks. -/
theorem State.tdmPins_tdmDrive_of_master {s : State} {n : Nat} (hmaster : s.bit (Reg.tdmCtrl n) 3 = true)
    (hon : s.getF (Reg.tdmCtrl n) 1 0 ≠ 0) :
    Sparse.get {} (s.tdmDrive n).tdmPins n =
      { drive := true, clocks := s.getF (Reg.tdmFrame n) 31 21
        fsActive := if s.bit (Reg.tdmCtrl n) 6 then s.getF (Reg.tdmCtrl n) 24 16 else 1, fsLow := s.bit (Reg.tdmCtrl n) 5 } := by
  have hon : (s.getF (Reg.tdmCtrl n) 1 0 != 0) = true := bne_iff_ne.mpr hon
  simp only [State.tdmDrive, State.bitAt_reg, State.fld_reg, hmaster, hon, Bool.and_self, if_true, Sparse.get_set_same]
  rfl

theorem State.tdmTxMask_of_not_due {s : State} {n : Nat} (h : (s.tdmTxAt n).maskDue = false) : s.tdmTxMask n = s :=
  if_neg (by rw [h]; exact Bool.false_ne_true)

/-- Where the clock runs ahead a whole frame of zeros is sent. -/
theorem State.tdmSend_of_ahead {s : State} {n : Nat} (k : Nat) (h : (s.tdmTxAt n).maskDue = false) :
    s.tdmSend n k true =
      ((s.tdmOut n ((List.range (s.getF (Reg.tdmFrame n) 20 16 + 1)).map fun _ => 0#32)).bump
        (Reg.tdmUndCnt n) 32).serialEvent (160 + n) 0x03 0xFF 1 := by
  simp only [State.tdmSend, State.tdmTxMask_of_not_due h, State.fld_reg, Bool.true_or, if_true]

/-! ### Changes of a port channel (R104, R105) -/

theorem ChanH.applyWait_of_waiting {h : ChanH} {w : GainWait} (hw : h.wait = some w) :
    h.applyWait = { h with gain := w.gain, mute := w.mute, wait := none, ramp := none } := by
  rw [ChanH.applyWait, hw]

theorem ChanH.timeout_of_waiting {h : ChanH} {w : GainWait} (hw : h.wait = some w) :
    h.timeout = { h with gain := w.gain, mute := w.mute, wait := none, ramp := some (h.gain, h.mute, 0) } := by
  rw [ChanH.timeout, hw]

/-- Before the commit time of every change none begins to wait. -/
theorem ChanH.ready_of_early {h : ChanH} {t : Nat} (hdue : ∀ w ∈ h.due, t < w.start) : h.ready t = h := by
  have hnone : (h.due.filter fun w => decide (w.start ≤ t)) = [] :=
    List.filter_eq_nil_iff.mpr fun w hw => by simpa using hdue w hw
  rw [ChanH.ready, hnone]
  rfl

@[simp] theorem ChanH.applyWait_last (h : ChanH) : h.applyWait.last = h.last := by
  unfold ChanH.applyWait
  split <;> rfl

@[simp] theorem ChanH.applyWait_cross (h : ChanH) : h.applyWait.cross = h.cross := by
  unfold ChanH.applyWait
  split <;> rfl

/-- A sample is kept with whether it is a crossing, at which the change that waits is applied. -/
theorem ChanH.arrive_spec {h : ChanH} {t : Nat} (x : Word) (hdue : ∀ w ∈ h.due, t < w.start) :
    (h.arrive t x).last = x ∧ (h.arrive t x).cross = crossing h.last x ∧
      (∀ w, h.wait = some w → crossing h.last x = true →
        (h.arrive t x).gain = w.gain ∧ (h.arrive t x).mute = w.mute ∧ (h.arrive t x).wait = none) := by
  have harrive : h.arrive t x =
      if crossing h.last x then ChanH.applyWait { h with last := x, cross := crossing h.last x }
      else { h with last := x, cross := crossing h.last x } := by
    rw [ChanH.arrive, ChanH.ready_of_early hdue]
  rw [harrive]
  cases hx : crossing h.last x with
  | false => exact ⟨rfl, rfl, fun _ _ hf => nomatch hf⟩
  | true =>
    refine ⟨ChanH.applyWait_last _, ChanH.applyWait_cross _, fun w hw _ => ?_⟩
    rw [if_pos rfl, ChanH.applyWait_of_waiting (h := { h with last := x, cross := true }) hw]
    exact ⟨rfl, rfl, rfl⟩

/-- Settles O8: each register write by the case of its row, each frame and change of a channel by the operation it is. -/
theorem tdmControl : Obligations.TdmControl := by
  unfold Obligations.TdmControl
  refine ⟨fun m n v s hrun hmay hoff hok => ?stored, fun m n v s hrun hmay hbad => ?busy,
    fun m n v s hrun hmay hoff hrate hslave hrx hwas => ?rxOn, fun m n v s hrun hmay hoff hrate hmaster hdir hbad => ?notAdmitted,
    fun m n v s hrun hmay hrate => ?reservedOn, fun m n v w s hrun hmay hw hrate hsame hon hrx hwas => ?rxOff,
    fun m n v s hrun hmay hrate => ?reservedOff, fun n s => State.tdmPins_tdmDrive_of_master,
    fun m n v s hrun hmay hfits hen => ?rxDue, fun m n v s hrun hmay hfits hdis => ?rxNow, fun m n v s hrun hmay hmany => ?refused,
    fun m n v s hrun hmay hfits hen => ?txDue, fun m n v s hrun hmay hfits hdis => ?txNow,
    fun n k ahead s hrun hen hreset => ?sent, fun n k s => State.tdmSend_of_ahead k,
    fun c w h s hrun hh hw hcross => ?crossing, fun c w h s hrun hh hw => ?timeout, fun h t x => ChanH.arrive_spec x⟩
  case stored => exact does_of_gated _ (arm_tdmFrameWrite m n v s) hrun hmay (if_neg (by simp [hoff, hok]))
  case busy => exact does_of_gated _ (arm_tdmFrameWrite m n v s) hrun hmay (if_pos (by simpa using hbad))
  case rxOn =>
    exact does_of_gated _ (arm_tdmEnable m n v s) hrun hmay (State.tdmCtrlWrite_of_rx_on hoff hrate hslave hrx hwas)
  case notAdmitted =>
    exact does_of_gated _ (arm_tdmEnable m n v s) hrun hmay (State.tdmCtrlWrite_of_not_admitted hoff hrate hmaster hdir hbad)
  case reservedOn => exact does_of_gated _ (arm_tdmEnable m n v s) hrun hmay (s.tdmCtrlWrite_of_reserved_rate n hrate)
  case rxOff =>
    exact does_of_gated _ (arm_tdmDisable m n v s) hrun hmay (State.tdmCtrlWrite_of_rx_off hw hrate hsame hon hrx hwas)
  case reservedOff => exact does_of_gated _ (arm_tdmDisable m n v s) hrun hmay (s.tdmCtrlWrite_of_reserved_rate n hrate)
  case rxDue =>
    have hen' : (s.setReg (Reg.tdmRxMaskNext n) v).bit (Reg.tdmCtrl n) 0 = true := (s.bit_setReg_ne v 0 (by simp)).trans hen
    exact does_of_gated _ (arm_rxMaskNextWrite m n v s) hrun hmay ((if_neg (Nat.not_lt.mpr hfits)).trans (if_pos hen'))
  case rxNow =>
    have hdis' : (s.setReg (Reg.tdmRxMaskNext n) v).bit (Reg.tdmCtrl n) 0 = false := (s.bit_setReg_ne v 0 (by simp)).trans hdis
    exact does_of_gated _ (arm_rxMaskNextWrite m n v s) hrun hmay
      ((if_neg (Nat.not_lt.mpr hfits)).trans (if_neg (by simp [hdis'])))
  case refused => exact does_of_gated _ (arm_rxMaskNextWrite m n v s) hrun hmay (if_pos hmany)
  case txDue =>
    have hen' : (s.setReg (Reg.tdmTxMaskNext n) v).bit (Reg.tdmCtrl n) 1 = true := (s.bit_setReg_ne v 1 (by simp)).trans hen
    exact does_of_gated _ (arm_txMaskNextWrite m n v s) hrun hmay ((if_neg (Nat.not_lt.mpr hfits)).trans (if_pos hen'))
  case txNow =>
    have hdis' : (s.setReg (Reg.tdmTxMaskNext n) v).bit (Reg.tdmCtrl n) 1 = false := (s.bit_setReg_ne v 1 (by simp)).trans hdis
    exact does_of_gated _ (arm_txMaskNextWrite m n v s) hrun hmay
      ((if_neg (Nat.not_lt.mpr hfits)).trans (if_neg (by simp [hdis'])))
  case sent => exact does_of_run _ (arm_tdmTxFrame n k ahead s) hrun (if_pos (by simp [hen, hreset]))
  case crossing =>
    refine does_of_run _ (arm_channelZeroCrossing c s) hrun ?_
    simp only [← hh, hcross, if_true, ChanH.applyWait_of_waiting hw]
  case timeout =>
    refine does_of_run _ (arm_zcTimeoutExpiry c s) hrun ?_
    simp only [← hh, ChanH.timeout_of_waiting hw]

end Sys2Proof.Machine
end

section
/-! Proofs: channel status of the AES3 receivers (O53). Where its words lie, what a good and a bad block leave in them, and what a read
of word 0 latches. -/

namespace Sys2Proof.Machine

@[simp] theorem State.serialEvent_regs (s : State) (src code sub k : Nat) : (s.serialEvent src code sub k).regs = s.regs :=
  State.emit_regs _ _ _ _

/-! ### The six words of a channel -/

/-- The register of word `i` of channel `c` of receiver `n`. -/
def csReg (n c i : Nat) : Nat := if c = 0 then Reg.aesRxCsA n i else Reg.aesRxCsB n i

theorem csReg_eq (n c i : Nat) : csReg n c i = Reg.aesRxCsA n 0 + (if c = 0 then 0 else 24) + i * 4 := by
  unfold csReg
  split <;> simp only [Reg.aesRxCsA, Reg.aesRxCsB] <;> omega

theorem csReg_inj {n c i j : Nat} (h : csReg n c i = csReg n c j) : i = j := by
  rw [csReg_eq, csReg_eq] at h
  omega

/-- The words lie behind the status of their receiver and its count of bad blocks. -/
theorem csReg_gt (n c i : Nat) : Reg.aesRxCsErr n < csReg n c i := by
  rw [csReg_eq]
  simp only [Reg.aesRxCsErr, Reg.aesRxCsA]
  omega

theorem csReg_ne_csErr (n c i : Nat) : csReg n c i ≠ Reg.aesRxCsErr n := Nat.ne_of_gt (csReg_gt n c i)

theorem csReg_ne_status (n c i : Nat) : csReg n c i ≠ Reg.aesRxStatus n :=
  Nat.ne_of_gt (Nat.lt_trans (by simp only [Reg.aesRxStatus, Reg.aesRxCsErr]; omega) (csReg_gt n c i))

theorem csReg_lt {n c i : Nat} (hn : n < 8) (hi : i < 6) : csReg n c i < 2 ^ 25 := by
  rw [csReg_eq]
  simp only [Reg.aesRxCsA]
  split <;> omega

theorem leAt_lt (bs : List Byte) (off n : Nat) : leAt bs off n < 256 ^ n := by
  induction n generalizing off with
  | zero => simp [leAt]
  | succ n ih =>
    have hbyte := (bs.getD off 0#8).isLt
    have hrest := ih (off + 1)
    rw [leAt, Nat.pow_succ]
    omega

/-- Digit `j` to base 256 is byte `j`. -/
theorem leAt_digit (bs : List Byte) {off n j : Nat} (hj : j < n) : leAt bs off n / 256 ^ j % 256 = (bs.getD (off + j) 0#8).toNat := by
  induction n generalizing off j with
  | zero => omega
  | succ n ih =>
    have hbyte := (bs.getD off 0#8).isLt
    rw [leAt]
    cases j with
    | zero =>
      rw [Nat.pow_zero, Nat.div_one, Nat.add_mul_mod_self_left, Nat.mod_eq_of_lt hbyte, Nat.add_zero]
    | succ j =>
      have hrest : ((bs.getD off 0#8).toNat + 256 * leAt bs (off + 1) n) / 256 = leAt bs (off + 1) n := by omega
      rw [Nat.pow_succ', ← Nat.div_div_eq_div_mul, hrest, ih (Nat.lt_of_succ_lt_succ hj), Nat.add_assoc, Nat.add_comm 1 j]

/-- Byte `j` of a word of four little-endian bytes. -/
theorem fld_leAt_byte (bs : List Byte) (off : Nat) {j : Nat} (hj : j < 4) :
    fld (BitVec.ofNat 32 (leAt bs off 4)) (8 * j + 7) (8 * j) = (bs.getD (off + j) 0#8).toNat := by
  have hword : leAt bs off 4 < 2 ^ 32 := leAt_lt bs off 4
  rw [fld, show 8 * j + 7 - 8 * j + 1 = 8 by omega, BitVec.toNat_ushiftRight, BitVec.toNat_ofNat, Nat.mod_eq_of_lt hword,
    Nat.shiftRight_eq_div_pow, Nat.pow_mul]
  exact leAt_digit bs hj

/-! ### The CRCC (R110) -/

theorem crccBit_lt {c : Nat} (hc : c < 2 ^ 8) (b : Bool) : crccBit c b < 2 ^ 8 := by
  have hhalf : c / 2 < 2 ^ 8 := by omega
  unfold crccBit
  extract_lets x
  split
  · exact Nat.xor_lt_two_pow hhalf (by decide)
  · exact hhalf

theorem crcc_lt (bs : List Byte) : crcc bs < 2 ^ 8 :=
  foldl_keeps (P := (· < 2 ^ 8)) (fun _ _ _ h => foldl_keeps (P := (· < 2 ^ 8)) (fun _ _ _ h => crccBit_lt h _) h) (by decide)

/-- The CRCC is that of the first 23 bytes, and byte 23 the one it is compared with. -/
theorem crcc_append {bs : List Byte} (h : bs.length = 23) (b : Byte) : crcc (bs ++ [b]) = crcc bs := by
  rw [crcc, crcc, ← h, List.take_append_of_le_length (Nat.le_refl _)]

theorem leAt_append_last {bs : List Byte} (h : bs.length = 23) (b : Byte) : leAt (bs ++ [b]) 23 1 = b.toNat := by
  simp [leAt, List.getD_eq_getElem?_getD, ← h]

theorem getD_append_head {bs : List Byte} (h : bs.length = 23) (b : Byte) : (bs ++ [b]).getD 0 0 = bs.getD 0 0 := by
  rw [List.getD_append _ _ _ _ (by omega)]

/-! ### A block at its end (R110 to R112) -/

/-- A block is good: 192 frames, and in professional format with its CRCC. -/
abbrev CsGood (bs : List Byte) : Prop := (bs.getD 0 0).getLsbD 0 = false ∨ crcc bs = leAt bs 23 1

/-- The words of a block written one after another. -/
def State.setCsWords (s : State) (n c : Nat) (bs : List Byte) : State :=
  forUpto 6 (fun i s => s.setReg (csReg n c i) (BitVec.ofNat 32 (leAt bs (4 * i) 4))) s

/-- What a good block shows: its words, its format, and whether its channel is audio. -/
def State.csShown (s : State) (n c : Nat) (bs : List Byte) : State :=
  let s := s.setCsWords n c bs
  let h := (s.csAt (aesCs n c)).good bs
  ((s.setCs (aesCs n c) h).setBit (Reg.aesRxStatus n) (4 + c) ((bs.getD 0 0).getLsbD 0)).setBit (Reg.aesRxStatus n) (2 + c) h.nonAudio

/-- A channel that is audio no more is flagged in the open block, with its event. -/
def State.csMuted (s : State) (n c : Nat) : State :=
  State.serialEvent
    (match (s.aesRxAt n).blk with
      | some b => s.setAesRx n { s.aesRxAt n with blk := some { b with flags := b.flags ||| 2 ^ (6 + c) } }
      | none => s)
    (176 + n) 0x14 c 1

theorem forUpto_succ {σ : Type} (n : Nat) (f : Nat → σ → σ) (s : σ) : forUpto (n + 1) f s = f n (forUpto n f s) := by
  simp only [forUpto, List.range_succ, List.foldl_append, List.foldl_cons, List.foldl_nil]

/-- A loop that writes registers at distinct offsets leaves each as written. -/
theorem State.reg_forUpto_setReg (s : State) {r : Nat → Nat} (v : Nat → Word) (hr : ∀ i j, r i = r j → i = j) {n i : Nat}
    (hi : i < n) :
    (forUpto n (fun i s => s.setReg (r i) (v i)) s).reg (r i) = v i := by
  induction n with
  | zero => omega
  | succ n ih =>
    rw [forUpto_succ, State.reg_setReg]
    obtain rfl | hlt := Nat.eq_or_lt_of_le (Nat.le_of_lt_succ hi)
    · exact if_pos rfl
    · rw [if_neg fun h => absurd (hr _ _ h) (Nat.ne_of_lt hlt), ih hlt]

theorem State.setCsWords_cs (s : State) (n c : Nat) (bs : List Byte) : (s.setCsWords n c bs).cs = s.cs :=
  forUpto_keeps (P := fun t : State => t.cs = s.cs) (fun _ _ _ h => h) rfl

theorem State.csAt_setCsWords (s : State) (n c : Nat) (bs : List Byte) (k : Nat) : (s.setCsWords n c bs).csAt k = s.csAt k := by
  simp only [State.csAt, State.setCsWords_cs]

theorem State.reg_setBit_ne (s : State) {o r : Nat} (i : Nat) (b : Bool) (h : r ≠ o) : (s.setBit o i b).reg r = s.reg r :=
  s.reg_setReg_ne o _ r h

/-- The status bits and the assembly of a channel are no matter of its words. -/
theorem State.reg_csReg_setStatus (s : State) (n c i k : Nat) (h : CsH) (j j' : Nat) (b b' : Bool) :
    (((s.setCs k h).setBit (Reg.aesRxStatus n) j b).setBit (Reg.aesRxStatus n) j' b').reg (csReg n c i) = s.reg (csReg n c i) := by
  rw [State.reg_setBit_ne _ _ _ (csReg_ne_status n c i), State.reg_setBit_ne _ _ _ (csReg_ne_status n c i)]
  exact State.reg_congr (s.setCs_regs k h) _

theorem State.reg_csShown (s : State) (n c : Nat) (bs : List Byte) {i : Nat} (hi : i < 6) :
    (s.csShown n c bs).reg (csReg n c i) = BitVec.ofNat 32 (leAt bs (4 * i) 4) :=
  (State.reg_csReg_setStatus ..).trans
    (s.reg_forUpto_setReg (fun i => BitVec.ofNat 32 (leAt bs (4 * i) 4)) (fun _ _ => csReg_inj) hi)

@[simp] theorem State.csMuted_regs (s : State) (n c : Nat) : (s.csMuted n c).regs = s.regs := by
  rw [State.csMuted, State.serialEvent_regs]
  split <;> rfl

/-- What a good block leaves. -/
def State.csTaken (s : State) (n c : Nat) (bs : List Byte) : State :=
  if ((s.csAt (aesCs n c)).good bs).nonAudio && !(s.csAt (aesCs n c)).nonAudio then (s.csShown n c bs).csMuted n c else s.csShown n c bs

theorem State.csTaken_regs (s : State) (n c : Nat) (bs : List Byte) : (s.csTaken n c bs).regs = (s.csShown n c bs).regs := by
  unfold State.csTaken
  split
  · exact State.csMuted_regs ..
  · rfl

theorem does_aesCsBlock_good {n : Fin 8} {c : Fin 2} {bs : List Byte} {s : State} (hrun : s.hold = .run)
    (hen : s.bit (Reg.aesRxCfg n.val) 0 = true) (hgood : CsGood bs) :
    Does (.aesCsBlock n c bs false) s (s.csTaken n.val c.val bs) := by
  have hok : (false || ((bs.getD 0 0).getLsbD 0 && crcc bs != leAt bs 23 1)) = false := by
    obtain h | h := hgood
    · rw [h, Bool.false_and, Bool.or_false]
    · rw [h, bne_self_eq_false, Bool.and_false, Bool.or_false]
  refine does_of_run _ (by rw [arm_aesCsBlock, execAesCsBlock]) hrun ?_
  simp only [hen, hok, Bool.not_true, Bool.false_eq_true, if_false]
  rw [State.csTaken, ← s.csAt_setCsWords n.val c.val bs]
  rfl

/-- A block cut short, and one whose CRCC is wrong, is counted. -/
theorem does_aesCsBlock_bad {n : Fin 8} {c : Fin 2} {bs : List Byte} {early : Bool} {s : State} (hrun : s.hold = .run)
    (hen : s.bit (Reg.aesRxCfg n.val) 0 = true) (hbad : early = true ∨ ¬ CsGood bs) :
    Does (.aesCsBlock n c bs early) s ((s.bump (Reg.aesRxCsErr n.val) 32).serialEvent (176 + n.val) 0x13 c.val 1) := by
  have hbad : (early || ((bs.getD 0 0).getLsbD 0 && crcc bs != leAt bs 23 1)) = true := by
    obtain h | h := hbad
    · rw [h, Bool.true_or]
    · obtain ⟨hpro, hcrc⟩ := not_or.mp h
      rw [Bool.eq_true_of_not_eq_false hpro, bne_iff_ne.mpr hcrc, Bool.and_true, Bool.or_true]
  refine does_of_run _ (by rw [arm_aesCsBlock, execAesCsBlock]) hrun ?_
  simp only [hen, hbad, Bool.not_true, Bool.false_eq_true, if_false, if_true]

/-- After a good block each byte stands in its place. -/
theorem aesCsBlock_copies {n : Fin 8} {c : Fin 2} {bs : List Byte} {s : State} (hrun : s.hold = .run)
    (hen : s.bit (Reg.aesRxCfg n.val) 0 = true) (hgood : CsGood bs) :
    ∃ u : State, Does (.aesCsBlock n c bs false) s u ∧
      ∀ i j, i < 6 → j < 4 → fld (u.reg (csReg n.val c.val i)) (8 * j + 7) (8 * j) = (bs.getD (4 * i + j) 0#8).toNat := by
  refine ⟨_, does_aesCsBlock_good hrun hen hgood, fun i j hi hj => ?_⟩
  rw [State.reg_congr (s.csTaken_regs n.val c.val bs), s.reg_csShown n.val c.val bs hi]
  exact fld_leAt_byte bs (4 * i) hj

/-- After a bad block the words stay. -/
theorem aesCsBlock_keeps {n : Fin 8} {c : Fin 2} {bs : List Byte} {s : State} (hrun : s.hold = .run)
    (hen : s.bit (Reg.aesRxCfg n.val) 0 = true) (hbad : ¬ CsGood bs) :
    ∃ u : State, Does (.aesCsBlock n c bs false) s u ∧ ∀ i, i < 6 → u.reg (csReg n.val c.val i) = s.reg (csReg n.val c.val i) :=
  ⟨_, does_aesCsBlock_bad hrun hen (.inr hbad), fun i _ =>
    (State.reg_congr (State.serialEvent_regs ..) _).trans (s.reg_bump_ne _ _ _ (csReg_ne_csErr n.val c.val i))⟩

/-! ### A read of word 0 (R111) -/

/-- Words 1 to 5 of a channel. -/
def csLatched (n c : Nat) : List Nat := (List.range 5).map fun i => csReg n c (i + 1)

theorem mem_csLatched {n c o : Nat} : o ∈ csLatched n c ↔ ∃ i, 1 ≤ i ∧ i ≤ 5 ∧ csReg n c i = o := by
  simp only [csLatched, List.mem_map, List.mem_range]
  constructor
  · rintro ⟨i, hi, rfl⟩
    exact ⟨i + 1, by omega, by omega, rfl⟩
  · rintro ⟨i, h1, h5, rfl⟩
    exact ⟨i - 1, by omega, by rw [Nat.sub_add_cancel h1]⟩

/-- The reading master has the words latched, and reads word 0. -/
def State.csRead (s : State) (m : Master) (n c : Nat) : State :=
  { s.latchWords m (csLatched n c) s.reg with rdata := s.reg (csReg n c 0) }

theorem does_aesRxCsRead {m : Master} {n : Fin 8} {c : Fin 2} {s : State} (hrun : s.hold = .run) :
    Does (.aesRxCsRead m n c) s (s.csRead m n.val c.val) :=
  does_of_run _ (arm_aesRxCsRead m n c s) hrun rfl

theorem State.latched_csRead_same (s : State) (m : Master) (n c : Nat) {i : Nat} (live : Word) (h1 : 1 ≤ i) (h5 : i ≤ 5) :
    (s.csRead m n c).latched m (csReg n c i) live = s.reg (csReg n c i) :=
  s.latched_latchWords_same m _ _ live (mem_csLatched.mpr ⟨i, h1, h5, rfl⟩)

/-- What the same master has latched at other offsets stays. -/
theorem State.latched_latchWords_of_not_mem (s : State) (m : Master) {offs : List Nat} (f : Nat → Word) {off : Nat} (live : Word)
    (h : off ∉ offs) : (s.latchWords m offs f).latched m off live = s.latched m off live := by
  have hget := Sparse.get_latched (latchKey m) f (latchKey m off) _ offs s.latch
    (fun o ho he => absurd (Nat.add_left_cancel he ▸ ho) h) (.inr rfl)
  simp only [State.latched, State.latchWords, hget]

/-- Settles O53: byte 23 makes a professional block good or bad, and the words follow; a read latches those behind word 0. -/
theorem aesChannelStatus : Obligations.AesChannelStatus := by
  unfold Obligations.AesChannelStatus
  refine ⟨fun n c bs b s hrun hen hlen hcons => ?consumer, fun n c bs s hrun hen hlen hpro => ?professional,
    fun m n c s hrun => ?read⟩
  case consumer => exact aesCsBlock_copies hrun hen (.inl (getD_append_head hlen b ▸ hcons))
  case professional =>
    have hcrc : ∀ b, CsGood (bs ++ [b]) ↔ crcc bs = b.toNat := fun b => by
      rw [CsGood, getD_append_head hlen b, hpro, crcc_append hlen, leAt_append_last hlen]
      simp
    refine ⟨BitVec.ofNat 8 (crcc bs), aesCsBlock_copies hrun hen ((hcrc _).mpr ?_),
      fun b hb => aesCsBlock_keeps hrun hen fun h => hb ?_⟩
    · rw [BitVec.toNat_ofNat, Nat.mod_eq_of_lt (crcc_lt bs)]
    · rw [(hcrc b).mp h, BitVec.ofNat_toNat, BitVec.setWidth_eq]
  case read =>
    have hoffs : ∀ o ∈ csLatched n.val c.val, o < 2 ^ 25 := fun o ho => by
      obtain ⟨i, -, hi, rfl⟩ := mem_csLatched.mp ho
      exact csReg_lt n.isLt (Nat.lt_succ_of_le hi)
    refine ⟨_, does_aesRxCsRead hrun, rfl, fun i live => s.latched_csRead_same m n.val c.val live,
      fun m' off live hm hoff => s.latched_latchWords_other _ _ live hm hoff hoffs, fun off live _ hne => ?_, rfl⟩
    refine s.latched_latchWords_of_not_mem m s.reg live fun hmem => ?_
    obtain ⟨i, h1, h5, hi⟩ := mem_csLatched.mp hmem
    exact hne i h1 h5 hi.symm

end Sys2Proof.Machine
end

section
/-! Proofs: AES3 receivers and transmitters (O9). What a frame leaves in the open block, what a measured rate does, and the enables. -/

namespace Sys2Proof.Machine

/-! ### Frames (R108, R113, R114) -/

@[simp] theorem State.aesRxAt_setAesRx_same (s : State) (n : Nat) (h : RxH) : (s.setAesRx n h).aesRxAt n = h :=
  Sparse.get_set_same ..

theorem State.aesRxAt_setBit_unless (s : State) (c : Bool) (o i : Nat) (b : Bool) (n : Nat) :
    (if c then s else s.setBit o i b).aesRxAt n = s.aesRxAt n := by
  cases c <;> rfl

/-- Two subframes of good parity count nothing. -/
theorem State.aesParity_of_good (s : State) (n before : Nat) : s.aesParity n before false false = s := by
  refine if_neg fun h => ?_
  obtain ⟨hle, hlt⟩ := h
  exact absurd hlt (Nat.not_lt.mpr hle)

/-- Two subframes under the validity policy and through their port channels: the state after them, and the frame they make. -/
def State.aesHeard (s : State) (n : Nat) (a b : SubFrame) : State × List Word :=
  let x := (s.csAt (aesCs n 0)).sample (s.getF (Reg.aesRxCfg n) 5 4) a
  let y := (s.csAt (aesCs n 1)).sample (s.getF (Reg.aesRxCfg n) 5 4) b
  let s := (s.setCs (aesCs n 0) x.1).setCs (aesCs n 1) y.1
  let p := s.throughChan (512 + n * 2) s.pacer.ns.toNat x.2.1
  let q := p.1.throughChan (512 + n * 2 + 1) p.1.pacer.ns.toNat y.2.1
  (q.1, [p.2, q.2])

/-- The open block `k` with a frame of good parity. -/
def State.aesBlkWith (s : State) (n : Nat) (a b : SubFrame) (k : OpenBlk) : OpenBlk :=
  { k with
    time := if k.frames.isEmpty then s.pacer.ns else k.time
    frames := k.frames ++ [(s.aesHeard n a b).2]
    raws := k.raws ++ [[((s.csAt (aesCs n 0)).sample (s.getF (Reg.aesRxCfg n) 5 4) a).2.1,
      ((s.csAt (aesCs n 1)).sample (s.getF (Reg.aesRxCfg n) 5 4) b).2.1]]
    invalid := k.invalid + ((if a.invalid then 1 else 0) + (if b.invalid then 1 else 0)) }

/-- A frame of good parity joins the open block, and shows the receiver locked unless it is lost. -/
def State.aesJoined (s : State) (n : Nat) (a b : SubFrame) (k : OpenBlk) : State :=
  let u := (s.aesHeard n a b).1.setAesRx n
    { s.aesRxAt n with blk := some (s.aesBlkWith n a b k), good := (s.aesRxAt n).good + 1 }
  if u.bit (Reg.aesRxStatus n) 1 then u else u.setBit (Reg.aesRxStatus n) 0 true

theorem State.aesRxAt_aesJoined (s : State) (n : Nat) (a b : SubFrame) (k : OpenBlk) :
    (s.aesJoined n a b k).aesRxAt n =
      { s.aesRxAt n with blk := some (s.aesBlkWith n a b k), good := (s.aesRxAt n).good + 1 } := by
  simp only [State.aesJoined, State.aesRxAt_setBit_unless, State.aesRxAt_setAesRx_same]

section
variable {n : Fin 8} {a b : SubFrame} {s : State} {k : OpenBlk} (hrun : s.hold = .run) (hen : s.bit (Reg.aesRxCfg n.val) 0 = true)
  (hreset : s.inReset (176 + n.val) = false) (hk : (s.aesRxAt n.val).blk = some k) (hheat : k.heat = s.heat)
include hrun hen hreset hk hheat

theorem does_aesRxFrame_glitch :
    Does (.aesRxFrame n a b true) s
      ((s.setAesRx n.val { s.aesRxAt n.val with
          blk := some { k with glitch := k.glitch + 1, overrun := k.overrun + 1, flags := k.flags ||| bfDisc },
          good := 0 }).serialEvent (176 + n.val) 0x01 0xFF 1) := by
  refine does_of_run _ (by rw [arm_aesRxFrame, execAesRxFrame]) hrun ?_
  simp only [hen, hreset, hk, if_pos hheat, Option.isNone_some, Option.getD_some, Bool.not_true, Bool.or_self, Bool.false_eq_true, if_false,
    if_true]

theorem does_aesRxFrame_good (ha : a.parityOk = true) (hb : b.parityOk = true) :
    Does (.aesRxFrame n a b false) s (s.aesJoined n.val a b k) := by
  refine does_of_run _ (by rw [arm_aesRxFrame, execAesRxFrame]) hrun ?_
  simp only [hen, hreset, hk, if_pos hheat, ha, hb, State.aesParity_of_good, Option.isNone_some, Option.getD_some,
    Bool.not_true, Bool.or_self, Bool.false_eq_true, if_false, if_true]
  rfl

end

/-! ### Rates (R107) -/

/-- A search that takes each index nearer than the one it has ends at a nearest one. -/
theorem foldl_nearest (d : Nat → Nat) (n : Nat) :
    (List.range n).foldl (fun c k => if d k < d c then k else c) 0 ≤ n - 1 ∧
      ∀ k < n, d ((List.range n).foldl (fun c k => if d k < d c then k else c) 0) ≤ d k := by
  induction n with
  | zero => exact ⟨Nat.le_refl 0, fun k hk => absurd hk (Nat.not_lt_zero k)⟩
  | succ n ih =>
    rw [List.range_succ, List.foldl_append, List.foldl_cons, List.foldl_nil]
    generalize (List.range n).foldl (fun c k => if d k < d c then k else c) 0 = c at ih
    obtain ⟨hle, hmin⟩ := ih
    split
    case isTrue hnear =>
      refine ⟨Nat.le_refl n, fun k hk => ?_⟩
      obtain rfl | hk := Nat.eq_or_lt_of_le (Nat.le_of_lt_succ hk)
      · exact Nat.le_refl _
      · exact hnear.le.trans (hmin k hk)
    case isFalse hfar =>
      refine ⟨hle.trans (Nat.pred_le n), fun k hk => ?_⟩
      obtain rfl | hk := Nat.eq_or_lt_of_le (Nat.le_of_lt_succ hk)
      · exact Nat.le_of_not_lt hfar
      · exact hmin k hk

/-- The rate shown is one of the list, and none of it lies nearer. -/
theorem nearestRate_spec (hz : Nat) {k : Nat} (hk : k < 7) :
    nearestRate hz < 7 ∧ (hz - (rate10 (nearestRate hz) * 100 : Int)).natAbs ≤ (hz - (rate10 k * 100 : Int)).natAbs := by
  obtain ⟨hle, hmin⟩ := foldl_nearest (rateDist hz) 7
  refine ⟨Nat.lt_succ_of_le hle, ?_⟩
  have h := hmin k hk
  simp only [rateDist, Nat.cast_mul] at h
  exact h

theorem does_aesRateDetect_above {n : Fin 8} {hz : Nat} {s : State} (hrun : s.hold = .run)
    (hen : s.bit (Reg.aesRxCfg n.val) 0 = true) (hauto : s.bit (Reg.aesRxCfg n.val) 3 = true)
    (habove : aboveMax hz (s.getF (Reg.aesRxCfg n.val) 15 12) = true) (hhad : s.bit (Reg.aesRxStatus n.val) 1 = false) :
    Does (.aesRateDetect n hz ()) s ((s.loseStream (.aes n)).streamEvent (.aes n) 0x05 0x38) := by
  refine does_of_run _ (by rw [arm_aesRateDetect, execAesRateDetect]) hrun ?_
  simp only [State.bitAt_reg, State.fld_reg, hen, hauto, habove, hhad, Bool.not_true, Bool.or_self, Bool.false_eq_true, if_false, if_true]

/-- The rate already shown stays, and the stream goes on. -/
theorem does_aesRateDetect_same {n : Fin 8} {hz : Nat} {s : State} (hrun : s.hold = .run)
    (hen : s.bit (Reg.aesRxCfg n.val) 0 = true) (hauto : s.bit (Reg.aesRxCfg n.val) 3 = true)
    (hin : aboveMax hz (s.getF (Reg.aesRxCfg n.val) 15 12) = false) (hsame : s.getF (Reg.aesRxStatus n.val) 9 6 = nearestRate hz)
    (hconv : s.asrcOf (16 + n.val) = none) :
    Does (.aesRateDetect n hz ()) s (s.putF (Reg.aesRxStatus n.val) 9 6 (nearestRate hz)) := by
  have hconv : (s.putF (Reg.aesRxStatus n.val) 9 6 (nearestRate hz)).asrcOf (16 + n.val) = none := hconv
  refine does_of_run _ (by rw [arm_aesRateDetect, execAesRateDetect]) hrun ?_
  simp only [State.bitAt_reg, State.fld_reg, hen, hauto, hin, hconv, hsame, Bool.not_true, Bool.or_self, Bool.false_eq_true, if_false,
    true_or, if_true]

/-! ### Enables (R106, R115) -/

theorem State.rawWrite_frame (s : State) (o : Nat) (v : Word) : ∃ r, s.rawWrite o v = { s with regs := r } := by
  obtain hw | ⟨x, hw⟩ := s.rawWrite_cases o v <;> rw [hw]
  · exact ⟨s.regs, rfl⟩
  · exact ⟨_, rfl⟩

theorem State.asrcOf_rawWrite (s : State) (o : Nat) (v : Word) (code : Nat) : (s.rawWrite o v).asrcOf code = s.asrcOf code := by
  obtain ⟨r, hr⟩ := s.rawWrite_frame o v
  rw [hr]
  rfl

theorem State.asrcOf_setCs (s : State) (k : Nat) (h : CsH) (code : Nat) : (s.setCs k h).asrcOf code = s.asrcOf code := by
  simp only [State.asrcOf, State.setCs]

theorem State.asrcOf_setAesRx (s : State) (n : Nat) (h : RxH) (code : Nat) : (s.setAesRx n h).asrcOf code = s.asrcOf code := by
  simp only [State.asrcOf, State.setAesRx]

theorem State.aesRxAt_setCs (s : State) (k : Nat) (h : CsH) (n : Nat) : (s.setCs k h).aesRxAt n = s.aesRxAt n := rfl

theorem State.csAt_setCs (s : State) (k : Nat) (h : CsH) (j : Nat) : (s.setCs k h).csAt j = if j = k then h else s.csAt j :=
  Sparse.get_set ..

/-- A receiver without a converter that is enabled: no block, its count at zero, and both channels as after power-on. -/
def State.aesRxFresh (s : State) (n : Nat) : State :=
  ((s.setAesRx n { s.aesRxAt n with blk := none, parts := [], seq := 0, frameIdx := 0, good := 0 }).setCs (aesCs n 0) {}).setCs
    (aesCs n 1) {}

theorem State.aesRxCfgWrite_of_enable {s : State} {n : Nat} {v : Word} (hv : bitAt v 0 = true) (hwas : s.bit (Reg.aesRxCfg n) 0 = false)
    (hconv : s.asrcOf (16 + n) = none) : s.aesRxCfgWrite n v = (s.rawWrite (Reg.aesRxCfg n) v).aesRxFresh n := by
  have hconv' : (s.rawWrite (Reg.aesRxCfg n) v).asrcOf (16 + n) = none := (s.asrcOf_rawWrite ..).trans hconv
  simp only [State.aesRxCfgWrite, State.aesRxFresh, State.bitAt_reg, hv, hwas, hconv', State.asrcOf_setCs, State.asrcOf_setAesRx,
    Option.isSome_none, Bool.false_eq_true, if_false, Bool.not_false, Bool.and_self, if_true]

theorem State.aesRxFresh_regs (s : State) (n : Nat) : (s.aesRxFresh n).regs = s.regs := by
  simp only [State.aesRxFresh, State.setCs_regs, State.setAesRx_regs]

theorem State.aesRxAt_aesRxFresh (s : State) (n : Nat) :
    (s.aesRxFresh n).aesRxAt n = { s.aesRxAt n with blk := none, parts := [], seq := 0, frameIdx := 0, good := 0 } := by
  simp only [State.aesRxFresh, State.aesRxAt_setCs, State.aesRxAt_setAesRx_same]

theorem State.csAt_aesRxFresh (s : State) (n : Nat) {c : Nat} (hc : c < 2) : (s.aesRxFresh n).csAt (aesCs n c) = {} := by
  rw [State.aesRxFresh, State.csAt_setCs, State.csAt_setCs]
  obtain rfl | rfl : c = 0 ∨ c = 1 := by omega
  · rw [if_neg (by simp [aesCs]), if_pos rfl]
  · rw [if_pos rfl]

section
variable {s : State} {n : Nat} {v : Word} (hwas : s.bit (Reg.aesTxCfg n) 0 = false) (hv : bitAt v 0 = true)
include hwas hv

theorem State.aesTxCfgWrite_of_48k (hrate : fld v 15 12 = 2) :
    s.aesTxCfgWrite n v = (s.rawWrite (Reg.aesTxCfg n) v).setBit (Reg.aesTxStatus n) 0 true := by
  simp [State.aesTxCfgWrite, State.bitAt_reg, hwas, hv, hrate]

/-- At 32 kHz a transmitter that finds no converter free stays disabled. -/
theorem State.aesTxCfgWrite_of_no_converter (hrate : fld v 15 12 = 0) (hnone : s.asrcTake (48 + n) 2 2 2 0 0 = none) :
    s.aesTxCfgWrite n v = (s.rawWrite (Reg.aesTxCfg n) (setBitAt v 0 false)).setBit (Reg.aesTxStatus n) 2 true := by
  simp [State.aesTxCfgWrite, State.bitAt_reg, hwas, hv, hrate, hnone]

end

/-! ### A good block of channel A (R110 to R112) -/

theorem State.csShown_frame (s : State) (n c : Nat) (bs : List Byte) : ∃ r m, s.csShown n c bs = { s with regs := r, cs := m } := by
  have hwords : ∃ r, s.setCsWords n c bs = { s with regs := r } :=
    forUpto_keeps (P := fun t : State => ∃ r, t = { s with regs := r }) (fun _ _ _ ⟨_, ht⟩ => ht ▸ ⟨_, rfl⟩) ⟨s.regs, rfl⟩
  obtain ⟨r, hr⟩ := hwords
  rw [State.csShown, hr]
  exact ⟨_, _, rfl⟩

theorem State.csAt_csShown (s : State) (n c : Nat) (bs : List Byte) :
    (s.csShown n c bs).csAt (aesCs n c) = (s.csAt (aesCs n c)).good bs := by
  rw [← s.csAt_setCsWords n c bs]
  exact (State.csAt_setCs ..).trans (if_pos rfl)

/-- Status bits 4 and 5 show the format of the channels, bits 2 and 3 that they are no audio. -/
theorem State.bit_csShown (s : State) (n : Nat) {c : Nat} (bs : List Byte) (hc : c < 2) :
    (s.csShown n c bs).bit (Reg.aesRxStatus n) (4 + c) = (bs.getD 0 0).getLsbD 0 ∧
      (s.csShown n c bs).bit (Reg.aesRxStatus n) (2 + c) = ((s.csAt (aesCs n c)).good bs).nonAudio := by
  rw [← s.csAt_setCsWords n c bs]
  constructor
  · refine (State.bit_setBit _ _ _ _ _ (by omega)).trans ((if_neg (by omega)).trans ?_)
    exact (State.bit_setBit _ _ _ _ _ (by omega)).trans (if_pos ⟨rfl, rfl⟩)
  · exact (State.bit_setBit _ _ _ _ _ (by omega)).trans (if_pos ⟨rfl, rfl⟩)

/-- A good block of a channel that is audio raises nothing. -/
theorem State.csTaken_of_audio {s : State} {n c : Nat} {bs : List Byte} (h : ((s.csAt (aesCs n c)).good bs).nonAudio = false) :
    s.csTaken n c bs = s.csShown n c bs :=
  if_neg (by rw [h]; exact Bool.false_ne_true)

/-- Settles O9: frames, blocks and rates by what they find in the receiver, enables by the case of their register. -/
theorem aesPorts : Obligations.AesPorts := by
  unfold Obligations.AesPorts
  refine ⟨fun n a b s k => does_aesRxFrame_glitch, fun n a b s k hrun hen hreset hk hheat ha hb => ?joined,
    fun n c bs s hrun hen => does_aesCsBlock_bad hrun hen (.inl rfl), fun n bs s hrun hen hgood haudio => ?shown,
    fun n hz s => does_aesRateDetect_above, fun n hz s => does_aesRateDetect_same, fun hz k => nearestRate_spec hz,
    fun m n c s hrun => ⟨_, does_aesRxCsRead hrun, rfl, fun i live => s.latched_csRead_same m n.val c.val live, rfl⟩,
    fun m n v s hrun hmay hv hwas hconv => ?enabled, fun m n v s hrun hmay hwas hv hrate => ?runs,
    fun m n v s hrun hmay hwas hv hrate hnone => ?starved, fun m n v s hrun hmay hv => ?commit,
    fun n k s hrun hen hlocked hreset => ?sent⟩
  case joined => exact ⟨_, _, does_aesRxFrame_good hrun hen hreset hk hheat ha hb, s.aesRxAt_aesJoined n.val a b k⟩
  case shown =>
    have hdoes : Does (.aesCsBlock n 0 bs false) s (s.csShown n.val 0 bs) :=
      State.csTaken_of_audio haudio ▸ does_aesCsBlock_good hrun hen hgood
    obtain ⟨hpro, hnon⟩ := s.bit_csShown n.val bs (c := 0) (by decide)
    obtain ⟨r, m, hframe⟩ := s.csShown_frame n.val 0 bs
    exact ⟨_, hdoes, fun i hi => s.reg_csShown n.val 0 bs hi, s.csAt_csShown n.val 0 bs, hpro, hnon.trans haudio, by rw [hframe]⟩
  case enabled =>
    refine ⟨_, does_of_gated _ (arm_aesRxEnable m n v s) hrun hmay (State.aesRxCfgWrite_of_enable hv hwas hconv),
      State.reg_congr (State.aesRxFresh_regs _ _) _, ?_, ?_, State.csAt_aesRxFresh _ _ (by decide), State.csAt_aesRxFresh _ _ (by decide)⟩
    · rw [State.aesRxAt_aesRxFresh]
    · rw [State.aesRxAt_aesRxFresh]
  case runs => exact does_of_gated _ (arm_aesTxEnable m n v s) hrun hmay (State.aesTxCfgWrite_of_48k hwas hv hrate)
  case starved => exact does_of_gated _ (arm_aesTxEnable m n v s) hrun hmay (State.aesTxCfgWrite_of_no_converter hwas hv hrate hnone)
  case commit => exact does_of_gated _ (arm_aesTxCsCommit m n v s) hrun hmay (if_pos hv)
  case sent => exact does_of_run _ (arm_aesTxFrame n k s) hrun (if_pos (by simp [hen, hlocked, hreset]))

end Sys2Proof.Machine
end

section
/-! Proofs: microphone groups (O10). What an enable of a group and a write of its microphones leave in each microphone, and when warming
and a stuck state end. -/

namespace Sys2Proof.Machine

/-! ### A loop over the microphones of a group -/

theorem State.micAt_setMic (s : State) (k : Nat) (h : MicH) (j : Nat) : (s.setMic k h).micAt j = if j = k then h else s.micAt j :=
  Sparse.get_set ..

/-- `f` changes microphone `base + i` at most, from what `s` holds of the others than the microphones: it becomes what `g` makes of it. -/
def OneMic (s : State) (base i : Nat) (f : State → State) (g : MicH → MicH) : Prop :=
  ∀ t m, t = { s with mics := m } → (∃ m', f t = { s with mics := m' }) ∧
    ∀ j, (f t).micAt (base + j) = if j = i then g (t.micAt (base + j)) else t.micAt (base + j)

theorem oneMic_setMic {s : State} {base i : Nat} {f : State → MicH} {g : MicH → MicH}
    (hf : ∀ t m, t = { s with mics := m } → f t = g (t.micAt (base + i))) : OneMic s base i (fun t => t.setMic (base + i) (f t)) g := by
  intro t m ht
  refine ⟨?_, fun j => ?_⟩
  · rw [ht]
    exact ⟨_, rfl⟩
  · rw [State.micAt_setMic, hf t m ht]
    by_cases hj : j = i
    · rw [if_pos (congrArg (base + ·) hj), if_pos hj, hj]
    · rw [if_neg (fun h => hj (Nat.add_left_cancel h)), if_neg hj]

theorem oneMic_none (s : State) (base i : Nat) : OneMic s base i (fun t => t) (fun h => h) :=
  fun _ m ht => ⟨⟨m, ht⟩, fun _ => (ite_self _).symm⟩

/-- A loop over the first `n` microphones changes each of them once, and no more. -/
theorem forUpto_oneMic {s : State} {base n : Nat} {f : Nat → State → State} {g : Nat → MicH → MicH}
    (hf : ∀ i, OneMic s base i (f i) (g i)) :
    (∃ m, forUpto n f s = { s with mics := m }) ∧ ∀ i, i < n → (forUpto n f s).micAt (base + i) = g i (s.micAt (base + i)) := by
  suffices h : (∃ m, forUpto n f s = { s with mics := m }) ∧
      ∀ i, (forUpto n f s).micAt (base + i) = if i < n then g i (s.micAt (base + i)) else s.micAt (base + i) from
    h.imp_right fun hmic i hi => (hmic i).trans (if_pos hi)
  induction n with
  | zero => exact ⟨⟨s.mics, rfl⟩, fun i => (if_neg (Nat.not_lt_zero i)).symm⟩
  | succ n ih =>
    obtain ⟨⟨m, hm⟩, hmic⟩ := ih
    rw [forUpto_succ]
    obtain ⟨hframe, hmic'⟩ := hf n _ m hm
    refine ⟨hframe, fun i => ?_⟩
    rw [hmic' i, hmic i]
    obtain hlt | rfl | hgt := Nat.lt_trichotomy i n
    · rw [if_neg (Nat.ne_of_lt hlt), if_pos hlt, if_pos (Nat.lt_succ_of_lt hlt)]
    · rw [if_pos rfl, if_neg (Nat.lt_irrefl i), if_pos (Nat.lt_succ_self i)]
    · rw [if_neg (Nat.ne_of_gt hgt), if_neg (by omega), if_neg (by omega)]

/-! ### Enables (R120, R124) -/

/-- How long a microphone warms follows from the time alone. -/
theorem State.warmBlocks_congr {s t : State} (h : t.pacer = s.pacer) : t.warmBlocks = s.warmBlocks := by
  rw [State.warmBlocks, State.warmBlocks, h]

theorem State.heat_congr {s t : State} (h : t.pacer = s.pacer) : t.heat = s.heat := by
  rw [State.heat, State.heat, h]

/-- A group that is enabled: its count of blocks from zero, and all its microphones warm. -/
def State.pdmFresh (s : State) (g : Nat) : State :=
  forUpto 8 (fun i s => s.setMic (g * 8 + i) { s.micAt (g * 8 + i) with warm := s.warmBlocks, bits := [] })
    (s.setPdm g { s.pdmAt g with seq := 0, warm := s.warmBlocks })

theorem State.pdmFresh_spec (s : State) (g : Nat) :
    (s.pdmFresh g).pacer = s.pacer ∧ (s.pdmFresh g).pdmAt g = { s.pdmAt g with seq := 0, warm := s.warmBlocks } ∧
      ∀ i, i < 8 → (s.pdmFresh g).micAt (g * 8 + i) = { s.micAt (g * 8 + i) with warm := s.warmBlocks, bits := [] } := by
  obtain ⟨⟨m, hm⟩, hmic⟩ := forUpto_oneMic (s := s.setPdm g { s.pdmAt g with seq := 0, warm := s.warmBlocks })
    (base := g * 8) (n := 8) (g := fun _ h => { h with warm := s.warmBlocks, bits := [] })
    fun i => oneMic_setMic (f := fun t => { t.micAt (g * 8 + i) with warm := t.warmBlocks, bits := [] }) fun t m ht => by
      rw [State.warmBlocks_congr (s := s) (ht ▸ rfl)]
  refine ⟨?_, ?_, hmic⟩
  · rw [State.pdmFresh, hm]
    rfl
  · rw [State.pdmFresh, hm]
    exact Sparse.get_set_same ..

/-- What a write of `PDM_GRPg_CFG` stores: EN as written, DIV only on a disabled group and of a code that is given. -/
def State.pdmCfgStored (s : State) (g : Nat) (v : Word) : Word :=
  let old := s.reg (Reg.pdmGrpCfg g)
  setFld (setBitAt old 0 (bitAt v 0)) 7 4 (if bitAt old 0 || 6 ≤ fld v 7 4 then fld old 7 4 else fld v 7 4)

/-- A group that is enabled begins afresh on the registers as written, and its entries come back from the next heat on. -/
theorem State.pdmCfgWrite_of_enable {s t : State} {g : Nat} {v : Word} (ht : t = s.rawWrite (Reg.pdmGrpCfg g) (s.pdmCfgStored g v))
    (hv : bitAt v 0 = true) (hwas : s.bit (Reg.pdmGrpCfg g) 0 = false) :
    s.pdmCfgWrite g v = (t.pdmFresh g).mapStream (.pdm (Fin.ofNat 4 g)) (SrcH.regain (s.heat + 1)) := by
  have hedge : (bitAt v 0 && !bitAt (s.reg (Reg.pdmGrpCfg g)) 0) = true := by rw [s.bitAt_reg, hv, hwas]; rfl
  have hheat : (t.pdmFresh g).heat = s.heat := by
    obtain ⟨hpacer, -, -⟩ := t.pdmFresh_spec g
    obtain ⟨r, hr⟩ := s.rawWrite_frame (Reg.pdmGrpCfg g) (s.pdmCfgStored g v)
    exact State.heat_congr (hpacer.trans (by rw [ht, hr]))
  rw [← hheat, ht]
  exact if_pos hedge

/-- Microphone `i` of group `g` when `PDM_GRPg_MIC_EN` goes from `old` to `v`: it warms if it is added. -/
def State.micAdd (g : Nat) (v old : Word) (i : Nat) (s : State) : State :=
  if bitAt v i && !bitAt old i then
    s.setMic (g * 8 + i) { s.micAt (g * 8 + i) with warm := s.warmBlocks, stuckRun := 0, bits := [] } else s

theorem oneMic_micAdd (s : State) (g : Nat) (v old : Word) (i : Nat) :
    OneMic s (g * 8) i (State.micAdd g v old i)
      (fun h => if bitAt v i && !bitAt old i then { h with warm := s.warmBlocks, stuckRun := 0, bits := [] } else h) := by
  unfold State.micAdd
  split
  · refine oneMic_setMic (f := fun t => { t.micAt (g * 8 + i) with warm := t.warmBlocks, stuckRun := 0, bits := [] }) fun t m ht => ?_
    rw [State.warmBlocks_congr (s := s) (by rw [ht])]
  · exact oneMic_none s (g * 8) i

/-- A write of the microphones of a group stores them, and those added warm. -/
theorem State.micEnWrite_spec (s : State) (g : Nat) (v : Word) :
    (s.micEnWrite g v).regs = (s.rawWrite (Reg.pdmGrpMicEn g) v).regs ∧
      ∀ i, i < 8 → (s.micEnWrite g v).micAt (g * 8 + i) =
        if bitAt v i && !s.bit (Reg.pdmGrpMicEn g) i then { s.micAt (g * 8 + i) with warm := s.warmBlocks, stuckRun := 0, bits := [] }
        else s.micAt (g * 8 + i) := by
  have hloop : s.micEnWrite g v =
      forUpto 8 (State.micAdd g v (s.reg (Reg.pdmGrpMicEn g))) (s.rawWrite (Reg.pdmGrpMicEn g) v) := rfl
  obtain ⟨⟨m, hm⟩, hmic⟩ := forUpto_oneMic (n := 8)
    (oneMic_micAdd (s.rawWrite (Reg.pdmGrpMicEn g) v) g v (s.reg (Reg.pdmGrpMicEn g)))
  rw [hloop]
  refine ⟨by rw [hm], fun i hi => (hmic i hi).trans ?_⟩
  obtain ⟨r, hr⟩ := s.rawWrite_frame (Reg.pdmGrpMicEn g) v
  rw [hr]
  rfl

/-- Settles O10: an enable and a write of microphones by what they leave in each microphone, the rest by one case each. -/
theorem pdmGroups : Obligations.PdmGroups := by
  unfold Obligations.PdmGroups
  refine ⟨fun m g v s hrun hmay hv hwas => ?enabled, fun m g v s hrun hmay => ?added, fun k s u hrun hu hcold => ?micWarm,
    fun k s u hrun hu hwarm => ?groupWarm, fun k s hrun hlong => does_of_run _ (arm_pdmMicStuckLong k s) hrun (if_pos hlong),
    fun s => rfl, fun lines m d _ => ⟨?rising, fun _ hodd => ?falling⟩, fun h => ⟨rfl, rfl, rfl⟩,
    fun h hrun => ?stays, fun h hrun => ?moves⟩
  case enabled =>
    obtain ⟨r, hr⟩ := s.rawWrite_frame (Reg.pdmGrpCfg g) (s.pdmCfgStored g v)
    obtain ⟨-, hpdm, hmic⟩ := State.pdmFresh_spec (s.rawWrite (Reg.pdmGrpCfg g) (s.pdmCfgStored g v)) g
    have hwrite := State.pdmCfgWrite_of_enable rfl hv hwas
    rw [Fin.ofNat_val_eq_self] at hwrite
    refine ⟨_, does_of_gated _ (arm_pdmGroupEnable m g v s) hrun hmay hwrite, hpdm.trans ?_, fun i hi => (hmic i hi).trans ?_⟩ <;>
    · rw [hr]
      rfl
  case added =>
    obtain ⟨hregs, hmic⟩ := s.micEnWrite_spec g v
    refine ⟨_, does_of_gated _ (arm_pdmMicEnWrite m g v s) hrun hmay rfl, hregs, fun i hi hv hwas => ?_, fun i hi hnot => ?_⟩
    · rw [hmic i hi, hv, hwas]
      rfl
    · refine (hmic i hi).trans (if_neg ?_)
      obtain h | h := hnot <;> simp [h]
  case micWarm =>
    subst hu
    exact does_of_run _ (arm_pdmWarmingEnd k s) hrun (if_neg (by rw [hcold]; exact Bool.false_ne_true))
  case groupWarm =>
    subst hu
    exact does_of_run _ (arm_pdmWarmingEnd k s) hrun (if_pos hwarm)
  case rising => rw [micBits, Nat.mul_div_cancel_left d (by decide), Nat.mul_mod_right]
  case falling => rw [micBits, hodd]
  case stays => simp [MicH.heat, hrun]
  case moves => simp [MicH.heat, Nat.not_lt.mpr hrun]

end Sys2Proof.Machine
end

section
/-! Proofs: the output of a voted source (O12). Which inputs of an electorate agree, and which of those that may play does. -/

namespace Sys2Proof.Machine

/-! ### The inputs that agree, and the one that plays (R157) -/

/-- The inputs of an electorate that have another input's samples. -/
def agreeing (els : List (Nat × List Word)) : List (Nat × List Word) :=
  els.filter fun p => els.any fun q => q.1 != p.1 && q.2 == p.2

/-- Of some inputs the primary plays if it is among them, else the first. -/
def playing (primary : Nat) (els : List (Nat × List Word)) : Option Nat :=
  if els.any fun p => p.1 == primary then some primary else els.head?.map (·.1)

theorem playing_of_mem {p : Nat} {els : List (Nat × List Word)} (h : p ∈ els.map (·.1)) : playing p els = some p :=
  if_pos (by simpa using h)

theorem playing_of_not_mem {p : Nat} {a : Nat × List Word} {els : List (Nat × List Word)} (h : ∀ b ∈ a :: els, b.1 ≠ p) :
    playing p (a :: els) = some a.1 :=
  if_neg fun hany =>
    have ⟨b, hb, hbp⟩ := List.any_eq_true.mp hany
    h b hb (eq_of_beq hbp)

theorem agreeing_eq_nil {els : List (Nat × List Word)} (h : (els.map (·.2)).Nodup) : agreeing els = [] := by
  refine List.filter_eq_nil_iff.mpr fun a ha hany => ?_
  obtain ⟨b, hb, hab⟩ := List.any_eq_true.mp hany
  obtain ⟨hne, heq⟩ : b.1 ≠ a.1 ∧ b.2 = a.2 := by simpa using hab
  exact hne (congrArg Prod.fst (List.inj_on_of_nodup_map h hb ha heq))

/-- Two inputs or more: those that agree outvote the others, if there are any. -/
theorem ballot_cons_cons (p : Nat) (a b : Nat × List Word) (els : List (Nat × List Word)) :
    ballot p (a :: b :: els) =
      if (agreeing (a :: b :: els)).isEmpty then { out := playing p (a :: b :: els), event := 0x43 }
      else { out := playing p (agreeing (a :: b :: els)), agree := (agreeing (a :: b :: els)).map (·.1) } := rfl

theorem ballot_of_agreeing {p : Nat} {a b c : Nat × List Word} {els ag : List (Nat × List Word)} (h : agreeing (a :: b :: els) = c :: ag) :
    ballot p (a :: b :: els) = { out := playing p (c :: ag), agree := (c :: ag).map (·.1) } := by
  rw [ballot_cons_cons, h]
  rfl

/-- No two inputs equal: nothing outvotes the primary. -/
theorem ballot_of_distinct {p : Nat} {a b : Nat × List Word} {els : List (Nat × List Word)}
    (h : ((a :: b :: els).map (·.2)).Nodup) (hp : p ∈ (a :: b :: els).map (·.1)) :
    ballot p (a :: b :: els) = { out := some p, event := 0x43 } := by
  rw [ballot_cons_cons, agreeing_eq_nil h, playing_of_mem hp]
  rfl

/-! ### Three inputs, of which two or all agree -/

theorem agreeing_all (x : List Word) : agreeing [(0, x), (1, x), (2, x)] = [(0, x), (1, x), (2, x)] := by
  simp [agreeing]

theorem agreeing_first_two {x z : List Word} (h : x ≠ z) : agreeing [(0, x), (1, x), (2, z)] = [(0, x), (1, x)] := by
  simp [agreeing, h]

theorem agreeing_last_two {x z : List Word} (h : x ≠ z) : agreeing [(0, x), (1, z), (2, z)] = [(1, z), (2, z)] := by
  simp [agreeing, h.symm]

/-- Settles O12: which inputs agree decides each ballot, and the primary's place among them what plays. -/
theorem voterBallot : Obligations.VoterBallot := by
  unfold Obligations.VoterBallot
  refine ⟨fun p => rfl, fun p i x => rfl, fun p x y z hxy hyz hp => ?all, fun x y z hxy hyz => ?outvoted, fun x y z hxy hyz => ?primary,
    fun p x y z hxy hyz hxz hp => ?lastTwo, fun p x y z hxy hyz hxz hp => ?distinct, fun i j x y hij hxy => ?pair⟩
  case all =>
    subst hxy hyz
    rw [ballot_of_agreeing (agreeing_all x), playing_of_mem (by simp; omega)]
    rfl
  case outvoted =>
    subst hxy
    rw [ballot_of_agreeing (agreeing_first_two hyz), playing_of_not_mem (by simp)]
    rfl
  case primary =>
    subst hxy
    rw [ballot_of_agreeing (agreeing_first_two hyz), playing_of_mem (by simp)]
    rfl
  case lastTwo =>
    subst hyz hp
    rw [ballot_of_agreeing (agreeing_last_two hxy), playing_of_not_mem (by simp)]
    rfl
  case distinct => exact ballot_of_distinct (by simp [hxy, hyz, hxz]) (by simp; omega)
  case pair => exact ballot_of_distinct (by simp [hxy]) (by simp)

end Sys2Proof.Machine
end

section
/-! Proofs: the packet ports (O11). What a received frame does by the first rule it meets, what a leg or a link that goes down or comes up
leaves, and what a host frame and a packet of a transmit flow change. -/

namespace Sys2Proof.Machine

/-! ### Received frames (R132, R137) -/

section
variable {s : State} {p : Nat} (hen : s.bit (Reg.pktPCtrl p) 0 = true) (hup : s.bit (Reg.pktPStatus p) 0 = true)
include hen hup

theorem State.rxFrame_of_bad_fcs (bs : List Byte) : s.rxFrame p false bs = s.bump (Reg.pktPFcsErr p) 32 := by
  simp [State.rxFrame, hen, hup]

theorem State.rxFrame_of_too_long {bs : List Byte} (h : 1518 < bs.length) : s.rxFrame p true bs = s.bump (Reg.pktPRxDrop p) 32 := by
  simp [State.rxFrame, hen, hup, h]

/-- A frame that is neither tagged nor IPv4 belongs to no flow, so rule 3 is the first that a broadcast meets. -/
theorem State.rxFrame_of_broadcast {bs : List Byte} (h : bs.length ≤ 1518) (htag : beAt bs 12 2 ≠ 0x8100) (hip : beAt bs 12 2 ≠ 0x0800)
    (hdst : bs.take 6 = List.replicate 6 0xFF#8) : s.rxFrame p true bs = s.frameToRing p 3 false bs := by
  simp [State.rxFrame, hen, hup, Nat.not_lt.mpr h, beq_false_of_ne htag, hip, hdst]

end

theorem does_pktRxFrame {p : Fin 2} {ok : Bool} {bs : List Byte} {s u : State} (hrun : s.hold = .run)
    (hreset : s.inReset (192 + p.val) = false) (hu : s.rxFrame p.val ok bs = u) : Does (.pktRxFrame p ok bs) s u :=
  does_of_run _ (arm_pktRxFrame p ok bs s) hrun ((if_neg (by simp [hreset])).trans hu)

theorem State.flowPacket_of_other_type {s : State} {f p : Nat} {udp : List Byte} {ts pt ssrc : Nat} {pay : List Byte}
    (hrtp : rtpOf udp = some (ts, pt, ssrc, pay)) (hpt : pt ≠ leAt (s.flowAt f).entry 32 1) :
    s.flowPacket f p udp = ((s.bump (Reg.pktPFlowPkts p) 32).legBad f p).bump (Reg.pktRxfErrCnt f) 32 := by
  simp [State.flowPacket, hrtp, hpt]

/-! ### Events of a packet port (R161) -/

/-- An event of a packet port is counted and presented, nothing more. -/
theorem State.packetEvent_frame (s : State) (p code f : Nat) :
    ∃ c fc, s.packetEvent p code f = { s with evCounts := c, fc := fc } := by
  unfold State.packetEvent
  split
  · exact ⟨s.evCounts, s.fc, rfl⟩
  · obtain ⟨q, l, hq⟩ := State.emit_eq (s.countEv (192 + p) code f 1).1 (192 + p) code
      (syn12 code f (min (s.countEv (192 + p) code f 1).2 4095))
    exact ⟨_, _, hq⟩

@[simp] theorem State.packetEvent_flows (s : State) (p code f : Nat) : (s.packetEvent p code f).flows = s.flows := by
  obtain ⟨c, fc, h⟩ := s.packetEvent_frame p code f
  rw [h]

@[simp] theorem State.packetEvent_freeCtr (s : State) (p code f : Nat) : (s.packetEvent p code f).freeCtr = s.freeCtr := by
  obtain ⟨c, fc, h⟩ := s.packetEvent_frame p code f
  rw [h]

/-! ### Legs and links (R71, R130, R143, R161) -/

/-- Leg `p` of flow `f` is down, in the flow and in the status it shows. -/
def State.legShownDown (s : State) (f p : Nat) : State :=
  (s.setFlow f (if p = 0 then { s.flowAt f with leg0 := {} } else { s.flowAt f with leg1 := {} })).setBit (Reg.pktRxfState f) (3 + p) false

theorem State.flowAt_legShownDown (s : State) (f p : Nat) : (s.legShownDown f p).flowAt f =
    if p = 0 then { s.flowAt f with leg0 := {} } else { s.flowAt f with leg1 := {} } :=
  Sparse.get_set_same ..

theorem State.bit_legShownDown (s : State) (f : Nat) {p : Nat} (i : Nat) (hp : p < 29) : (s.legShownDown f p).bit (Reg.pktRxfState f) i =
    if i = 3 + p then false else s.bit (Reg.pktRxfState f) i := by
  rw [State.legShownDown, State.bit_setBit _ _ _ _ _ (by omega)]
  simp [State.bit_congr (State.setFlow_regs ..)]

/-- The only leg of a flow that was down already loses the stream, once. -/
theorem State.legDown_of_single_leg {s : State} {f : Fin 2048} {p : Fin 2} (hen : s.bit (Reg.pktRxfState f.val) 0 = true)
    (hleg : rxLeg (s.flowAt f.val).entry p.val = true) (hone : rxTwoLegs (s.flowAt f.val).entry = false)
    (hlost : s.streamLost (.flow f) = false) (h0 : (s.flowAt f.val).leg0.up = false) (h1 : (s.flowAt f.val).leg1.up = false) :
    s.legDown f.val p.val false = ((s.legShownDown f.val p.val).loseStream (.flow f)).streamEvent (.flow f) 0x06 0x35 := by
  have hlost' : (s.legShownDown f.val p.val).streamLost (.flow f) = false :=
    (s.bit_legShownDown f.val 2 (by omega)).trans ((if_neg (by omega)).trans hlost)
  unfold State.legDown
  rw [Fin.ofNat_val_eq_self]
  simp only [hen, hleg, hone, h0, h1, ite_self, Bool.and_false, Bool.not_true, Bool.or_self, Bool.false_and, Bool.false_eq_true, if_false,
    Bool.false_or]
  exact if_neg (Bool.eq_false_iff.mp hlost')

/-- Where no receive flow is set a link that drops brings no leg down. -/
theorem State.pktLinkDown_of_no_flows {s : State} {p : Nat} (hup : s.bit (Reg.pktPStatus p) 0 = true) (hflows : s.flows = []) :
    s.pktLinkDown p = ((s.setReg (Reg.pktPStatus p) 0).packetEvent p 0x31 0xFFF).showSending := by
  simp [State.pktLinkDown, hup, State.flowsOn, hflows]

/-- Without autonegotiation a link comes up at the speed configured, and at 25 Gb/s with the correction configured. -/
theorem does_pktLinkUp_configured {p : Fin 2} {fast : Bool} {fec : Fin 3} {s : State} (hrun : s.hold = .run)
    (hen : s.bit (Reg.pktPCtrl p.val) 0 = true) (hauto : s.bit (Reg.pktPCtrl p.val) 4 = false)
    (hfast : s.bit (Reg.pktPCtrl p.val) 2 = true) :
    Does (.pktLinkUp p fast fec) s
      (((s.setReg (Reg.pktPStatus p.val) (BitVec.ofNat 32 (s.getF (Reg.pktPCtrl p.val) 9 8 * 64 + 33))).packetEvent
        p.val 0x32 0xFFF).showSending) := by
  refine does_of_run _ (arm_pktLinkUp p fast fec s) hrun ?_
  simp [State.bitAt_reg, State.fld_reg, hen, hauto, hfast]

/-! ### A read of word 0 of a channel of the window (R138) -/

/-- The register of word `i` of channel `c` of the window. -/
def pktCsReg (c i : Nat) : Nat := if c = 0 then Reg.pktCsA i else Reg.pktCsB i

/-- Words 1 to 5 of a channel. -/
def pktCsLatched (c : Nat) : List Nat := (List.range 5).map fun i => pktCsReg c (i + 1)

theorem pktCsReg_mem_latched {c i : Nat} (h1 : 1 ≤ i) (h5 : i ≤ 5) : pktCsReg c i ∈ pktCsLatched c :=
  List.mem_map.mpr ⟨i - 1, List.mem_range.mpr (by omega), by rw [Nat.sub_add_cancel h1]⟩

/-- The six words of one channel lie apart from those of the other. -/
theorem other_not_mem_pktCsLatched {c i : Nat} (hi : i ≤ 5) : (if c = 0 then Reg.pktCsB i else Reg.pktCsA i) ∉ pktCsLatched c := by
  intro h
  obtain ⟨j, hj5, hj⟩ := List.mem_map.mp h
  have hj5 := List.mem_range.mp hj5
  by_cases hc : c = 0
  · rw [pktCsReg, if_pos hc, if_pos hc] at hj
    simp only [Reg.pktCsA, Reg.pktCsB] at hj
    omega
  · rw [pktCsReg, if_neg hc, if_neg hc] at hj
    simp only [Reg.pktCsA, Reg.pktCsB] at hj
    omega

/-- The reading master has the words latched, and reads word 0. -/
def State.pktCsShown (s : State) (m : Master) (c : Nat) : State :=
  { s.latchWords m (pktCsLatched c) s.reg with rdata := s.reg (pktCsReg c 0) }

theorem does_pktCsRead {m : Master} {c : Fin 2} {s : State} (hrun : s.hold = .run) : Does (.pktCsRead ⟨m, c⟩) s (s.pktCsShown m c.val) :=
  does_of_run _ (arm_pktCsRead ⟨m, c⟩ s) hrun rfl

/-! ### Host frames (R147, R464) -/

/-- Ring `r` is the transmit frame ring of port `p`, which sends; it may be read, and holds an entry. -/
structure State.HostFrameDue (s : State) (p r : Nat) : Prop where
  notReset : s.inReset (192 + p) = false
  named : r = s.getF (Reg.pktPRings p) 30 16
  given : s.bit (Reg.pktPRings p) 31 = true
  enabled : s.bit (Reg.pktPCtrl p) 0 = true
  sends : s.bit (Reg.pktPCtrl p) 1 = true
  ringEn : s.ringEn r = true
  ringOk : s.ringErr r = false
  ringType : s.ringType r = 8
  occupied : s.ringOcc r ≠ 0
  runs : s.stalls r = false

/-- An entry that passes the checks of R464 and asks for no time stamp. -/
structure PlainHostFrame (en : List Byte) : Prop where
  short : leAt en 0 2 ≤ 1518
  long : 14 ≤ leAt en 0 2
  flags : leAt en 2 1 = 0
  rsv : firstNonzero en 3 5 = none
  rest : firstNonzero en 16 48 = none

theorem does_pktHostFrameSend {p : Fin 2} {en : List Byte} {s u : State} {r : Nat} (hrun : s.hold = .run) (hdue : s.HostFrameDue p.val r)
    (hen : PlainHostFrame en) (hu : u = (s.fetchOne r).setBit (Reg.ringStatus r) 2 false) (hup : u.bit (Reg.pktPStatus p.val) 0 = true) :
    Does (.pktHostFrameSend p en) s
      ((State.bump { u with frameTx := Sparse.set [] u.frameTx p.val (withFcs ((en.drop 64).take (leAt en 0 2))) }
          (Reg.pktPTxFrames p.val) 32).completeAt (.ring (Fin.ofNat 32768 r) (s.reg (Reg.ringCons r)))
        { status := stOk, tag := BitVec.ofNat 64 (leAt en 8 8), time := u.heat }) := by
  obtain ⟨hreset, rfl, hgiven, hctrl, hsends, hring, hok, htype, hocc, hruns⟩ := hdue
  obtain ⟨hshort, hlong, hflags, hrsv, hrest⟩ := hen
  have hlen : ¬ (leAt en 0 2 < 14 ∨ 1518 < leAt en 0 2) := by omega
  refine does_of_run _ (arm_pktHostFrameSend p en s) hrun ((if_neg ?due).trans ((if_neg ?runs).trans ?_))
  case due => simp [State.bitAt_reg, State.fld_reg, hreset, hgiven, hctrl, hsends, hring, hok, htype, hocc]
  case runs => simp [State.fld_reg, hruns]
  have hbad : ¬ 2 ≤ leAt en 2 1 := by omega
  have hstamp : (leAt en 2 1 % 2 == 1) = false := by rw [hflags]; rfl
  simp only [State.fld_reg, ← hu, hlen, hbad, hstamp, hrsv, hrest, hup, Option.orElse_none, if_false, Bool.not_true, Bool.false_eq_true]
  rfl

/-! ### Transmit flows (R150) -/

/-- A packet takes one free value and advances the sequence number, whatever its legs and its samples do. -/
theorem State.flowSend_spec (s : State) (f : Nat) :
    ∃ u : State, s.flowSend f = u.setTxFlow f { u.txFlowAt f with seq := (s.txFlowAt f).seq + 1 } ∧ u.freeCtr = s.freeCtr + 1 := by
  unfold State.flowSend
  extract_lets h en n first bytes xs pay ts rtp ident t t' leg v
  have hleg : ∀ w p, (leg w p).freeCtr = w.freeCtr := fun w p => by
    unfold leg
    repeat' split
    all_goals rfl
  refine ⟨v, rfl, ?_⟩
  rw [show v = leg (leg t' 0) 1 from rfl, hleg, hleg]
  unfold t'
  split
  · exact State.packetEvent_freeCtr ..
  · rfl

/-- Settles O11: each command by the branch its hypotheses select. -/
theorem packetPorts : Obligations.PacketPorts := by
  unfold Obligations.PacketPorts
  refine ⟨fun p bs s hrun hreset hen hup => does_pktRxFrame hrun hreset (State.rxFrame_of_bad_fcs hen hup bs),
    fun p bs s hrun hreset hen hup hlen => does_pktRxFrame hrun hreset (State.rxFrame_of_too_long hen hup hlen),
    fun p bs s hrun hreset hen hup hlen htag hip hdst =>
      does_pktRxFrame hrun hreset (State.rxFrame_of_broadcast hen hup hlen htag hip hdst),
    fun f p udp ts pt ssrc pay s hrtp hpt => State.flowPacket_of_other_type hrtp hpt,
    fun f p s hrun hen hleg hone hlost h0 h1 => ?leg, fun p s hrun hup hflows => ?down,
    fun p fast fec s hrun hen hauto hfast => does_pktLinkUp_configured hrun hen hauto hfast,
    fun p en s u r hrun hreset hr hgiven hctrl hsends hring hok htype hocc hruns hu hlong hshort hflags hrsv hrest hup => ?host,
    fun m c s hrun => ?read, fun f s hrun hen => ?sent⟩
  case leg =>
    exact ⟨_, s.flowAt_legShownDown f.val p.val, (s.bit_legShownDown _ _ (by omega)).trans (if_pos rfl),
      does_of_run _ (arm_legDown f p s) hrun (State.legDown_of_single_leg hen hleg hone hlost h0 h1)⟩
  case down => exact does_of_run _ (arm_pktLinkDown p s) hrun (State.pktLinkDown_of_no_flows hup hflows)
  case host =>
    exact does_pktHostFrameSend hrun ⟨hreset, hr, hgiven, hctrl, hsends, hring, hok, htype, hocc, hruns⟩
      ⟨hshort, hlong, hflags, hrsv, hrest⟩ hu hup
  case read =>
    exact ⟨_, does_pktCsRead hrun, rfl,
      fun i live h1 h5 => s.latched_latchWords_same m _ _ live (pktCsReg_mem_latched h1 h5),
      fun i live hi => s.latched_latchWords_of_not_mem m _ live (other_not_mem_pktCsLatched hi), rfl⟩
  case sent =>
    obtain ⟨u, hu, hfree⟩ := s.flowSend_spec f.val
    exact ⟨u, does_of_run _ (arm_flowPacketSend f s) hrun ((if_pos hen).trans hu), hfree⟩

end Sys2Proof.Machine
end

section
/-! Proofs: descriptors of the zone mixer (O21). What AMB_SET clears at its commit, and that the statement leaves one part of it out: the
averaged powers of the buses that lanes take. -/

namespace Sys2Proof.Machine

/-- What a command leaves once it is closed is one state. -/
theorem Does.closed_unique {i : Instr} {s u v : State} (hu : Does i s u) (hv : Does i s v) : s.closed u = s.closed v :=
  Host.Outcome.next.inj (hu.symm.trans hv)

/-- At its commit AMB_SET takes its entry and starts all three averages of the estimator anew (R189, R197). -/
theorem does_ambSet {o : Origin} {d : Body} {s t : State} {e : Sched} (hdue : s.Due ambSetRow 0x0105 o d e) (ht : t = s.unschedule e.id) :
    Does (.ambSet .commit o d) s (((t.setZone (d.pl 0 2) { t.zoneAt (d.pl 0 2) with
      amb := d.payload.take 21, pMeas := [], pLane := [], pPred := [], holdRun := false }).showZone (d.pl 0 2)).complete e stOk) := by
  subst ht
  exact does_commit (arm_ambSet .commit o d s) hdue (by simp only [ambSetRow, due_body hdue])

/-- An AMB_SET of zone 0 whose commit heat has come. -/
def ambDue : Sched := { id := 7, org := .core 0 0, desc := descOf 0x0105 {}, blk := .zone, heat := 1 }

/-- It waits, and in zone 0 the averaged power of the bus of lane 0 is not zero in the lowest band. -/
def ambBusy : State :=
  { State.reset with pacer := { ns := 5000000#64 }, sched := [ambDue], zones := [(0, { pLane := [(0, 1)] })] }

theorem ambBusy_due : ambBusy.Due ambSetRow 0x0105 (.core 0 0) {} ambDue := ⟨rfl, by decide⟩

/-- Refutes O21: at its commit AMB_SET clears the averages of the lanes' buses too (`ZoneH.pLane`), and the statement's clause on
AMB_SET keeps them. In `ambBusy` such an average stands. -/
theorem not_zoneDescriptors : ¬ Obligations.ZoneDescriptors := by
  unfold Obligations.ZoneDescriptors
  rintro ⟨-, -, -, -, -, -, -, -, -, -, -, -, -, -, -, -, -, hamb⟩
  have hclosed := (hamb _ _ _ _ _ _ ambBusy_due rfl rfl).closed_unique (does_ambSet ambBusy_due rfl)
  have hbus := congrArg (fun u => (u.zoneAt 0).pLane) hclosed
  exact absurd hbus (by decide)

end Sys2Proof.Machine
end

section
/-! Proofs: events of the zone mixer (O22). What a crossing or a timeout makes of a waiting step, the deadline of an update that is not
ready, the join of a silent layer, late blocks and the activity of layers. -/

namespace Sys2Proof.Machine

/-! ### Layers and zones read back -/

@[simp] theorem State.layerAt_setLayer_same (s : State) (z l : Nat) (h : LayerH) : (s.setLayer z l h).layerAt z l = h :=
  Sparse.get_set_same ..

@[simp] theorem State.zoneAt_setZone_same (s : State) (z : Nat) (h : ZoneH) : (s.setZone z h).zoneAt z = h :=
  Sparse.get_set_same ..

/-- Only a layer whose source is a player moves one. -/
theorem State.syncPlayer_of_other_source {s : State} {z l : Nat} (h : (s.layerAt z l).srcType ≠ 2) : s.syncPlayer z l = s := if_pos h

/-! ### Waiting steps (R167, R169) -/

theorem LayerH.cross_of_waiting {h : LayerH} {g : Int} {m b : Bool} (hw : h.wait = some (g, m, b)) :
    h.cross = { h with gain := g, mute := m, gate := b, wait := none, fade := none,
                       ramp := if h.gain = g ∧ h.mute = m then h.ramp else none } := by
  simp only [LayerH.cross, hw]

theorem LayerH.expire_of_waiting {h : LayerH} {w : Int × Bool × Bool} (hw : h.wait = some w) :
    h.expire = { h.cross with fade := some (h.gainFactor, 0) } := if_pos (by simp [hw])

theorem ZoneH.cross_of_waiting {h : ZoneH} {g : Int} {m b : Bool} (hw : h.wait = some (g, m, b)) :
    h.cross = { h with gain := g, mute := m, en := b, wait := none, fade := none,
                       ramp := if h.gain = g ∧ h.mute = m then h.ramp else none } := by
  simp only [ZoneH.cross, hw]

theorem ZoneH.expire_of_waiting {h : ZoneH} {w : Int × Bool × Bool} (hw : h.wait = some w) :
    h.expire = { h.cross with fade := some (h.factor, 0) } := if_pos (by simp [hw])

@[simp] theorem LayerH.cross_srcType (h : LayerH) : h.cross.srcType = h.srcType := by
  unfold LayerH.cross
  split <;> rfl

theorem does_layerZeroCrossing {t : StepTarget} {s u : State} (hrun : s.hold = .run)
    (hu : s.stepTarget t Side.cross ZoneH.cross LayerH.cross = u) : Does (.layerZeroCrossing t) s u :=
  does_of_run _ (arm_layerZeroCrossing t s) hrun hu

theorem does_stepZcTimeout {t : StepTarget} {s u : State} (hrun : s.hold = .run)
    (hu : s.stepTarget t Side.expire ZoneH.expire LayerH.expire = u) : Does (.stepZcTimeout t) s u :=
  does_of_run _ (arm_stepZcTimeout t s) hrun hu

/-- A crossing of a layer that no player feeds acts on the layer alone. -/
theorem State.stepTarget_layerGain {s : State} {z : Fin 256} {l : Fin 8} (f : Side → Side) (g : ZoneH → ZoneH) {h : LayerH → LayerH}
    (hsrc : (h (s.layerAt z.val l.val)).srcType ≠ 2) : s.stepTarget (.layerGain z l) f g h =
      (s.setLayer z.val l.val (h (s.layerAt z.val l.val))).showLayer z.val l.val :=
  congrArg (State.showLayer · z.val l.val) (State.syncPlayer_of_other_source (by rwa [State.layerAt_setLayer_same]))

/-! ### Deadlines (R178) -/

/-- Under ABANDON an assert that is not ready at its deadline ends there, with its event (R178). -/
theorem layerCommit_of_abandoned {s : State} {e : Sched} {n : Nat} (hassert : isAssert e = true) (hneeds : needsReady e = true)
    (hpol : s.policyOf e = (n, true)) (hready : s.updReady e e.heat = false) (hdl : e.asked + n ≤ e.heat) :
    layerCommit e s = (((s.setLayer (e.desc.body.pl 0 2) (e.desc.body.byte 2)
      { s.layerAt (e.desc.body.pl 0 2) (e.desc.body.byte 2) with retry := none }).policyEvent (e.desc.body.pl 0 2) (e.desc.body.byte 2)
        0x54).showLayer (e.desc.body.pl 0 2) (e.desc.body.byte 2), .done stNotReady 0) := by
  simp [layerCommit, hassert, hneeds, hpol, hready, Nat.not_lt.mpr hdl]

theorem State.settleLayer_of_done {s u : State} {e : Sched} {st v : Nat} (h : layerCommit e (s.unschedule e.id) = (u, .done st v)) :
    s.settleLayer e = u.complete e st v := by
  simp [State.settleLayer, h]

/-- The first update of `o` that is due at its deadline is judged there. -/
theorem does_readyDeadline {o : Origin} {s u : State} {e : Sched} (hrun : s.hold = .run)
    (hdue : s.sched.find? (fun e => decide (e.org = o) && needsReady e && !e.silent &&
      decide (e.asked + (s.policyOf e).1 + 1 ≤ s.heat)) = some e)
    (hu : s.settleLayer { e with
      heat := max e.heat (e.asked + (s.policyOf e).1)
      sample := if (s.policyOf e).1 = 0 ∧ e.heat = e.asked then e.sample else 0 } = u) : Does (.readyDeadline o) s u :=
  does_of_run _ (arm_readyDeadline o s) hrun (by simp only [hdue, hu])

/-! ### Joins (R179) -/

/-- A silent layer whose vote is settled and whose source is ready joins it, where no player is to start. -/
theorem State.joinSilent_of_ready {s : State} {z l c : Nat} {w : Nat × Nat} (hsil : (s.layerAt z l).silent = some w)
    (hvote : (s.layerAt z l).voteWait = none) (hsrc : (s.layerAt z l).srcType ≠ 2)
    (hready : s.srcReady (s.layerAt z l).srcType (s.layerAt z l).srcId c = true) :
    s.joinSilent z l c = ((s.setLayer z l { s.layerAt z l with silent := none, side := .rampIn 0 }).emit 219 0x57
      (zoneSyn 0x57 z l 1)).showLayer z l := by
  simp [State.joinSilent, hsil, hvote, hready, hsrc, State.syncPlayer_of_other_source]

/-! ### Ranks and activity (R171 to R173) -/

/-- A voice-alarm layer outranks every other one; within a kind the higher priority does. -/
theorem LayerH.outranks_iff (k l : LayerH) : k.outranks l = true ↔ (k.va = true ∧ l.va = false) ∨ (k.va = l.va ∧ l.prio < k.prio) := by
  simp [LayerH.outranks]

/-- Settles O22: each event by the unit it meets, the deadline by its policy, and ranks and activity by their rules. -/
theorem zoneEvents : Obligations.ZoneEvents := by
  unfold Obligations.ZoneEvents
  refine ⟨fun z l s hrun hsrc => ?layer, fun z s hrun => does_layerZeroCrossing hrun rfl, fun n s hrun => does_layerZeroCrossing hrun rfl,
    fun n s hrun => does_layerZeroCrossing hrun rfl, fun z s hrun => does_stepZcTimeout hrun rfl,
    fun n s hrun => does_stepZcTimeout hrun rfl, ⟨rfl, rfl, rfl, rfl⟩,
    fun h g m b hw => ?layerStep, fun h g m b hw => ?zoneStep,
    fun o s t e hrun hdue hdl hheat ht hpol hready hassert => ?deadline,
    fun z l w s hrun hsil hvote hsrc hready => ?join, fun z s hrun hlate => ?late,
    fun z l s hrun => does_of_run _ (arm_activityHoldExpiry z l s) hrun rfl, fun k l => ?rank, fun h hvote => ?active⟩
  case layer => exact does_layerZeroCrossing hrun (State.stepTarget_layerGain _ _ (by rwa [LayerH.cross_srcType]))
  case layerStep =>
    rw [LayerH.expire_of_waiting hw, LayerH.cross_of_waiting hw]
    exact ⟨rfl, rfl, rfl, rfl, rfl, rfl, rfl⟩
  case zoneStep =>
    rw [ZoneH.expire_of_waiting hw, ZoneH.cross_of_waiting hw]
    exact ⟨rfl, rfl, rfl, rfl, rfl, rfl, rfl⟩
  case deadline =>
    subst ht
    have hneeds : needsReady e = true := by
      have hfound := List.find?_some hdue
      simp only [Bool.and_eq_true] at hfound
      exact hfound.1.1.2
    refine does_readyDeadline hrun hdue ?_
    rw [hdl, if_neg (by omega), Nat.max_eq_left hheat.ge]
    exact State.settleLayer_of_done (layerCommit_of_abandoned (e := { e with sample := 0 }) hassert hneeds hpol hready hheat.ge)
  case join => exact does_of_run _ (arm_silentJoin z l s) hrun (State.joinSilent_of_ready hsil hvote hsrc hready)
  case late => exact does_of_run _ (arm_zoneBlockLate z s) hrun (if_neg (by simp [hlate]))
  case rank =>
    refine ⟨fun hva => (k.outranks_iff l).mpr (.inl hva), fun ⟨hk, hl⟩ => Bool.eq_false_iff.mpr fun hout => ?_, fun hva => ?_⟩
    · rw [LayerH.outranks_iff] at hout
      simp [hk, hl] at hout
    · simp [LayerH.outranks_iff, hva]
  case active => refine ⟨fun ha => ?_, fun ha => ?_, fun ha => ?_⟩ <;> simp [LayerH.active, hvote, ha]

end Sys2Proof.Machine
end

section
/-! Proofs: the order of refusals (O59). What a sound header says, and what each check that follows it comes to. -/

namespace Sys2Proof.Machine

/-- A sound header has no reserved flag, code or field, and no commit time where WHEN is 0 (R448). -/
theorem State.header_of_sound {s : State} {row : Row} {d : Desc} (h : s.headerBad (some row) d = none) :
    d.body.flags.toNat < 64 ∧ d.body.whenF ≠ 3 ∧ d.body.policy ≠ 3 ∧ d.body.rsv = 0 ∧ (row.blk = .now → d.body.whenF = 0) ∧
      (d.body.whenF = 0 → d.body.commit = 0) := by
  simp only [State.headerBad] at h
  split_ifs at h with hflags hnow hrsv hcommit
  simp only [not_or, not_and, not_not] at hflags hnow hrsv hcommit
  exact ⟨by omega, hflags.2.1, hflags.2.2, hrsv, hnow, hcommit⟩

/-- An opcode without a row is refused at its offset, the first of the header. -/
theorem State.refusal_of_unknown (s : State) (came : Came) (d : Desc) : s.refusal none came d = some (stBad, 0) :=
  refusal_header s none came d 0 rfl

/-- From a core the opcode mask is judged once the payload is sound, before the mode and the resources (R522, R605). -/
theorem State.refusal_of_masked {s : State} {row : Row} {n : Nat} {d : Desc} (h : s.headerBad (some row) d = none)
    (hchain : d.body.chain = false) (hchk : row.check s d.body ∈ [.ok, .mode, .short])
    (hmask : s.bit (Reg.coreAcOpmask n) (d.opcode.toNat / 256 % 16) = false) :
    s.refusal (some row) (.core n) d = some (stBaton, 0) := by
  unfold State.refusal
  simp only [List.mem_cons, List.not_mem_nil, or_false] at hchk
  rcases hchk with hchk | hchk | hchk <;> simp [h, hchain, hchk, hmask]

/-- From a command ring, with header and payload sound, mode and resources decide. -/
theorem State.refusal_of_sound {s : State} {row : Row} {d : Desc} (h : s.headerBad (some row) d = none) (hchain : d.body.chain = false)
    (hchk : row.check s d.body ∈ [.ok, .mode, .short]) :
    s.refusal (some row) .command d = if row.check s d.body = .mode then some (stMode, 0)
      else if row.check s d.body = .short ∨ row.blk = .zone ∧ 8192 ≤ s.getF Reg.zmSchedUsed 13 0 then some (stShort, 0) else none := by
  unfold State.refusal
  simp only [List.mem_cons, List.not_mem_nil, or_false] at hchk
  rcases hchk with hchk | hchk | hchk <;> simp [h, hchain, hchk]

/-- Settles O59: each refusal by the first check that fails. -/
theorem refusalOrder : Obligations.RefusalOrder := by
  unfold Obligations.RefusalOrder
  refine ⟨fun s row => refusal_header s (some row), fun s came d => congrArg (Option.map (·.1)) (s.refusal_of_unknown came d),
    fun s row d off h hel hchk => ?payload, fun s row n d c h hchain hel hchk hc => ?mask, fun s row d h hchain hchk => ?mode,
    fun s row d h hchain hchk => ?short, fun s row d h hchain hchk hzone hfull => ?full,
    fun s row d h hchain hchk hroom => ?accepted, fun s row d => State.header_of_sound⟩
  case payload => exact (refusal_checked s row d off h hchk).trans (if_neg (by simp [hel]))
  case mask => exact State.refusal_of_masked h hchain (hchk ▸ hc)
  case mode => rw [State.refusal_of_sound h hchain (by simp [hchk]), if_pos hchk]
  case short => rw [State.refusal_of_sound h hchain (by simp [hchk]), hchk, if_neg (by decide), if_pos (.inl rfl)]
  case full => rw [State.refusal_of_sound h hchain (by simp [hchk]), hchk, if_neg (by decide), if_pos (.inr ⟨hzone, hfull⟩)]
  case accepted =>
    rw [State.refusal_of_sound h hchain (by simp [hchk]), hchk, if_neg (by decide), if_neg]
    rintro (hshort | ⟨-, hfull⟩)
    · cases hshort
    · omega

end Sys2Proof.Machine
end

section
/-! Proofs: players, playlists and the clip cache (O23). What PLAYER_SET and the clip descriptors make of the state they meet, how the
reads of a clip and of a playlist end, and the events of a player. -/

namespace Sys2Proof.Machine

/-! ### Descriptors that act at acceptance -/

/-- The update of an accepted descriptor carries its body. -/
theorem accepts_body {s t : State} {row : Row} {op : Nat} {o : Origin} {d : Body} {rd : ReadResult} {e : Sched}
    (h : s.Accepts row op o d rd t e) : e.desc.body = d := by
  obtain ⟨-, -, -, -, -, -, -, rfl⟩ := h
  rfl

/-- A descriptor that acts at acceptance and does not settle there leaves its effect, and its update waits. -/
theorem does_now_wait {i : Instr} {s t u : State} {row : Row} {op : Nat} {o : Origin} {d : Body} {e : Sched} {rd : ReadResult}
    (hx : exec i s = act s fun s => s.descRow row op .accept o d rd) (h : s.Accepts row op o d rd t e) (hb : row.blk = .now)
    (hu : row.commit e { t with nextId := t.nextId + 1 } = (u, .wait)) : Does i s (s.noted o (descOf op d) u) :=
  does_of_run _ hx h.1 ((descRow_accept h).trans (by rw [if_pos hb, commitUpd_wait hu]))

/-! ### Players at rest (R213, R222) -/

@[simp] theorem State.playerAt_setPlayer_same (s : State) (p : Nat) (h : PlayerH) : (s.setPlayer p h).playerAt p = h :=
  Sparse.get_set_same ..

theorem State.plyBusy_of_idle {s : State} {p : Nat} (h : s.plySt p = plyIdle) : s.plyBusy p = false := by
  simp [State.plyBusy, h]

/-- A player that does not play has nothing to stop. -/
theorem State.plyStop_of_idle {s : State} {p : Nat} (h : s.plySt p = plyIdle) : s.plyStop p = s :=
  if_pos (by simp [State.plyBusy_of_idle h])

/-! ### PLAYER_SET (R222) -/

/-- A disabled player is enabled idle, with no fallback clip for the code 0xFFFF. -/
theorem playerSetRow_commit_enable {e : Sched} {d : Body} {s : State} (hd : e.desc.body = d) (hwas : s.plySt (d.byte 0) = plyDisabled)
    (hen : d.byte 1 = 1) (hfb : d.pl 6 2 = 0xFFFF) :
    playerSetRow.commit e s =
      ((((((s.setPlayer (d.byte 0) { s.playerAt (d.byte 0) with ring := d.pl 2 2, cpl := d.pl 4 2, fallback := none }).setBit
        (Reg.plyPState (d.byte 0)) 4 false).setPlySt (d.byte 0) plyIdle).setBit (Reg.plyPState (d.byte 0)) 5 false).showPlayer
          (d.byte 0)), resOk) := by
  subst hd
  simp [playerSetRow, hwas, hen, hfb]

/-- An idle player is flushed, and disabled with the rings and the fallback clip given. -/
theorem playerSetRow_commit_disable {e : Sched} {d : Body} {s u : State} (hd : e.desc.body = d) (hwas : s.plySt (d.byte 0) = plyIdle)
    (hen : d.byte 1 = 0) (hfb : d.pl 6 2 < 1024) (hu : u = s.plyFlush (d.byte 0)) :
    playerSetRow.commit e s =
      ((((((u.setPlayer (d.byte 0) { u.playerAt (d.byte 0) with ring := d.pl 2 2, cpl := d.pl 4 2, fallback := some (d.pl 6 2) }).setBit
        (Reg.plyPState (d.byte 0)) 4 false).setPlySt (d.byte 0) plyDisabled).setBit (Reg.plyPState (d.byte 0)) 5 false).showPlayer
          (d.byte 0)), resOk) := by
  subst hd hu
  have hclip : e.desc.body.pl 6 2 ≠ 0xFFFF := by omega
  simp [playerSetRow, hwas, hen, hclip, State.plyStop_of_idle hwas]

/-! ### The clip cache (R219, R220) -/

/-- CLIP_LOAD for which the cache makes room holds its pages and waits for its read. -/
theorem clipLoadRow_commit_of_room {e : Sched} {d : Body} {s u : State} {a b : List Nat} (hd : e.desc.body = d)
    (hroom : State.makeRoom (ceilDiv (loadBytes d) 4096) (loadCopy2 d) (s.evictable (d.pl 0 2)) s = some (u, a, b)) :
    clipLoadRow.commit e s =
      (State.showCache { u with clipLoads := u.clipLoads ++ [{ upd := e, pages := a, pages2 := b }] }, .wait) := by
  subst hd
  simp only [clipLoadRow, hroom]

theorem clipDropRow_commit_of_free {e : Sched} {d : Body} {s : State} (hd : e.desc.body = d) (hfree : s.clipBusy (d.pl 0 2) = false) :
    clipDropRow.commit e s = (s.dropClip (d.pl 0 2), resOk) := by
  subst hd
  exact if_neg (by simp [hfree])

/-- A read that fails completes its load FAULTED. -/
theorem does_clipLoadDone_error {o : Origin} {s t : State} {x : LoadH} (hrun : s.hold = .run)
    (hx : s.clipLoads.find? (fun x => decide (x.upd.org = o)) = some x)
    (ht : t = { s with clipLoads := s.clipLoads.filter fun y => y.upd.id != x.upd.id }) :
    Does (.clipLoadDone o .error) s (((t.bump Reg.plyCrcErrCnt 32).showCache).complete x.upd stFaulted) := by
  subst ht
  exact does_of_run _ (arm_clipLoadDone o .error s) hrun (by simp only [hx]; rfl)

/-- PLY_CLIPc_INFO of a clip whose load has ended well: valid, with the flags and FORMAT of its descriptor and its pages (R224). -/
def LoadH.info (x : LoadH) : Nat :=
  let d := x.upd.desc.body
  2 ^ 31 + d.byte 2 % 2 * 2 ^ 30 + d.byte 2 / 2 % 2 * 2 ^ 29 + d.byte 2 / 4 % 2 * 2 ^ 27 + d.byte 3 % 16 * 2 ^ 16 + x.pages.length

/-- Clip `c` holds the pages of a load of one copy, and its registers show it. -/
def State.takeLoad (s : State) (c : Nat) (x : LoadH) : State :=
  ((s.setClip c { pages := x.pages, pages2 := [], used := (s.clipAt c).used }).setReg (Reg.plyClipInfo c) (BitVec.ofNat 32 x.info)).setReg
    (Reg.plyClipLen c) (BitVec.ofNat 32 (x.upd.desc.body.pl 4 4))

/-- Data of the right length and CRC become the contents of a clip that no player names; here the load has one copy. -/
theorem does_clipLoadDone_data {o : Origin} {bs : List Byte} {s t : State} {x : LoadH} {c : Nat} (hrun : s.hold = .run)
    (hx : s.clipLoads.find? (fun x => decide (x.upd.org = o)) = some x)
    (ht : t = { s with clipLoads := s.clipLoads.filter fun y => y.upd.id != x.upd.id })
    (hc : c = x.upd.desc.body.pl 0 2) (hlen : bs.length = loadBytes x.upd.desc.body)
    (hcrc : crc32 bs = BitVec.ofNat 32 (x.upd.desc.body.pl 16 4)) (hfree : t.clipBusy c = false) (hone : x.pages2 = []) :
    Does (.clipLoadDone o (.data bs)) s
      (((((t.takeLoad c x).fillPages x.pages bs).fillPages [] bs).showCache).complete x.upd stOk) := by
  have hgood : (decide (bs.length = loadBytes x.upd.desc.body) && crc32 bs == BitVec.ofNat 32 (x.upd.desc.body.pl 16 4)) = true := by
    simp [hlen, hcrc]
  subst ht hc
  refine does_of_run _ (arm_clipLoadDone o (.data bs) s) hrun ?_
  simp only [hx, hgood, Bool.not_true, Bool.false_eq_true, if_false, hfree, Bool.not_false, if_true, hone]
  rfl

/-! ### Playlist entries (R203, R210, R215) -/

/-- The read of an entry of player `p`, whose state is `h`, changes nothing: no entry stands in its ring, none may be taken, or no
completion slot is free (R203, R445). -/
def State.fetchBarred (s : State) (p : Nat) (h : PlayerH) : Bool :=
  !s.bit Reg.plyCtrl 0 || s.plySt p == plyDisabled || !s.ringEn h.ring || s.ringType h.ring != 3 || s.ringOcc h.ring == 0 ||
    decide ((if s.plyBusy p then 9 else 8) ≤ h.queue.length) || !s.usable (s.ringPort h.ring) ||
    decide (s.ringSize h.cpl ≤ s.ringOcc h.cpl + (s.ringAt h.cpl).resv)

/-- An idle player takes entries up to the eighth, where its rings are ready. -/
theorem State.fetchBarred_of_idle {s : State} {p : Nat} {h : PlayerH} (hon : s.bit Reg.plyCtrl 0 = true) (hidle : s.plySt p = plyIdle)
    (hen : s.ringEn h.ring = true) (hty : s.ringType h.ring = 3) (hocc : s.ringOcc h.ring ≠ 0) (hroom : h.queue.length < 8)
    (hport : s.usable (s.ringPort h.ring) = true) (hslot : s.ringOcc h.cpl + (s.ringAt h.cpl).resv < s.ringSize h.cpl) :
    s.fetchBarred p h = false := by
  simp [State.fetchBarred, hon, hidle, hen, hty, hocc, hport, hroom, hslot, State.plyBusy_of_idle hidle]

/-- An entry read joins the queue, a completion slot reserved for it, unless a message cut off is still being dropped. -/
theorem does_playlistFetchDone_joins {p : Fin 64} {bs : List Byte} {s u : State} {h : PlayerH} (hrun : s.hold = .run)
    (hh : h = s.playerAt p.val) (hbar : s.fetchBarred p.val h = false) (hkeep : h.dropping = false)
    (hu : u = (s.setReg (Reg.ringCons h.ring) (s.reg (Reg.ringCons h.ring) + 1)).bump (Reg.ringDoneCnt h.ring) 32) :
    Does (.playlistFetchDone p (.data bs)) s
      ((State.plyHead 16 p.val ((u.setRing h.cpl { u.ringAt h.cpl with resv := (u.ringAt h.cpl).resv + 1 }).setPlayer p.val
        { h with queue := h.queue ++ [{ bytes := bs, index := (s.reg (Reg.ringCons h.ring)).toNat }], failedReads := 0 })).showPlayer
        p.val) := by
  subst hh hu
  unfold State.fetchBarred at hbar
  refine does_of_run _ (arm_playlistFetchDone p (.data bs) s) hrun ?_
  simp only [hbar, Bool.false_eq_true, if_false, hkeep]

/-- The entry as it stands once the bytes have been fed. -/
theorem State.plyFeed_entry (s : State) (p : Nat) (x : PEntry) (bs : List Byte) : (s.plyFeed p x bs).2 =
    { x with data := x.data ++ bs, reads := x.reads ++ [(x.data.length, (s.playerAt p).fed)] } := rfl

/-- Bytes fed to an entry that is neither whole nor bad leave it so. -/
theorem State.plyFeed_unfinished {s u : State} {p : Nat} {x y : PEntry} {bs : List Byte} (hfeed : s.plyFeed p x bs = (u, y))
    (hfetched : x.fetched = false) (hbad : x.bad = false) : { y with fetched := false, bad := false } = y := by
  obtain rfl : _ = y := congrArg Prod.snd hfeed
  simp [State.plyFeed_entry, hfetched, hbad]

/-- A part of a clip that is not its last joins the data of the entry. -/
theorem does_clipFetchDone_part {p : Fin 64} {i : Fin 10} {bs : List Byte} {s u v : State} {x y : PEntry} (hrun : s.hold = .run)
    (hx : (s.playerAt p.val).entries[i.val]? = some x) (hkind : x.kind = 0) (hfetched : x.fetched = false) (hbad : x.bad = false)
    (hpart : (x.data ++ bs).length < x.len * clipWordBytes x.fmt) (hfeed : s.plyFeed p.val x bs = (u, y))
    (hv : v = u.setEntry p.val i.val y) :
    Does (.clipFetchDone p i (.data bs)) s ((v.setPlayer p.val { v.playerAt p.val with failedReads := 0 }).showPlayer p.val) := by
  have htake : bs.take (x.len * clipWordBytes x.fmt - x.data.length) = bs :=
    List.take_of_length_le (by rw [List.length_append] at hpart; omega)
  have hdata : y.data = x.data ++ bs := congrArg (·.2.data) hfeed.symm
  have hmore : decide (y.data.length = x.len * clipWordBytes x.fmt) = false := decide_eq_false (hdata ▸ hpart.ne)
  subst hv
  refine does_of_run _ (arm_clipFetchDone p i (.data bs) s) hrun ?_
  simp only [hx, hkind, hfetched, hbad, htake, hfeed, hmore, Bool.false_and, State.plyFeed_unfinished hfeed hfetched hbad, ne_eq,
    not_true_eq_false, Bool.false_eq_true, or_self, if_false, Bool.not_false, if_true]

/-- The head entry of a player, its play over, starts again where that was not its last. -/
theorem State.entryOver_of_repeating {s : State} {p : Nat} {x : PEntry} {xs : List PEntry} (mixed : Bool)
    (hq : (s.playerAt p).queue = x :: xs) (hlast : lastPlay (s.plyLost p) x = false) :
    s.entryOver p mixed = s.setPlayer p { s.playerAt p with queue := { x with at_ := 0, rep := x.rep + 1 } :: xs } := by
  simp [State.entryOver, hq, hlast]

theorem does_entryEnd {p : Fin 64} {s u : State} {x : PEntry} {xs : List PEntry} (hrun : s.hold = .run)
    (hq : (s.playerAt p.val).queue = x :: xs) (hst : s.plySt p.val = plyPlaying) (hend : s.entryPlay x ≤ x.at_)
    (hu : s.entryOver p.val false = u) : Does (.entryEnd p) s (u.showPlayer p.val) :=
  does_of_run _ (arm_entryEnd p s) hrun (by simp [hq, hst, hend, hu])

/-! ### Starvation and lost hosts (R214, R216) -/

/-- A player with nothing read needs more unless its message has ended. -/
theorem State.plyNeeds_of_empty {s : State} {p : Nat} (hq : (s.playerAt p).queue = []) : s.plyNeeds p = !(s.playerAt p).ended := by
  simp only [State.plyNeeds, hq]

/-- A playing player with nothing read starves, with the event of no clip. -/
theorem State.plyStarve_of_empty {s : State} {p : Nat} (hq : (s.playerAt p).queue = []) (hst : s.plySt p = plyPlaying) :
    s.plyStarve p = (((s.setPlayer p { s.playerAt p with fadeOut := 64, gap := 0, fadeIn := none }).setPlySt p plyStarved).bump
      (Reg.plyPStarveCnt p) 32).plyEvent p 0x60 0x61 0xFFFF := by
  simp only [State.plyStarve, hst, ne_eq, not_true_eq_false, if_false, hq]
  rfl

/-- A playing player that waits for a heat boundary joins its next entry. -/
theorem State.plyResume_of_waiting {s : State} {p : Nat} (hst : s.plySt p = plyPlaying) (hwait : (s.playerAt p).hold = true) :
    s.plyResume p = (State.plyHead 16 p (s.setPlayer p { s.playerAt p with hold := false })).plyFallback p := by
  simp [State.plyResume, hst, hwait]

/-- A player whose host is lost is marked with its event, and one that stays idle takes no fallback clip. -/
theorem does_playlistHostLost_idle {p : Fin 64} {s u : State} (hrun : s.hold = .run) (hst : s.plySt p.val = plyIdle)
    (hwas : s.plyLost p.val = false) (hlost : s.hostLost p.val = true)
    (hu : u = (s.setBit (Reg.plyPState p.val) 5 true).emit 220 0x64 (syn16 0x64 p.val 0xFFFF)) (hidle : u.plySt p.val = plyIdle) :
    Does (.playlistHostLost p) s (u.showPlayer p.val) := by
  have hrest : u.plyBusy p.val = false := State.plyBusy_of_idle hidle
  subst hu
  refine does_of_run _ (arm_playlistHostLost p s) hrun ?_
  simp [hst, hwas, hlost, hrest]

/-- Settles O23: descriptors by what their rows commit, reads by how they end, and events by the state of the player. -/
theorem players : Obligations.Players := by
  unfold Obligations.Players
  refine ⟨fun o d s t e p u hdue ht hp hwas hen hfb hu => ?enable, fun o d s t e p u hdue ht hp hwas hen hfb hu => ?disable,
    fun o d s t v e hacc hv => ?flush, fun o d s t v e hacc hv => ?pin, fun o d s t v e hacc hv hfree => ?drop,
    fun o d s t v u e a b hacc hv hroom => ?load, fun o s t x => does_clipLoadDone_error,
    fun o bs s t u x c hrun hx ht hc hlen hcrc hfree hone hu => ?loaded,
    fun p bs s u h hrun hh hon hidle hen hty hocc hroom hkeep hport hslot hu => ?joins,
    fun p i bs s u v x y => does_clipFetchDone_part, fun p bs s x => s.plyFeed_entry p x bs,
    fun p s x xs hrun hq hst hend hlast => does_entryEnd hrun hq hst hend (State.entryOver_of_repeating false hq hlast),
    fun p s hrun hq hmore hst => ?starves, fun p s hrun hst hwait => ?resumes, fun p s u => does_playlistHostLost_idle⟩
  case enable =>
    subst ht hp hu
    exact does_commit (arm_playerSet .commit o d s) hdue
      (playerSetRow_commit_enable (congrArg Desc.body (due_body hdue)) hwas hen hfb)
  case disable =>
    subst ht hp hu
    exact does_commit (arm_playerSet .commit o d s) hdue
      (playerSetRow_commit_disable (congrArg Desc.body (due_body hdue)) hwas hen hfb rfl)
  case flush =>
    subst hv
    exact does_now (arm_playerFlush o d s) hacc rfl (by simp only [playerFlushRow, accepts_body hacc])
  case pin =>
    subst hv
    exact does_now (arm_clipPin o d s) hacc rfl (by simp only [clipPinRow, accepts_body hacc])
  case drop =>
    subst hv
    exact does_now (arm_clipDrop o d s) hacc rfl (clipDropRow_commit_of_free (accepts_body hacc) hfree)
  case load =>
    subst hv
    exact does_now_wait (arm_clipLoad o d s) hacc rfl (clipLoadRow_commit_of_room (accepts_body hacc) hroom)
  case loaded => exact hu ▸ does_clipLoadDone_data hrun hx ht hc hlen hcrc hfree hone
  case joins =>
    exact does_playlistFetchDone_joins hrun hh (State.fetchBarred_of_idle hon hidle hen hty hocc hroom hport hslot) hkeep hu
  case starves =>
    refine does_of_run _ (arm_playerStarved p s) hrun ?_
    rw [State.plyNeeds_of_empty hq, hmore, State.plyStarve_of_empty hq hst]
    rfl
  case resumes =>
    exact does_of_run _ (arm_playerResume p s) hrun (congrArg (State.showPlayer · p.val) (State.plyResume_of_waiting hst hwait))

end Sys2Proof.Machine
end

section
/-! Proofs: the F slots of a lane processor (O14). Every operation but FNOP is the shared one, with a function of one, two or three
source registers. -/

namespace Sys2Proof.Machine

section
variable {i : Instr} {s : State} {n : Nat} {f1 : Bool} {op lat : Nat} {w : Word} {h : LpH}

/-- An operation whose F slot issues puts its value under way. -/
theorem does_fSlot {srcs : Word → List Nat} {val : Word → Word → List Word → Word}
    (hx : exec i s = act s fun s => s.lpF n f1 op lat srcs val) (hi : s.FIssues n f1 op srcs w h) :
    Does i s (s.fResult n f1 w h lat (val s.freeVal w ((srcs w).map h.reg))) :=
  does_of_run _ hx hi.1 (lpF_issues hi)

theorem does_fSlot_of_one {f : Word → Word → Word} (hx : exec i s = act s fun s => s.lpF n f1 op lat srcs1 (val1 f))
    (hi : s.FIssues n f1 op srcs1 w h) : Does i s (s.fResult n f1 w h lat (f s.freeVal (h.reg (fFA w)))) :=
  (does_fSlot hx hi :)

theorem does_fSlot_of_two {f : Word → Word → Word → Word} (hx : exec i s = act s fun s => s.lpF n f1 op lat srcs2 (val2 f))
    (hi : s.FIssues n f1 op srcs2 w h) :
    Does i s (s.fResult n f1 w h lat (f s.freeVal (h.reg (fFA w)) (h.reg (fFB w)))) :=
  (does_fSlot hx hi :)

theorem does_fSlot_of_three {f : Word → Word → Word → Word → Word}
    (hx : exec i s = act s fun s => s.lpF n f1 op lat srcs3 (val3 f)) (hi : s.FIssues n f1 op srcs3 w h) :
    Does i s (s.fResult n f1 w h lat (f s.freeVal (h.reg (fFA w)) (h.reg (fFB w)) (h.reg (fFC w)))) :=
  (does_fSlot hx hi :)

end

/-- Settles O14: FNOP only marks its slot, and every other operation is the shared one with its sources, value and latency. -/
theorem lpFloatSlots : Obligations.LpFloatSlots := by
  unfold Obligations.LpFloatSlots
  intro n f1 s w h
  refine ⟨fun hrun hcan => does_of_run _ (arm_fnop n f1 s) hrun (if_pos hcan), fun hi => ?fadd, fun hi => ?fsub, fun hi => ?fmul,
    fun hi => ?fma, fun hi => ?fms, fun hi => ?fmin, fun hi => ?fmax, fun hi => ?fabs, fun hi => ?fneg, fun hi => ?fsel,
    fun hi => ?fclamp, fun hi => ?frcp, fun hi => ?frsq, fun hi => ?flog2, fun hi => ?fexp2, fun hi => ?fcvti, fun hi => ?fcvtf,
    fun hi => ?fli⟩
  case fadd => exact (does_fSlot_of_two (arm_fadd n f1 s) hi :)
  case fsub => exact (does_fSlot_of_two (arm_fsub n f1 s) hi :)
  case fmul => exact (does_fSlot_of_two (arm_fmul n f1 s) hi :)
  case fma => exact (does_fSlot_of_three (arm_fma n f1 s) hi :)
  case fms => exact (does_fSlot_of_three (arm_fms n f1 s) hi :)
  case fmin => exact (does_fSlot_of_two (arm_fmin n f1 s) hi :)
  case fmax => exact (does_fSlot_of_two (arm_fmax n f1 s) hi :)
  case fabs => exact (does_fSlot_of_one (arm_fabs n f1 s) hi :)
  case fneg => exact (does_fSlot_of_one (arm_fneg n f1 s) hi :)
  case fsel => exact (does_fSlot_of_three (arm_fsel n f1 s) hi :)
  case fclamp => exact (does_fSlot_of_two (arm_fclamp n f1 s) hi :)
  case frcp => exact (does_fSlot_of_one (arm_frcp n f1 s) hi :)
  case frsq => exact (does_fSlot_of_one (arm_frsq n f1 s) hi :)
  case flog2 => exact (does_fSlot_of_one (arm_flog2 n f1 s) hi :)
  case fexp2 => exact (does_fSlot_of_one (arm_fexp2 n f1 s) hi :)
  case fcvti => exact (does_fSlot_of_one (arm_fcvti n f1 s) hi :)
  case fcvtf => exact (does_fSlot_of_one (arm_fcvtf n f1 s) hi :)
  case fli => exact (does_fSlot (arm_fli n f1 s) hi :)

end Sys2Proof.Machine
end

section
/-! Proofs: the arithmetic of the F slots (O15). -/

namespace Sys2Proof.Machine

/-! ### Fields of a combination of words -/

theorem fld_or (a b : Word) (hi lo : Nat) : fld (a ||| b) hi lo = fld a hi lo ||| fld b hi lo := by
  apply Nat.eq_of_testBit_eq
  intro i
  simp only [Nat.testBit_or, testBit_fld, BitVec.getLsbD_or, Bool.and_or_distrib_left]

theorem fld_and (a b : Word) (hi lo : Nat) : fld (a &&& b) hi lo = fld a hi lo &&& fld b hi lo := by
  apply Nat.eq_of_testBit_eq
  intro i
  by_cases hi' : i < hi - lo + 1 <;> simp [testBit_fld, hi']

/-! ### Kinds of pattern -/

theorem f32IsNan_eq_true {w : Word} : f32IsNan w = true ↔ f32Exp w = 255 ∧ f32Man w ≠ 0 := by
  simp [f32IsNan]

theorem f32Finite_eq_true {w : Word} : f32Finite w = true ↔ f32Exp w ≠ 255 := by
  simp [f32Finite]

theorem f32IsNan_of_finite {w : Word} (h : f32Finite w = true) : f32IsNan w = false := by
  simp [f32IsNan, f32Finite_eq_true.mp h]

theorem f32IsInf_of_finite {w : Word} (h : f32Finite w = true) : f32IsInf w = false := by
  simp [f32IsInf, f32Finite_eq_true.mp h]

/-- A pattern whose exponent is all ones and whose fraction is not zero: the free NaN is one. -/
theorem f32IsNan_nanOf (fr : Word) : f32IsNan (nanOf fr) = true := by
  have hexp : ∀ m : Word, fld m 30 23 = 0 → f32Exp (0x7F800000#32 ||| m) = 255 := fun m hm => by
    rw [f32Exp, fld_or, hm]
    decide
  have hman : ∀ m : Word, f32Man (0x7F800000#32 ||| m) = fld m 22 0 := fun m => by
    rw [f32Man, fld_or]
    simp [show fld 0x7F800000#32 22 0 = 0 by decide]
  have hm : fld (fr &&& 0x807FFFFF#32) 30 23 = 0 := by
    rw [fld_and, show fld 0x807FFFFF#32 30 23 = 0 by decide, Nat.and_zero]
  rw [f32IsNan_eq_true, nanOf]
  split
  case isTrue h =>
    refine ⟨hexp _ ?_, ?_⟩
    · rw [fld_or, hm]
      decide
    · rw [hman, fld_or, h]
      decide
  case isFalse h => exact ⟨hexp _ hm, by rwa [hman]⟩

/-! ### Subnormals flushed -/

theorem flush_of_subnormal {w : Word} (h : f32Exp w = 0) : flush w = f32Zero (f32Neg w) := if_pos h

theorem flush_of_exp_ne_zero {w : Word} (h : f32Exp w ≠ 0) : flush w = w := if_neg h

@[simp] theorem f32Exp_zero (neg : Bool) : f32Exp (f32Zero neg) = 0 := by cases neg <;> rfl

@[simp] theorem f32Neg_zero (neg : Bool) : f32Neg (f32Zero neg) = neg := by cases neg <;> rfl

/-- Flushing keeps the exponent. -/
@[simp] theorem f32Exp_flush (w : Word) : f32Exp (flush w) = f32Exp w := by
  unfold flush
  split
  case isTrue h => rw [f32Exp_zero, h]
  case isFalse => rfl

/-- Flushing keeps the sign. -/
@[simp] theorem f32Neg_flush (w : Word) : f32Neg (flush w) = f32Neg w := by
  unfold flush
  split
  case isTrue => exact f32Neg_zero _
  case isFalse => rfl

@[simp] theorem f32Finite_flush (w : Word) : f32Finite (flush w) = f32Finite w := by simp [f32Finite]

theorem f32IsInf_flush_of_finite {w : Word} (h : f32Finite w = true) : f32IsInf (flush w) = false :=
  f32IsInf_of_finite ((f32Finite_flush w).trans h)

/-- Flushing makes no NaN and loses none. -/
@[simp] theorem f32IsNan_flush (w : Word) : f32IsNan (flush w) = f32IsNan w := by
  unfold flush
  split
  case isTrue h => simp [f32IsNan, h]
  case isFalse => rfl

/-! ### Sums and products of finite operands -/

theorem f32Out_of_ne_zero {q : Rat} (neg : Bool) (h : q ≠ 0) : f32Out q neg = flush (f32OfRat q) := if_neg h

section
variable {fr a b c : Word} (ha : f32Finite a = true) (hb : f32Finite b = true)
include ha hb

/-- A fused operation of finite operands rounds the exact result once. -/
theorem fmaVal_of_finite {neg : Bool} {q : Rat} (hc : f32Finite c = true)
    (hq : (if neg then -(f32ToRat (flush a) * f32ToRat (flush b)) else f32ToRat (flush a) * f32ToRat (flush b)) + f32ToRat (flush c) = q)
    (hne : q ≠ 0) : fmaVal fr neg a b c = flush (f32OfRat q) := by
  subst hq
  simp only [fmaVal, f32IsNan_flush, f32IsNan_of_finite ha, f32IsNan_of_finite hb, f32IsNan_of_finite hc,
    f32IsInf_flush_of_finite ha, f32IsInf_flush_of_finite hb, f32IsInf_flush_of_finite hc, Bool.or_self, Bool.false_eq_true, if_false]
  exact f32Out_of_ne_zero _ hne

theorem addVal_of_finite (hne : f32ToRat (flush a) + f32ToRat (flush b) ≠ 0) :
    addVal fr a b = flush (f32OfRat (f32ToRat (flush a) + f32ToRat (flush b))) := by
  have hone : f32ToRat (flush f32One) = 1 := by decide +kernel
  exact fmaVal_of_finite ha rfl hb (by simp [hone]) hne

theorem mulVal_of_finite (hne : f32ToRat (flush a) * f32ToRat (flush b) ≠ 0) :
    mulVal fr a b = flush (f32OfRat (f32ToRat (flush a) * f32ToRat (flush b))) := by
  simp only [mulVal, f32IsNan_flush, f32IsNan_of_finite ha, f32IsNan_of_finite hb, f32IsInf_flush_of_finite ha,
    f32IsInf_flush_of_finite hb, Bool.or_self, Bool.false_eq_true, if_false]
  exact f32Out_of_ne_zero _ hne

end

/-! ### NaN operands -/

theorem fmaVal_of_nan (fr : Word) (neg : Bool) {a b c : Word} (h : f32IsNan a = true ∨ f32IsNan b = true ∨ f32IsNan c = true) :
    f32IsNan (fmaVal fr neg a b c) = true := by
  have hnan : (f32IsNan a || f32IsNan b || f32IsNan c) = true := by simpa [or_assoc] using h
  simp only [fmaVal, f32IsNan_flush, hnan, if_true, f32IsNan_nanOf]

theorem subVal_of_nan (fr : Word) {a b : Word} (h : f32IsNan a = true ∨ f32IsNan b = true) : f32IsNan (subVal fr a b) = true :=
  fmaVal_of_nan fr false (h.imp_right fun hb => .inr (by rwa [if_pos hb]))

theorem mulVal_of_nan (fr : Word) {a b : Word} (h : f32IsNan a = true ∨ f32IsNan b = true) : f32IsNan (mulVal fr a b) = true := by
  have hnan : (f32IsNan a || f32IsNan b) = true := by simpa using h
  simp only [mulVal, f32IsNan_flush, hnan, if_true, f32IsNan_nanOf]

/-! ### Choices between operands -/

/-- FMIN and FMAX give the other operand for a NaN. -/
theorem minVal_maxVal_of_nan (fr : Word) {a b : Word} (ha : f32IsNan a = true) (hb : f32IsNan b = false) :
    minVal fr a b = flush b ∧ minVal fr b a = flush b ∧ maxVal fr a b = flush b ∧ maxVal fr b a = flush b := by
  simp [minVal, maxVal, ha, hb]

/-- FMIN and FMAX of numbers follow their order. -/
theorem minVal_maxVal_of_lt (fr : Word) {a b : Word} (ha : f32IsNan a = false) (hb : f32IsNan b = false)
    (hlt : f32Key (flush a) < f32Key (flush b)) :
    minVal fr a b = flush a ∧ minVal fr b a = flush a ∧ maxVal fr a b = flush b ∧ maxVal fr b a = flush b := by
  simp [minVal, maxVal, ha, hb, hlt, hlt.not_gt]

theorem selVal_of_zero (fr : Word) {a c : Word} (b : Word) (ha : f32IsNan a = false) (hc : f32IsZero (flush c) = true)
    (hn : f32IsNan c = false) : selVal fr a b c = flush a := by
  simp [selVal, ha, hc, hn]

theorem selVal_of_neg (fr a : Word) {b c : Word} (hb : f32IsNan b = false) (hneg : f32Neg c = true)
    (hz : f32IsZero (flush c) = false) : selVal fr a b c = flush b := by
  simp [selVal, hb, hneg, hz]

/-! ### FCVTF -/

/-- A quotient rounded to the nearest integer is no less than an integer it is not below. -/
theorem le_divEven {k n d : Nat} (hd : 0 < d) (h : k * d ≤ n) : k ≤ divEven n d := by
  have hk : k ≤ n / d := (Nat.le_div_iff_mul_le hd).mpr h
  unfold divEven
  dsimp only
  split_ifs <;> omega

/-- The magnitude of a number is no less than a natural that bounds it. -/
theorem mul_den_le_natAbs_num {q : Rat} {k : Nat} (h : (k : Rat) ≤ |q|) : k * q.den ≤ q.num.natAbs := by
  rw [Rat.abs_def, Rat.divInt_eq_div, Int.cast_natCast, Int.cast_natCast, le_div_iff₀ (by exact_mod_cast q.den_pos)] at h
  exact_mod_cast h

theorem cvtfVal_of_finite {a : Word} (ha : f32Finite a = true) :
    cvtfVal a = BitVec.ofInt 32 (clampInt (-2147483648) 2147483647
      (if f32ToRat (flush a) < 0 then -(divEven (f32ToRat (flush a)).num.natAbs (f32ToRat (flush a)).den : Int)
        else (divEven (f32ToRat (flush a)).num.natAbs (f32ToRat (flush a)).den : Int))) := by
  simp only [cvtfVal, f32IsNan_flush, f32IsNan_of_finite ha, f32IsInf_flush_of_finite ha, Bool.false_eq_true, if_false]

theorem cvtfVal_of_large {a : Word} (ha : f32Finite a = true) (hq : 2147483647 ≤ f32ToRat (flush a)) : cvtfVal a = 0x7FFFFFFF#32 := by
  rw [cvtfVal_of_finite ha]
  generalize f32ToRat (flush a) = q at hq
  have hpos : 0 ≤ q := le_trans (by decide) hq
  have hm : 2147483647 ≤ divEven q.num.natAbs q.den :=
    le_divEven q.den_pos (mul_den_le_natAbs_num (by rwa [abs_of_nonneg hpos]))
  have hclamp : clampInt (-2147483648) 2147483647 (divEven q.num.natAbs q.den : Int) = 2147483647 := by
    unfold clampInt
    split_ifs <;> omega
  rw [if_neg hpos.not_gt, hclamp]
  rfl

theorem cvtfVal_of_small {a : Word} (ha : f32Finite a = true) (hq : f32ToRat (flush a) ≤ -2147483648) : cvtfVal a = 0x80000000#32 := by
  rw [cvtfVal_of_finite ha]
  generalize f32ToRat (flush a) = q at hq
  have hneg : q < 0 := lt_of_le_of_lt hq (by decide)
  have hm : 2147483648 ≤ divEven q.num.natAbs q.den :=
    le_divEven q.den_pos (mul_den_le_natAbs_num (by rw [abs_of_neg hneg]; push_cast; linarith))
  have hclamp : clampInt (-2147483648) 2147483647 (-(divEven q.num.natAbs q.den : Int)) = -2147483648 := by
    unfold clampInt
    split_ifs <;> omega
  rw [if_pos hneg, hclamp]
  rfl

/-- Settles O15: by the kind of each operand. -/
theorem lpFloatValues : Obligations.LpFloatValues := by
  unfold Obligations.LpFloatValues
  refine ⟨fun fr a b => addVal_of_finite, fun fr a b => mulVal_of_finite,
    fun fr a b c ha hb hc => fmaVal_of_finite ha hb hc rfl, fun fr a b c ha hb hc => fmaVal_of_finite ha hb hc ?negated,
    fun fr a b c h => ⟨fmaVal_of_nan fr false (h.imp_right .inr), subVal_of_nan fr h, mulVal_of_nan fr h,
      fmaVal_of_nan fr false (h.imp_right .inl), fmaVal_of_nan fr true (h.imp_right .inl)⟩,
    fun fr a h => ?nan, fun fr a b => minVal_maxVal_of_nan fr, fun fr a b => minVal_maxVal_of_lt fr,
    fun fr a b ha => ⟨selVal_of_zero fr b ha rfl rfl, selVal_of_zero fr b ha rfl rfl⟩,
    fun fr a b c hb _ => selVal_of_neg fr a hb, fun a => cvtfVal_of_large, fun a => cvtfVal_of_small,
    fun w => flush_of_subnormal, fun w => flush_of_exp_ne_zero⟩
  case negated => rw [if_pos rfl, neg_add_eq_sub]
  case nan =>
    -- every one of these operations asks for a NaN operand first
    have hn := f32IsNan_nanOf fr
    simp [absVal, negVal, rcpVal, rsqVal, log2Val, exp2Val, cvtfVal, h, hn]

end Sys2Proof.Machine
end

section
/-! Proofs: registers, interlocks and the end of a bundle of a lane processor (O16). -/

namespace Sys2Proof.Machine

/-! ### Registers (R225) -/

/-- a0 reads zero. -/
@[simp] theorem LpH.reg_a0 (h : LpH) : h.reg 64 = 0#32 := if_pos rfl

/-- What is written to a0 is discarded. -/
@[simp] theorem LpH.putReg_a0 (h : LpH) (v : Word) : h.putReg 64 v = h := if_pos rfl

theorem LpH.reg_putReg_same (h : LpH) {r : Nat} (v : Word) (hr : r ≠ 64) : (h.putReg r v).reg r = v := by
  simp [LpH.reg, LpH.putReg, hr]

theorem LpH.reg_putReg_ne (h : LpH) {r r' : Nat} (v : Word) (hr : r' ≠ r) : (h.putReg r v).reg r' = h.reg r' := by
  unfold LpH.putReg
  split
  case isTrue => rfl
  case isFalse => simp [LpH.reg, Sparse.get_set_of_ne _ _ _ _ _ _ hr]

/-! ### Results under way (R230, R231) -/

/-- Writing results changes the registers alone. -/
theorem LpH.putRegs_frame (ws : List WriteBack) (h : LpH) :
    ∃ r, ws.foldl (fun h w => h.putReg w.reg w.val) h = { h with regs := r } := by
  induction ws generalizing h with
  | nil => exact ⟨h.regs, rfl⟩
  | cons w ws ih =>
    obtain ⟨r, hr⟩ := ih (h.putReg w.reg w.val)
    refine ⟨r, hr.trans ?_⟩
    unfold LpH.putReg
    split <;> rfl

/-- The results that are due are written, and the others stay under way. -/
theorem LpH.retire_frame (h : LpH) : ∃ r, h.retire = { h with wb := h.wb.filter fun w => h.cyc < w.due, regs := r } :=
  LpH.putRegs_frame _ _

@[simp] theorem LpH.retire_wb (h : LpH) : h.retire.wb = h.wb.filter fun w => h.cyc < w.due := by
  obtain ⟨r, hr⟩ := h.retire_frame
  rw [hr]

@[simp] theorem LpH.retire_cyc (h : LpH) : h.retire.cyc = h.cyc := by
  obtain ⟨r, hr⟩ := h.retire_frame
  rw [hr]

@[simp] theorem LpH.retire_pc (h : LpH) : h.retire.pc = h.pc := by
  obtain ⟨r, hr⟩ := h.retire_frame
  rw [hr]

@[simp] theorem LpH.retire_loops (h : LpH) : h.retire.loops = h.loops := by
  obtain ⟨r, hr⟩ := h.retire_frame
  rw [hr]

/-- A register holds the last of the results that are due for it. -/
theorem LpH.reg_retire_of_due {h : LpH} {ws : List WriteBack} {x : WriteBack} (hwb : h.wb = ws ++ [x])
    (hdue : ∀ w ∈ h.wb, w.due ≤ h.cyc) (hx : x.reg ≠ 64) : h.retire.reg x.reg = x.val := by
  have hall : h.wb.filter (fun w => w.due ≤ h.cyc) = ws ++ [x] := by
    rw [List.filter_eq_self.mpr fun w hw => decide_eq_true (hdue w hw), hwb]
  unfold LpH.retire
  rw [hall, List.foldl_append]
  exact LpH.reg_putReg_same _ _ hx

/-! ### Waiting for a register (R231) -/

theorem le_foldl_max_due (ws : List WriteBack) (c : Nat) : c ≤ ws.foldl (fun c w => max c w.due) c := by
  induction ws generalizing c with
  | nil => exact le_rfl
  | cons w ws ih => exact (le_max_left c w.due).trans (ih _)

theorem due_le_foldl_max_due {ws : List WriteBack} {w : WriteBack} (hw : w ∈ ws) (c : Nat) :
    w.due ≤ ws.foldl (fun c w => max c w.due) c := by
  induction ws generalizing c with
  | nil => cases hw
  | cons x ws ih =>
    cases hw with
    | head => exact (le_max_right c w.due).trans (le_foldl_max_due ws _)
    | tail _ h => exact ih h _

/-- A bundle that stalls until cycle `c` leaves only results of its own slots, and results due later than `c`, under way. -/
theorem LpH.stallTo_wb {h : LpH} {c : Nat} (hlate : ∀ x ∈ h.wb, h.cyc < x.due) {x : WriteBack} (hx : x ∈ (h.stallTo c).wb) :
    x.cur = true ∨ (x ∈ h.wb ∧ c < x.due) := by
  unfold LpH.stallTo at hx
  split at hx
  case isTrue hc => exact .inr ⟨hx, hc.trans_lt (hlate x hx)⟩
  case isFalse =>
    rw [LpH.retire_wb, List.mem_filter, List.mem_map] at hx
    obtain ⟨⟨y, hy, rfl⟩, hdue⟩ := hx
    by_cases hcur : y.cur = true
    · exact .inl (by simp [hcur])
    · rw [if_neg hcur] at hdue ⊢
      exact .inr ⟨hy, of_decide_eq_true hdue⟩

/-- A bundle that has waited for a register finds no result of an earlier bundle under way to it. -/
theorem LpH.wait_wb {h : LpH} {r : Nat} (hlate : ∀ x ∈ h.wb, h.cyc < x.due) {x : WriteBack} (hx : x ∈ (h.wait r).wb) :
    x.cur = true ∨ x.reg ≠ r := by
  obtain hcur | ⟨hmem, hdue⟩ := LpH.stallTo_wb hlate hx
  · exact .inl hcur
  · by_cases hcur : x.cur = true
    · exact .inl hcur
    · refine .inr fun hreg => hdue.not_ge (due_le_foldl_max_due (List.mem_filter.mpr ⟨hmem, ?_⟩) h.cyc)
      simp [hcur, hreg]

theorem LpH.wait_of_quiet {h : LpH} (r : Nat) (hwb : h.wb = []) : h.wait r = h := by
  simp [LpH.wait, LpH.stallTo, hwb]

/-- With one result of an earlier bundle under way, a bundle that waits for its register goes on in the cycle it is due. -/
theorem LpH.wait_of_single {h : LpH} {x : WriteBack} (hwb : h.wb = [x]) (hcur : x.cur = false) (hlate : h.cyc < x.due) :
    h.wait x.reg = LpH.retire { h with cyc := x.due } := by
  have hmax : max h.cyc x.due = x.due := max_eq_right hlate.le
  have hmap : h.wb.map (fun w => if w.cur then { w with due := w.due + (x.due - h.cyc) } else w) = h.wb := by simp [hwb, hcur]
  unfold LpH.wait LpH.stallTo
  simp only [hwb, List.filter_cons, hcur, Bool.not_false, beq_self_eq_true, Bool.and_self, if_true, List.filter_nil, List.foldl_cons,
    List.foldl_nil, hmax, hlate.not_ge, if_false]
  rw [← hwb, hmap]

/-! ### Two results for one register (R230) -/

/-- Of two results due in one cycle, the one of the earlier slot is written first, whichever issued first. -/
theorem wbInsert_pair_of_same_due {ws : List WriteBack} {x y : WriteBack} (hnone : ws = []) (hdue : x.due = y.due)
    (hslot : x.slot < y.slot) : wbInsert y (wbInsert x ws) = [x, y] ∧ wbInsert x (wbInsert y ws) = [x, y] := by
  simp [hnone, wbInsert, hdue, hslot, hslot.not_gt]

/-- The results of two slots for one register and one cycle leave the value of the later slot. -/
theorem LpH.reg_retire_of_pair {h k : LpH} {i j r l : Nat} {v v' : Word} (hr : r ≠ 64)
    (hwb : k.wb = [{ due := h.cyc + l, slot := i, reg := r, val := v, cur := true },
      { due := h.cyc + l, slot := j, reg := r, val := v', cur := true }]) :
    ({ k with cyc := h.cyc + l }).retire.reg r = v' :=
  LpH.reg_retire_of_due (h := { k with cyc := h.cyc + l }) (ws := [_]) (x := ⟨h.cyc + l, j, r, v', true⟩) hwb (by simp [hwb]) hr

/-! ### The end of a bundle (R231, R235) -/

theorem LpH.endBundle_cyc (h : LpH) (target : Option Nat) (extra : Nat) :
    (h.endBundle target extra).cyc = h.cyc + (if target.isSome then 3 else 1) + extra := by
  simp [LpH.endBundle]

theorem LpH.endBundle_branch_pc (h : LpH) (t extra : Nat) : (h.endBundle (some t) extra).pc = t := by
  simp [LpH.endBundle]

theorem LpH.endBundle_pc (h : LpH) (extra : Nat) : (h.endBundle none extra).pc = (loopNext h.pc h.loops).2 := by
  simp [LpH.endBundle]

theorem LpH.endBundle_loops (h : LpH) (extra : Nat) : (h.endBundle none extra).loops = (loopNext h.pc h.loops).1 := by
  simp [LpH.endBundle]

/-- A loop that ends at the bundle with runs left goes back to its first bundle. -/
theorem loopNext_of_runs_left {l : HwLoop} (ls : List HwLoop) (hleft : 1 < l.left) :
    loopNext l.last (l :: ls) = ({ l with left := l.left - 1 } :: ls, l.first) := by
  simp [loopNext, hleft]

/-- A loop that ends at the bundle with its last run is left. -/
theorem loopNext_of_last_run {l : HwLoop} (ls : List HwLoop) (hleft : l.left ≤ 1) : loopNext l.last (l :: ls) = loopNext l.last ls := by
  simp [loopNext, hleft.not_gt]

/-- Settles O16: each clause is the rule of the wait, the register, the insertion or the end of a bundle it speaks of. -/
theorem lpIssueTiming : Obligations.LpIssueTiming := by
  unfold Obligations.LpIssueTiming
  refine ⟨fun h r hlate x => LpH.wait_wb hlate, fun h x hwb hcur hlate hx => ?single, fun h r => LpH.wait_of_quiet r,
    fun h v => ⟨h.putReg_a0 v, h.reg_a0⟩, fun h r v => h.reg_putReg_same v, fun h r r' v => h.reg_putReg_ne v,
    fun h i j r l v v' hwb hslot hr => ?pair, fun h t => ⟨h.endBundle_cyc (some t) 0, h.endBundle_branch_pc t 0⟩,
    fun h hnone => ?straight, fun h l ls hloops hlast hleft => ?back, fun h l hloops hlast hleft => ?leave⟩
  case single =>
    rw [LpH.wait_of_single hwb hcur hlate]
    exact ⟨LpH.reg_retire_of_due (h := { h with cyc := x.due }) (ws := []) hwb (by simp [hwb]) hx, by simp, by simp [hwb]⟩
  case pair =>
    obtain ⟨hin, hswap⟩ :=
      wbInsert_pair_of_same_due (x := ⟨h.cyc + l, i, r, v, true⟩) (y := ⟨h.cyc + l, j, r, v', true⟩) hwb rfl hslot
    exact ⟨LpH.reg_retire_of_pair hr hin, LpH.reg_retire_of_pair hr hswap⟩
  case straight => exact ⟨h.endBundle_cyc none 0, by rw [h.endBundle_pc, hnone]; rfl⟩
  case back =>
    have hnext : loopNext h.pc h.loops = ({ l with left := l.left - 1 } :: ls, l.first) := by
      rw [hloops, ← hlast, loopNext_of_runs_left ls hleft]
    exact ⟨h.endBundle_cyc none 0, by rw [h.endBundle_pc, hnext], by rw [h.endBundle_loops, hnext]⟩
  case leave =>
    have hnext : loopNext h.pc h.loops = ([], h.pc + 1) := by
      rw [hloops, ← hlast, loopNext_of_last_run [] hleft]
      rfl
    exact ⟨by rw [h.endBundle_pc, hnext], by rw [h.endBundle_loops, hnext]⟩

end Sys2Proof.Machine
end

section
/-! Proofs: the M slot of a lane processor (O17). What a word access, a transfer and the delay exchange do once the slot issues, and when
they fault. -/

namespace Sys2Proof.Machine

section
variable {i : Instr} {s : State} {n op : Nat} {srcs : Word → List Nat} {w : Word} {h : LpH}

/-- A command that runs an M-slot operation which issues does the rest of it. -/
theorem does_mSlot {k : Word → LpH → State → State} {u : State} (hx : exec i s = act s fun s => s.lpM n op srcs k)
    (hi : s.MIssues n op srcs w h) (hk : k w h s = u) : Does i s u :=
  does_of_run _ hx hi.1 ((lpM_issues hi).trans hk)

end

/-! ### Faults of an access (R233, R261) -/

theorem lpAccess_of_misaligned (s : State) (n : Nat) {a : Nat} (h k : LpH) (hal : a % 4 ≠ 0) (hend : a + 4 ≤ 0x40000) :
    s.lpAccess n a h k = s.lpFault n pfAlign := by
  have hbad : dmemBad a 4 = some pfAlign := by rw [dmemBad, if_neg hend.not_gt, if_pos hal]
  simp only [State.lpAccess, hbad]

theorem lpAccess_of_outside (s : State) (n : Nat) {a : Nat} (h k : LpH) (hend : 0x40000 < a + 4) :
    s.lpAccess n a h k = s.lpFault n pfRange := by
  have hbad : dmemBad a 4 = some pfRange := if_pos hend
  simp only [State.lpAccess, hbad]

/-! ### Transfers (R226, R233, R234) -/

section
variable {w : Word} {h : LpH} (s : State) (n : Nat) (load : Bool) (hlo : 1 ≤ mImmU w) (hhi : mImmU w ≤ 4096)
  (hda : (h.reg (mA w)).toNat % 64 = 0) (hva : (h.reg (mAB w)).toNat % 64 = 0)
  (hdm : (h.reg (mA w)).toNat + mImmU w * 64 ≤ 0x40000)
include hlo hhi hda hva hdm

/-- A transfer whose DMEM range and addresses are good turns on the bank and on what is in flight. -/
theorem lpTransfer_of_dmem_good : s.lpTransfer n load w h =
    if bankBad (h.reg (mAB w)).toNat (mImmU w * 64) then s.lpFault n pfVat
    else if 4 ≤ h.xfers.length ∨ h.busyRange (h.reg (mA w)).toNat (mImmU w * 64) then s
    else s.setLp n (LpH.mark { h with xfers := h.xfers ++
      [{ load := load, dmem := (h.reg (mA w)).toNat, off := (h.reg (mAB w)).toNat, len := mImmU w * 64 }] } 2) := by
  have hcount : ¬(mImmU w = 0 ∨ 4096 < mImmU w) := by omega
  have halign : ¬((h.reg (mA w)).toNat % 64 ≠ 0 ∨ (h.reg (mAB w)).toNat % 64 ≠ 0) := by omega
  unfold State.lpTransfer
  rw [if_neg hcount, if_neg hdm.not_gt, if_neg halign]

/-- A transfer inside DMEM and the bank starts while fewer than four are in flight and none holds its range. -/
theorem lpTransfer_starts (hbank : (h.reg (mAB w)).toNat + mImmU w * 64 ≤ 0x800000) (hfew : h.xfers.length < 4)
    (hfree : h.busyRange (h.reg (mA w)).toNat (mImmU w * 64) = false) : s.lpTransfer n load w h =
    s.setLp n (LpH.mark { h with xfers := h.xfers ++
      [{ load := load, dmem := (h.reg (mA w)).toNat, off := (h.reg (mAB w)).toNat, len := mImmU w * 64 }] } 2) := by
  have hin : bankBad (h.reg (mAB w)).toNat (mImmU w * 64) = false := decide_eq_false hbank.not_gt
  have hgo : ¬(4 ≤ h.xfers.length ∨ h.busyRange (h.reg (mA w)).toNat (mImmU w * 64) = true) := by simp [hfew, hfree]
  rw [lpTransfer_of_dmem_good s n load hlo hhi hda hva hdm, hin, if_neg (by decide), if_neg hgo]

theorem lpTransfer_leaves_bank (hbank : 0x800000 < (h.reg (mAB w)).toNat + mImmU w * 64) :
    s.lpTransfer n load w h = s.lpFault n pfVat := by
  rw [lpTransfer_of_dmem_good s n load hlo hhi hda hva hdm]
  exact if_pos (decide_eq_true hbank)

end

/-- A VLD that completes writes DMEM from the bank of its LP. -/
theorem does_vatTransferDone_load {n : Fin 16} {i : Fin 4} {s : State} {x : Transfer} (hrun : s.hold = .run)
    (hx : (s.lpAt n.val).xfers[i.val]? = some x) (hload : x.load = true) :
    Does (.vatTransferDone n i) s ((s.vatTouch (.privateLp n.val) (bankByte n.val x.off) x.len).setLp n.val
      (LpH.putBytes { s.lpAt n.val with xfers := (s.lpAt n.val).xfers.eraseIdx i.val } x.dmem
        (s.vatBytes (bankByte n.val x.off) x.len))) :=
  does_of_run _ (arm_vatTransferDone n i s) hrun (by simp only [hx, hload, if_true])

/-- A VST that completes writes the bank of its LP from DMEM. -/
theorem does_vatTransferDone_store {n : Fin 16} {i : Fin 4} {s : State} {x : Transfer} (hrun : s.hold = .run)
    (hx : (s.lpAt n.val).xfers[i.val]? = some x) (hload : x.load = false) :
    Does (.vatTransferDone n i) s
      ((s.setLp n.val { s.lpAt n.val with xfers := (s.lpAt n.val).xfers.eraseIdx i.val }).vatWrite (.privateLp n.val)
        (bankByte n.val x.off) ((s.lpAt n.val).bytes x.dmem x.len)) :=
  does_of_run _ (arm_vatTransferDone n i s) hrun (by simp only [hx, hload, Bool.false_eq_true, if_false]; rfl)

/-! ### Delay lines (R246, R247) -/

/-- Samples pass through a delay line that has room and no crossfade: each is written in turn, and what comes back lies the delay in
force before it. -/
theorem State.delayLine_of_steady {s t : State} {n l base len : Nat} {xs : List Word} {ln : DelayLn}
    (hbase : base = s.getF (Reg.lpnDlyBase n l) 22 0) (hlen : len = s.getF (Reg.lpnDlyAlloc n l) 15 0)
    (hln : ln = Sparse.get {} (s.lpAt n).dly l) (hfade : ln.fade = none) (hroom : ln.delay + 48 ≤ len)
    (ht : t = xs.zipIdx.foldl (fun s p =>
      s.vatWrite (.privateLp n) (delayByte n base len (ln.pos + p.2)) (leBytes 4 p.1.toNat)) s) :
    s.delayLine n l xs = ((t.setLp n { t.lpAt n with
      dly := Sparse.set {} (s.lpAt n).dly l { ln with pos := (ln.pos + 48) % len } }).showDelay n l,
      (List.range 48).map fun i => t.delayed n base len (ln.pos + i) ln.delay) := by
  subst hbase hlen hln ht
  unfold State.delayLine
  simp only [hroom.not_gt, if_false, State.delayOut, hfade, Option.bind_none]

/-- The delay exchange of a range that may be accessed, on a delay line inside the bank. -/
theorem State.dlyx_of_free {s t : State} {n a : Nat} {w : Word} {h : LpH} {ys : List Word} (ha : a = (h.reg (mA w)).toNat)
    (hfree : h.Free a 384)
    (hbank : bankBad (s.getF (Reg.lpnDlyBase n (mImmU w % 8)) 22 0) (s.getF (Reg.lpnDlyAlloc n (mImmU w % 8)) 15 0 * 4) = false)
    (hline : s.delayLine n (mImmU w % 8) (h.words a 48) = (t, ys)) :
    s.dlyx n w h = t.setLp n (LpH.mark (LpH.putWords { h with mFree := h.cyc + 110, dly := (t.lpAt n).dly } (a + 192) ys) 2) := by
  subst ha
  simp only [State.dlyx, hfree.1, hbank, hfree.2, Bool.false_eq_true, if_false, hline]

/-- Settles O17: word accesses by their range, transfers and the delay exchange by theirs. -/
theorem lpMemorySlot : Obligations.LpMemorySlot := by
  unfold Obligations.LpMemorySlot
  refine ⟨fun n s hrun hcan => does_of_run _ (arm_mnop n s) hrun (if_pos hcan),
    fun n s w h a hi ha hfree => ?ldf, fun n s w h a hi ha hfree => ?stf, fun n s w h a hi ha hfree => ?ldfp,
    fun n s w h a hi ha hfree => ?stfp, fun n s w h a hi ha hfree => ?lda, fun n s w h a hi ha hfree => ?sta,
    fun n s w h hi hlo hhi hda hva hdm hbank hfew hfree => does_mSlot (arm_vld n s) hi
      (lpTransfer_starts s n.val true hlo hhi hda hva hdm hbank hfew hfree),
    fun n s w h hi hlo hhi hda hva hdm hbank hfew hfree => does_mSlot (arm_vst n s) hi
      (lpTransfer_starts s n.val false hlo hhi hda hva hdm hbank hfew hfree),
    fun n i s x => does_vatTransferDone_load, fun n i s x => does_vatTransferDone_store,
    fun n s t w h a ys hi ha hfree hbank hline => does_mSlot (arm_dlyx n s) hi (State.dlyx_of_free ha hfree hbank hline),
    fun n l base len s t xs ln _ _ hbase hlen hln hfade hroom ht => ?delay,
    fun n s w h hi hal hend => does_mSlot (arm_ldf n s) hi (lpAccess_of_misaligned s n.val h _ hal hend),
    fun n s w h hi hend => does_mSlot (arm_stf n s) hi (lpAccess_of_outside s n.val h _ hend),
    fun n s w h hi hlo hhi hda hva hdm hbank => does_mSlot (arm_vld n s) hi
      (lpTransfer_leaves_bank s n.val true hlo hhi hda hva hdm hbank)⟩
  case ldf => exact ha ▸ does_mSlot (arm_ldf n s) hi (lpAccess_free (ha ▸ hfree))
  case stf => exact ha ▸ does_mSlot (arm_stf n s) hi (lpAccess_free (ha ▸ hfree))
  case ldfp => exact ha ▸ does_mSlot (arm_ldfp n s) hi (lpAccess_free (ha ▸ hfree))
  case stfp => exact ha ▸ does_mSlot (arm_stfp n s) hi (lpAccess_free (ha ▸ hfree))
  case lda => exact ha ▸ does_mSlot (arm_lda n s) hi (lpAccess_free (ha ▸ hfree))
  case sta => exact ha ▸ does_mSlot (arm_sta n s) hi (lpAccess_free (ha ▸ hfree))
  case delay =>
    have hout := State.delayLine_of_steady hbase hlen hln hfade hroom ht
    exact ⟨congrArg Prod.snd hout, congrArg Prod.fst hout⟩

end Sys2Proof.Machine
end

section
/-! Proofs: the C slot of a lane processor (O18). What each control operation does once its slot issues, and what HEND leaves: its writes
of the bank touch neither the processors nor the pacer. -/

namespace Sys2Proof.Machine

/-- A command that runs a control operation which issues does the rest of it. -/
theorem does_cSlot {i : Instr} {s u : State} {n op : Nat} {srcs : Word → List Nat} {w : Word} {h : LpH}
    {k : Word → LpH → State → State} (hx : exec i s = act s fun s => s.lpC n op srcs k) (hi : s.CIssues n op srcs w h)
    (hk : k w h s = u) : Does i s u :=
  does_of_run _ hx hi.1 ((lpC_issues hi).trans hk)

/-! ### What a write of the vat leaves (R511 to R515) -/

/-- `t` is `s` but for its registers, its collector and the vat. -/
def State.VatFrame (s t : State) : Prop := ∃ r f b v, t = { s with regs := r, fc := f, banks := b, vat := v }

theorem State.VatFrame.refl (s : State) : s.VatFrame s := ⟨s.regs, s.fc, s.banks, s.vat, rfl⟩

theorem State.VatFrame.trans {s t u : State} : s.VatFrame t → t.VatFrame u → s.VatFrame u := by
  rintro ⟨_, _, _, _, rfl⟩ ⟨r, f, b, v, rfl⟩
  exact ⟨r, f, b, v, rfl⟩

theorem State.vatFrame_setReg (s : State) (o : Nat) (v : Word) : s.VatFrame (s.setReg o v) :=
  ⟨_, s.fc, s.banks, s.vat, rfl⟩

theorem State.vatFrame_setBank (s : State) (n : Nat) (b : BankH) : s.VatFrame (s.setBank n b) :=
  ⟨s.regs, s.fc, _, s.vat, rfl⟩

theorem State.vatFrame_emit (s : State) (src code : Nat) (syn : Word) : s.VatFrame (s.emit src code syn) := by
  obtain ⟨q, l, h⟩ := s.emit_eq src code syn
  exact ⟨s.regs, _, s.banks, s.vat, h⟩

theorem State.vatFrame_setBankShown (s : State) (n : Nat) (b : BankH) : s.VatFrame (s.setBankShown n b) :=
  (s.vatFrame_setBank n b).trans (State.vatFrame_setReg _ _ _)

/-- An error found in the vat is recorded in the registers, the bank and the collector. -/
theorem State.vatFrame_vatFound (s : State) (n : Nat) (e : BadWord) (master det : Nat) : s.VatFrame (s.vatFound n e master det) := by
  unfold State.vatFound
  dsimp only
  split
  case isTrue =>
    exact (((s.vatFrame_setBankShown _ _).trans (State.vatFrame_setReg _ _ _)).trans (State.vatFrame_setReg _ _ _)).trans
      (State.vatFrame_emit _ _ _ _)
  case isFalse =>
    split
    case isTrue => exact .refl s
    case isFalse =>
      have hcount : ∀ code syn,
          s.VatFrame (((s.bump (Reg.mxVbankUeCnt n) 32).vatErrInfo n master det e.word).emit (196 + n) code syn) :=
        fun code syn => ((s.vatFrame_setReg _ _).trans (State.vatFrame_setReg _ _ _)).trans (State.vatFrame_emit _ _ _ _)
      split
      case isTrue => exact (hcount _ _).trans (State.vatFrame_setBankShown _ _ _)
      case isFalse =>
        split
        case isTrue => exact (hcount _ _).trans (State.vatFrame_setReg _ _ _)
        case isFalse =>
          exact (((hcount _ _).trans (State.vatFrame_setBank _ _ _)).trans (State.vatFrame_setReg _ _ _)).trans
            (State.vatFrame_emit _ _ _ _)

theorem State.vatFrame_vatWriteWord (s : State) (w : VatWriter) (a : Nat) (bs : List Byte) : s.VatFrame (s.vatWriteWord w a bs) := by
  unfold State.vatWriteWord
  dsimp only
  have hput : ∀ (t : State) v, t.VatFrame { t with vat := v } := fun t v => ⟨t.regs, t.fc, t.banks, v, rfl⟩
  split
  case isTrue => exact (s.vatFrame_setReg _ _).trans (State.vatFrame_emit _ _ _ _)
  case isFalse =>
    split
    case h_1 =>
      split
      case isTrue => exact s.vatFrame_vatFound _ _ _ _
      case isFalse => exact (s.vatFrame_setBankShown _ _).trans (hput _ _)
    case h_2 =>
      split
      case isTrue => exact hput s _
      case isFalse => exact (hput s _).trans (State.vatFrame_setBank _ _ _)

theorem State.vatFrame_vatWriteGo (w : VatWriter) (n a : Nat) (bs : List Byte) (s : State) :
    s.VatFrame (State.vatWriteGo w n a bs s) := by
  induction n generalizing a bs s with
  | zero => exact .refl s
  | succ n ih =>
    unfold State.vatWriteGo
    split
    case isTrue => exact .refl s
    case isFalse => exact (s.vatFrame_vatWriteWord _ _ _).trans (ih _ _ _)

theorem State.vatFrame_vatWrite (s : State) (w : VatWriter) (a : Nat) (bs : List Byte) : s.VatFrame (s.vatWrite w a bs) :=
  State.vatFrame_vatWriteGo w _ _ bs s

theorem State.VatFrame.lpAt {s t : State} (h : s.VatFrame t) (n : Nat) : t.lpAt n = s.lpAt n := by
  obtain ⟨r, f, b, v, rfl⟩ := h
  rfl

theorem State.VatFrame.pacer {s t : State} (h : s.VatFrame t) : t.pacer = s.pacer := by
  obtain ⟨r, f, b, v, rfl⟩ := h
  rfl

/-! ### HEND (R235, R240) -/

@[simp] theorem State.lpAt_setLp_same (s : State) (n : Nat) (h : LpH) : (s.setLp n h).lpAt n = h := Sparse.get_set_same ..

/-- Lifting the mutes of a complete heat changes lanes alone. -/
theorem State.heatComplete_keeps (s : State) (n : Nat) : (s.heatComplete n).regs = (s.putF (Reg.lpnStatus n) 15 12 0).regs ∧
    (s.heatComplete n).lps = (s.setLp n { s.lpAt n with hangRun := 0 }).lps := by
  refine forUpto_keeps (P := fun t : State => t.regs = (s.putF (Reg.lpnStatus n) 15 12 0).regs ∧
    t.lps = (s.setLp n { s.lpAt n with hangRun := 0 }).lps) (fun k _ t ht => ?_) ⟨rfl, rfl⟩
  dsimp only
  split
  case isTrue => exact ht
  case isFalse => exact ht

/-- Whether a bundle is bad does not turn on what a heat's end marks. -/
theorem LpH.bundleBad_marks (h : LpH) (o : BitVec 8) (b : Bool) : ({ h with odone := o, ovrPrev := b }).bundleBad = h.bundleBad := rfl

theorem LpH.bundleBad_hangRun (h : LpH) (k : Nat) : ({ h with hangRun := k }).bundleBad = h.bundleBad := rfl

theorem State.lpFetch_of_good {s : State} {n : Nat} (h : (s.lpAt n).bundleBad = none) : s.lpFetch n = s := by
  simp only [State.lpFetch, h]

/-- A stall moves the cycle, and writes the results that come due in it. -/
theorem LpH.stallTo_frame (h : LpH) (c : Nat) : ∃ d ws r, h.stallTo c = { h with cyc := d, wb := ws, regs := r } := by
  unfold LpH.stallTo
  split
  case isTrue => exact ⟨h.cyc, h.wb, h.regs, rfl⟩
  case isFalse =>
    obtain ⟨r, hr⟩ := LpH.retire_frame { h with
      cyc := c, wb := h.wb.map fun w => if w.cur then { w with due := w.due + (c - h.cyc) } else w }
    exact ⟨_, _, _, hr⟩

@[simp] theorem LpH.stallTo_pc (h : LpH) (c : Nat) : (h.stallTo c).pc = h.pc := by
  obtain ⟨d, ws, r, hr⟩ := h.stallTo_frame c
  rw [hr]

@[simp] theorem LpH.stallTo_dmem (h : LpH) (c : Nat) : (h.stallTo c).dmem = h.dmem := by
  obtain ⟨d, ws, r, hr⟩ := h.stallTo_frame c
  rw [hr]

@[simp] theorem LpH.endBundle_dmem (h : LpH) (target : Option Nat) (extra : Nat) : (h.endBundle target extra).dmem = h.dmem := by
  unfold LpH.endBundle
  dsimp only
  obtain ⟨r, hr⟩ := LpH.retire_frame _
  rw [hr]

/-- The processor after HEND: the results under way are written, and every lane is complete. -/
def LpH.heatEnd (h : LpH) : LpH :=
  { (h.endBundle none 0).stallTo ((h.endBundle none 0).wb.foldl (fun c w => max c w.due) (h.endBundle none 0).cyc) with
    odone := 0xFF#8, ovrPrev := false }

/-- The telemetry area of processor `n`, which HEND leaves as `h`, is copied to its bank. -/
def State.telemetryCopied (s : State) (n : Nat) (h : LpH) : State :=
  (s.setLp n h).bankWrite n (s.getF (Reg.lpnTlmBase n) 22 0) (h.bytes 0x9800 2048)

/-- The end of the heat of LP `n` is shown in its registers. -/
def State.showHeatEnd (s : State) (n : Nat) : State :=
  ((s.showCycles n).setReg (Reg.lpnEndLast n) (BitVec.ofNat 32 (s.pacer.ns.toNat % 1000000 / 1000))).setBit (Reg.lpnStatus n) 8 false

/-- The state after HEND has left processor `n` as `h`, before the next bundle is fetched. -/
def State.afterHend (s : State) (n : Nat) (h : LpH) : State := ((s.telemetryCopied n h).showHeatEnd n).heatComplete n

theorem State.vatFrame_telemetryCopied (s : State) (n : Nat) (h : LpH) : (s.setLp n h).VatFrame (s.telemetryCopied n h) :=
  State.vatFrame_vatWrite ..

theorem LpH.heatEnd_pc {h : LpH} (hloops : h.loops = []) : h.heatEnd.pc = h.pc + 1 := by
  rw [LpH.heatEnd, LpH.stallTo_pc, LpH.endBundle_pc, hloops]
  rfl

theorem LpH.heatEnd_dmem (h : LpH) : h.heatEnd.dmem = h.dmem := by
  rw [LpH.heatEnd, LpH.stallTo_dmem, LpH.endBundle_dmem]

theorem LpH.bundleBad_heatEnd (h : LpH) : h.heatEnd.bundleBad =
    ((h.endBundle none 0).stallTo ((h.endBundle none 0).wb.foldl (fun c w => max c w.due) (h.endBundle none 0).cyc)).bundleBad :=
  LpH.bundleBad_marks ..

theorem State.lpAt_congr {s t : State} (h : t.lps = s.lps) (n : Nat) : t.lpAt n = s.lpAt n := by simp [State.lpAt, h]

theorem State.lpAt_heatComplete (s : State) (n : Nat) : (s.heatComplete n).lpAt n = { s.lpAt n with hangRun := 0 } :=
  (State.lpAt_congr (s.heatComplete_keeps n).2 n).trans (State.lpAt_setLp_same ..)

theorem State.lpAt_afterHend (s : State) (n : Nat) (h : LpH) : (s.afterHend n h).lpAt n = { h with hangRun := 0 } := by
  have hcopied : ((s.telemetryCopied n h).showHeatEnd n).lpAt n = h :=
    ((s.vatFrame_telemetryCopied n h).lpAt n).trans (State.lpAt_setLp_same ..)
  rw [State.afterHend, State.lpAt_heatComplete, hcopied]

/-- A field leaves the bits outside it. -/
theorem State.bit_putF_of_outside (s : State) (o : Nat) {hi lo : Nat} (v : Nat) {i : Nat} (h : lo ≤ hi) (hi' : i < lo ∨ hi < i) :
    (s.putF o hi lo v).bit o i = s.bit o i := by
  rw [State.bit, State.reg_putF, if_pos rfl, bitAt, getLsbD_setFld _ _ _ _ _ h, if_neg (by omega)]
  rfl

/-- HEND leaves the heat with the run of missed heats ended, and shows when. -/
theorem State.afterHend_shows (s : State) (n : Nat) (h : LpH) : (s.afterHend n h).inHeat n = false ∧
    (s.afterHend n h).getF (Reg.lpnStatus n) 15 12 = 0 ∧
    (s.afterHend n h).reg (Reg.lpnEndLast n) = BitVec.ofNat 32 (s.pacer.ns.toNat % 1000000 / 1000) := by
  have hregs := (((s.telemetryCopied n h).showHeatEnd n).heatComplete_keeps n).1
  have hne : Reg.lpnEndLast n ≠ Reg.lpnStatus n := by simp
  refine ⟨(State.bit_congr hregs _ _).trans ?_, (State.getF_congr hregs _ _ _).trans ?_, (State.reg_congr hregs _).trans ?_⟩
  · rw [State.bit_putF_of_outside _ _ _ (by decide) (by decide), State.showHeatEnd, State.bit_setBit_same _ _ _ _ (by decide)]
  · rw [State.getF_putF_same _ _ _ _ _ (by decide) (by decide), Nat.zero_mod]
  · rw [State.reg_putF, if_neg hne, State.showHeatEnd, State.reg_setBit, if_neg hne, State.reg_setReg_same,
      (s.vatFrame_telemetryCopied n h).pacer, State.setLp_pacer]

/-- HEND whose next bundle is good ends the heat. -/
theorem does_hend {n : Fin 16} {s : State} {w : Word} {h : LpH} (hi : s.CIssues n.val 0x0F noSrcs w h)
    (hgood : h.heatEnd.bundleBad = none) : Does (.hend n) s (s.afterHend n.val h.heatEnd) := by
  have hfetch : (s.afterHend n.val h.heatEnd).lpFetch n.val = s.afterHend n.val h.heatEnd :=
    State.lpFetch_of_good (by rw [State.lpAt_afterHend, LpH.bundleBad_hangRun, hgood])
  exact does_cSlot (arm_hend n s) hi hfetch

/-- Settles O18: each operation by what it does with the processor once its slot issues. -/
theorem lpControlSlot : Obligations.LpControlSlot := by
  unfold Obligations.LpControlSlot
  refine ⟨fun n s w h hi => ?cnop, fun n s w h hi => ?br, fun n s w h hi ha => ?bzTaken, fun n s w h hi ha => ?bz,
    fun n s w h hi ha => ?bnzTaken, fun n s w h hi ha => ?bnz, fun n s w h hi hlt => ?bltTaken, fun n s w h hi hle => ?blt,
    fun n s w h hi hroom => ?call, fun n s w h hi hfull => ?callFull, fun n s w h t ts hi hstack => ?ret,
    fun n s w h hi hstack => ?retEmpty, fun n s w h k hi hk hne hroom => ?loop, fun n s w h hi hk => ?loopSkipped,
    fun n s w h hi hk hfull => ?loopFull, fun n s w h hi => ?amov, fun n s w h hi => ?aadd, fun n s w h hi => ?aaddr,
    fun n s w h hi => ?ashl, fun n s w h hi => ?mvfa, fun n s w h hi => ?mvaf, fun n s w h hi => ?odone,
    fun n s w h hi hloops hgood => ?hend, fun n s w h hi hnone => ?syncv, fun n s w h hi hsome => ?syncvWaits⟩
  case cnop => exact does_cSlot (arm_cnop n s) hi rfl
  case br => exact does_cSlot (arm_br n s) hi rfl
  case bzTaken => exact does_cSlot (arm_bz n s) hi (congrArg (s.lpGo n.val h) (if_pos ha))
  case bz => exact does_cSlot (arm_bz n s) hi (congrArg (s.lpGo n.val h) (if_neg ha))
  case bnzTaken => exact does_cSlot (arm_bnz n s) hi (congrArg (s.lpGo n.val h) (if_neg ha))
  case bnz => exact does_cSlot (arm_bnz n s) hi (congrArg (s.lpGo n.val h) (if_pos ha))
  case bltTaken => exact does_cSlot (arm_blt n s) hi (congrArg (s.lpGo n.val h) (if_pos hlt))
  case blt => exact does_cSlot (arm_blt n s) hi (congrArg (s.lpGo n.val h) (if_neg hle.not_gt))
  case call => exact does_cSlot (arm_call n s) hi (if_neg hroom.not_ge)
  case callFull => exact does_cSlot (arm_call n s) hi (if_pos hfull)
  case ret => exact does_cSlot (arm_ret n s) hi (by rw [hstack]; rfl)
  case retEmpty => exact does_cSlot (arm_ret n s) hi (by rw [hstack])
  case loop => exact does_cSlot (arm_loop n s) hi (hk ▸ (if_neg hne).trans (if_neg hroom.not_ge))
  case loopSkipped => exact does_cSlot (arm_loop n s) hi (if_pos hk)
  case loopFull => exact does_cSlot (arm_loop n s) hi ((if_neg hk).trans (if_pos hfull))
  case amov => exact does_cSlot (arm_amov n s) hi rfl
  case aadd => exact does_cSlot (arm_aadd n s) hi rfl
  case aaddr => exact does_cSlot (arm_aaddr n s) hi rfl
  case ashl => exact does_cSlot (arm_ashl n s) hi rfl
  case mvfa => exact does_cSlot (arm_mvfa n s) hi rfl
  case mvaf => exact does_cSlot (arm_mvaf n s) hi rfl
  case odone => exact does_cSlot (arm_odone n s) hi rfl
  case hend =>
    have hlp := s.lpAt_afterHend n.val h.heatEnd
    obtain ⟨hheat, hrun, hend⟩ := s.afterHend_shows n.val h.heatEnd
    have hdoes := does_hend hi ((LpH.bundleBad_heatEnd h).trans hgood)
    refine ⟨s.afterHend n.val h.heatEnd, hdoes, hheat, ?_, ?_, ?_, hrun, hend, ?_⟩ <;> rw [hlp]
    · rfl
    · exact LpH.heatEnd_pc hloops
    · exact h.heatEnd_dmem
  case syncv => exact does_cSlot (arm_syncv n s) hi (if_pos (List.isEmpty_iff.mpr hnone))
  case syncvWaits => exact does_cSlot (arm_syncv n s) hi (if_neg (hsome ∘ List.isEmpty_iff.mp))

end Sys2Proof.Machine
end

section
/-! Proofs: the block primitives of a lane processor (O19). What a primitive does once it issues, with its count and its ranges good or
its count bad, and the arithmetic of one sample of BIQ, LIA and RAMP. -/

namespace Sys2Proof.Machine

/-- The DMEM ranges of a primitive may all be accessed, and each holds a word. -/
def LpH.RangesFree (h : LpH) (rs : List (Nat × Nat)) : Prop := ∀ r ∈ rs, 4 ≤ r.2 ∧ h.Free r.1 r.2

theorem LpH.RangesFree.nil {h : LpH} : h.RangesFree [] := nofun

theorem LpH.RangesFree.cons {h : LpH} {a len : Nat} {rs : List (Nat × Nat)} (hlen : 4 ≤ len) (hfree : h.Free a len)
    (hrs : h.RangesFree rs) : h.RangesFree ((a, len) :: rs) :=
  List.forall_mem_cons.mpr ⟨⟨hlen, hfree⟩, hrs⟩

section
variable {i : Instr} {s : State} {n op : Nat} {counted : Bool} {bad : PrimArgs → Word → LpH → Bool}
  {ranges : PrimArgs → Word → LpH → List (Nat × Nat)} {cycles : PrimArgs → LpH → Nat}
  {k : PrimArgs → Word → LpH → Nat → LpH × Nat} {w : Word} {h : LpH} {p : PrimArgs}
  (hx : exec i s = act s fun s => s.lpP n op counted bad ranges cycles k) (hi : s.PIssues n op w h p)
include hx hi

/-- A primitive that issues with its operands in range and its memory free ends the bundle with what it computes. -/
theorem does_prim {h' : LpH} {c : Nat} (hn : counted = true → 1 ≤ p.n ∧ p.n ≤ 4096) (hb : bad p w h = false)
    (hr : h.RangesFree (ranges p w h)) (hk : k p w h s.freeCtr = (h', c)) :
    Does i s (State.lpClose { s with freeCtr := c } n h' none (cycles p h - 1)) := by
  obtain ⟨_, hc, -⟩ := id hi
  refine does_of_run _ hx hc.1 ((lpP_issues hi hn hb hr).trans ?_)
  rw [hk]

/-- A primitive whose count is 0 or above 4,096 is a program fault. -/
theorem does_prim_of_bad_count (hcounted : counted = true) (hn : p.n = 0 ∨ 4096 < p.n) : Does i s (s.lpFault n pfOperand) := by
  obtain ⟨h0, hc, rfl, rfl⟩ := hi
  refine does_of_run _ hx hc.1 ((lpC_issues hc).trans (if_pos ?_))
  simpa [hcounted] using hn

end

/-! ### The position of a sample of TBL (R236) -/

theorem tblPos_of_values {w : Word} (h : LpH) (p : PrimArgs) (i : Nat) (hsrc : bitAt w 3 = true) :
    tblPos h p w i = (valOf (h.word (p.as_ + 4 * i))).map fun v => if v < 0 then 0 else if 1 < v then 1 else v := if_pos hsrc

theorem tblPos_of_nco {w : Word} (h : LpH) (p : PrimArgs) (i : Nat) (hsrc : bitAt w 3 = false) :
    tblPos h p w i = h.phase (fld w 9 4) (sampleTime h.zbHeat i (if bitAt w 2 then 384 else 96)) := if_neg (by simp [hsrc])

theorem tblLog_in_range {h : LpH} {p : PrimArgs} (hlo : 4 ≤ (h.word p.ak).toNat) (hhi : (h.word p.ak).toNat ≤ 12) :
    (decide (tblLog h p < 4) || decide (12 < tblLog h p)) = false := by
  simp [tblLog, hlo.not_gt, hhi.not_gt]

section
variable {w : Word} {h : LpH} (p : PrimArgs) (hlog : (h.word p.ak).toNat ≤ 12)
include hlog

/-- With values for positions TBL reads its table and the values, and writes its result. -/
theorem tblRanges_of_values (hsrc : bitAt w 3 = true) :
    [(p.ak, 4 + 4 * (2 ^ min 13 (tblLog h p) + 1)), (p.ad, 4 * p.n)] ++ (if bitAt w 3 then [(p.as_, 4 * p.n)] else []) =
      [(p.ak, 4 + 4 * (2 ^ (h.word p.ak).toNat + 1)), (p.ad, 4 * p.n), (p.as_, 4 * p.n)] := by
  rw [if_pos hsrc, tblLog, min_eq_right (by omega)]
  rfl

/-- With an NCO for positions TBL reads its table alone, and writes its result. -/
theorem tblRanges_of_nco (hsrc : bitAt w 3 = false) :
    [(p.ak, 4 + 4 * (2 ^ min 13 (tblLog h p) + 1)), (p.ad, 4 * p.n)] ++ (if bitAt w 3 then [(p.as_, 4 * p.n)] else []) =
      [(p.ak, 4 + 4 * (2 ^ (h.word p.ak).toNat + 1)), (p.ad, 4 * p.n)] := by
  rw [if_neg (by simp [hsrc]), tblLog, min_eq_right (by omega)]
  rfl

end

/-! ### One sample of BIQ (R236) -/

theorem primWord_some (c : Nat) (q : Rat) : primWord c (some q) = (primOf q, c) := rfl

theorem valOf_of_finite {w : Word} (h : f32Finite w = true) : valOf w = some (f32ToRat w) := if_pos h

theorem biqStep_of_finite {cf : List (Option Rat)} {k : Nat → Rat} {s1 x : Word} (c : Nat) (s2 : Word)
    (hcf : ∀ i, i < 5 → cf.getD i none = some (k i)) (hx : f32Finite x = true) (hs : f32Finite s1 = true) :
    (biqStep cf c s1 s2 x).1.1 = primOf (k 0 * f32ToRat x + f32ToRat s1) := by
  have hy : vadd (vmul (cf.getD 0 none) (valOf x)) (valOf s1) = some (k 0 * f32ToRat x + f32ToRat s1) := by
    rw [hcf 0 (by decide), valOf_of_finite hx, valOf_of_finite hs]
    rfl
  simp only [biqStep, hy, primWord_some]

/-! ### One sample of RAMP (R237) -/

theorem rampGain_of_last {r : RampBlk} {p : Nat} (c : Nat) (h : r.len ≤ p) : rampGain c r p = (r.target, c) := if_pos h

/-- At its start sample a ramp of one sample lands on its target. -/
theorem rampStep_of_one_sample {heat k : Nat} {r : RampBlk} (c : Nat) (hwrap : heat + k / 48 < 2 ^ 32) (hheat : heat + k / 48 = r.heat)
    (hsample : k % 48 = r.sample) (hlen : r.len = 1) :
    (rampStep c heat k r).1 = { r with g0 := r.g, g := r.target, pos := 1 } := by
  have hstarts : ((heat + k / 48) % 2 ^ 32 == r.heat && k % 48 == r.sample) = true := by
    rw [Nat.mod_eq_of_lt hwrap]
    simp [hheat, hsample]
  have hlast := rampGain_of_last (r := { r with g0 := r.g, pos := 0 }) (p := 1) c hlen.le
  simp only [rampStep, hstarts, if_true, Bool.true_or, Nat.zero_add, hlast]

/-- A ramp that has not started keeps its gain outside its heat. -/
theorem rampStep_of_other_heat {heat k : Nat} {r : RampBlk} (c : Nat) (hheat : (heat + k / 48) % 2 ^ 32 ≠ r.heat) (hpos : r.pos = 0) :
    rampStep c heat k r = (r, c) := by
  have hstarts : ((heat + k / 48) % 2 ^ 32 == r.heat && k % 48 == r.sample) = false := by
    rw [beq_false_of_ne hheat, Bool.false_and]
  simp only [rampStep, hstarts, Bool.false_eq_true, if_false, Bool.false_or, hpos, lt_self_iff_false, decide_false, Bool.false_and]

/-- Settles O19: each primitive by its ranges and what it computes from the memory. -/
theorem lpPrimitives : Obligations.LpPrimitives := by
  unfold Obligations.LpPrimitives
  refine ⟨fun n s w h p ys c s1 s2 hi hlo hhi has hak hgo => ?biq,
    fun n s w h p k ys c hi hlo hhi hk1 hk2 hk hak has had hgo => ?firb,
    fun n s w h p ys c hi hlo hhi hak has had hgo => ?poly8, fun n s w h p v c hi hlo hhi has hak hgo => ?env,
    fun n s w h p k ys c hi hlo hhi hk hk1 hk2 hsrc hacc hak had has hgo => ?tblValues,
    fun n s w h p k ys c hi hlo hhi hk hk1 hk2 hsrc hacc hak had hgo => ?tblNco,
    fun n s w h p l c hi hlo hhi hch has hgo => ?lia, fun h ch i c x xs l => ⟨rfl, rfl⟩,
    fun n s w h p l x y hi hch had hl hx hy hclr => ?liard, fun n s w h p h2 l x y hi hch had hl hx hy hclr hh2 => ?liardClear,
    fun n s w h p l hi hch hak hl => ?ncoset,
    fun n s w h p ys r c hi hlo hhi has hak hlen1 hlen2 hshape hgo => ?ramp,
    fun n s w h p hi hn => does_prim_of_bad_count (arm_biq n s) hi rfl hn,
    fun n s w h p hi hn => does_prim_of_bad_count (arm_lia n s) hi rfl hn,
    fun cf k c s1 s2 x hcf hx hs => biqStep_of_finite c s2 hcf hx hs,
    fun c heat k r => rampStep_of_one_sample c, fun c heat k r => rampStep_of_other_heat c⟩
  case biq =>
    exact does_prim (arm_biq n s) hi (fun _ => ⟨hlo, hhi⟩) rfl
      (.cons (by omega) has (.cons (by decide) hak .nil))
      (congrArg (fun r : List Word × Nat × Word × Word =>
        (((h.putWords p.as_ r.1).putWord (p.ak + 20) r.2.2.1).putWord (p.ak + 24) r.2.2.2, r.2.1)) hgo)
  case firb =>
    subst hk
    have htaps : (firTaps h p == 0 || decide (1024 < firTaps h p)) = false := by
      rw [firTaps, Bool.or_eq_false_iff, beq_eq_false_iff_ne, decide_eq_false_iff_not]
      omega
    exact does_prim (arm_firb n s) hi (fun _ => ⟨hlo, hhi⟩) htaps
      (.cons (by omega) hak (.cons (by omega) has (.cons (by omega) had .nil)))
      (congrArg (fun r : List Word × Nat => (h.putWords p.ad r.1, r.2)) hgo)
  case poly8 =>
    exact does_prim (arm_poly8 n s) hi (fun _ => ⟨hlo, hhi⟩) rfl
      (.cons (by decide) hak (.cons (by omega) has (.cons (by omega) had .nil)))
      (congrArg (fun r : List Word × Nat => (h.putWords p.ad r.1, r.2)) hgo)
  case env =>
    exact does_prim (arm_env n s) hi (fun _ => ⟨hlo, hhi⟩) rfl
      (.cons (by omega) has (.cons (by decide) hak .nil))
      (congrArg (fun r : Word × Nat => (h.putWord p.ak r.1, r.2)) hgo)
  case tblValues =>
    subst hk
    refine does_prim (arm_tbl n s) hi (fun _ => ⟨hlo, hhi⟩) (tblLog_in_range hk1 hk2) ?_ ?_
    · rw [tblRanges_of_values p hk2 hsrc]
      exact .cons (by omega) hak (.cons (by omega) had (.cons (by omega) has .nil))
    · simp only [hacc, Bool.false_eq_true, if_false, tblPos_of_values h p _ hsrc, hgo]
  case tblNco =>
    subst hk
    refine does_prim (arm_tbl n s) hi (fun _ => ⟨hlo, hhi⟩) (tblLog_in_range hk1 hk2) ?_ ?_
    · rw [tblRanges_of_nco p hk2 hsrc]
      exact .cons (by omega) hak (.cons (by omega) had .nil)
    · simp only [hacc, Bool.false_eq_true, if_false, tblPos_of_nco h p _ hsrc, hgo]
  case lia =>
    exact does_prim (arm_lia n s) hi (fun _ => ⟨hlo, hhi⟩) rfl (.cons (by omega) has .nil)
      ((if_neg hch.not_ge).trans (congrArg (fun r : LockIn × Nat => ({ h with lock := Sparse.set {} h.lock (fld w 9 4) r.1 }, r.2)) hgo))
  case liard =>
    subst hl
    refine does_prim (arm_liard n s) hi nofun rfl (.cons (by decide) had .nil) ?_
    simp only [hch.not_ge, if_false, hx, hy, hclr, Bool.false_eq_true]
  case liardClear =>
    subst hl hh2
    refine does_prim (arm_liard n s) hi nofun rfl (.cons (by decide) had .nil) ?_
    simp only [hch.not_ge, if_false, hx, hy, hclr, if_true]
  case ncoset =>
    subst hl
    exact does_prim (arm_ncoset n s) hi nofun rfl (.cons (by decide) hak .nil) (if_neg hch.not_ge)
  case ramp =>
    have hblk : ((rampBlk h p.ak).len == 0 || decide (480000 < (rampBlk h p.ak).len) || decide (2 < (rampBlk h p.ak).shape)) = false := by
      simp only [Bool.or_eq_false_iff, beq_eq_false_iff_ne, decide_eq_false_iff_not]
      omega
    exact does_prim (arm_ramp n s) hi (fun _ => ⟨hlo, hhi⟩) hblk
      (.cons (by omega) has (.cons (by decide) hak .nil))
      (congrArg (fun x : List Word × RampBlk × Nat =>
        (((h.putWords p.as_ x.1).putWord p.ak x.2.1.g).putWords (p.ak + 24) [x.2.1.g0, BitVec.ofNat 32 x.2.1.pos], x.2.2)) hgo)

end Sys2Proof.Machine
end

section
/-! Proofs: lane parameters, delays and the loading of images (for O20). What the rows of R260 commit, and what an acceptance, a boundary
and the SSV's check make of the state. -/

namespace Sys2Proof.Machine

/-! ### Lane parameters (R241, R243, R244) -/

theorem paramData_of_inline {e : Sched} {d : Body} (he : e.desc = descOf 0x0201 d) :
    paramData e = some ((d.payload.drop 8).take (d.pl 4 2)) := by
  simp only [paramData, he, if_true]

theorem paramCommit_of_lost {e : Sched} {s : State} (hlost : paramData e = none) :
    paramCommit e s = (s.showPend (e.desc.body.byte 0 / 8), .done stFaulted 0) := by
  simp only [paramCommit, hlost]

/-- The data `bs` of the first update of a zone bus heat are written into the shadow bank of lane `l` of LP `n` at `off`, and the banks
are to swap. -/
def State.shadowTake (s : State) (n l off heat : Nat) (bs : List Byte) : State :=
  let h := (s.lpAt n).patch (bankAddr l (!(s.lpAt n).bank.getLsbD l) + off) bs
  State.showPend { s.setLp n { h with swap := h.swap ||| (1#8 <<< l) } with paramHeat := heat, paramCnt := 1 } n

section
variable {e : Sched} {s : State} {n l : Nat} {bs : List Byte} (hn : n = e.desc.body.byte 0 / 8) (hl : l = e.desc.body.byte 0 % 8)
  (hfirst : s.paramHeat ≠ e.heat) (hdata : paramData e = some bs)
include hn hl hfirst hdata

/-- The first update of a heat commits what its entry of the pending area holds, at `at_`, or without an entry the data sent. -/
theorem paramCommit_of_first {at_ : Option Nat} (hat : e.pend.map (fun k => bankByte n (s.pendOffset n k)) = at_) : paramCommit e s =
    (((at_.map fun a => s.vatTouch (.privateLp n) a (min bs.length 4096)).getD s).shadowTake n l (e.desc.body.pl 2 2) e.heat
      ((at_.map fun a => s.vatBytes a (min bs.length 4096)).getD bs), resOk) := by
  subst hn hl hat
  rw [paramCommit, hdata, if_neg hfirst]
  rfl

theorem paramCommit_of_sent (hpend : e.pend = none) :
    paramCommit e s = (s.shadowTake n l (e.desc.body.pl 2 2) e.heat bs, resOk) :=
  paramCommit_of_first hn hl hfirst hdata (at_ := none) (by rw [hpend]; rfl)

theorem paramCommit_of_pending {k a : Nat} (hpend : e.pend = some k) (ha : a = bankByte n (s.pendOffset n k)) : paramCommit e s =
    ((s.vatTouch (.privateLp n) a (min bs.length 4096)).shadowTake n l (e.desc.body.pl 2 2) e.heat
      (s.vatBytes a (min bs.length 4096)), resOk) :=
  paramCommit_of_first hn hl hfirst hdata (at_ := some a) (by rw [hpend, ha]; rfl)

end

/-- At its acceptance the data of an update go into the lowest free entry of the pending area. -/
theorem paramAccept_of_free {s : State} {e : Sched} {n k : Nat} {bs : List Byte} (hn : n = e.desc.body.byte 0 / 8)
    (hdata : paramData e = some bs)
    (hfree : (List.range 32).find? (fun k => !((s.pending_ n).filterMap (·.pend)).contains k) = some k) :
    paramAccept e s = ((s.schedUpd e.id fun e => { e with pend := some k }).bankWrite n (s.pendOffset n k) bs).showPend n := by
  subst hn
  simp only [paramAccept, hdata, hfree]

/-! ### Delays (R246) -/

section
variable {e : Sched} {d : Body} {s : State} {n l : Nat} (hd : e.desc.body = d) (hn : n = d.byte 0 / 8) (hl : l = d.byte 0 % 8)
include hd hn hl

theorem laneDelayRow_commit_of_short (hshort : s.getF (Reg.lpnDlyAlloc n l) 15 0 < d.pl 4 4 + 48) :
    laneDelayRow.commit e s = (s, .done stShort 0) := by
  subst hd hn hl
  exact if_pos hshort

theorem laneDelayRow_commit_of_room (hroom : d.pl 4 4 + 48 ≤ s.getF (Reg.lpnDlyAlloc n l) 15 0) : laneDelayRow.commit e s =
    ((s.setLp n { s.lpAt n with dly := Sparse.set {} (s.lpAt n).dly l ((Sparse.get {} (s.lpAt n).dly l).change (d.pl 4 4)) }).showDelay
      n l, resOk) := by
  subst hd hn hl
  exact if_neg hroom.not_gt

end

/-! ### Loads (R249, R250) -/

section
variable {e : Sched} {s : State} {x : LpLoad} (hva : s.vaRefuses = false) (hx : s.lpLoads.find? (fun x => x.upd.id == e.id) = some x)
include hva hx

/-- A load whose image has been accepted is due from its commit. -/
theorem lpLoadRow_commit_of_accepted (hok : x.verdict = some true) :
    lpLoadRow.commit e s = (s.setLoads (fun x => { x with due := true, upd := e }) e.id, .wait) := by
  simp only [lpLoadRow, hx, hva, hok, Option.some.injEq, Bool.true_eq_false, Bool.false_eq_true, if_false]

theorem lpLoadRow_commit_of_refused (hbad : x.verdict = some false) : lpLoadRow.commit e s = (s.dropLoad e.id, .done stFaulted 0) := by
  simp only [lpLoadRow, hx, hva, hbad, Bool.false_eq_true, if_false, if_true]

end

/-- The only load, committed and accepted, begins once none of its LPs is in RESET. -/
theorem State.loadsBegin_of_single {s : State} {x : LpLoad} {hc : Nat} (hone : s.lpLoads = [x]) (hdue : x.due = true)
    (hnew : x.begun = false) (hok : x.verdict = some true) (hready : ∀ n ∈ lpsOf x.mask, s.lpSt n ≠ lpReset) :
    s.loadsBegin hc = s.loadBegin x hc := by
  have hall : ((lpsOf x.mask).all fun n => s.lpSt n != lpReset) = true :=
    List.all_eq_true.mpr fun n hn => bne_iff_ne.mpr (hready n hn)
  have hgo : (x.due && !x.begun && x.verdict == some true && (lpsOf x.mask).all fun n => s.lpSt n != lpReset) = true := by
    rw [hall, hdue, hnew, hok]
    rfl
  simp only [State.loadsBegin, hone, List.filter_cons, hgo, if_true, List.filter_nil, List.foldl_cons, List.foldl_nil]

/-- An unsigned image that passes the SSV's check for one LP is recorded there, with its hash. -/
theorem does_imageAccepted {o : Origin} {s : State} {x : LpLoad} {n : Nat} (hrun : s.hold = .run)
    (hx : s.lpLoads.find? (fun x => decide (x.upd.org = o) && x.verdict.isNone) = some x) (hone : lpsOf x.mask = [n])
    (hlen : x.image.length = x.upd.desc.body.pl 4 4) (hunsigned : imgSigned x.image = false)
    (hok : (s.setBit (Reg.lpnStatus n) 9 false).imageOk x.image = true) :
    Does (.imageAccepted o) s
      (((s.setBit (Reg.lpnStatus n) 9 false).setLp n { s.lpAt n with stageLen := x.image.length, hash := sha384 x.image }).setLoads
        (fun x => { x with verdict := some true }) x.upd.id) := by
  refine does_of_run _ (arm_imageAccepted o s) hrun ?_
  simp only [hx, hone, List.foldl_cons, List.foldl_nil, hunsigned, Bool.false_and, Bool.false_eq_true, if_false, hok, hlen, and_self,
    if_true]
  rfl

end Sys2Proof.Machine
end

section
/-! Proofs: programs of the lane processors (O20). Switches, starts and stops of an LP, abandoned heats, and reloads after a reset. -/

namespace Sys2Proof.Machine

/-! ### Switching to a new image (R250) -/

/-- A load under way goes on at an LP that is not in RESET. -/
theorem State.loadOf_filter_of_not_reset {s : State} {n : Nat} {x : LpLoad} (hx : s.loadOf n = some x) (hst : s.lpSt n ≠ lpReset) :
    (s.loadOf n).filter (fun _ => s.lpSt n != lpReset) = some x := by
  rw [hx, Option.filter_some, if_pos (bne_iff_ne.mpr hst)]

section
variable {n : Fin 16} {s : State} {x : LpLoad} (hrun : s.hold = .run)
include hrun

theorem does_lpSwitchHalt_of_load (hx : s.loadOf n.val = some x) (hst : s.lpSt n.val ≠ lpReset) :
    Does (.lpSwitchHalt n) s
      (((s.vatTouch (.privateLp n.val) (s.stageByte n.val) x.image.length).setLp n.val
        ((s.lpAt n.val).loadImage (s.vatBytes (s.stageByte n.val) x.image.length))).setBit (Reg.lpnStatus n.val) 8 false) :=
  does_of_run _ (arm_lpSwitchHalt n s) hrun (by simp only [State.loadOf_filter_of_not_reset hx hst])

/-- An LP that stops halts at the end of its ramp; here no LP_RUN waits for it. -/
theorem does_lpSwitchHalt_of_stop (hx : s.loadOf n.val = none) (hstop : (s.lpAt n.val).stopping = true) (hnone : s.lpStops = []) :
    Does (.lpSwitchHalt n) s
      (((s.setLp n.val { (s.lpAt n.val).idle with stopping := false, odone := 0, first := true }).setLpSt n.val lpStandby).setBit
        (Reg.lpnStatus n.val) 8 false) := by
  have hstopped : ∀ t : State, t.lpStops = [] → t.lpStopped n.val = t := fun t ht => by
    simp only [State.lpStopped, ht, List.find?_nil]
  refine does_of_run _ (arm_lpSwitchHalt n s) hrun ?_
  simp only [hx, Option.filter_none, hstop, Bool.not_true, Bool.false_eq_true, if_false]
  exact hstopped _ hnone

theorem does_lpSwitchStart {go : Bool} (hx : s.loadOf n.val = some x) (hst : s.lpSt n.val ≠ lpReset)
    (hgo : (x.start && (s.showImage n.val x.image).bit (Reg.lpnCtrl n.val) 0 && !(s.showImage n.val x.image).wup) = go) :
    Does (.lpSwitchStart n) s
      ((if go then (s.showImage n.val x.image).lpStart n.val else (s.showImage n.val x.image).setLpSt n.val lpStandby).loadStep x n.val
        (x.hc + 9) true) := by
  subst hgo
  exact does_of_run _ (arm_lpSwitchStart n s) hrun (by simp only [State.loadOf_filter_of_not_reset hx hst])

end

/-! ### LP_RUN and EN (R251, R260, R262) -/

theorem lpRunStartRow_commit_of_wup {s : State} (e : Sched) (hwup : s.wup = true) : lpRunStartRow.commit e s = (s, .done stMode 0) := by
  simp [lpRunStartRow, hwup]

section
variable {e : Sched} {d : Body} {s : State} {n : Nat} (hd : e.desc.body = d)
include hd

theorem lpRunStartRow_commit_of_standby (hwup : s.wup = false) (hone : lpsOf (lpMask d) = [n]) (hst : s.lpSt n = lpStandby)
    (hen : s.bit (Reg.lpnCtrl n) 0 = true) : lpRunStartRow.commit e s = (s.lpStart n, resOk) := by
  subst hd
  simp [lpRunStartRow, hwup, hone, hst, hen]

theorem lpRunStopRow_commit_of_none (hva : s.vaRefuses = false)
    (hnone : (lpsOf (lpMask d)).filter (fun n => s.lpSt n == lpRunning) = []) : lpRunStopRow.commit e s = (s, resOk) := by
  subst hd
  simp only [lpRunStopRow, hva, hnone, Bool.false_eq_true, if_false, List.isEmpty_nil, if_true]

theorem lpRunStopRow_commit_of_one (hva : s.vaRefuses = false)
    (hone : (lpsOf (lpMask d)).filter (fun n => s.lpSt n == lpRunning) = [n]) : lpRunStopRow.commit e s =
      ({ s.lpStop n with lpStops := (s.lpStop n).lpStops ++ [{ upd := e, left := 1#16 <<< n }] }, .wait) := by
  subst hd
  simp only [lpRunStopRow, hva, hone, Bool.false_eq_true, if_false, List.isEmpty_cons, List.foldl_cons, List.foldl_nil, BitVec.zero_or]

end

section
variable {m : Master} {n : Fin 16} {v : Word} {s : State} (hrun : s.hold = .run) (hmay : s.may m (Reg.lpnCtrl n.val) = true)
include hrun hmay

/-- A write that does not clear EN is stored. -/
theorem does_lpEnWrite_of_kept (hkeep : s.bit (Reg.lpnCtrl n.val) 0 = false ∨ bitAt v 0 = true) :
    Does (.lpEnWrite m n v) s (s.rawWrite (Reg.lpnCtrl n.val) v) := by
  have hclears : (s.bit (Reg.lpnCtrl n.val) 0 && !bitAt v 0) = false := by
    obtain h | h := hkeep <;> simp [h]
  exact does_of_gated _ (arm_lpEnWrite m n v s) hrun hmay (by simp only [hclears, Bool.false_and, Bool.false_eq_true, if_false])

/-- A write that clears EN stops the LP where that is not refused. -/
theorem does_lpEnWrite_of_cleared (hen : s.bit (Reg.lpnCtrl n.val) 0 = true) (hv : bitAt v 0 = false) (hva : s.vaRefuses = false) :
    Does (.lpEnWrite m n v) s ((s.rawWrite (Reg.lpnCtrl n.val) v).lpStop n.val) := by
  refine does_of_gated _ (arm_lpEnWrite m n v s) hrun hmay ?_
  simp only [hen, hv, hva, Bool.not_false, Bool.and_self, Bool.and_false, Bool.false_and, Bool.false_eq_true, if_false, if_true]

end

/-! ### Abandoned heats (R240) -/

/-- The heat of LP `n` is dropped: the program is forced to its entry, and the registers show it. -/
def State.heatDropped (s : State) (n : Nat) : State :=
  let t := s.setLp n { (s.lpAt n).idle with
    pc := s.getF (Reg.lpnEntry n) 11 0, ovrPrev := true, hangRun := (s.lpAt n).hangRun + 1 }
  (((t.showCycles n).setBit (Reg.lpnStatus n) 8 false).setReg (Reg.lpnEndLast n) 0x3FF#32).bump (Reg.lpnOvrCnt n) 32

/-- An abandoned heat is dropped, counted in the run of abandoned heats, and reported. -/
theorem State.abandonHeat_frame {s : State} {n : Nat} (hheat : s.inHeat n = true) : ∃ run : Nat,
    (s.abandonHeat n).regs = ((s.heatDropped n).putF (Reg.lpnStatus n) 15 12 run).regs ∧
    (s.abandonHeat n).lps = (s.heatDropped n).lps := by
  refine ⟨satInc 4 ((s.heatDropped n).getF (Reg.lpnStatus n) 15 12), ?_⟩
  unfold State.abandonHeat
  rw [if_neg (by simp [hheat])]
  dsimp only
  split
  case isTrue =>
    exact ⟨by rw [State.emit_regs, State.emit_regs, State.heatDropped],
      by rw [State.emit_lps, State.emit_lps, State.putF_lps, State.heatDropped]⟩
  case isFalse => exact ⟨by rw [State.emit_regs, State.heatDropped], by rw [State.emit_lps, State.putF_lps, State.heatDropped]⟩

theorem State.lpAt_heatDropped (s : State) (n : Nat) : (s.heatDropped n).lpAt n =
    { (s.lpAt n).idle with pc := s.getF (Reg.lpnEntry n) 11 0, ovrPrev := true, hangRun := (s.lpAt n).hangRun + 1 } :=
  State.lpAt_setLp_same ..

/-- A dropped heat is over, and its end is shown as none. -/
theorem State.heatDropped_shows (s : State) (n run : Nat) :
    ((s.heatDropped n).putF (Reg.lpnStatus n) 15 12 run).bit (Reg.lpnStatus n) 8 = false ∧
    ((s.heatDropped n).putF (Reg.lpnStatus n) 15 12 run).reg (Reg.lpnEndLast n) = 0x3FF#32 := by
  have hend : Reg.lpnStatus n ≠ Reg.lpnEndLast n := by simp
  have hovr : Reg.lpnStatus n ≠ Reg.lpnOvrCnt n := by simp
  have hovr' : Reg.lpnEndLast n ≠ Reg.lpnOvrCnt n := by simp
  constructor
  · rw [State.bit_putF_of_outside _ _ _ (by decide) (by decide), State.heatDropped, State.bit, State.reg_bump_ne _ _ _ _ hovr,
      State.reg_setReg_ne _ _ _ _ hend]
    exact State.bit_setBit_same _ _ _ _ (by decide)
  · rw [State.reg_putF, if_neg hend.symm, State.heatDropped, State.reg_bump_ne _ _ _ _ hovr', State.reg_setReg_same]

theorem does_heatAbandoned {n : Fin 16} {s : State} (hrun : s.hold = .run) (hheat : s.inHeat n.val = true) :
    ∃ u : State, Does (.heatAbandoned n) s u ∧ u.inHeat n.val = false ∧ (u.lpAt n.val).pc = s.getF (Reg.lpnEntry n.val) 11 0 ∧
      (u.lpAt n.val).ovrPrev = true ∧ (u.lpAt n.val).hangRun = (s.lpAt n.val).hangRun + 1 ∧
      u.reg (Reg.lpnEndLast n.val) = 0x3FF#32 ∧ (u.lpAt n.val).dmem = (s.lpAt n.val).dmem := by
  obtain ⟨run, hregs, hlps⟩ := State.abandonHeat_frame hheat
  obtain ⟨hover, hend⟩ := s.heatDropped_shows n.val run
  have hlp := (State.lpAt_congr hlps n.val).trans (s.lpAt_heatDropped n.val)
  refine ⟨s.abandonHeat n.val, does_of_run _ (arm_heatAbandoned n s) hrun rfl, (State.bit_congr hregs _ _).trans hover, ?_, ?_, ?_,
    (State.reg_congr hregs _).trans hend, ?_⟩ <;> rw [hlp]
  rfl

/-! ### Reloads (R251, R253) -/

theorem State.loadOf_of_no_loads {s : State} (n : Nat) (h : s.lpLoads = []) : s.loadOf n = none := by
  rw [State.loadOf, h, List.find?_nil]

section
variable {n : Fin 16} {s t u : State} {bs : List Byte} (hrun : s.hold = .run) (hst : s.lpSt n.val = lpReset)
  (hheld : s.fc.held.contains (144 + n.val) = false) (hbs : bs = s.vatBytes (s.stageByte n.val) (s.lpAt n.val).stageLen)
  (ht : t = s.vatTouch (.privateLp n.val) (s.stageByte n.val) (s.lpAt n.val).stageLen)
include hrun hst hheld hbs ht

/-- A reload whose hash differs faults the LP; here no load is under way. -/
theorem does_lpReloadDone_of_bad (hhash : sha384 bs ≠ (s.lpAt n.val).hash)
    (hu : u = (t.setLpSt n.val lpFaulted).emit (144 + n.val) 0x78 (syn12 0x78 0xFFF 0)) (hloads : u.lpLoads = []) :
    Does (.lpReloadDone n) s u := by
  have hgo : ¬(s.lpSt n.val ≠ lpReset ∨ s.fc.held.contains (144 + n.val) = true) :=
    not_or.mpr ⟨not_not_intro hst, by rw [hheld]; exact Bool.false_ne_true⟩
  have hnone := State.loadOf_of_no_loads n.val hloads
  subst hbs ht hu
  refine does_of_run _ (arm_lpReloadDone n s) hrun ?_
  simp only [if_neg hgo, if_pos hhash, hnone]

/-- A reload that passes starts an LP that ran; here no load is under way. -/
theorem does_lpReloadDone_of_good (hhash : sha384 bs = (s.lpAt n.val).hash) (hwas : (s.lpAt n.val).was = lpRunning)
    (hu : u = (t.setLp n.val ((t.lpAt n.val).loadImage bs)).showImage n.val bs) (hloads : u.lpLoads = []) :
    Does (.lpReloadDone n) s (u.lpStart n.val) := by
  have hgo : ¬(s.lpSt n.val ≠ lpReset ∨ s.fc.held.contains (144 + n.val) = true) :=
    not_or.mpr ⟨not_not_intro hst, by rw [hheld]; exact Bool.false_ne_true⟩
  have hnone := State.loadOf_of_no_loads n.val hloads
  subst hbs ht hu
  refine does_of_run _ (arm_lpReloadDone n s) hrun ?_
  simp only [if_neg hgo, if_neg (not_not_intro hhash), hnone, if_pos hwas]

end

/-- Settles O20: descriptors by what their rows commit, and events by the loads, the stops and the state of the LP. -/
theorem lpPrograms : Obligations.LpPrograms := by
  unfold Obligations.LpPrograms
  refine ⟨fun o d s t e n l bs h hdue ht hn hl hfirst hpend hbs hh => ?inline, fun o d s t e rd hdue ht hlost => ?lost,
    fun o d s t e rd n l k a bs h v hdue ht hn hl hfirst hdata hpend ha hv hh => ?pending,
    fun s e n k bs => paramAccept_of_free, fun s e hrun hheat hone => ?shadow,
    fun o d s t e n l hdue ht hn hl hshort => ?delayShort, fun o d s t e n l hdue ht hn hl hroom => ?delay,
    fun o d s t e rd x hdue ht hva hx hok => ?loadDue, fun o d s t e rd x hdue ht hva hx hbad => ?loadRefused,
    fun s x hc => State.loadsBegin_of_single, fun o s x n => does_imageAccepted, fun n s x => does_lpSwitchHalt_of_load,
    fun n s => does_lpSwitchHalt_of_stop, fun n s x hrun hx hst hstart hen _ hwup => ?starts,
    fun n s x hrun hx hst hstart => ?stays, fun o d s t e n hdue ht hwup hone hst hen => ?runStart,
    fun o d s t e hdue ht hwup => ?runWarm, fun o d s t e hdue ht hva hnone => ?stopNone,
    fun o d s t e n hdue ht hva hone => ?stopOne, fun m n v s => does_lpEnWrite_of_kept, fun m n v s => does_lpEnWrite_of_cleared,
    fun n s => does_heatAbandoned, fun n s hrun hhang => does_of_run _ (arm_lpHang n s) hrun (if_pos hhang),
    fun n s t u bs => does_lpReloadDone_of_bad, fun n s t u bs => does_lpReloadDone_of_good⟩
  case inline =>
    have he := due_body hdue
    have hd : e.desc.body = d := congrArg Desc.body he
    subst ht hh hbs
    exact does_commit (arm_laneParamInline .commit o d s) hdue
      (hd ▸ paramCommit_of_sent (hd ▸ hn) (hd ▸ hl) hfirst (paramData_of_inline (hd ▸ he)) hpend)
  case lost =>
    have hd : e.desc.body = d := congrArg Desc.body (due_body hdue)
    subst ht
    exact does_commit (arm_laneParam .commit o d rd s) hdue (hd ▸ paramCommit_of_lost hlost)
  case pending =>
    have hd : e.desc.body = d := congrArg Desc.body (due_body hdue)
    subst ht hh hv
    exact does_commit (arm_laneParam .commit o d rd s) hdue
      (hd ▸ paramCommit_of_pending (hd ▸ hn) (hd ▸ hl) hfirst hdata hpend ha)
  case shadow =>
    refine does_of_run _ (arm_paramShadowWrite s) hrun ((if_neg hheat.ne').trans ?_)
    rw [State.shadowWrite, hone]
    rfl
  case delayShort =>
    subst ht
    exact does_commit (arm_laneDelay .commit o d s) hdue
      (laneDelayRow_commit_of_short (congrArg Desc.body (due_body hdue)) hn hl hshort)
  case delay =>
    subst ht
    exact does_commit (arm_laneDelay .commit o d s) hdue
      (laneDelayRow_commit_of_room (congrArg Desc.body (due_body hdue)) hn hl hroom)
  case loadDue =>
    subst ht
    exact does_wait (arm_lpLoad .commit o d rd s) hdue (lpLoadRow_commit_of_accepted hva hx hok)
  case loadRefused =>
    subst ht
    exact does_commit (arm_lpLoad .commit o d rd s) hdue (lpLoadRow_commit_of_refused hva hx hbad)
  case starts => exact does_lpSwitchStart (go := true) hrun hx hst (by rw [hstart, hen, hwup]; rfl)
  case stays => exact does_lpSwitchStart (go := false) hrun hx hst (by rw [hstart, Bool.false_and, Bool.false_and])
  case runStart =>
    subst ht
    exact does_commit (arm_lpRunStart .commit o d s) hdue
      (lpRunStartRow_commit_of_standby (congrArg Desc.body (due_body hdue)) hwup hone hst hen)
  case runWarm =>
    subst ht
    exact does_commit (arm_lpRunStart .commit o d s) hdue (lpRunStartRow_commit_of_wup e hwup)
  case stopNone =>
    subst ht
    exact does_commit (arm_lpRunStop .commit o d s) hdue (lpRunStopRow_commit_of_none (congrArg Desc.body (due_body hdue)) hva hnone)
  case stopOne =>
    subst ht
    exact does_wait (arm_lpRunStop .commit o d s) hdue (lpRunStopRow_commit_of_one (congrArg Desc.body (due_body hdue)) hva hone)

end Sys2Proof.Machine
end

section
/-! Proofs: the rind of a tile (for O24). What RIND_SET and RIND_CLEAR commit, which ceiling is exceeded, and what a trip leaves on a lane
and on a hot die. -/

namespace Sys2Proof.Machine

/-! ### RIND_SET and RIND_CLEAR (R280 to R282) -/

theorem State.ssvTileWrite_of_awake {s : State} (t off : Nat) (v : Word) (h : s.ssvHalted = false) :
    s.ssvTileWrite t off v =
      s.setTile t { s.tileAt t with mbox := (s.tileAt t).mbox ++ [{ op := 3, off := off, data := v }] } := by
  simp [State.ssvTileWrite, h]

section
variable {e : Sched} {d : Body} {s : State} {n : Nat} (hd : e.desc.body = d) (hn : n = d.byte 0)
include hd hn

theorem rindSetRow_commit_of_locked (hlock : s.bit (Reg.tlRindCtrl (n / 8)) 31 = true) :
    rindSetRow.commit e s = (s, .done stMode 0) := by
  subst hd hn
  exact if_pos hlock

/-- MASK selects VPK alone: bits 1 to 4 carry no value, and bit 7 no lock. -/
theorem rindSetRow_commit_of_vpk (hopen : s.bit (Reg.tlRindCtrl (n / 8)) 31 = false) (hmask : d.byte 1 = 1) :
    rindSetRow.commit e s =
      ((s.ssvTileWrite (n / 8) (tileOff (Reg.tlRindVpk (n / 8) (n % 8))) (BitVec.ofNat 32 (d.pl 2 2))).setBit (rindReg n) 0 false,
        resOk) := by
  subst hd hn
  simp [rindSetRow, hopen, hmask]

/-- LOCK alone: no value is sent, and the acknowledgement stands. -/
theorem rindSetRow_commit_of_lock (hopen : s.bit (Reg.tlRindCtrl (n / 8)) 31 = false) (hmask : d.byte 1 = 128)
    (hssv : s.ssvHalted = false) : rindSetRow.commit e s = (s.setBit (Reg.tlRindCtrl (n / 8)) 31 true, resOk) := by
  subst hd hn
  simp [rindSetRow, hopen, hmask, hssv]

theorem rindClearRow_commit_of_free (hfree : (s.laneAt n).rindLocked = false) : rindClearRow.commit e s = (s, resOk) := by
  subst hd hn
  simp [rindClearRow, hfree]

theorem rindClearRow_commit_of_locked (hlocked : (s.laneAt n).rindLocked = true) :
    rindClearRow.commit e s =
      (((((s.setLane n { s.laneAt n with rindLocked := false, trips := [] }).setBit (rindReg n) 7 false).rindFree n).showTrips n).showFault
        (n / 8), resOk) := by
  subst hd hn
  simp [rindClearRow, hlocked]

end

/-! ### The ceiling that is exceeded (R279) -/

section
variable {s : State} {n : Nat} {r : RindH} {c : Rat} (hr : r = (s.laneAt n).rind)
  (hc : c = (s.getF (Reg.tlRindIrms (n / 8) (n % 8)) 15 0 : Nat))
include hr hc

theorem State.rindOver_of_irms (hi : c * c < r.ii.sum / 9600 * 1000000) : (s.rindOver n).1 = 1 := by
  subst hr hc
  rw [State.rindOver, if_pos hi]

theorem State.rindOver_of_dc (hi : r.ii.sum / 9600 * 1000000 ≤ c * c) (hrun : 9600 ≤ r.dcRun) : (s.rindOver n).1 = 2 := by
  subst hr hc
  rw [State.rindOver, if_neg (not_lt.mpr hi), if_pos hrun]

/-- Below the first two ceilings the flux alone decides. -/
theorem State.rindOver_vs_iff (hi : r.ii.sum / 9600 * 1000000 ≤ c * c) (hrun : r.dcRun < 9600) :
    (s.rindOver n).1 = 3 ↔ ((s.getF (Reg.tlRindVs (n / 8) (n % 8)) 11 0 : Nat) : Rat) < absRat r.flux * 1000 := by
  subst hr hc
  rw [State.rindOver, if_neg (not_lt.mpr hi), if_neg (not_le.mpr hrun)]
  split
  case isTrue hvs => exact iff_of_true rfl hvs
  case isFalse hvs => exact iff_of_false (by decide) hvs

end

/-! ### Trips of a lane (R279, R282) -/

/-- A trip of cause `c` on a lane whose count and lockout have been kept: the cause, the count and the hold with its event. -/
def State.rindHeld (s : State) (n c v : Nat) : State :=
  (((((s.putF (rindReg n) 6 4 c).setBit (rindReg n) 2 true).bump (Reg.tlRindTripCnt (n / 8) (n % 8)) 32).showTrips n).setHold n
    hcRind true (0x90 + c)).laneEvent n (0x90 + c) v

theorem State.rindTrip_of_count_lt (s : State) {n : Nat} (c v : Nat) (h : (s.lastMinute (s.laneAt n).trips).length < 2) :
    s.rindTrip n c v =
      (s.setLane n { s.laneAt n with trips := s.heat :: s.lastMinute (s.laneAt n).trips, rindLocked := false }).rindHeld n c v := by
  have hout : ¬3 ≤ (s.heat :: s.lastMinute (s.laneAt n).trips).length := by simpa using h
  simp only [State.rindTrip, hout, decide_false, if_false]
  rfl

theorem State.rindTrip_of_third (s : State) {n : Nat} (c v : Nat) (h : 2 ≤ (s.lastMinute (s.laneAt n).trips).length) :
    s.rindTrip n c v =
      (((s.setLane n { s.laneAt n with trips := s.heat :: s.lastMinute (s.laneAt n).trips, rindLocked := true }).rindHeld n c
        v).setBit (rindReg n) 7 true).laneEvent n 0x94 ((s.lastMinute (s.laneAt n).trips).length + 1) := by
  have hout : 3 ≤ (s.heat :: s.lastMinute (s.laneAt n).trips).length := by simpa using h
  simp only [State.rindTrip, hout, decide_true, if_true]
  rfl

section
variable {n : Fin 128} {s : State}

theorem does_rindTrip_of_over {c v : Nat} (hover : s.rindOver n.val = (c, v)) (hc : c ≠ 0)
    (hst : s.laneSt n.val = lsRunning ∨ s.laneSt n.val = lsProbe) :
    Does (.rindTrip n () () () ()) s ((s.rindTrip n.val c (min 65535 v)).showFault (n.val / 8)) := by
  refine does_on_tile _ (arm_rindTrip n () () () () s) (congrArg (State.showFault · _) ?_)
  have hgo : ¬(c = 0 ∨ (s.laneSt n.val ≠ lsRunning ∧ s.laneSt n.val ≠ lsProbe)) := by
    rintro (h | ⟨hrunning, hprobe⟩)
    · exact hc h
    · exact hst.elim hrunning hprobe
  simp only [hover]
  exact if_neg hgo

theorem does_rindTrip_of_none (hnone : (s.rindOver n.val).1 = 0) : Does (.rindTrip n () () () ()) s (s.showFault (n.val / 8)) :=
  does_on_tile _ (arm_rindTrip n () () () () s) (congrArg (State.showFault · _) (if_pos (.inl hnone)))

theorem does_rindRestart_of_held (hlocked : (s.laneAt n.val).rindLocked = false) (hheld : s.bit (rindReg n.val) 2 = true) :
    Does (.rindRestart n) s ((s.rindFree n.val).showFault (n.val / 8)) :=
  does_on_tile _ (arm_rindRestart n s) (congrArg (State.showFault · _) (if_neg (by simp [hlocked, hheld])))

theorem does_rindRestart_of_locked (hlocked : (s.laneAt n.val).rindLocked = true) :
    Does (.rindRestart n) s (s.showFault (n.val / 8)) :=
  does_on_tile _ (arm_rindRestart n s) (congrArg (State.showFault · _) (if_pos (by simp [hlocked])))

end

/-! ### Acknowledgement and die temperature (R279, R280) -/

section
variable {t : Fin 16} {s : State}

theorem does_rindAckTimeout_of_waiting {x : MboxOp} {xs : List MboxOp} (hrun : s.hold = .run)
    (hops : ((s.tileAt t.val).mbox ++ (s.tileAt t.val).resp.toList ++ (s.tileAt t.val).unsent).filter (fun x => x.op == 3) = x :: xs) :
    Does (.rindAckTimeout t) s (s.emit (128 + t.val) 0xA2 (tileSyn 0xA2 0xFF x.data.toNat)) :=
  does_of_run _ (arm_rindAckTimeout t s) hrun (by simp only [hops]; rfl)

theorem does_tdieWarning_of_near {c : BitVec 16} (hnear : (s.tdie t.val : Int) ≤ c.toInt + 10) :
    Does (.tdieWarning t c) s ((s.tileEvent t.val 0xA0 c.toNat).showFault t.val) :=
  does_on_tile _ (arm_tdieWarning t c s) (congrArg (State.showFault · _) (if_neg (not_lt.mpr hnear)))

theorem does_tdieTrip_of_reached {c : BitVec 16} (hhot : (s.tdie t.val : Int) ≤ c.toInt)
    (hfirst : s.bit (laneReg (t.val * 8)) (16 + hcTdie) = false) :
    Does (.tdieTrip t c) s ((((forUpto 8 (fun l s => s.putF (rindReg (t.val * 8 + l)) 6 4 4) s).holdTile t.val hcTdie true
      0xA1).tileEvent t.val 0xA1 c.toNat).showFault t.val) := by
  refine does_on_tile _ (arm_tdieTrip t c s) (congrArg (State.showFault · _) ((if_neg (not_lt.mpr hhot)).trans ?_))
  exact if_neg (by rw [hfirst]; exact Bool.false_ne_true)

theorem does_tdieRestart_of_cool {c : BitVec 16} (hcool : c.toInt + 15 < (s.tdie t.val : Int)) :
    Does (.tdieRestart ⟨t, c⟩) s ((s.holdTile t.val hcTdie false 0).showFault t.val) :=
  does_on_tile _ (arm_tdieRestart ⟨t, c⟩ s) (congrArg (State.showFault · _) (if_neg (not_le.mpr hcool)))

end

end Sys2Proof.Machine
end

section
/-! Proofs: loudspeaker protection (O24). The battery value, the fast path, and what the models do once per second. -/

namespace Sys2Proof.Machine

/-! ### The battery value (R285) -/

/-- A loop that acts in its first round alone. -/
theorem forUpto_of_first {σ : Type} {f : Nat → σ → σ} (n : Nat) (hf : ∀ i, 0 < i → ∀ s, f i s = s) (s : σ) :
    forUpto (n + 1) f s = f 0 s := by
  induction n with
  | zero => rfl
  | succ n ih => rw [forUpto_succ, hf _ n.succ_pos, ih]

section
variable {e : Sched} {d : Body} (s : State) (hd : e.desc.body = d)
include hd

theorem battSetRow_commit_of_no_tile (hmask : d.pl 0 2 = 0) : battSetRow.commit e s = (s, resOk) := by
  subst hd
  refine congrArg (·, resOk) (forUpto_keeps (P := (· = s)) (fun t _ u hu => ?_) rfl)
  rw [hmask, Nat.zero_div]
  exact hu

theorem battSetRow_commit_of_tile_zero (hmask : d.pl 0 2 = 1) :
    battSetRow.commit e s = ((s.setTile 0 { s.tileAt 0 with batt := some (d.pl 2 2) }).showBatt 0, resOk) := by
  subst hd
  refine congrArg (·, resOk) ((forUpto_of_first 15 (fun t ht u => ?_) s).trans ?_)
  · rw [hmask, Nat.div_eq_of_lt (Nat.one_lt_two_pow ht.ne')]
    rfl
  · rw [hmask]
    rfl

end

/-! ### The fast path (R286) -/

theorem Sparse.put_put {α : Type} (m : Sparse α) (k : Nat) (v w : α) : Sparse.put (Sparse.put m k v) k w = Sparse.put m k w := by
  induction m with
  | nil => simp [Sparse.put]
  | cons p m ih =>
    obtain ⟨i, a⟩ := p
    simp only [Sparse.put]
    split_ifs <;> simp_all [Sparse.put]

/-- Of two writes of a lane the later one stays, where both list it. -/
theorem State.setLane_setLane (s : State) (n : Nat) {h k : LaneH} (hh : h ≠ {}) (hk : k ≠ {}) :
    (s.setLane n h).setLane n k = s.setLane n k := by
  simp only [State.setLane, Sparse.set, if_neg hh, if_neg hk, Sparse.put_put]

theorem State.laneAt_setLane_same (s : State) (n : Nat) (h : LaneH) : (s.setLane n h).laneAt n = h := Sparse.get_set_same ..

/-- The first heat of a run in which g_F falls below 1, and below all it was in the frame. -/
theorem State.fastShow_of_first (s : State) {n : Nat} {h : LaneH} {most : Rat} (hone : most < 1) (hlow : most ≤ h.fastLow)
    (hact : h.fastAct = false) (hprev : h.fastPrev = false) :
    (s.setLane n { h with fast := most }).fastShow n most =
      (s.setLane n { h with fast := most, fastAct := true, fastLow := most }).laneEvent n 0x98 (most * 65536).floor.toNat := by
  have hfast {k : LaneH} (hk : k.fast = most) : k ≠ {} := by
    rintro rfl
    exact hone.ne hk.symm
  simp only [State.fastShow, State.laneAt_setLane_same, hact, hprev, hone, decide_true, Bool.false_or, Bool.not_false, and_self, if_true,
    min_eq_right hlow]
  rw [State.setLane_setLane s n (hfast rfl) (hfast rfl)]

theorem does_fastPathLimit_of_first {n : Fin 128} {j : Fin 8} {rail : BitVec 16} {x most : Rat} {s : State}
    (hst : s.laneSt n.val = lsRunning)
    (hx : x = (((s.laneAt n.val).samples.getD j.val 0#32).toInt : Rat) / 2147483648 * s.vNom (n.val / 8))
    (hmost : most = (s.laneAt n.val).fastMost x (railVolts rail.toNat)) (hless : most < (s.laneAt n.val).fast) (hone : most < 1)
    (hlow : most ≤ (s.laneAt n.val).fastLow) (hact : (s.laneAt n.val).fastAct = false) (hprev : (s.laneAt n.val).fastPrev = false) :
    Does (.fastPathLimit n ⟨j, rail⟩) s
      (((s.setLane n.val { s.laneAt n.val with fast := most, fastAct := true, fastLow := most }).laneEvent n.val 0x98
        (most * 65536).floor.toNat).showFault (n.val / 8)) := by
  refine does_on_tile _ (arm_fastPathLimit n ⟨j, rail⟩ s) (congrArg (State.showFault · _) ?_)
  rw [← s.fastShow_of_first hone hlow hact hprev]
  subst hx hmost
  exact if_neg (not_or.mpr ⟨not_not.mpr hst, not_le.mpr hless⟩)

/-! ### Once per second (R267, R268, R272) -/


theorem reReading_of_small_current (v : LockIn) {i : LockIn} (h : magSq i.phasor < 2 / 1000000) : reReading v i = none := if_pos h

section
variable {s u : State} {n t l : Nat} {b : List Byte} (ht : t = n / 8) (hl : l = 2 * (n % 8)) (hgood : (s.diagAt n).good = some b)
  (hstd : s.standard t = true) (hmodels : s.modelsOn b = true) (hmode : leAt b 2 1 = 0) (hprobes : s.probes b = true)
  (hu : u = (s.lockClear t l).lockClear t (l + 1))
include ht hl hgood hstd hmodels hmode hprobes hu

theorem State.secondUpdate_of_reading {re : Rat} (hre : reReading (s.lockAt t (l + 1)) (s.lockAt t l) = some re)
    (hident : (leAt b 0xB02 1).testBit 4 = false) : s.secondUpdate n = (u.readingKept n b re).driftSecond n b := by
  subst ht hl hu
  simp [State.secondUpdate, hgood, hstd, hmodels, hmode, hprobes, hre, hident]

theorem State.secondUpdate_of_no_reading (hre : reReading (s.lockAt t (l + 1)) (s.lockAt t l) = none)
    (hident : (leAt b 0xB02 1).testBit 4 = true) : s.secondUpdate n = (u.identify n b).driftSecond n b := by
  subst ht hl hu
  simp [State.secondUpdate, hgood, hstd, hmodels, hmode, hprobes, hre, hident]

end

theorem absRat_eq_abs (q : Rat) : absRat q = |q| := by
  unfold absRat
  split
  case isTrue h => exact (abs_of_neg h).symm
  case isFalse h => exact (abs_of_nonneg (not_lt.mp h)).symm

theorem absRat_stepTo_sub_le (x target : Rat) {f : Rat} (hf : 0 ≤ f) : absRat (stepTo x target f - x) ≤ absRat x * f := by
  have hm : 0 ≤ |x| * f := mul_nonneg (abs_nonneg x) hf
  simp only [stepTo, absRat_eq_abs]
  split_ifs with hnear hup
  · exact hnear
  · rw [add_sub_cancel_left, abs_of_nonneg hm]
  · rw [sub_sub_cancel_left, abs_neg, abs_of_nonneg hm]

/-- Settles O24: each clause is the rule of the row, the event or the second it speaks of. -/
theorem loudspeakerProtection : Obligations.LoudspeakerProtection := by
  unfold Obligations.LoudspeakerProtection
  refine ⟨fun o d s t e hdue ht hlock => ?setLocked, fun o d s t e n hdue ht hn hopen hmask hssv => ?setVpk,
    fun o d s t e hdue ht hopen hmask hssv => ?setLock, fun o d s t e hdue ht hfree => ?clearFree,
    fun o d s t e n hdue ht hn hlocked => ?clearLocked, fun o d s t e hdue ht hmask => ?battNone,
    fun o d s t e hdue ht hmask => ?battZero, fun o d s t e hdue ht => ?pool, fun n c v s => does_rindTrip_of_over,
    fun n s => does_rindTrip_of_none,
    fun s n r c hr hc => ⟨State.rindOver_of_irms hr hc, State.rindOver_of_dc hr hc, State.rindOver_vs_iff hr hc⟩,
    fun s n c v => s.rindTrip_of_count_lt c v, fun s n c v => s.rindTrip_of_third c v, fun n s => does_rindRestart_of_held,
    fun n s => does_rindRestart_of_locked, fun t x xs s => does_rindAckTimeout_of_waiting, fun t c s => does_tdieWarning_of_near,
    fun t c s => does_tdieTrip_of_reached, fun t c s => does_tdieRestart_of_cool, fun n j rail x most s => does_fastPathLimit_of_first,
    fun n t l s u b re hrun ht hl hgood hstd hmodels hmode hprobes hre hident hu => ?reading,
    fun n t l s u b hrun ht hl hgood hstd hmodels hmode hprobes hre hident hu => ?identified,
    fun v i => reReading_of_small_current v, fun x target f => absRat_stepTo_sub_le x target⟩
  case setLocked =>
    subst ht
    exact does_commit (arm_rindSet .commit o d s) hdue (rindSetRow_commit_of_locked (congrArg Desc.body (due_body hdue)) rfl hlock)
  case setVpk =>
    subst ht
    rw [← State.ssvTileWrite_of_awake _ _ _ hssv]
    exact does_commit (arm_rindSet .commit o d s) hdue (rindSetRow_commit_of_vpk (congrArg Desc.body (due_body hdue)) hn hopen hmask)
  case setLock =>
    subst ht
    exact does_commit (arm_rindSet .commit o d s) hdue
      (rindSetRow_commit_of_lock (congrArg Desc.body (due_body hdue)) rfl hopen hmask hssv)
  case clearFree =>
    subst ht
    exact does_commit (arm_rindClear .commit o d s) hdue (rindClearRow_commit_of_free (congrArg Desc.body (due_body hdue)) rfl hfree)
  case clearLocked =>
    subst ht
    exact does_commit (arm_rindClear .commit o d s) hdue (rindClearRow_commit_of_locked (congrArg Desc.body (due_body hdue)) hn hlocked)
  case battNone =>
    subst ht
    exact does_commit (arm_battSet .commit o d s) hdue (battSetRow_commit_of_no_tile _ (congrArg Desc.body (due_body hdue)) hmask)
  case battZero =>
    subst ht
    exact does_commit (arm_battSet .commit o d s) hdue (battSetRow_commit_of_tile_zero _ (congrArg Desc.body (due_body hdue)) hmask)
  case pool =>
    have hd : e.desc.body = d := congrArg Desc.body (due_body hdue)
    subst ht hd
    exact does_commit (arm_poolSet .commit o _ s) hdue rfl
  case reading =>
    exact does_of_run _ (arm_modelSecondUpdate n () () () () () () () s) hrun
      (State.secondUpdate_of_reading ht hl hgood hstd hmodels hmode hprobes hu hre hident)
  case identified =>
    exact does_of_run _ (arm_modelSecondUpdate n () () () () () () () s) hrun
      (State.secondUpdate_of_no_reading ht hl hgood hstd hmodels hmode hprobes hu hre hident)

end Sys2Proof.Machine
end

section
/-! Proofs: tests of line diagnostics (for O27). What TEST_REQ, TEST_CANCEL and TESTGEN_SET commit, how a running test ends, how a queued
one expires, and the admission table. -/

namespace Sys2Proof.Machine

/-! ### TEST_REQ, TEST_CANCEL and TESTGEN_SET (R348, R350, R351, R365, R366) -/

/-- `LP_DIAG_CTRL.EN` clear refuses every request. -/
theorem testReqRow_commit_of_off {s : State} (e : Sched) (hoff : s.bit Reg.lpDiagCtrl 0 = false) :
    testReqRow.commit e s = (s, .done stMode 0) :=
  if_pos (by simp [hoff])

section
variable {e : Sched} {d : Body} {s : State} {n k : Nat} {x : TestH} (hd : e.desc.body = d) (hn : n = d.byte 0) (hk : k = d.byte 1)
  (hx : x = { upd := e, lane := n, kind := k, forced := false }) (hforce : d.byte 2 % 2 = 0) (hon : s.bit Reg.lpDiagCtrl 0 = true)
  (hwup : s.wup = false) (hnone : s.tests = [])
include hd hn hk hx hforce hon hwup hnone

/-- An unforced request that its entry does not refuse, with no other test in the list, starts where the entry and the limits let it, and
waits otherwise. -/
theorem testReqRow_commit_of_admitted (hadmit : s.admitEntry k (s.diagState n) false ≠ adRefuse) :
    testReqRow.commit e s =
      if (s.admitEntry k (s.diagState n) false = adRun ∨ s.admitEntry k (s.diagState n) false = adInaud) ∧ s.testRoom x then
        (State.testStart { s with tests := [x] } x (s.admitEntry k (s.diagState n) false), resOk)
      else (State.showDiag { s with tests := [{ x with queued := true, since := s.heat }] } n, .done stDeferred 0) := by
  subst hd hn hk hx
  have hunforced : (e.desc.body.byte 2 % 2 == 1) = false := by rw [hforce]; rfl
  simp only [testReqRow, hunforced, hon, hwup, hnone, beq_false_of_ne hadmit, Bool.not_true, Bool.false_and, Bool.or_false,
    Bool.false_eq_true, if_false, List.filter_nil, List.length_nil, List.any_nil, or_false, List.nil_append, Nat.reduceLeDiff]

theorem testReqRow_commit_of_run (hrun : s.admitEntry k (s.diagState n) false = adRun) (hroom : s.testRoom x = true) :
    testReqRow.commit e s = (State.testStart { s with tests := [x] } x adRun, resOk) := by
  rw [testReqRow_commit_of_admitted hd hn hk hx hforce hon hwup hnone (by rw [hrun]; decide), if_pos ⟨.inl hrun, hroom⟩, hrun]

theorem testReqRow_commit_of_deferred (hadmit : s.admitEntry k (s.diagState n) false ≠ adRefuse)
    (hrun : s.admitEntry k (s.diagState n) false ≠ adRun) (hinaud : s.admitEntry k (s.diagState n) false ≠ adInaud) :
    testReqRow.commit e s =
      (State.showDiag { s with tests := [{ x with queued := true, since := s.heat }] } n, .done stDeferred 0) := by
  rw [testReqRow_commit_of_admitted hd hn hk hx hforce hon hwup hnone hadmit, if_neg fun h => h.1.elim hrun hinaud]

end

theorem testCancelRow_commit_of_none {s : State} (e : Sched) (hnone : s.tests = []) : testCancelRow.commit e s = (s, resOk) := by
  simp only [testCancelRow, hnone, List.filter_nil, List.foldl_nil]

/-- KIND 0 cancels whatever runs on the lane. -/
theorem testCancelRow_commit_of_running {e : Sched} {d : Body} {s : State} {x : TestH} (hd : e.desc.body = d) (hone : s.tests = [x])
    (hlane : x.lane = d.byte 0) (hkind : d.byte 1 = 0) (hrunning : x.running = true) :
    testCancelRow.commit e s = (s.testStop x false, resOk) := by
  subst hd
  have hmine : [x].filter (fun t => t.lane == e.desc.body.byte 0 && (e.desc.body.byte 1 == 0 || t.kind == e.desc.body.byte 1)) = [x] := by
    simp [hlane, hkind]
  simp only [testCancelRow, hone, hmine, List.foldl_cons, List.foldl_nil, hrunning, if_true]

/-! ### The end of a running test (R351, R354 to R364) -/

/-- A test whose records are written leaves its lane and the list. -/
def State.testEnded (s : State) (x : TestH) (n : Nat) : State := ((s.testOff x).dropTest x).showDiag n

section
variable {n : Fin 128} {s : State} {x : TestH} (hrun : s.hold = .run)
  (hx : s.tests.find? (fun t => t.running && t.lane == n.val) = some x)
include hrun hx

theorem does_testDone_of_earth {e : EarthH} (hkind : x.kind = tkEarth) (hearth : (s.laneAt n.val).earth = some e)
    (htaken : 2 * e.frames ≤ e.taken) : Does (.testDone n ()) s ((s.earthDone x e).testEnded x n.val) := by
  have hfull : (s.laneAt n.val).earth.filter (fun e => 2 * e.frames ≤ e.taken) = some e := by
    rw [hearth, Option.filter_some, if_pos (decide_eq_true htaken)]
  refine does_of_run _ (arm_testDone n () s) hrun ?_
  simp only [hx, hkind, if_true, hfull]
  rfl

theorem does_testDone_of_cal (hkind : x.kind = tkCal) (hfull : s.calFull n.val = true) :
    Does (.testDone n ()) s ((s.calDone x).testEnded x n.val) := by
  have hearth : ¬x.kind = tkEarth := by rw [hkind]; decide
  refine does_of_run _ (arm_testDone n () s) hrun ?_
  simp only [hx, if_neg hearth, if_pos hkind, if_pos hfull]
  rfl

/-- A test that the lane program carries out, once the copy of the lane's record shows it done. -/
theorem does_testDone_of_prog (hearth : x.kind ≠ tkEarth) (hcal : x.kind ≠ tkCal) (hdone : s.progDone x = true) :
    Does (.testDone n ()) s ((if x.kind = tkSpectro then s.spectroDone x else if x.kind = tkTweeter then s.tweeterDone x
      else s.proveDone x).testEnded x n.val) := by
  refine does_of_run _ (arm_testDone n () s) hrun ?_
  simp only [hx, if_neg hearth, if_neg hcal, hdone, Bool.not_true, Bool.false_eq_true, if_false]
  rfl

theorem does_testDone_of_spectro (hkind : x.kind = tkSpectro) (hdone : s.progDone x = true) :
    Does (.testDone n ()) s ((s.spectroDone x).testEnded x n.val) := by
  have h := does_testDone_of_prog hrun hx (by rw [hkind]; decide) (by rw [hkind]; decide) hdone
  rwa [if_pos hkind] at h

theorem does_testDone_of_tweeter (hkind : x.kind = tkTweeter) (hdone : s.progDone x = true) :
    Does (.testDone n ()) s ((s.tweeterDone x).testEnded x n.val) := by
  have h := does_testDone_of_prog hrun hx (by rw [hkind]; decide) (by rw [hkind]; decide) hdone
  rwa [if_neg (by rw [hkind]; decide), if_pos hkind] at h

theorem does_testDone_of_prove (hkind : x.kind = tkProve) (hdone : s.progDone x = true) :
    Does (.testDone n ()) s ((s.proveDone x).testEnded x n.val) := by
  have h := does_testDone_of_prog hrun hx (by rw [hkind]; decide) (by rw [hkind]; decide) hdone
  rwa [if_neg (by rw [hkind]; decide), if_neg (by rw [hkind]; decide)] at h

theorem does_testStop_of_running : Does (.testStop n) s (s.testJudge x) :=
  does_of_run _ (arm_testStop n s) hrun (by simp only [hx])

end

theorem does_testExpired_of_waited {n : Fin 128} {k : Fin 6} {s : State} {x : TestH} (hrun : s.hold = .run)
    (hx : s.tests.find? (fun t => !t.running && t.lane == n.val && t.kind == k.val && t.upd.desc.body.pl 6 2 != 0 &&
      decide (t.since + t.upd.desc.body.pl 6 2 * 1000 ≤ s.heat)) = some x) :
    Does (.testExpired n k) s (((((s.testRecord x rsExpired 0 [] []).dropTest x).bump Reg.lpDiagExpCnt 32).emit n.val 0xDA
      (diagSyn 0xDA x.kind 0)).showDiag n.val) :=
  does_of_run _ (arm_testExpired n k s) hrun (by simp only [hx])

/-! ### The admission table (R349) -/

section
variable {m : Master} {k : Fin 5} {v : Word} {s : State} (hrun : s.hold = .run) (hmay : s.may m (admitReg (k.val + 1)) = true)
include hrun hmay

theorem does_lpDiagAdmitWrite_of_bad (hbad : admitBad (k.val + 1) (fld v 9 0) = true) :
    Does (.lpDiagAdmitWrite m k v) s (s.setBit Reg.lpDiagCtrl 1 true) :=
  does_of_gated _ (arm_lpDiagAdmitWrite m k v s) hrun hmay (if_pos hbad)

theorem does_lpDiagAdmitWrite_of_sound (hsound : admitBad (k.val + 1) (fld v 9 0) = false) :
    Does (.lpDiagAdmitWrite m k v) s (s.rawWrite (admitReg (k.val + 1)) v) :=
  does_of_gated _ (arm_lpDiagAdmitWrite m k v s) hrun hmay (if_neg (ne_true_of_eq_false hsound))

end

end Sys2Proof.Machine
end

section
/-! Proofs: line diagnostics (O27). The verdict of a pilot window, and what a window's end and a lane without valid windows do. -/

namespace Sys2Proof.Machine

/-! ### The verdict of a valid window (R340) -/

section
variable {b : List Byte} {z ph i : Word}

theorem verdictOf_of_no_baseline (hbase : leAt b 0xE02 1 / 2 % 2 = 0) : verdictOf b z ph i = 0 := if_pos hbase

theorem verdictOf_of_small_current (hbase : leAt b 0xE02 1 / 2 % 2 = 1) (hi : sampleVal i < 1 / 100000) : verdictOf b z ph i = vdOpen := by
  rw [verdictOf, if_neg (by rw [hbase]; decide), if_pos (.inl hi)]

theorem verdictOf_of_low_impedance (hbase : leAt b 0xE02 1 / 2 % 2 = 1) (hi : 1 / 100000 ≤ sampleVal i) (hfin : f32Finite z = true)
    (hopen : f32ToRat z ≤ supF b 0x20 * supF b 0x10) (hshort : f32ToRat z < supF b 0x24 * supF b 0x10) :
    verdictOf b z ph i = vdShort := by
  have hclosed : ¬(sampleVal i < 1 / 100000 ∨ (!f32Finite z) = true ∨ supF b 0x20 * supF b 0x10 < f32ToRat z) := by
    simp [hfin, hi, hopen, -one_div]
  rw [verdictOf, if_neg (by rw [hbase]; decide), if_neg hclosed, if_pos hshort]

end

/-! ### The end of a window (R339, R341 to R343) -/

/-- The window of a supervised lane is full: the lane is not held, runs its pilot, and its window has the length its block asks for. -/
structure State.WindowFull (s : State) (n : Nat) (b : List Byte) : Prop where
  notFaulted : s.diagState n ≠ dsFaulted
  notMuted : s.diagState n ≠ dsMuted
  noTakeover : s.relayOn n = false
  pilot : s.pilotOn n = true
  begun : 0 < (s.diagAt n).win
  full : (supF b 0x0C).floor.toNat ≤ (s.diagAt n).win

theorem State.WindowFull.not_held {s : State} {n : Nat} {b : List Byte} (h : s.WindowFull n b) :
    ¬(s.diagState n = dsFaulted ∨ s.diagState n = dsMuted ∨ s.relayOn n = true) := by
  simp [h.notFaulted, h.notMuted, h.noTakeover]

theorem State.WindowFull.not_open {s : State} {n : Nat} {b : List Byte} (h : s.WindowFull n b) :
    ¬((!s.pilotOn n) = true ∨ (s.diagAt n).win < (supF b 0x0C).floor.toNat ∨ (s.diagAt n).win = 0) := by
  rintro (hoff | hshort | hnone)
  · simp [h.pilot] at hoff
  · exact Nat.not_lt.mpr h.full hshort
  · exact h.begun.ne' hnone

section
variable {n : Fin 128} {s : State} (hrun : s.hold = .run)
include hrun

theorem does_pilotWindowEnd_of_muted (hmuted : s.diagState n.val = dsMuted) :
    Does (.pilotWindowEnd n () () () () ()) s (s.setDiag n.val { s.diagAt n.val with run := 0, cand := 0, win := 0 }) :=
  does_of_run _ (arm_pilotWindowEnd n () () () () () s) hrun (if_pos (.inr (.inl hmuted)))

theorem does_pilotWindowEnd_of_invalid (hfull : s.WindowFull n.val ((s.diagAt n.val).good.getD []))
    (hbad : (s.diagAt n.val).winOk = false) :
    Does (.pilotWindowEnd n () () () () ()) s
      ((s.setDiag n.val { s.diagAt n.val with since := min 255 ((s.diagAt n.val).since + 1), win := 0 }).showSup n.val
        (s.verdict n.val)) := by
  refine does_of_run _ (arm_pilotWindowEnd n () () () () () s) hrun ?_
  simp only [if_neg hfull.not_held, if_neg hfull.not_open, hbad, Bool.not_false, if_true]

/-- A valid window whose verdict is the one in force goes into the record and ends the run of verdicts. -/
theorem does_pilotWindowEnd_of_same {b : List Byte} {z ph v i : Word} (hfull : s.WindowFull n.val b)
    (hgood : (s.diagAt n.val).good = some b) (hok : (s.diagAt n.val).winOk = true)
    (hwords : pilotWords (s.pilotPair n.val).1 (s.pilotPair n.val).2 = (z, ph, v, i)) (hsame : verdictOf b z ph i = s.verdict n.val) :
    Does (.pilotWindowEnd n () () () () ()) s
      ((((s.telPut n.val 80 (bytesOfWords [z, ph, v, i])).setAdmit n.val { s.admitAt n.val with valid := true }).setDiag n.val
        { s.diagAt n.val with since := 0, blind := false, cand := 0, run := 0, win := 0, noWin := 0 }).showSup n.val
          (s.verdict n.val)) := by
  refine does_of_run _ (arm_pilotWindowEnd n () () () () () s) hrun ?_
  simp only [hgood, Option.getD_some, if_neg hfull.not_held, if_neg hfull.not_open, hok, Bool.not_true, Bool.false_eq_true, if_false,
    hwords, hsame, ne_eq, not_true_eq_false, false_and, if_true]

/-! ### A lane without valid windows (R342) -/

theorem does_pilotBlind_of_no_window (hbase : s.pilotBase n.val = true) (hsees : s.verdict n.val ≠ vdBlind)
    (hlong : 2000 ≤ (s.diagAt n.val).noWin) :
    Does (.pilotBlind n) s ((s.setDiag n.val { s.diagAt n.val with blind := true, cand := 0, run := 0 }).newVerdict n.val vdBlind) :=
  does_of_run _ (arm_pilotBlind n s) hrun (if_neg (by simp [hbase, hsees, hlong]))

theorem does_pilotBlindLong_of_blind (hbase : s.pilotBase n.val = true) (hblind : s.verdict n.val = vdBlind)
    (hlong : 102000 ≤ (s.diagAt n.val).noWin) : Does (.pilotBlindLong n) s (s.emit n.val 0xD9 (diagSyn 0xD9 vdBlind 0)) :=
  does_of_run _ (arm_pilotBlindLong n s) hrun (if_pos (by simp [hbase, hblind, hlong]))

end

/-- Settles O27: each clause is the rule of the row, the command or the verdict it speaks of. -/
theorem diagnostics : Obligations.Diagnostics := by
  unfold Obligations.Diagnostics
  refine ⟨fun o d s t e hdue ht hforce hoff => ?reqOff, fun o d s t e n k hdue ht hn hk hforce hon hwup hadmit hnone hroom => ?reqRun,
    fun o d s t e n k hdue ht hn hk hforce hon hwup hadmit hrun hinaud hnone => ?reqDefer, fun o d s t e hdue ht hnone => ?cancelNone,
    fun o d s t e x hdue ht hone hlane hkind hrunning => ?cancelRunning, fun o d s t e g h hdue ht hg hh => ?gen,
    fun n s x => does_testDone_of_cal, fun n s x e hrun hx => does_testDone_of_earth hrun hx,
    fun n s x hrun hx hdone => ⟨fun hkind => does_testDone_of_spectro hrun hx hkind hdone,
      fun hkind => does_testDone_of_tweeter hrun hx hkind hdone, fun hkind => does_testDone_of_prove hrun hx hkind hdone⟩,
    fun n s x => does_testStop_of_running, fun n k s u x hrun hx hu => ?expired, fun n s => does_pilotWindowEnd_of_muted,
    fun n s hrun hfault hmute hrelay hpilot hbegun hfull => does_pilotWindowEnd_of_invalid hrun
      ⟨hfault, hmute, hrelay, hpilot, hbegun, hfull⟩,
    fun n s u b z ph v i hrun hfault hmute hrelay hpilot hbegun hgood hfull hok hwords hsame hu => ?same,
    fun b z ph i => verdictOf_of_small_current, fun b z ph i => verdictOf_of_no_baseline, fun b z ph i => verdictOf_of_low_impedance,
    fun n s => does_pilotBlind_of_no_window, fun n s => does_pilotBlindLong_of_blind, fun m k v s => does_lpDiagAdmitWrite_of_bad,
    fun m k v s => does_lpDiagAdmitWrite_of_sound⟩
  case reqOff =>
    subst ht
    exact does_commit (arm_testReq .commit o d s) hdue (testReqRow_commit_of_off e hoff)
  case reqRun =>
    subst ht
    exact does_commit (arm_testReq .commit o d s) hdue
      (testReqRow_commit_of_run (congrArg Desc.body (due_body hdue)) hn hk rfl hforce hon hwup hnone hadmit hroom)
  case reqDefer =>
    subst ht
    have hcommit := testReqRow_commit_of_deferred (congrArg Desc.body (due_body hdue)) hn hk rfl hforce hon hwup hnone hadmit hrun hinaud
    exact does_commit (arm_testReq .commit o d s) hdue hcommit
  case cancelNone =>
    subst ht
    exact does_commit (arm_testCancel .commit o d s) hdue (testCancelRow_commit_of_none e hnone)
  case cancelRunning =>
    subst ht
    exact does_commit (arm_testCancel .commit o d s) hdue
      (testCancelRow_commit_of_running (congrArg Desc.body (due_body hdue)) hone hlane hkind hrunning)
  case gen =>
    have hd : e.desc.body = d := congrArg Desc.body (due_body hdue)
    subst ht hd hg hh
    exact does_commit (arm_testgenSet .commit o _ s) hdue rfl
  case expired =>
    subst hu
    exact does_testExpired_of_waited hrun hx
  case same =>
    subst hu
    exact does_pilotWindowEnd_of_same hrun ⟨hfault, hmute, hrelay, hpilot, hbegun, hfull⟩ hgood hok hwords hsame

end Sys2Proof.Machine
end

section
/-! Proofs: the error pins and the bits that show them (O49). Closing a command sets them by their rules, and a cycle of the pacer touches
nothing they depend on. -/

namespace Sys2Proof.Machine

/-- What the pins and the shown bits depend on: the pins, the collector, and the registers of its block and of the modes. -/
theorem State.PinsAgree.of_eq {s t : State} (h : s.PinsAgree) (hp : t.pins = s.pins) (hf : t.fc = s.fc)
    (hr : ∀ o, o < 0x20000 → t.reg o = s.reg o) : t.PinsAgree := by
  obtain ⟨hva, hgen, h0, h1, h2, h3, hsh⟩ := h
  have hmode := hr Reg.gblMode (by decide)
  have hlevel : t.vaLevel = s.vaLevel :=
    vaLevel_congr s t (fun w hw => hr _ (by simp only [Reg.fcHoldva]; omega)) hmode hf
  have hheld : t.genHeld = s.genHeld :=
    genHeld_congr s t (fun w hw => hr _ (by simp only [Reg.fcHoldgen]; omega)) hmode (hr _ (by decide))
  have hst : t.reg Reg.fcStatus = s.reg Reg.fcStatus := hr _ (by decide)
  have hopen : t.bitVecGet Reg.fcFsw 255 = s.bitVecGet Reg.fcFsw 255 := congrArg (bitAt · 31) (hr (Reg.fcFsw 7) (by decide))
  unfold State.PinsAgree State.bit
  rw [hlevel, hheld, hst, hopen, hr Reg.fcShadow (by decide), hp, hf]
  exact ⟨hva, hgen, h0, h1, h2, h3, hsh⟩

/-! ### The end of a command (R382, R493, R494, R498) -/

/-- Closing a command leaves the pins and the shown bits as their rules give them, whatever the command did. -/
theorem settle_pinsAgree (s : State) : s.settle.PinsAgree := by
  have hbit : ∀ i, s.settle.bit Reg.fcStatus i = bitAt (s.settle.reg Reg.fcStatus) i := fun _ => rfl
  have hopen : s.settle.bitVecGet Reg.fcFsw 255 = s.bitVecGet Reg.fcFsw 255 :=
    congrArg (bitAt · 31) (settle_reg s (Reg.fcFsw 7) (by decide) (by decide))
  refine ⟨(settle_vaLevel s).symm, ?gen, ?showsGen, ?showsVa, ?showsShadows, ?showsSource, State.reg_setReg_same _ _ _⟩
  case gen =>
    rw [settle_genHeld]
    rfl
  all_goals rw [hbit, settle_status]
  case showsGen => simp; rfl
  case showsVa => simp; rfl
  case showsShadows => simp; rfl
  case showsSource => simp [hopen]

theorem closed_pinsAgree (s u : State) : (s.closed u).PinsAgree :=
  (settle_pinsAgree (State.drain drainFuel u)).of_eq rfl rfl fun _ _ => rfl

/-! ### An empty queue -/

theorem State.PinsAgree.pacerCycles {s : State} (h : s.PinsAgree) (k : Nat) : (s.pacerCycles k).PinsAgree := by
  obtain ⟨p, r, heq, hreg⟩ := pacerCycles_frame s k
  refine h.of_eq (by rw [heq]) (by rw [heq]) fun o ho => hreg o ?_
  simp only [Reg.pcrStatus]
  omega

theorem State.PinsAgree.idle {s : State} (h : s.PinsAgree) : s.idle.PinsAgree := by
  by_cases hrun : s.hold = .run
  · rw [State.idle_of_run hrun]
    split
    · exact h.pacerCycles 1
    · exact h
  · rwa [State.idle_of_held hrun]

/-- Settles O49: a command ends by setting the pins, and an empty queue leaves what they depend on. -/
theorem pinsInvariant : Obligations.PinsInvariant := by
  unfold Obligations.PinsInvariant
  intro s t h hstep
  unfold step at hstep
  split at hstep
  case h_1 =>
    obtain rfl := Host.Outcome.next.inj hstep
    exact h.idle
  case h_2 c cs _ =>
    obtain ⟨u, hu⟩ := exec_does c { s with pending := cs }
    obtain rfl := Host.Outcome.next.inj (hu.symm.trans hstep)
    exact closed_pinsAgree _ _

end Sys2Proof.Machine
end

section
/-! Proofs: the collector's part of a reset (for O42). What the completions of descriptors and the tiles on their own leave alone. -/

namespace Sys2Proof.Machine

/-! ### Completions (R443, R446, R457 to R460) -/

/-- From `s0` to `s` the OTP, the schedule and the registers of the collector's block stand. -/
structure State.CollectorKept (s0 s : State) : Prop where
  otp : s.otp = s0.otp
  sched : s.sched = s0.sched
  reg : ∀ o, 0x10000 ≤ o → o < 0x20000 → s.reg o = s0.reg o

namespace State.CollectorKept

theorem refl (s : State) : s.CollectorKept s := ⟨rfl, rfl, fun _ _ _ => rfl⟩

variable {s0 s : State}

theorem of_eq {t : State} (h : s0.CollectorKept s) (ho : t.otp = s.otp) (hs : t.sched = s.sched) (hr : t.regs = s.regs) :
    s0.CollectorKept t :=
  ⟨ho.trans h.otp, hs.trans h.sched, fun o hlo hhi => (State.reg_congr hr o).trans (h.reg o hlo hhi)⟩

theorem setReg (h : s0.CollectorKept s) {o : Nat} (v : Word) (ho : o < 0x10000 ∨ 0x20000 ≤ o) : s0.CollectorKept (s.setReg o v) :=
  ⟨h.otp, h.sched, fun r hlo hhi => (s.reg_setReg_ne o v r (by omega)).trans (h.reg r hlo hhi)⟩

theorem emit (h : s0.CollectorKept s) (src code : Nat) (syn : Word) : s0.CollectorKept (s.emit src code syn) :=
  h.of_eq (s.emit_otp src code syn) (s.emit_sched src code syn) (s.emit_regs src code syn)

theorem withFc (h : s0.CollectorKept s) (fc : FcH) : s0.CollectorKept { s with fc := fc } := h.of_eq rfl rfl rfl

theorem setRing (h : s0.CollectorKept s) (r : Nat) (x : RingH) : s0.CollectorKept (s.setRing r x) := h.of_eq rfl rfl rfl

theorem setCore (h : s0.CollectorKept s) (n : Nat) (x : CoreH) : s0.CollectorKept (s.setCore n x) := h.of_eq rfl rfl rfl

/-- A register of a ring's context lies above the collector's block (R471). -/
theorem setRingReg (h : s0.CollectorKept s) {o : Nat} (v : Word) (ho : 0x200000 ≤ o) : s0.CollectorKept (s.setReg o v) :=
  h.setReg v (.inr (by omega))

theorem msix (h : s0.CollectorKept s) (p v : Nat) : s0.CollectorKept (s.msix p v) := by
  unfold State.msix
  dsimp only
  split_ifs
  · exact h
  · exact h.of_eq rfl rfl rfl
  · exact h.of_eq rfl rfl rfl

theorem ringRaise (h : s0.CollectorKept s) (r : Nat) : s0.CollectorKept (s.ringRaise r) := (h.setRing r _).msix _ _

theorem ringSignal (h : s0.CollectorKept s) (r : Nat) (atOnce : Bool) : s0.CollectorKept (s.ringSignal r atOnce) := by
  unfold State.ringSignal
  extract_lets x irq
  split
  · exact h.setRing r _
  split
  · exact h.ringRaise r
  · exact h.setRing r _

theorem ringDrop (h : s0.CollectorKept s) (r : Nat) : s0.CollectorKept (s.ringDrop r) := by
  have hcnt : 0x200000 ≤ Reg.ringDropCnt r := by simp only [Reg.ringDropCnt]; omega
  have hstatus : 0x200000 ≤ Reg.ringStatus r := by simp only [Reg.ringStatus]; omega
  unfold State.ringDrop
  extract_lets x u
  have hu : s0.CollectorKept u := ((h.setRing r _).setRingReg _ hcnt).setRingReg _ hstatus
  split_ifs
  · exact hu
  · exact hu.emit _ _ _

theorem ringWrite (h : s0.CollectorKept s) (r : Nat) (atOnce : Bool) (mk : Nat → Nat → Nat → Nat → List Byte) :
    s0.CollectorKept (s.ringWrite r atOnce mk) := by
  have hprod : 0x200000 ≤ Reg.ringProd r := by simp only [Reg.ringProd]; omega
  have hdone : 0x200000 ≤ Reg.ringDoneCnt r := by simp only [Reg.ringDoneCnt]; omega
  unfold State.ringWrite
  split_ifs
  · exact h.ringDrop r
  · exact (((h.setRing r _).setRingReg _ hprod).setRingReg _ hdone).ringSignal r atOnce

theorem cplWrite (h : s0.CollectorKept s) (l ringField index : Nat) (c : Cpl) :
    s0.CollectorKept (s.cplWrite l ringField index c) := by
  unfold State.cplWrite
  extract_lets x u
  have hu : s0.CollectorKept u := h.setRing l _
  have hport : u.ringPort l < 4 := by
    unfold State.ringPort State.getF fld
    exact Nat.mod_lt _ (by decide)
  split_ifs
  · exact hu.setReg _ (.inl (by simp only [Reg.hpCplDropCnt]; omega))
  · exact hu.ringWrite l c.irq _

theorem showQueues (h : s0.CollectorKept s) (n : Nat) : s0.CollectorKept (s.showQueues n) := by
  have hstat : 0x20000 ≤ Reg.coreAcDqStat n := by simp only [Reg.coreAcDqStat]; omega
  have hpend : 0x20000 ≤ Reg.coreIrqPend n := by simp only [Reg.coreIrqPend]; omega
  exact forUpto_keeps (fun j _ u hu => hu.setReg _ (.inr (by simp only [Reg.coreAcCqWin]; omega)))
    ((h.setReg _ (.inr hstat)).setReg _ (.inr hpend))

theorem completeAt (h : s0.CollectorKept s) (org : Origin) (c : Cpl) : s0.CollectorKept (s.completeAt org c) := by
  unfold State.completeAt
  split
  case h_1 r i =>
    extract_lets u v
    have hu : s0.CollectorKept u := h.setRingReg _ (by simp only [Reg.ringInflight]; omega)
    have hv : s0.CollectorKept v := hu.setReg _ (.inl (by decide))
    exact hv.cplWrite _ _ _ _
  case h_2 n i =>
    extract_lets x u
    have hu : s0.CollectorKept u := h.setReg _ (.inl (by decide))
    exact (hu.setCore n.val _).showQueues n.val

theorem completeWith (h : s0.CollectorKept s) (e : Sched) (time st v : Nat) : s0.CollectorKept (s.completeWith e time st v) := by
  unfold State.completeWith
  extract_lets sp c u
  have hu : s0.CollectorKept u := by
    unfold u
    split_ifs
    · exact h.setReg _ (.inl (by decide))
    · exact h
  split_ifs
  · exact hu.completeAt _ _
  · exact CollectorKept.of_eq (foldl_keeps (fun k _ w hw => hw.completeAt k.org _) hu) rfl rfl rfl

end State.CollectorKept

/-! ### The tiles on their own (R309, R316) -/

theorem tiles_le_laneReg (n : Nat) : 0x100000 ≤ laneReg n := by
  simp only [laneReg, Reg.tlLaneState]
  omega

theorem tiles_le_linkStatus (t : Nat) : 0x100000 ≤ Reg.tlLinkStatus t := by
  simp only [Reg.tlLinkStatus]
  omega

/-- No lane has a command under way. -/
def State.NoLaneCmd (s : State) : Prop := ∀ n, (s.laneAt n).cmd = none

/-- From `s0` to `s` the collector's part stands; where no lane had a command under way none has, and the rings stand too. -/
structure State.TilesOnly (s0 s : State) : Prop extends s0.CollectorKept s where
  quiet : s0.NoLaneCmd → s.NoLaneCmd ∧ s.rings = s0.rings

namespace State.TilesOnly

theorem refl (s : State) : s.TilesOnly s := ⟨.refl s, fun h => ⟨h, rfl⟩⟩

variable {s0 s : State}

/-- An update of parts that hold no lane, no ring and nothing of the collector's. -/
theorem of_eq {t : State} (h : s0.TilesOnly s) (hk : s0.CollectorKept t) (hl : t.lanes = s.lanes) (hr : t.rings = s.rings) :
    s0.TilesOnly t :=
  ⟨hk, fun h0 => by
    obtain ⟨hcmd, hrings⟩ := h.quiet h0
    exact ⟨fun n => by rw [State.laneAt, hl]; exact hcmd n, hr.trans hrings⟩⟩

theorem setReg (h : s0.TilesOnly s) {o : Nat} (v : Word) (ho : o < 0x10000 ∨ 0x20000 ≤ o) : s0.TilesOnly (s.setReg o v) :=
  h.of_eq (h.toCollectorKept.setReg v ho) rfl rfl

/-- Every register of a tile lies above the collector's block (R334). -/
theorem setTileReg (h : s0.TilesOnly s) {o : Nat} (v : Word) (ho : 0x100000 ≤ o) : s0.TilesOnly (s.setReg o v) :=
  h.setReg v (.inr (by omega))

theorem setTile (h : s0.TilesOnly s) (t : Nat) (x : TileH) : s0.TilesOnly (s.setTile t x) :=
  h.of_eq (h.toCollectorKept.of_eq rfl rfl rfl) rfl rfl

theorem setLane (h : s0.TilesOnly s) (n : Nat) {l : LaneH} (hl : l.cmd = none ∨ l.cmd = (s.laneAt n).cmd) :
    s0.TilesOnly (s.setLane n l) := by
  refine ⟨h.toCollectorKept.of_eq rfl rfl rfl, fun h0 => ?_⟩
  obtain ⟨hcmd, hrings⟩ := h.quiet h0
  refine ⟨fun k => ?_, hrings⟩
  rw [State.laneAt, State.setLane, Sparse.get_set]
  split
  · exact hl.elim id fun hl => hl.trans (hcmd n)
  · exact hcmd k

/-- A lane that is cut may complete a command, and only where it had one. -/
theorem laneCut (h : s0.TilesOnly s) (n : Nat) : s0.TilesOnly (s.laneCut n) := by
  have hset : s0.TilesOnly (s.setLane n { s.laneAt n with gain := .zero, cmd := none }) := h.setLane n (.inl rfl)
  unfold State.laneCut
  dsimp only
  split
  case h_1 e he =>
    exact ⟨hset.toCollectorKept.completeWith e e.heat stFaulted 0, fun h0 => by simpa [he] using (h.quiet h0).1 n⟩
  case h_2 => exact hset

theorem laneStep (h : s0.TilesOnly s) (code n : Nat) : s0.TilesOnly (s.laneStep code n) := by
  have hput : ∀ {u : State} (hi lo v : Nat), s0.TilesOnly u → s0.TilesOnly (u.putF (laneReg n) hi lo v) :=
    fun hi lo v hu => hu.setTileReg _ (tiles_le_laneReg n)
  have hcnt : 0x100000 ≤ Reg.tlLaneSafeCnt (n / 8) (n % 8) := by
    simp only [Reg.tlLaneSafeCnt]
    omega
  unfold State.laneStep
  extract_lets st hold nx u w
  have hu : s0.TilesOnly u := hput 2 0 nx h
  have hw : s0.TilesOnly w := by
    unfold w
    split
    · exact hput 15 8 code (hu.setTileReg _ hcnt)
    · exact hu
  split_ifs
  · exact h
  · exact hw.setLane n (.inr rfl)
  · exact hw.laneCut n
  · exact hw

theorem setHold (h : s0.TilesOnly s) (n c : Nat) (b : Bool) (code : Nat) : s0.TilesOnly (s.setHold n c b code) :=
  foldl_keeps (fun k _ _ hu => hu.laneStep code k) (h.setTileReg _ (tiles_le_laneReg n))

theorem holdTile (h : s0.TilesOnly s) (t c : Nat) (b : Bool) (code : Nat) : s0.TilesOnly (s.holdTile t c b code) :=
  forUpto_keeps (fun l _ _ hu => hu.setHold (t * 8 + l) c b code) h

theorem tileEval (h : s0.TilesOnly s) (t code : Nat) : s0.TilesOnly (s.tileEval t code) :=
  forUpto_keeps (fun l _ _ hu => hu.laneStep code (t * 8 + l)) h

theorem relaysOff (h : s0.TilesOnly s) (t : Nat) : s0.TilesOnly (s.relaysOff t) :=
  (h.setTile t _).setTileReg _ (by simp only [Reg.tlRelay]; omega)

theorem showFault (h : s0.TilesOnly s) (t : Nat) : s0.TilesOnly (s.showFault t) := h.setTileReg _ (tiles_le_linkStatus t)

theorem tileSafeOn (h : s0.TilesOnly s) (t : Nat) : s0.TilesOnly (s.tileSafeOn t) := by
  unfold State.tileSafeOn
  extract_lets pins u was v w
  have hu : s0.TilesOnly u := h.of_eq (h.toCollectorKept.of_eq rfl rfl rfl) rfl rfl
  have hw : s0.TilesOnly w := ((hu.setTileReg _ (tiles_le_linkStatus t)).holdTile t hcTsafe true 0xC5).relaysOff t
  refine showFault ?_ t
  split_ifs
  · exact hw
  · exact hw.setTile t _

theorem tilesSafe (h : s0.TilesOnly s) : s0.TilesOnly s.tilesSafe := forUpto_keeps (fun t _ _ hu => hu.tileSafeOn t) h

theorem injectionsEnd (h : s0.TilesOnly s) : s0.TilesOnly s.injectionsEnd :=
  foldl_keeps (fun p _ _ hu => foldl_keeps (fun c _ _ hv => hv.setHold p.1 c.1 false 0) hu) h

theorem tilesAlone (h : s0.TilesOnly s) : s0.TilesOnly s.tilesAlone := by
  refine forUpto_keeps (fun t _ u hu => ?_) h
  refine (tileEval (forUpto_keeps (fun l _ v hv => ?_) (hu.setTileReg _ (tiles_le_linkStatus t))) t 0).showFault t
  exact ((hv.setTileReg _ (tiles_le_laneReg _)).setTileReg _ (tiles_le_laneReg _)).setHold _ hcMute false 0

end State.TilesOnly

end Sys2Proof.Machine
end

section
/-! Proofs: resets, power, locks and battery mode (O42). What an engine reset keeps and clears, and the case of each command. -/

namespace Sys2Proof.Machine

/-! ### What a reset keeps (R481, R536, R539) -/

/-- A table cut down to the indices that `keep` names reads there as before. -/
theorem Sparse.get_filter_of_kept {α : Type} (d : α) (m : Sparse α) (keep : Nat → Bool) {k : Nat} (h : keep k = true) :
    Sparse.get d (m.filter fun p => keep p.1) k = Sparse.get d m k := by
  induction m with
  | nil => rfl
  | cons p m ih =>
    obtain ⟨i, a⟩ := p
    by_cases hi : keep i = true
    · simp only [List.filter_cons_of_pos, hi, Sparse.get, ih]
    · have hne : k ≠ i := fun he => hi (he ▸ h)
      simpa [List.filter_cons_of_neg, hi, Sparse.get, hne] using ih

/-! ### The ROM starts (R536) -/

/-- The ROM starts by writing registers of the modes, the lane processors and the cores. -/
theorem State.CollectorKept.romStart {s0 s : State} (h : s0.CollectorKept s) : s0.CollectorKept s.romStart := by
  unfold State.romStart
  extract_lets cfg mode ftm lpg ssv
  have hmode : s0.CollectorKept mode := h.setReg _ (.inl (by decide))
  have hftm : s0.CollectorKept ftm := hmode.setReg _ (.inl (by decide))
  have hlpg : s0.CollectorKept lpg := hftm.setReg _ (.inr (by decide))
  have hssv : s0.CollectorKept ssv := hlpg.setReg _ (.inr (by decide))
  exact (hssv.setReg (o := Reg.coreBootStatus) 0x02000300#32 (.inr (by decide))).of_eq rfl rfl rfl

theorem State.romStart_rings (s : State) : s.romStart.rings = s.rings := rfl

theorem State.romStart_hold (s : State) : s.romStart.hold = .run := rfl

theorem State.romStart_reg (s : State) (o : Nat) : s.romStart.reg o =
    State.reg (((((s.setBit Reg.gblMode 6 s.straps.warmupEn).setBit Reg.gblMode 17 (s.straps.ftmEn && !bitAt (s.otpWord 2) 3)).setBit
      Reg.lpGctrl 0 (bitAt (s.otpWord 2) 1)).setReg Reg.coreSsvStatus 0x9#32).setReg Reg.coreBootStatus 0x02000300#32) o := rfl

theorem State.romStart_bootStatus (s : State) : s.romStart.reg Reg.coreBootStatus = 0x02000300#32 := by
  rw [s.romStart_reg, State.reg_setReg_same]

theorem State.romStart_ssvStatus (s : State) : s.romStart.reg Reg.coreSsvStatus = 0x9#32 := by
  rw [s.romStart_reg, State.reg_setReg_ne _ _ _ _ (by decide), State.reg_setReg_same]

theorem State.romStart_warmup (s : State) : s.romStart.bit Reg.gblMode 6 = s.straps.warmupEn := by
  simp [State.bit, s.romStart_reg, State.reg_setReg, State.reg_setBit]

/-! ### The engine reset (R481, R539) -/

/-- A reset of the blocks ends every ring and the schedule, and keeps the OTP and what of the collector's registers it is to keep. -/
theorem State.blocksReset_keeps (s : State) (keep : Nat → Bool) :
    (s.blocksReset keep).rings = [] ∧ (s.blocksReset keep).sched = [] ∧ (s.blocksReset keep).otp = s.otp ∧
      ∀ o, keep o = true → 0x10000 ≤ o → o < 0x20000 → (s.blocksReset keep).reg o = s.reg o := by
  have hinj := (TilesOnly.refl s).injectionsEnd
  unfold State.blocksReset
  extract_lets u b b' b''
  have hcmd : b'.NoLaneCmd :=
    Sparse.get_of_forall (P := fun l : LaneH => l.cmd = none) b'.lanes rfl fun p hp => by
      obtain ⟨q, -, rfl⟩ := List.mem_map.mp (List.mem_filter.mp hp).1
      rfl
  have hb'' : b'.TilesOnly b'' := forUpto_keeps (fun p hp v hv => hv.setReg _ (.inl (by simp only [Reg.hpStatus]; omega))) (.refl b')
  have h := hb''.tilesAlone
  refine ⟨(h.quiet hcmd).2, h.sched, h.otp.trans hinj.otp, fun o hk hlo hhi => ?_⟩
  calc b''.tilesAlone.reg o = b'.reg o := h.reg o hlo hhi
    _ = u.reg o := Sparse.get_filter_of_kept _ u.regs keep hk
    _ = s.reg o := hinj.reg o hlo hhi

theorem fcKeeps_resetCause : fcKeeps Reg.fcResetCause = true := by decide

theorem fcKeeps_hist {k j : Nat} (hk : k < 32) (hj : j < 8) : fcKeeps (Reg.fcHist k j) = true := by
  simp only [fcKeeps, Bool.or_eq_true, Bool.and_eq_true, decide_eq_true_eq, Reg.fcHist, Reg.fcPf]
  omega

/-- An engine reset: `FC_STATUS` keeps PF_VALID, the collector its sequence numbers and oscillator, and the ROM starts. -/
theorem State.engineReset_of_blocksReset {s t u : State} (ht : t = s.tilesSafe.blocksReset fun off => resetKeeps off || fcKeeps off)
    (hu : u = t.setReg Reg.fcStatus (t.reg Reg.fcStatus &&& 0x80#32)) :
    s.engineReset = State.romStart { u with fc := { seq := u.fc.seq, oscStopped := u.fc.oscStopped, running := u.fc.running } } := by
  subst hu ht
  rfl

/-- An engine reset ends every ring and the schedule, and keeps the OTP and the collector's registers of R481 but `FC_STATUS`. -/
theorem State.engineReset_keeps (s : State) : s.engineReset.rings = [] ∧ s.engineReset.sched = [] ∧ s.engineReset.otp = s.otp ∧
    ∀ o, fcKeeps o = true → o ≠ Reg.fcStatus → 0x10000 ≤ o → o < 0x20000 → s.engineReset.reg o = s.reg o := by
  have hsafe := (TilesOnly.refl s).tilesSafe
  have hkeeps := s.tilesSafe.blocksReset_keeps fun off => resetKeeps off || fcKeeps off
  obtain ⟨t, ht⟩ : ∃ t, t = s.tilesSafe.blocksReset fun off => resetKeeps off || fcKeeps off := ⟨_, rfl⟩
  obtain ⟨u, hu⟩ : ∃ u, u = t.setReg Reg.fcStatus (t.reg Reg.fcStatus &&& 0x80#32) := ⟨_, rfl⟩
  rw [← ht] at hkeeps
  rw [State.engineReset_of_blocksReset ht hu]
  obtain ⟨hrings, hsched, hotp, hreg⟩ := hkeeps
  have hrom := ((CollectorKept.refl u).withFc { seq := u.fc.seq, oscStopped := u.fc.oscStopped, running := u.fc.running }).romStart
  refine ⟨?rings, ?sched, ?otp, fun o hk hne hlo hhi => ?regs⟩
  case rings =>
    rw [State.romStart_rings, hu]
    exact hrings
  case sched =>
    rw [hrom.sched, hu]
    exact hsched
  case otp =>
    rw [hrom.otp, hu]
    exact hotp.trans hsafe.otp
  case regs =>
    calc _ = u.reg o := hrom.reg o hlo hhi
      _ = t.reg o := by rw [hu, State.reg_setReg_ne _ _ _ _ hne]
      _ = s.tilesSafe.reg o := hreg o (by simp [hk]) hlo hhi
      _ = s.reg o := hsafe.reg o hlo hhi

/-! ### The software reset and the locks (R561 to R564) -/

theorem State.softReset_of_va {t : State} {p : Fin 3} (hva : t.vaFlag = true) :
    t.softReset (.host p) = (t.setBit Reg.gblResetInfo 8 true).emit 217 0x30 (syn16 0x30 p.val 0) := by
  unfold State.softReset
  exact if_pos (by simp [hva])

/-- A host port's reset is recorded with its cause and port, counted, and asked of the collector. -/
theorem State.softReset_of_host {t u : State} {p : Fin 3} (hva : t.vaFlag = false) (hreq : t.fc.engReset = false)
    (hu : u = (t.putF Reg.gblResetInfo 2 0 2).putF Reg.gblResetInfo 6 5 p.val) :
    t.softReset (.host p) = State.tilesSafe
      { u.putF Reg.gblResetInfo 31 16 (satInc 16 (u.getF Reg.gblResetInfo 31 16)) with fc := { u.fc with engReset := true } } := by
  subst hu
  unfold State.softReset
  extract_lets port
  rw [if_neg (by simp [hva]), if_neg (by simp [hreq])]
  rfl

/-- A write of `v` is the second key of `m`, within 1 ms of its first (R561). -/
def State.secondKey (s : State) (m : Master) (v : Word) : Bool := match s.key with
  | some (k, t) => v == 0x0000C3A5#32 && k == m && s.pacer.ns.toNat ≤ t + 1000000
  | none => false

theorem State.secondKey_of_none {s : State} (m : Master) (v : Word) (h : s.key = none) : s.secondKey m v = false := by
  simp [State.secondKey, h]

theorem State.secondKey_of_first (s : State) (m : Master) : s.secondKey m 0x5A3C#32 = false := by
  unfold State.secondKey
  split
  · simp
  · rfl

theorem State.secondKey_of_within {s : State} {m : Master} {k : Nat} (h : s.key = some (m, k)) (hk : s.pacer.ns.toNat ≤ k + 1000000) :
    s.secondKey m 0xC3A5#32 = true := by
  simp [State.secondKey, h, hk]

/-- A write of `GBL_RESET` by a master that may write it, when it is no second key. -/
theorem does_softwareResetKey_of_no_second {m : Master} {v : Word} {s : State} (hrun : s.hold = .run)
    (hmay : s.may m Reg.gblReset = true) (h : s.secondKey m v = false) :
    Does (.softwareResetKey m v) s { s with key := if v = 0x5A3C#32 then some (m, s.pacer.ns.toNat) else none } :=
  does_of_gated _ (arm_softwareResetKey m v s) hrun hmay (if_neg (Bool.eq_false_iff.mp h))

/-- The second key of a master asks for the software reset. -/
theorem does_softwareResetKey_of_second {m : Master} {s : State} {k : Nat} (hrun : s.hold = .run)
    (hmay : s.may m Reg.gblReset = true) (hkey : s.key = some (m, k)) (hk : s.pacer.ns.toNat ≤ k + 1000000) :
    Does (.softwareResetKey m 0xC3A5#32) s (State.softReset { s with key := none } m) :=
  does_of_gated _ (arm_softwareResetKey m _ s) hrun hmay (if_pos (State.secondKey_of_within hkey hk))

/-! ### The die temperature (R599) -/

theorem thermalBit_of_below {limit t : Int} (was : Bool) (h : t < limit - 5) : thermalBit was limit t = false := by
  rw [thermalBit, if_neg (by omega), if_pos h]

theorem thermalBit_of_reached {limit t : Int} (was : Bool) (h : limit ≤ t) : thermalBit was limit t = true := if_pos h

/-- A threshold not in force comes into force only where it is reached. -/
theorem thermalBit_false_of_lt {limit t : Int} (h : t < limit) : thermalBit false limit t = false := by
  rw [thermalBit, if_neg (by omega), ite_self]

/-- A threshold in force stays until 5 K below it. -/
theorem thermalBit_true_of_le {limit t : Int} (h : limit - 5 ≤ t) : thermalBit true limit t = true := by
  rw [thermalBit, if_neg (show ¬ t < limit - 5 by omega), ite_self]

/-- What the die below its second threshold raises, `was` and `now` telling whether it is over the first. -/
def State.dieFirst (s : State) (was now : Bool) (x : BitVec 16) : State :=
  let t : State := { s with dieOver := if now then 1 else 0 }
  match was, now with
  | false, true => t.emit 228 0x01 (syn16 0x01 0 x.toNat)
  | true, false => t.emit 228 0x04 (syn16 0x04 0 x.toNat)
  | _, _ => t

/-- While at most the first threshold has been crossed and the die is below the second, the first alone decides. -/
theorem does_dieTemperatureCrossing {x : BitVec 16} {s : State} {was now : Bool} (hpow : s.hold ≠ .power)
    (hwas : s.dieOver = if was then 1 else 0) (hx : x.toInt < 110) (hnow : thermalBit was 100 x.toInt = now) :
    Does (.dieTemperatureCrossing x) s (s.dieFirst was now x) := by
  refine does_of_always _ (arm_dieTemperatureCrossing x s) ((if_neg hpow).trans ?_)
  have h0 : s.dieOver.getLsbD 0 = was := by rw [hwas]; cases was <;> rfl
  have h1 : s.dieOver.getLsbD 1 = false := by rw [hwas]; cases was <;> rfl
  have h2 : s.dieOver.getLsbD 2 = false := by rw [hwas]; cases was <;> rfl
  have hn0 : thermalBit was (100 + 10 * ((0 : Nat) : Int)) x.toInt = now := hnow
  have hn1 : thermalBit false (100 + 10 * ((1 : Nat) : Int)) x.toInt = false := thermalBit_false_of_lt hx
  have hn2 : thermalBit false (100 + 10 * ((2 : Nat) : Int)) x.toInt = false := thermalBit_false_of_lt (by omega)
  simp only [h0, h1, h2, hn0, hn1, hn2]
  cases was <;> cases now <;> rfl

/-! ### Thermal shutdown (R599) -/

theorem does_thermalRelease_of_held {s t : State} (hth : s.hold = .thermal)
    (ht : t = (s.putF Reg.gblResetInfo 2 0 (fld s.freeVal 2 0)).take) :
    Does .thermalRelease s (t.putF Reg.gblResetInfo 31 16 (satInc 16 (t.getF Reg.gblResetInfo 31 16))).engineReset := by
  subst ht
  exact does_of_always _ (arm_thermalRelease s) (if_neg (not_not_intro hth))

/-- Settles O42, by the command and the state it finds. -/
theorem resetsAndPower : Obligations.ResetsAndPower := by
  unfold Obligations.ResetsAndPower
  refine ⟨fun x s t u ht hu => ?powerOn, fun s t ht => ?powerFail, fun s hrun hreq => ?resetDue, fun s hrun hreq => ?resetNotDue,
    fun s t u => State.engineReset_of_blocksReset,
    fun s => ⟨s.romStart_hold, s.romStart_bootStatus, s.romStart_ssvStatus, s.romStart_warmup⟩, fun s => ?resetKeeps,
    fun m v s hrun hmay hv hkey => ?otherKey, fun m s hrun hmay => ?firstKey, fun p s t k hrun hmay hkey hk ht hva => ?refusedInVa,
    fun p s t u k hrun hmay hkey hk ht hva hreq hu => ?secondKey, fun m v s hrun hm => ?sysCtrlOther, fun v s hrun => ?sysCtrl,
    fun v s hrun hmay hall => ?lockAll, fun m v s hrun hmay hall => ?lockNone,
    fun x s hpow hdie hlo hhi => ?dieHot, fun x s hpow hdie hlo => ?dieCool, fun x s hpow hdie hlo hhi => ?dieStill,
    fun s t hrun ht => ?thermalShutdown, fun s hth => ?thermalNotHeld, fun s t => does_thermalRelease_of_held,
    fun s hrun hlow => ?batEnter, fun s hrun hlow => ?batNotYet, fun s hrun hhigh => ?batLeave⟩
  case powerOn =>
    subst hu ht
    exact does_of_always _ (arm_powerOn x s) rfl
  case powerFail =>
    subst ht
    exact does_of_always _ (arm_powerFail s) rfl
  case resetDue => exact does_of_run _ (arm_engineReset s) hrun (if_pos hreq)
  case resetNotDue => exact does_of_run _ (arm_engineReset s) hrun (if_neg (Bool.eq_false_iff.mp hreq))
  case resetKeeps =>
    obtain ⟨hrings, hsched, hotp, hreg⟩ := s.engineReset_keeps
    refine ⟨hrings, hsched, hotp, hreg _ fcKeeps_resetCause (by decide) (by decide) (by decide), fun k j hk hj => ?_⟩
    exact hreg _ (fcKeeps_hist hk hj) (by simp only [Reg.fcHist, Reg.fcStatus]; omega) (by simp only [Reg.fcHist]; omega)
      (by simp only [Reg.fcHist]; omega)
  case otherKey =>
    have h := does_softwareResetKey_of_no_second hrun hmay (State.secondKey_of_none m v hkey)
    rwa [if_neg hv] at h
  case firstKey => exact does_softwareResetKey_of_no_second hrun hmay (s.secondKey_of_first m)
  case refusedInVa =>
    have h := does_softwareResetKey_of_second hrun hmay hkey hk
    rwa [← ht, State.softReset_of_va hva] at h
  case secondKey =>
    have h := does_softwareResetKey_of_second hrun hmay hkey hk
    rwa [← ht, State.softReset_of_host hva hreq hu] at h
  case sysCtrlOther => exact does_of_run _ (arm_gblSysCtrlWrite m v s) hrun (State.ssvOnly_of_ne _ hm)
  case sysCtrl => exact does_of_run _ (arm_gblSysCtrlWrite .ssv v s) hrun (if_pos rfl)
  case lockAll => exact does_of_gated _ (arm_gblLockWrite .ssv v s) hrun hmay (if_pos (by simp [hall]))
  case lockNone => exact does_of_gated _ (arm_gblLockWrite m v s) hrun hmay (if_neg (by simp [hall]))
  case dieHot => exact does_dieTemperatureCrossing (was := false) (now := true) hpow hdie hhi (thermalBit_of_reached false hlo)
  case dieCool =>
    exact does_dieTemperatureCrossing (was := true) (now := false) hpow hdie (by omega) (thermalBit_of_below true hlo)
  case dieStill =>
    have h := does_dieTemperatureCrossing (was := true) (now := true) hpow hdie hhi (thermalBit_true_of_le hlo)
    have hs : s.dieFirst true true x = s := congrArg (fun d => ({ s with dieOver := d } : State)) hdie.symm
    rwa [hs] at h
  case thermalShutdown =>
    subst ht
    exact does_of_run _ (arm_thermalShutdown s) hrun rfl
  case thermalNotHeld => exact does_of_always _ (arm_thermalRelease s) (if_pos hth)
  case batEnter => exact does_of_run _ (arm_batAutoEnter s) hrun (if_pos hlow)
  case batNotYet => exact does_of_run _ (arm_batAutoEnter s) hrun (if_neg (Bool.eq_false_iff.mp hlow))
  case batLeave => exact does_of_run _ (arm_batAutoLeave s) hrun (if_pos hhigh)

end Sys2Proof.Machine
end

section
/-! Proofs: what every descriptor meets at acceptance (O44, O45), and what every step does with the queue (O46, O47). -/

namespace Sys2Proof.Machine

/-! ### The queue of commands -/

/-- With a command in front, a step executes it on the state whose queue is the rest. -/
theorem step_of_front {c : Instr} {cs : List Instr} {s : State} (h : s.pending = c :: cs) : step s = exec c { s with pending := cs } := by
  unfold step
  rw [h]

/-- A command leaves the queue as it found it. -/
theorem exec_keeps_pending (c : Instr) (s : State) : ∃ t, exec c s = .next t ∧ t.pending = s.pending := by
  obtain ⟨u, hu⟩ := exec_finish c s
  exact ⟨s.closed u, hu.trans (finish_eq s u), closed_pending s u⟩

/-- Letting a cycle of the pacer pass leaves the queue. -/
theorem State.idle_pending (s : State) : s.idle.pending = s.pending := by
  by_cases hrun : s.hold = .run
  · obtain ⟨p, r, hcyc, -⟩ := pacerCycles_frame s 1
    rw [State.idle_of_run hrun]
    split_ifs
    · rw [hcyc]
    · rfl
  · rw [State.idle_of_held hrun]

/-- Settles O46: the step matches on the queue. -/
theorem stepRunsFront : Obligations.StepRunsFront := by
  unfold Obligations.StepRunsFront
  exact fun c cs s => step_of_front

/-- Settles O47, by what stands in the queue. -/
theorem stepCompletes : Obligations.StepCompletes := by
  unfold Obligations.StepCompletes
  refine ⟨fun c cs s h => ?front, fun s h => ?empty, exec_keeps_pending⟩
  case front => rw [step_of_front h]; exact exec_keeps_pending c _
  case empty => exact ⟨s.idle, step_of_empty h, s.idle_pending.trans h⟩

/-! ### Descriptors at their acceptance -/

/-- A command that offers the descriptor of a row that commits at a heat schedules it. -/
theorem schedules_of_row {c : Origin → Body → Instr} {row : Row} {op : Nat} {rd : ReadResult}
    (hx : ∀ o d s, exec (c o d) s = act s fun s => s.descRow row op .accept o d rd) (hb : row.blk ≠ .now) : Schedules c row op rd :=
  fun o d s _ _ h => does_accept (hx o d s) h hb

/-- A command that offers the descriptor of a row refuses it with the first condition that applies. -/
theorem refuses_of_row {c : Origin → Body → Instr} {row : Row} {op : Nat} (rd : ReadResult)
    (hx : ∀ o d s, exec (c o d) s = act s fun s => s.descRow row op .accept o d rd) : Refuses c row op :=
  fun o d s _ _ hrun hm hc hr => does_refuse (hx o d s) hrun hm hc hr

/-- Settles O44: every command of the list offers the descriptor of its row, and no row of it acts at once. -/
theorem descriptorsScheduled : Obligations.DescriptorsScheduled := by
  unfold Obligations.DescriptorsScheduled
  refine ⟨?_, ?_, ?_, ?_, ?_, ?_, ?_, ?_, ?_, ?_, ?_, ?_, ?_, ?_, ?_, ?_, ?_, ?_, ?_, ?_, ?_, ?_, ?_, ?_, ?_, ?_, ?_, ?_, ?_, ?_, ?_, ?_,
    ?_, ?_, ?_, ?_, ?_, ?_, ?_, ?_, ?_, ?_, ?_, fun rd => ?_, fun rd => ?_⟩ <;>
    exact schedules_of_row (fun _ _ _ => rfl) (by decide)

/-- Settles O45: every command of the list offers the descriptor of its row. -/
theorem descriptorsRefused : Obligations.DescriptorsRefused := by
  unfold Obligations.DescriptorsRefused
  refine ⟨?_, ?_, ?_, ?_, ?_, ?_, ?_, ?_, ?_, ?_, ?_, ?_, ?_, ?_, ?_, ?_, ?_, ?_, ?_, ?_, ?_, ?_, ?_, ?_, ?_, ?_, ?_, ?_, ?_, ?_, ?_, ?_,
    ?_, ?_, ?_, ?_, ?_, ?_, ?_, ?_, ?_, ?_, ?_, fun rd => ?_, fun rd => ?_, ?_, ?_, ?_, ?_, ?_, ?_, ?_, ?_, ?_, fun rds => ?_⟩ <;>
    exact refuses_of_row _ fun _ _ _ => rfl

end Sys2Proof.Machine
end

section
/-! Proofs: the baton (O30, O31). Who wins an election, what each write of the baton's registers does, and that a lease is judged by its
field of fourteen bits and not by the whole word written. -/

namespace Sys2Proof.Machine

/-! ### Elections -/

/-- The priority of a port's claim: the lower one wins. -/
def State.claimPrio (s : State) (p : Nat) : Nat := s.getF (Reg.gblBatonClaimOf p) 7 0

/-- The better of the winner so far and the claim of port `p`, which comes after it. -/
def State.betterClaim (s : State) (w : Option Nat) (p : Nat) : Option Nat :=
  if !s.claimValid p then w
  else match w with
    | none => some p
    | some q => if s.claimPrio p < s.claimPrio q then some p else w

theorem State.winner_eq_foldl (s : State) : s.winner = (List.range 3).foldl s.betterClaim none := rfl

/-- `w` is the winner among the ports below `n`: of the valid claims the one of lowest priority number, then of the lowest port. -/
def State.WinsBelow (s : State) (n : Nat) : Option Nat → Prop
  | none => ∀ q, q < n → s.claimValid q = false
  | some p => p < n ∧ s.claimValid p = true ∧
      ∀ q, q < n → s.claimValid q = true → s.claimPrio p < s.claimPrio q ∨ (s.claimPrio p = s.claimPrio q ∧ p ≤ q)

theorem State.WinsBelow.of_invalid {s : State} {n : Nat} {w : Option Nat} (h : s.WinsBelow n w) (hn : s.claimValid n = false) :
    s.WinsBelow (n + 1) w := by
  cases w with
  | none => exact fun q hq => (Nat.lt_succ_iff_lt_or_eq.mp hq).elim (h q) (fun e => e ▸ hn)
  | some p =>
    obtain ⟨hp, hv, hbest⟩ := h
    refine ⟨by omega, hv, fun q hq hvq => ?_⟩
    obtain hlt | rfl := Nat.lt_succ_iff_lt_or_eq.mp hq
    · exact hbest q hlt hvq
    · exact absurd (hn.symm.trans hvq) (by decide)

theorem State.WinsBelow.betterClaim {s : State} {n : Nat} {w : Option Nat} (h : s.WinsBelow n w) : s.WinsBelow (n + 1) (s.betterClaim w n) := by
  unfold State.betterClaim
  by_cases hn : s.claimValid n = true
  · rw [hn, if_neg (by decide)]
    cases w with
    | none =>
      refine ⟨by omega, hn, fun q hq hvq => .inr ?_⟩
      obtain hlt | rfl := Nat.lt_succ_iff_lt_or_eq.mp hq
      · exact absurd ((h q hlt).symm.trans hvq) (by decide)
      · exact ⟨rfl, le_rfl⟩
    | some p =>
      obtain ⟨hp, hv, hbest⟩ := h
      dsimp only
      split_ifs with hlt
      · refine ⟨by omega, hn, fun q hq hvq => ?_⟩
        obtain hq | rfl := Nat.lt_succ_iff_lt_or_eq.mp hq
        · have := hbest q hq hvq
          omega
        · exact .inr ⟨rfl, le_rfl⟩
      · refine ⟨by omega, hv, fun q hq hvq => ?_⟩
        obtain hq | rfl := Nat.lt_succ_iff_lt_or_eq.mp hq
        · exact hbest q hq hvq
        · omega
  · rw [Bool.eq_false_iff.mpr hn]
    exact h.of_invalid (Bool.eq_false_iff.mpr hn)

theorem State.winsBelow_foldl (s : State) (n : Nat) : s.WinsBelow n ((List.range n).foldl s.betterClaim none) := by
  induction n with
  | zero => exact fun q hq => absurd hq (Nat.not_lt_zero q)
  | succ n ih =>
    rw [List.range_succ, List.foldl_append]
    exact ih.betterClaim

/-- The winner of an election is the best valid claim of the three ports. -/
theorem State.winsBelow_winner (s : State) : s.WinsBelow 3 s.winner := s.winsBelow_foldl 3

theorem State.winner_eq_none_iff (s : State) : s.winner = none ↔ ∀ p, p < 3 → s.claimValid p = false := by
  have h := s.winsBelow_winner
  cases hw : s.winner with
  | none => rw [hw] at h; exact ⟨fun _ => h, fun _ => rfl⟩
  | some p =>
    rw [hw] at h
    obtain ⟨hp, hv, -⟩ := h
    exact ⟨fun e => (nomatch e), fun hall => absurd ((hall p hp).symm.trans hv) (by decide)⟩

/-! ### Leases -/

theorem leaseOk_of_mem {v : Nat} (hlo : 10 ≤ v) (hhi : v ≤ 10000) : leaseOk v = true := by simp [leaseOk, hlo, hhi]

theorem leaseOk_of_not_mem {v : Nat} (h : v < 10 ∨ 10000 < v) : leaseOk v = false := by
  simp only [leaseOk, Bool.and_eq_false_iff, decide_eq_false_iff_not]
  omega

/-- Settles O30: each clause is the case of the write it speaks of, and an election is won by the best valid claim. -/
theorem batonClaims : Obligations.BatonClaims := by
  unfold Obligations.BatonClaims
  refine ⟨fun p v s hrun hst hw hlo hhi => ?claim, fun p v s hrun hst hw hout => ?badLease, fun p v s hrun hst hw => ?withdrawBit,
    fun p s hrun hst hown => ?withdrawOwner, fun p s hrun hst hown => ?withdrawOther, fun s t p code cause hp ht => ?release,
    fun s hrun hst hnone => ?noClaim, fun p s hrun hst hsome => ?elected, State.winner_eq_none_iff, fun s p hsome => ?best⟩
  case claim =>
    refine does_of_run _ (arm_gblBatonClaimWrite p v s) hrun ?_
    simp only [if_neg hst, hw, Bool.false_eq_true, if_false, State.claim, leaseOk_of_mem hlo hhi, if_true, State.setClaim]
  case badLease =>
    refine does_of_run _ (arm_gblBatonClaimWrite p v s) hrun ?_
    simp only [if_neg hst, hw, Bool.false_eq_true, if_false, State.claim, leaseOk_of_not_mem hout]
  case withdrawBit =>
    refine does_of_run _ (arm_gblBatonClaimWrite p v s) hrun ?_
    simp only [if_neg hst, hw, if_true]
  case withdrawOwner =>
    refine does_of_run _ (arm_batonWithdraw p s) hrun ?_
    simp only [if_neg hst, State.withdraw, hown, if_true]
  case withdrawOther =>
    refine does_of_run _ (arm_batonWithdraw p s) hrun ?_
    simp only [if_neg hst, State.withdraw, hown, Bool.false_eq_true, if_false]
  case release =>
    subst ht hp
    rfl
  case noClaim =>
    refine does_of_run _ (arm_electionWindowClose s) hrun ?_
    simp only [hst, ne_eq, not_true_eq_false, if_false, hnone]
  case elected =>
    refine does_of_run _ (arm_electionWindowClose s) hrun ?_
    simp only [hst, ne_eq, not_true_eq_false, if_false, hsome]
  case best =>
    have h := s.winsBelow_winner
    rwa [hsome] at h

/-- A lease of 200 heats written with a bit above the field set is a lease of 200 heats. -/
theorem does_gblBatonLeaseWrite_of_reserved_bit :
    Does (.gblBatonLeaseWrite .ssv 0x40C8#32) State.reset (State.reset.setReg Reg.gblBatonLease 0xC8#32) :=
  does_of_gated _ (arm_gblBatonLeaseWrite .ssv 0x40C8#32 State.reset) rfl rfl (by
    have hl : fld 0x40C8#32 13 0 = 200 := by decide
    have hfree : ((State.reset.setReg Reg.gblBatonLease 0xC8#32).held) = false := by decide
    simp only [hl, leaseOk_of_mem (v := 200) (by omega) (by omega), if_true]
    exact if_neg (by rw [hfree]; decide))

/-- Refutes O31: the model takes a lease from bits [13:0] of the word written, and the statement judges the whole word. The word
0x40C8 is above 10,000, and its field is 200 heats. -/
theorem not_batonLeases : ¬ Obligations.BatonLeases := by
  unfold Obligations.BatonLeases
  rintro ⟨-, hout, -⟩
  have hkept := hout .ssv 0x40C8#32 State.reset rfl rfl (.inr (by decide))
  have hclosed := hkept.closed_unique does_gblBatonLeaseWrite_of_reserved_bit
  exact absurd (congrArg (fun u => u.reg Reg.gblBatonLease) hclosed) (by decide)

end Sys2Proof.Machine
end

section
/-! Proofs: doorbells and ring contexts (O33, O34). -/

namespace Sys2Proof.Machine

/-! ### Doorbells -/

theorem engineProduced_iff (t : Nat) : engineProduced t = true ↔ t ∈ [2, 4, 5, 6, 7] := by
  simp [engineProduced, or_assoc]

theorem State.inWindow_iff (s : State) (p r : Nat) : s.inWindow p r = true ↔
    ∃ k, k < 12 ∧ bitAt (s.reg (Reg.hpDbw p k)) 31 = true ∧ fld (s.reg (Reg.hpDbw p k)) 14 0 ≤ r ∧ r ≤ fld (s.reg (Reg.hpDbw p k)) 30 16 := by
  simp [State.inWindow, and_assoc]

theorem State.doorbellOk_iff (s : State) (p r : Nat) : s.doorbellOk p r = true ↔
    (∃ k, k < 12 ∧ bitAt (s.reg (Reg.hpDbw p k)) 31 = true ∧ fld (s.reg (Reg.hpDbw p k)) 14 0 ≤ r ∧
      r ≤ fld (s.reg (Reg.hpDbw p k)) 30 16) ∧ s.ringPort r = p ∧
    (s.owns p = true ∨ s.ringType r = 1 ∨ s.shadowPair r ≠ none ∨ s.ringType r ∈ [2, 4, 5, 6, 7]) := by
  rw [← s.inWindow_iff, ← engineProduced_iff, ← Option.isSome_iff_ne_none]
  simp only [State.doorbellOk, Bool.and_eq_true, Bool.or_eq_true, beq_iff_eq, and_assoc, or_assoc]

/-- Only a doorbell that is taken can give the engine entries of a playlist ring back. -/
theorem does_doorbellWrite_of_not_taken {m : Master} {r : Fin 32768} {x : Word} {s u : State} (hrun : s.hold = .run)
    (ht : s.doorbellTaken m r.val x = false) (hu : s.ringDoorbell m r.val x = u) : Does (.doorbellWrite m r true x) s u :=
  does_of_run _ (arm_doorbellWrite m r true x s) hrun (by
    simp only [Bool.not_true, Bool.false_eq_true, if_false, ht, Bool.and_false, hu])

theorem does_doorbellWrite_of_type {m : Master} {r : Fin 32768} {x : Word} {s u : State} (hrun : s.hold = .run)
    (ht : s.ringType r.val ≠ 3) (hu : s.ringDoorbell m r.val x = u) : Does (.doorbellWrite m r true x) s u :=
  does_of_run _ (arm_doorbellWrite m r true x s) hrun (by
    simp only [Bool.not_true, Bool.false_eq_true, if_false, beq_false_of_ne ht, Bool.false_and, hu])

/-- On an enabled ring a permitted doorbell with an index in range moves the ring. -/
theorem State.ringDoorbell_of_taken {s : State} {m : Master} {r : Nat} {x : Word} (hmay : s.doorbellMay m r = true)
    (hen : s.ringEn r = true) (hrange : s.doorbellRange r x = true) : s.ringDoorbell m r x = s.doorbellMove r x := by
  simp only [State.ringDoorbell, hmay, hen, hrange, Bool.not_true, Bool.false_eq_true, if_false]

/-- Settles O33, by the first check of a doorbell that fails and by what the ring holds. -/
theorem doorbells : Obligations.Doorbells := by
  unfold Obligations.Doorbells
  refine ⟨fun m r x s hrun => ?high, fun p r x s hrun hok => ?refused, fun m r x s hrun hmay hen => ?disabled,
    fun m r x s hrun hmay hen hrange => ?outside, fun m r x s hrun hmay hen hrange hty => ?command,
    fun m r x s h hrun hmay hen hrange hty hh => ?completion, State.doorbellOk_iff, fun s r x hty => ?range⟩
  case high => exact does_of_run _ (arm_doorbellWrite m r false x s) hrun (if_pos rfl)
  case refused =>
    have hmay : s.doorbellMay (.host p) r.val = false := hok
    refine does_doorbellWrite_of_not_taken hrun (by simp only [State.doorbellTaken, hmay, Bool.false_and]) ?_
    simp only [State.ringDoorbell, hmay, Bool.not_false, if_true]
  case disabled =>
    refine does_doorbellWrite_of_not_taken hrun (by simp only [State.doorbellTaken, hen, Bool.and_false, Bool.false_and]) ?_
    simp only [State.ringDoorbell, hmay, hen, Bool.not_true, Bool.not_false, Bool.false_eq_true, if_false, if_true]
  case outside =>
    refine does_doorbellWrite_of_not_taken hrun (by simp only [State.doorbellTaken, hrange, Bool.and_false]) ?_
    simp only [State.ringDoorbell, hmay, hen, hrange, Bool.not_true, Bool.not_false, Bool.false_eq_true, if_false, if_true]
  case command =>
    refine does_doorbellWrite_of_type hrun (by omega) ((State.ringDoorbell_of_taken hmay hen hrange).trans ?_)
    exact if_neg (by rw [hty]; decide)
  case completion =>
    subst hh
    refine does_doorbellWrite_of_type hrun (by omega) ((State.ringDoorbell_of_taken hmay hen hrange).trans ?_)
    exact if_pos (by rw [hty]; decide)
  case range =>
    have hp : engineProduced (s.ringType r) = false := by rw [hty]; rfl
    simp only [State.doorbellRange, hp, Bool.false_eq_true, if_false, Bool.and_eq_true, decide_eq_true_eq]

/-! ### Ring contexts -/

theorem does_of_refused {i : Instr} {s : State} {m : Master} {off : Nat} (f : State → State)
    (hx : exec i s = act s fun s => s.gated m off f) (hrun : s.hold = .run) (hmay : s.may m off = false) : Does i s (s.refuseWrite m) :=
  does_of_run _ hx hrun (State.gated_of_not_may f hmay)

/-- What a sound configuration of a ring is (R437). -/
theorem State.ringCfgOk_iff (s : State) (v : Word) : s.ringCfgOk v = true ↔
    fld v 27 24 ≤ 8 ∧ 4 ≤ fld v 20 16 ∧ fld v 20 16 ≤ 16 ∧ fld v 23 22 ≠ 3 ∧
    (fld v 27 24 ∈ [0, 1, 8] → s.ringEn (fld v 14 0) = true ∧ s.ringType (fld v 14 0) = 2 ∧ s.ringPort (fld v 14 0) = fld v 23 22) := by
  have hlink : (fld v 27 24 == 0 || fld v 27 24 == 1 || fld v 27 24 == 8) = true ↔ fld v 27 24 ∈ [0, 1, 8] := by
    simp [or_assoc]
  rw [← hlink]
  simp only [State.ringCfgOk, Bool.and_eq_true, decide_eq_true_eq, bne_iff_ne, and_assoc]
  generalize (fld v 27 24 == 0 || fld v 27 24 == 1 || fld v 27 24 == 8) = b
  cases b <;> simp [and_assoc]

/-- A ring that collects no group has none to abandon. -/
theorem State.abandonGroup_of_none {s : State} {r : Nat} (h : (s.ringAt r).group = none) : s.abandonGroup r = s := by
  simp only [State.abandonGroup, h, Option.bind_none]

/-- Settles O34, by the master, the state of the ring and the configuration written. -/
theorem ringContexts : Obligations.RingContexts := by
  unfold Obligations.RingContexts
  refine ⟨fun m r v s hrun hmay hen hok => ?bad, fun m r v s t hrun hmay hen hok ht => ?sound, fun m r v s hrun hmay hen => ?enabled,
    fun m r v s hrun hmay => ?refused, fun m r v s hrun hmay hen hty hlink => ?linked,
    fun m r v s t hrun hmay hen hty hgroup ht htg => ?off, State.ringCfgOk_iff⟩
  case bad =>
    refine does_of_gated _ (arm_ringEnable m r v s) hrun hmay ?_
    simp only [hen, hok, Bool.not_false, Bool.false_eq_true, if_false, if_true]
  case sound =>
    subst ht
    refine does_of_gated _ (arm_ringEnable m r v s) hrun hmay ?_
    simp only [hen, hok, Bool.not_true, Bool.false_eq_true, if_false]
  case enabled => exact does_of_gated _ (arm_ringEnable m r v s) hrun hmay (if_pos hen)
  case refused => exact does_of_refused _ (arm_ringEnable m r v s) hrun hmay
  case linked =>
    refine does_of_gated _ (arm_ringDisable m r v s) hrun hmay ?_
    simp only [hen, hty, hlink, Bool.not_true, Bool.false_eq_true, if_false, beq_self_eq_true, Bool.and_self, if_true]
  case off =>
    refine does_of_gated _ (arm_ringDisable m r v s) hrun hmay ?_
    subst ht
    simp only [hen, beq_false_of_ne hty, Bool.not_true, Bool.false_eq_true, if_false, Bool.false_and, State.abandonGroup_of_none htg]

end Sys2Proof.Machine
end

section
/-! Proofs: the events of rings, barriers and the queues of the application cores (O35). -/

namespace Sys2Proof.Machine

/-! ### Queues of an application core -/

theorem State.drainCore_of_not_may {s : State} {n : Fin 4} (k : Nat) (h : s.mayTakeCore n.val = false) : State.drainCore n k s = s := by
  cases k with
  | zero => rfl
  | succ k =>
    unfold State.drainCore
    split
    · rfl
    · exact if_pos (by rw [h]; rfl)

theorem State.drainCore_of_empty {s : State} {n : Fin 4} (k : Nat) (h : (s.coreAt n.val).dq = []) : State.drainCore n k s = s := by
  cases k with
  | zero => rfl
  | succ k => simp only [State.drainCore, h]

/-! ### Barriers -/

/-- The entry that stands first at a ring, once taken, came from that ring. -/
theorem accepts_org {s t : State} {row : Row} {op : Nat} {o : Origin} {d : Body} {rd : ReadResult} {e : Sched}
    (h : s.Accepts row op o d rd t e) : e.org = s.frontAt o := by
  obtain ⟨-, -, -, -, -, -, -, rfl⟩ := h
  rfl

theorem barrierRow_commit_of_clear {r : Fin 32768} {i : Word} {e : Sched} {s : State} (horg : e.org = .ring r i)
    (hclear : s.barrierClear r.val = true) : barrierRow.commit e s = (s, resOk) := by
  simp only [barrierRow, horg, hclear, if_true]

theorem barrierRow_commit_of_core {n : Fin 4} {i : Word} {e : Sched} {s : State} (horg : e.org = .core n i) :
    barrierRow.commit e s = (s, resOk) := by
  simp only [barrierRow, horg]

/-- Settles O35: each clause is the rule of the ring event, the barrier or the queue it speaks of. -/
theorem ringsAndQueues : Obligations.RingsAndQueues := by
  unfold Obligations.RingsAndQueues
  refine ⟨fun r s hrun hen hty => ?writeError, fun s r code x hx => ?ringStop, fun r s hrun hen hlong => ?stallLong,
    fun r s hrun hen => ?stallOff, fun r s hrun hco hun hirq hdue => ?coalesce, fun r s hrun hun => ?coalesceNone,
    fun o d s t e hdue ht => ?nop, fun r i d s t v e hacc hv hclear => ?barrierRing, fun n i d s t v e hacc hv => ?barrierCore,
    fun r s e h hrun hbar hclear hh => ?released, fun r s hrun hbar => ?noBarrier, fun r e s hrun hbar hclear => ?heldBack,
    fun p timeout s code hrun hcode => ?timeout, fun p timeout r s t code hrun hcode ht hen hport hty => ?timeoutRing,
    fun r s hrun => ?readNone, fun r d rds s hrun hlim => ?readOne, fun m n v rd s hrun hmay hv hfull => ?pushFull,
    fun m n v rd s t h hrun hmay hv hroom hh ht hwait => ?push, fun m n v s t h hrun hmay hv hh ht hempty => ?pop⟩
  case writeError =>
    refine does_of_run _ (arm_ringWriteError r s) hrun (if_pos ?_)
    rw [hen, (engineProduced_iff _).mpr hty]; rfl
  case ringStop => subst hx; rfl
  case stallLong => exact does_of_run _ (arm_ringStallLong r s) hrun (if_pos (by simp [hen, hlong]))
  case stallOff => exact does_of_run _ (arm_ringStallLong r s) hrun (if_neg (by simp [hen]))
  case coalesce => exact does_of_run _ (arm_irqCoalesceTimeout r s) hrun (if_pos (by simp [hco, hun, hirq, hdue]))
  case coalesceNone => exact does_of_run _ (arm_irqCoalesceTimeout r s) hrun (if_neg (by simp [hun]))
  case nop => subst ht; exact does_commit (arm_nop .commit o d s) hdue rfl
  case barrierRing =>
    subst hv
    exact does_now (arm_barrier _ d s) hacc rfl (barrierRow_commit_of_clear (accepts_org hacc) hclear)
  case barrierCore =>
    subst hv
    exact does_now (arm_barrier _ d s) hacc rfl (barrierRow_commit_of_core (accepts_org hacc))
  case released =>
    subst hh
    exact does_of_run _ (arm_barrierRelease r s) hrun (by simp only [hbar, hclear, if_true])
  case noBarrier => exact does_of_run _ (arm_barrierRelease r s) hrun (by simp only [hbar])
  case heldBack => exact does_of_run _ (arm_barrierRelease r s) hrun (by simp only [hbar, hclear, Bool.false_eq_true, if_false])
  case timeout => subst hcode; exact does_of_run _ (arm_completionTimeout p timeout none s) hrun rfl
  case timeoutRing =>
    subst hcode ht
    refine does_of_run _ (arm_completionTimeout p timeout (some r) s) hrun (if_pos ?_)
    rw [hen, hport, hty]
    simp [engineProduced]
  case readNone => exact does_of_run _ (arm_ringReadDone r [] s) hrun (by rw [List.take_nil]; rfl)
  case readOne =>
    exact does_of_run _ (arm_ringReadDone r _ s) hrun (by rw [List.take_of_length_le (Nat.succ_le_of_lt hlim)]; rfl)
  case pushFull =>
    refine does_of_gated _ (arm_coreDqPush m n v rd s) hrun hmay ?_
    simp only [hv, Bool.not_true, Bool.false_eq_true, if_false, hfull, if_true]
  case push =>
    subst hh ht
    refine does_of_gated _ (arm_coreDqPush m n v rd s) hrun hmay ?_
    simp only [hv, Bool.not_true, Bool.false_eq_true, if_false, if_neg (Nat.not_le.mpr hroom)]
    exact State.drainCore_of_not_may 16 hwait
  case pop =>
    subst hh ht
    refine does_of_gated _ (arm_coreCqPop m n v s) hrun hmay ?_
    simp only [hv, Bool.not_true, Bool.false_eq_true, if_false]
    exact State.drainCore_of_empty 16 hempty

end Sys2Proof.Machine
end

section
/-! Proofs: shadow pairs of rings (O32). Writing a pair the value it holds changes nothing, and the statement starts it anew. -/

namespace Sys2Proof.Machine

/-- A pair written the value it holds stays as it is (R427). -/
theorem does_gblShadowWrite_of_same {m : Master} {k : Fin 64} {v : Word} {s : State} (hrun : s.hold = .run)
    (hmay : s.may m (Reg.gblShadow k.val) = true) (hports : s.ringPort (fld v 30 16) ≠ s.ringPort (fld v 14 0))
    (ha : s.ringType (fld v 30 16) = 0) (hb : s.ringType (fld v 14 0) = 0)
    (hsame : s.reg (Reg.gblShadow k.val) = v &&& 0xFFFF7FFF#32) : Does (.gblShadowWrite m k v) s s := by
  refine does_of_gated _ (arm_gblShadowWrite m k v s) hrun hmay ?_
  simp only [beq_false_of_ne hports, ha, hb, bne_self_eq_false, Bool.or_self, Bool.and_false, Bool.false_eq_true, if_false, hsame, if_true]

/-- Pair 0 mirrors command ring 1 of port 1, which owns the baton, on ring 0 of port 0; it is active, and five descriptors have been
compared. -/
def pairBusy : State :=
  let s := (State.reset.putF Reg.gblBatonState 2 0 2).putF Reg.gblBatonState 5 4 1
  let s := (s.setReg (Reg.ringCfg 0) 0x80040000#32).setReg (Reg.ringCfg 1) 0x80440000#32
  (s.setReg (Reg.gblShadow 0) 0x80000001#32).setPair 0 { active := true, pos := 5 }

theorem pairBusy_same : Does (.gblShadowWrite .ssv 0 0x80000001#32) pairBusy pairBusy :=
  does_gblShadowWrite_of_same rfl rfl (by decide) (by decide) (by decide) (by decide)

/-- Refutes O32: a write of the value a pair holds leaves the pair (R427), and the statement's clause on such writes drops what it
compared. In `pairBusy` that is the count of descriptors compared. -/
theorem not_hostPorts : ¬ Obligations.HostPorts := by
  unfold Obligations.HostPorts
  rintro ⟨-, hwrite, -⟩
  have hanew := hwrite .ssv 0 0x80000001#32 pairBusy rfl rfl (by decide) (by decide) (by decide)
  have hclosed := pairBusy_same.closed_unique hanew
  exact absurd (congrArg (fun u => (u.pairAt 0).pos) hclosed) (by decide +kernel)

end Sys2Proof.Machine
end

section
/-! Proofs: Troxlink and the pairing unit (O29). The frames and losses of the link, then each step of a takeover and of a return by the
state its binding must stand in, and the descriptors. -/

namespace Sys2Proof.Machine

/-! ### The link -/

/-- Which lanes are bound depends on the states of the bindings alone. -/
theorem State.bound_congr {s t : State} (h : ∀ n, t.reg (Reg.txlBstate n) = s.reg (Reg.txlBstate n)) : t.bound = s.bound := by
  simp only [State.bound, State.pairSt, State.getF, h]

/-- A link that goes down with no binding records its loss and nothing more. -/
theorem State.txlDown_of_unbound {s : State} (hup : s.bit Reg.txlStatus 2 = true) (hnone : s.bound = []) : s.txlDown =
    (State.setBit { s with txl := { s.txl with good := 0, lostFor := some 0, checked := false } } Reg.txlStatus 2 false).txlEvent
      0xF1 0xFF 0xFF s.txl.miss := by
  have hb : ((State.setBit { s with txl := { s.txl with good := 0, lostFor := some 0, checked := false } } Reg.txlStatus 2 false).txlEvent
      0xF1 0xFF 0xFF s.txl.miss).bound = [] := by
    rw [← hnone]
    refine State.bound_congr fun n => ?_
    rw [State.txlEvent, State.emit_reg, State.reg_setBit, if_neg (by simp only [Reg.txlBstate, Reg.txlStatus]; omega)]
    rfl
  have hup' : State.bit { s with txl := { s.txl with good := 0 } } Reg.txlStatus 2 = true := hup
  simp only [State.txlDown, hup', Bool.not_true, Bool.false_eq_true, if_false]
  rw [hb]
  rfl

/-- What an intact control frame does once the engine it names is shown (R391, R392). -/
theorem does_troxlinkControlFrame {bs : List Byte} {s t u : State} (hrun : s.hold = .run) (hres : s.inReset 221 = false)
    (ht : t = s.setBit Reg.txlStatus 1 true) (hen : t.bit Reg.txlCtrl 0 = true) (hlen : bs.length = 128)
    (hcrc : (crc32 (bs.take 124)).toNat = leAt bs 124 4)
    (hu : (if leAt bs 8 1 % 64 = (t.putF Reg.txlPartner 13 8 (leAt bs 8 1 % 64)).getF Reg.txlCtrl 21 16 ∧
        leAt bs 8 1 % 64 ≠ t.straps.engineId.toNat then
        (t.putF Reg.txlPartner 13 8 (leAt bs 8 1 % 64)).controlAccepted bs
      else (t.putF Reg.txlPartner 13 8 (leAt bs 8 1 % 64)).wrongEngine (leAt bs 8 1 % 64)) = u) :
    Does (.troxlinkControlFrame bs) s u := by
  subst ht hu
  refine does_of_run _ (arm_troxlinkControlFrame bs s) hrun ?_
  simp only [hres, hen, hlen, hcrc, Bool.not_true, Bool.false_eq_true, if_false, ne_eq, not_true_eq_false, or_self]
  rfl

/-! ### Returns -/

/-- A lane that takes its own route back leaves the time. -/
theorem State.freeRoute_pacer (s : State) (n : Nat) : (s.freeRoute n).pacer = s.pacer := by
  unfold State.freeRoute
  exact foldl_keeps (P := fun u : State => u.pacer = s.pacer) (fun _ _ _ h => h) rfl

/-- A return begins from RETURN_WAIT, with no VA layer active (R404). -/
theorem State.startReturn_of_waiting {s : State} {n : Nat} (hst : s.pairSt n = bsReturnWait) (hva : s.pairVa n = false) :
    s.startReturn n = (s.setPairSt n bsSwitchOut).setPairL n { s.pairLAt n with step := .none, retHeat := s.heat + 4 } :=
  if_neg (by simp [hst, hva])

/-! ### Descriptors -/

section
variable {e : Sched} {d : Body} {s : State} (hd : e.desc.body = d)
include hd

theorem pairBindRow_commit_of_used (hused : s.planeUsed (d.byte 0) (d.byte 1) = true) : pairBindRow.commit e s = (s, .done stBad 25) := by
  subst hd
  exact if_pos hused

theorem pairBindRow_commit_of_busy (hfree : s.planeUsed (d.byte 0) (d.byte 1) = false) (hst : bsWatch < s.pairSt (d.byte 0)) :
    pairBindRow.commit e s = (s, .done stMode 0) := by
  subst hd
  exact (if_neg (by simp [hfree])).trans (if_pos hst)

/-- A binding is set with no flag: it is off, and the lane's evidence settings are stored (R395). -/
theorem pairBindRow_commit_of_off {n : Nat} {u : State} (hn : n = d.byte 0) (hfree : s.planeUsed n (d.byte 1) = false)
    (hst : s.pairSt n ≤ bsWatch) (hflags : d.byte 2 = 0)
    (hu : u = (s.setReg (Reg.txlBind n) (BitVec.ofNat 32 (d.byte 1 * 2 ^ 16 + d.byte 3 * 2 ^ 8 + d.byte 4))).putF
      (Reg.tlLevCfg (n / 8) (n % 8)) 15 0 (d.pl 6 2)) :
    pairBindRow.commit e s =
      (((u.putF (Reg.tlLevTh (n / 8)) 15 0 (u.getF Reg.txlLevCfg 23 8)).setReg (Reg.txlBstate n) 0).setPairL n {}, resOk) := by
  subst hd hn hu
  refine (if_neg (by simp [hfree])).trans ((if_neg (Nat.not_lt.mpr hst)).trans ?_)
  simp only [hflags, Nat.zero_testBit, Bool.false_eq_true, if_false, Nat.zero_add]

theorem pairBusRow_commit : pairBusRow.commit e s =
    (s.setBit (Reg.txlBusTx (d.byte 0 / 32)) (d.byte 0 % 32) (d.byte 1 == 1), resOk) := by
  subst hd
  rfl

theorem pairReturnRow_commit_of_idle (hst : s.pairSt (d.byte 0) ≠ bsReturnWait) : pairReturnRow.commit e s = (s, .done stMode 0) := by
  subst hd
  exact if_pos (.inl hst)

theorem pairReturnRow_commit_of_waiting (hst : s.pairSt (d.byte 0) = bsReturnWait) (hva : s.pairVa (d.byte 0) = false) :
    pairReturnRow.commit e s = (s.startReturn (d.byte 0), resOk) := by
  subst hd
  exact if_neg (by simp [hst, hva])

end

/-- Settles O29: frames by their length, CRC and sender, each step of a binding by the state that calls for it, descriptors by what
their rows commit. -/
theorem troxlink : Obligations.Troxlink := by
  unfold Obligations.Troxlink
  refine ⟨fun bs s hrun hres _ hen hlen => ?frameBad, fun bs s t hrun hres ht hen hlen hcrc hid hown => ?frameAccepted,
    fun bs s t hrun hres ht hen hlen hcrc hid => ?frameOther, fun bs s t old new hrun hres ht hen hlen hcrc hin hold hnew => ?busFrame,
    fun s hrun => does_of_run _ (arm_blockLockLoss s) hrun rfl, fun s hup hnone => State.txlDown_of_unbound hup hnone,
    fun s hrun hmiss => does_of_run _ (arm_heartbeatTimeout s) hrun (if_pos hmiss), fun s t hrun hmiss ht hnone => ?heartbeat,
    fun s t hrun hchk hlost ht hlive => ?alive, fun n s t hrun hmiss hbus hgroup ht => ?busMissing,
    fun n s hrun hst hstep hsafe hdead => ?recheckDead, fun n s hrun hst hstep hsafe hdead => ?recheckLive,
    fun n s hrun hst hstep hset hrly => ?release, fun n s hrun hst hstep hset hrly => ?releaseFault,
    fun n s hrun hst hstep hfull => ?complete, fun n s hrun hsil hst hva => ?silence,
    fun n s hrun hsil => does_of_run _ (arm_returnSilence n s) hrun (if_pos hsil), fun n s hrun hmax hst hva => ?maxHold,
    fun n s hrun hst hstep hheat => ?mute, fun n s hrun hst hstep hsafe => ?relayClear, fun n s hrun hst hstep hrly hset => ?restore,
    fun n s hrun hst hstep hfull hlate => ?returned, fun o d s t e hdue ht hused => ?bindUsed,
    fun o d s t e hdue ht hfree hst => ?bindBusy, fun o d s t e n u hdue ht hn hfree hst hflags hu => ?bindOff,
    fun o d s t e z hdue ht hz => ?bus, fun o d s t e hdue ht hst => ?returnIdle, fun o d s t e n hdue ht hn hst hva => ?returnNow⟩
  case frameBad =>
    refine does_of_run _ (arm_troxlinkControlFrame bs s) hrun ?_
    simp only [hres, hen, Bool.not_true, Bool.false_eq_true, if_false]
    exact if_pos (.inl hlen)
  case frameAccepted => exact does_troxlinkControlFrame hrun hres ht hen hlen hcrc (if_pos ⟨hid, hown⟩)
  case frameOther => exact does_troxlinkControlFrame hrun hres ht hen hlen hcrc (if_neg fun h => hid.elim (· h.1) h.2)
  case busFrame =>
    subst ht hold hnew
    refine does_of_run _ (arm_troxlinkBusFrame bs s) hrun ?_
    simp only [hres, hen, hlen, hcrc, Bool.not_true, Bool.false_eq_true, if_false, ne_eq, not_true_eq_false, or_self,
      if_neg (Nat.not_le.mpr hin)]
  case heartbeat =>
    refine does_of_run _ (arm_heartbeatTimeout s) hrun ((if_neg (Nat.not_lt.mpr hmiss)).trans ?_)
    dsimp only
    rw [← ht, hnone]
    rfl
  case alive =>
    subst ht
    refine does_of_run _ (arm_partnerAliveCheck s) hrun ((if_neg (by simp [hchk, hlost])).trans ?_)
    exact if_pos hlive
  case busMissing =>
    subst ht
    refine does_of_run _ (arm_partnerBusMissing n s) hrun ((if_neg (by simp [hbus, hmiss])).trans ?_)
    dsimp only
    rw [hgroup]
    rfl
  case recheckDead =>
    refine does_of_run _ (arm_takeoverRecheck n s) hrun ((if_neg (by simp [hst, hstep, hsafe])).trans ?_)
    exact if_pos hdead
  case recheckLive =>
    refine does_of_run _ (arm_takeoverRecheck n s) hrun ((if_neg (by simp [hst, hstep, hsafe])).trans ?_)
    exact if_neg (by simp [hdead])
  case release =>
    refine does_of_run _ (arm_takeoverRelease n s) hrun ((if_neg (by simp [hst, hstep, hset])).trans ?_)
    exact if_neg (by simp [hrly])
  case releaseFault =>
    refine does_of_run _ (arm_takeoverRelease n s) hrun ((if_neg (by simp [hst, hstep, hset])).trans ?_)
    exact if_pos (by simp [hrly])
  case complete => exact does_of_run _ (arm_takeoverComplete n s) hrun (if_neg (by simp [hst, hstep, hfull]))
  case silence =>
    exact does_of_run _ (arm_returnSilence n s) hrun ((if_neg (Nat.not_lt.mpr hsil)).trans (State.startReturn_of_waiting hst hva))
  case maxHold =>
    exact does_of_run _ (arm_maxHoldExpiry n s) hrun ((if_neg (Nat.not_lt.mpr hmax)).trans (State.startReturn_of_waiting hst hva))
  case mute => exact does_of_run _ (arm_returnMute n s) hrun (if_neg (by simp [hst, hstep, hheat]))
  case relayClear => exact does_of_run _ (arm_returnRelayClear n s) hrun (if_neg (by simp [hst, hstep, hsafe]))
  case restore =>
    have hpacer : ((s.freeRoute n.val).setTakenBit n.val false).pacer = s.pacer := s.freeRoute_pacer n.val
    refine does_of_run _ (arm_returnRestore n s) hrun ((if_neg (by simp [hst, hstep, hrly, hset])).trans ?_)
    dsimp only
    rw [hpacer]
  case returned => exact does_of_run _ (arm_returnComplete n s) hrun (if_neg (by simp [hst, hstep, hfull, hlate]))
  case bindUsed =>
    subst ht
    exact does_commit (arm_pairBind .commit o d s) hdue (pairBindRow_commit_of_used (congrArg (·.body) (due_body hdue)) hused)
  case bindBusy =>
    subst ht
    exact does_commit (arm_pairBind .commit o d s) hdue (pairBindRow_commit_of_busy (congrArg (·.body) (due_body hdue)) hfree hst)
  case bindOff =>
    subst ht
    exact does_commit (arm_pairBind .commit o d s) hdue
      (pairBindRow_commit_of_off (congrArg (·.body) (due_body hdue)) hn hfree hst hflags hu)
  case bus =>
    subst ht hz
    exact does_commit (arm_pairBus .commit o d s) hdue (pairBusRow_commit (congrArg (·.body) (due_body hdue)))
  case returnIdle =>
    subst ht
    exact does_commit (arm_pairReturn .commit o d s) hdue (pairReturnRow_commit_of_idle (congrArg (·.body) (due_body hdue)) hst)
  case returnNow =>
    subst ht hn
    have h := does_commit (arm_pairReturn .commit o d s) hdue
      (pairReturnRow_commit_of_waiting (congrArg (·.body) (due_body hdue)) hst hva)
    rwa [State.startReturn_of_waiting hst hva] at h

end Sys2Proof.Machine
end

section
/-! Proofs: history entries (O58). What an event leaves in the registers of the collector where it has no reaction in force. -/

namespace Sys2Proof.Machine

/-! ### The parts of a new entry -/

/-- An unacknowledged entry that the next one overwrites is marked lost, in a full history. -/
def State.lossMarked (s : State) (slot : Nat) : State :=
  if s.getF Reg.fcHistHead 5 0 = 32 && bitAt (s.reg (Reg.fcHist slot 3)) 7 && !bitAt (s.reg (Reg.fcHist slot 3)) 6 then
    (s.setBit Reg.fcStatus 6 true).bump Reg.fcHistLost 32
  else s

/-- Where the next entry of the history goes. -/
def State.nextSlot (s : State) : Nat :=
  if s.getF Reg.fcHistHead 5 0 = 0 then 0 else (s.getF Reg.fcHistHead 20 16 + 1) % 32

/-- INFO of a new entry (R483). -/
def State.entryInfo (s : State) (e : Ev) : Nat :=
  e.src.val * 2 ^ 8 + 2 ^ 7 + (if !s.bit Reg.fcStatus 7 then 2 ^ 5 else 0) + (if e.lost then 2 ^ 4 else 0) +
    (if s.inVaClass e.src.val then 2 ^ 3 else 0) + clsRank e.cls

/-- The eight words of a new entry with reactions `m` and the other sources of its cycle (R483). -/
def State.entryWord (s : State) (e : Ev) (others : List Nat) (m : BitVec 6) (j : Nat) : Word := match j with
  | 0 => BitVec.ofNat 32 s.pacer.ns.toNat
  | 1 => BitVec.ofNat 32 (s.pacer.ns.toNat / 2 ^ 32)
  | 2 => e.syn
  | 3 => BitVec.ofNat 32 (s.entryInfo e)
  | 4 => BitVec.ofNat 32 ((List.range 4).foldl (fun a i => a + (others.getD i 0xFF) % 256 * 2 ^ (8 * i)) 0)
  | 5 => BitVec.ofNat 32 (others.length % 256)
  | 6 => BitVec.ofNat 32 m.toNat
  | _ => s.fc.seq + 1

/-- The words of an entry stand in its slot, and in the photo-finish record where there is none (R484). -/
def State.entryWritten (s : State) (slot : Nat) (pf : Bool) (w : Nat → Word) : State :=
  let s := forUpto 8 (fun j s => s.setReg (Reg.fcHist slot j) (w j)) s
  if pf then (forUpto 8 (fun j s => s.setReg (Reg.fcPf j) (w j)) s).setBit Reg.fcStatus 7 true else s

/-- The entry is the newest, and its source's status bit and window stand (R482, R486). -/
def State.entryShown (s : State) (src slot valid : Nat) : State :=
  ((s.setReg Reg.fcHistHead (BitVec.ofNat 32 (slot * 2 ^ 16 + min 32 (valid + 1)))).bitVecSet Reg.fcFsw src true).bitVecSet Reg.fcOpen src
    true

/-- The registers and the sequence number of a new entry, before its reactions. -/
def State.entryMade (s : State) (e : Ev) (others : List Nat) : State :=
  let u := s.lossMarked s.nextSlot
  (State.entryWritten { u with fc := { u.fc with seq := u.fc.seq + 1 } } s.nextSlot (!u.bit Reg.fcStatus 7)
    (u.entryWord e others (s.effMask e.src.val e.cls e.react))).entryShown e.src.val s.nextSlot (s.getF Reg.fcHistHead 5 0)

/-- A new entry is made, its reactions follow, the event rings take it, and one of class C may be acknowledged at once. -/
theorem State.createEntry_eq (s : State) (e : Ev) (others : List Nat) : s.createEntry e others =
    (let m := s.effMask e.src.val e.cls e.react
     let t := (((s.entryMade e others).holdBits e.src.val m).dispatch e.src.val e.cls s.nextSlot ((s.lossMarked s.nextSlot).fc.seq + 1)
       m).eventEntries s.nextSlot e false
     if e.cls == .c && t.bit Reg.fcCtrl 0 then t.ackSource e.src.val else t) := rfl

/-! ### What each part leaves -/

theorem State.reg_forUpto_setReg_ne (s : State) {r : Nat → Nat} (v : Nat → Word) {n o : Nat} (h : ∀ j < n, o ≠ r j) :
    (forUpto n (fun j s => s.setReg (r j) (v j)) s).reg o = s.reg o :=
  forUpto_keeps (P := fun u : State => u.reg o = s.reg o) (fun j hj u hu => (u.reg_setReg_ne _ _ _ (h j hj)).trans hu) rfl

theorem State.fc_forUpto_setReg (s : State) (r : Nat → Nat) (v : Nat → Word) (n : Nat) :
    (forUpto n (fun j s => s.setReg (r j) (v j)) s).fc = s.fc :=
  forUpto_keeps (P := fun u : State => u.fc = s.fc) (fun _ _ _ hu => hu) rfl

theorem State.nextSlot_lt (s : State) : s.nextSlot < 32 := by
  unfold State.nextSlot
  split_ifs <;> omega

/-- Marking a lost entry changes its mark and its count alone. -/
theorem State.lossMarked_frame (s : State) (slot : Nat) : (s.lossMarked slot).fc = s.fc ∧ (s.lossMarked slot).pacer = s.pacer ∧
    (s.lossMarked slot).bit Reg.fcStatus 7 = s.bit Reg.fcStatus 7 ∧
    ∀ o, o ≠ Reg.fcStatus → o ≠ Reg.fcHistLost → (s.lossMarked slot).reg o = s.reg o := by
  unfold State.lossMarked
  split_ifs
  · refine ⟨rfl, rfl, ?_, fun o hst hlost => ?_⟩
    · rw [State.bit, State.reg_bump_ne _ _ _ _ (by decide)]
      exact (s.bit_setBit _ _ _ _ (by decide)).trans (if_neg (by decide))
    · rw [State.reg_bump_ne _ _ _ _ hlost, State.reg_setBit_ne _ _ _ hst]
  · exact ⟨rfl, rfl, rfl, fun _ _ _ => rfl⟩

/-- The registers an entry is written to. -/
theorem State.reg_entryWritten_hist (s : State) {slot j : Nat} (pf : Bool) (w : Nat → Word) (hslot : slot < 32) (hj : j < 8) :
    (s.entryWritten slot pf w).reg (Reg.fcHist slot j) = w j := by
  have hw : (forUpto 8 (fun j s => s.setReg (Reg.fcHist slot j) (w j)) s).reg (Reg.fcHist slot j) = w j :=
    s.reg_forUpto_setReg (r := Reg.fcHist slot) w (fun i k h => by simp only [Reg.fcHist] at h; omega) hj
  unfold State.entryWritten
  cases pf with
  | false => exact hw
  | true =>
    refine ((State.reg_setBit_ne _ _ _ (by simp only [Reg.fcHist, Reg.fcStatus]; omega)).trans
      (State.reg_forUpto_setReg_ne _ _ fun k hk => ?_)).trans hw
    simp only [Reg.fcHist, Reg.fcPf]
    omega

theorem State.reg_entryWritten_pf (s : State) (slot : Nat) (w : Nat → Word) {j : Nat} (hj : j < 8) :
    (s.entryWritten slot true w).reg (Reg.fcPf j) = w j := by
  refine (State.reg_setBit_ne _ _ _ (by simp only [Reg.fcPf, Reg.fcStatus]; omega)).trans ?_
  exact State.reg_forUpto_setReg _ (r := Reg.fcPf) w (fun i k h => by simp only [Reg.fcPf] at h; omega) hj

/-- Outside the history, the photo-finish record and FC_STATUS nothing is written. -/
theorem State.reg_entryWritten_ne (s : State) {slot o : Nat} {pf : Bool} (w : Nat → Word) (hhist : ∀ j < 8, o ≠ Reg.fcHist slot j)
    (hpf : pf = true → o ≠ Reg.fcStatus ∧ ∀ j < 8, o ≠ Reg.fcPf j) : (s.entryWritten slot pf w).reg o = s.reg o := by
  have hw := s.reg_forUpto_setReg_ne w hhist
  cases pf with
  | false => exact hw
  | true =>
    obtain ⟨hst, hpf⟩ := hpf rfl
    exact ((State.reg_setBit_ne _ _ _ hst).trans (State.reg_forUpto_setReg_ne _ _ hpf)).trans hw

theorem State.fc_entryWritten (s : State) (slot : Nat) (pf : Bool) (w : Nat → Word) : (s.entryWritten slot pf w).fc = s.fc := by
  unfold State.entryWritten
  cases pf <;> simp only [Bool.false_eq_true, if_false, if_true, State.setBit_fc, State.fc_forUpto_setReg]

/-- Once an entry is written the photo-finish record is taken. -/
theorem State.bit_entryWritten_status (s : State) {slot : Nat} (w : Nat → Word) (hslot : slot < 32) :
    (s.entryWritten slot (!s.bit Reg.fcStatus 7) w).bit Reg.fcStatus 7 = true := by
  cases hb : s.bit Reg.fcStatus 7 with
  | true =>
    rw [State.bit, State.reg_entryWritten_ne]
    · exact hb
    · intro j hj
      simp only [Reg.fcHist, Reg.fcStatus]
      omega
    · exact fun h => absurd h (by decide)
  | false => exact State.bit_setBit_same _ _ _ _ (by decide)

theorem State.reg_entryShown_ne (s : State) {src slot valid o : Nat} (hsrc : src < 256) (ho : o < 0x10010 ∨ 0x10050 ≤ o)
    (hhead : o ≠ Reg.fcHistHead) : (s.entryShown src slot valid).reg o = s.reg o := by
  have hw : src / 32 < 8 := Nat.div_lt_of_lt_mul hsrc
  unfold State.entryShown State.bitVecSet
  rw [State.reg_setBit_ne, State.reg_setBit_ne, State.reg_setReg_ne _ _ _ _ hhead]
  · simp only [Reg.fcFsw]; omega
  · simp only [Reg.fcOpen]; omega

theorem State.entryShown_shows (s : State) (src slot valid : Nat) :
    (s.entryShown src slot valid).bitVecGet Reg.fcFsw src = true ∧ (s.entryShown src slot valid).bitVecGet Reg.fcOpen src = true := by
  unfold State.entryShown State.bitVecSet State.bitVecGet
  refine ⟨?_, State.bit_setBit_same _ _ _ _ (by omega)⟩
  rw [State.bit, State.reg_setBit_ne]
  · exact State.bit_setBit_same _ _ _ _ (by omega)
  · simp only [Reg.fcFsw, Reg.fcOpen]; omega

/-! ### An event with no reaction in force -/

/-- Two states whose registers read the same and whose collectors agree. -/
def State.ReadsAs (s t : State) : Prop := t.fc = s.fc ∧ ∀ o, t.reg o = s.reg o

theorem State.ReadsAs.setReg_self {s t : State} (h : s.ReadsAs t) {o : Nat} {v : Word} (hv : v = t.reg o) : s.ReadsAs (t.setReg o v) := by
  obtain ⟨hfc, hreg⟩ := h
  refine ⟨hfc, fun r => ?_⟩
  rw [State.reg_setReg]
  split_ifs with hr
  · rw [hv, hr, hreg]
  · exact hreg r

/-- An entry updated by nothing reads as before. -/
theorem State.entryUpd_readsAs {s t : State} (h : s.ReadsAs t) (slot : Nat) (seq : Word) {f : Nat → Word → Word} (hf : ∀ j w, f j w = w) :
    s.ReadsAs (t.entryUpd slot seq f) := by
  have hloop (r : Nat → Nat) {u : State} (hu : s.ReadsAs u) :
      s.ReadsAs (forUpto 7 (fun j u => u.setReg (r j) (f j (u.reg (r j)))) u) :=
    forUpto_keeps (P := fun u : State => s.ReadsAs u) (fun j _ u hu => hu.setReg_self (hf _ _)) hu
  have hslot : s.ReadsAs (if t.bit (Reg.fcHist slot 3) 7 && t.reg (Reg.fcHist slot 7) == seq then
      forUpto 7 (fun j u => u.setReg (Reg.fcHist slot j) (f j (u.reg (Reg.fcHist slot j)))) t else t) := by
    split_ifs
    · exact hloop _ h
    · exact h
  unfold State.entryUpd
  dsimp only
  generalize (if t.bit (Reg.fcHist slot 3) 7 && t.reg (Reg.fcHist slot 7) == seq then
      forUpto 7 (fun j u => u.setReg (Reg.fcHist slot j) (f j (u.reg (Reg.fcHist slot j)))) t else t) = u at hslot ⊢
  split_ifs
  · exact hloop _ hslot
  · exact hslot

/-- No reaction dispatched, nothing changed. -/
theorem State.dispatch_zero_readsAs (s : State) (src : Nat) (cls : Cls) (slot : Nat) (seq : Word) :
    s.ReadsAs (s.dispatch src cls slot seq 0#6) := by
  unfold State.dispatch
  simp only [BitVec.getLsbD_zero, Bool.or_self, Bool.false_eq_true, if_false]
  refine State.entryUpd_readsAs ⟨rfl, fun _ => rfl⟩ slot seq fun j w => ?_
  split_ifs
  · simp
  · rfl

theorem State.holdBits_zero (s : State) (src : Nat) : s.holdBits src 0#6 = s := rfl

/-- With no event ring enabled an event has no entry in one. -/
theorem State.eventEntries_of_disabled {s : State} (slot : Nat) (e : Ev) (conseq : Bool)
    (h : ∀ p, p < 3 → bitAt (s.reg (Reg.fcEvring p)) 31 = false) : s.eventEntries slot e conseq = s :=
  forUpto_keeps (P := (· = s)) (fun p hp u hu => by subst hu; exact if_pos (by rw [h p hp]; rfl)) rfl

/-- An entry of an event with no reaction in force, of no class C, on no event ring, is what was made of it. -/
theorem State.createEntry_of_no_reaction {s : State} {e : Ev} (others : List Nat) (hmask : s.effMask e.src.val e.cls e.react = 0#6)
    (hcls : e.cls ≠ .c) (hring : ∀ p, p < 3 → bitAt ((s.entryMade e others).reg (Reg.fcEvring p)) 31 = false) :
    (s.entryMade e others).ReadsAs (s.createEntry e others) := by
  have hd := (s.entryMade e others).dispatch_zero_readsAs e.src.val e.cls s.nextSlot ((s.lossMarked s.nextSlot).fc.seq + 1)
  obtain ⟨-, hreg⟩ := id hd
  rw [State.createEntry_eq, hmask]
  dsimp only
  rw [State.holdBits_zero, State.eventEntries_of_disabled _ _ _ fun p hp => by rw [hreg]; exact hring p hp, beq_false_of_ne hcls, Bool.false_and,
    if_neg (by decide)]
  exact hd

/-- A new entry leaves what is no register of the history, the photo-finish record or the status word. -/
theorem State.reg_entryMade_ne (s : State) (e : Ev) (others : List Nat) {o : Nat} (ho : 0x100b8 ≤ o ∧ o < 0x12000) :
    (s.entryMade e others).reg o = s.reg o := by
  obtain ⟨hlo, hhi⟩ := ho
  obtain ⟨-, -, -, hreg⟩ := s.lossMarked_frame s.nextSlot
  unfold State.entryMade
  rw [State.reg_entryShown_ne _ e.src.isLt (by omega) (by simp only [Reg.fcHistHead]; omega), State.reg_entryWritten_ne]
  · exact hreg o (by simp only [Reg.fcStatus]; omega) (by simp only [Reg.fcHistLost]; omega)
  · intro j _
    simp only [Reg.fcHist]
    omega
  · refine fun _ => ⟨by simp only [Reg.fcStatus]; omega, fun j _ => ?_⟩
    simp only [Reg.fcPf]
    omega

theorem State.reg_entryMade_hist (s : State) (e : Ev) (others : List Nat) {j : Nat} (hj : j < 8) :
    (s.entryMade e others).reg (Reg.fcHist s.nextSlot j) =
      (s.lossMarked s.nextSlot).entryWord e others (s.effMask e.src.val e.cls e.react) j := by
  unfold State.entryMade
  rw [State.reg_entryShown_ne _ e.src.isLt (by simp only [Reg.fcHist]; omega) (by simp only [Reg.fcHist, Reg.fcHistHead]; omega)]
  exact State.reg_entryWritten_hist _ _ _ s.nextSlot_lt hj

/-- The photo-finish record is the new entry where there was none, and otherwise stays (R484). -/
theorem State.reg_entryMade_pf (s : State) (e : Ev) (others : List Nat) {j : Nat} (hj : j < 8) :
    (s.entryMade e others).reg (Reg.fcPf j) = if s.bit Reg.fcStatus 7 = true then s.reg (Reg.fcPf j) else
      (s.lossMarked s.nextSlot).entryWord e others (s.effMask e.src.val e.cls e.react) j := by
  obtain ⟨-, -, hst, hreg⟩ := s.lossMarked_frame s.nextSlot
  have hslot := s.nextSlot_lt
  unfold State.entryMade
  rw [State.reg_entryShown_ne _ e.src.isLt (by simp only [Reg.fcPf]; omega) (by simp only [Reg.fcPf, Reg.fcHistHead]; omega), hst]
  cases hb : s.bit Reg.fcStatus 7 with
  | true =>
    rw [if_pos rfl, State.reg_entryWritten_ne]
    · exact hreg _ (by simp only [Reg.fcPf, Reg.fcStatus]; omega) (by simp only [Reg.fcPf, Reg.fcHistLost]; omega)
    · intro k hk
      simp only [Reg.fcPf, Reg.fcHist]
      omega
    · exact fun h => absurd h (by decide)
  | false => exact State.reg_entryWritten_pf _ _ _ hj

theorem State.fc_entryMade (s : State) (e : Ev) (others : List Nat) : (s.entryMade e others).fc.seq = s.fc.seq + 1 := by
  obtain ⟨hfc, -⟩ := s.lossMarked_frame s.nextSlot
  have hw : (s.entryMade e others).fc = _ := State.fc_entryWritten _ _ _ _
  rw [hw, hfc]

theorem State.entryMade_shows (s : State) (e : Ev) (others : List Nat) : (s.entryMade e others).bitVecGet Reg.fcFsw e.src.val = true ∧
    (s.entryMade e others).bitVecGet Reg.fcOpen e.src.val = true ∧ (s.entryMade e others).bit Reg.fcStatus 7 = true := by
  obtain ⟨hfsw, hopen⟩ := State.entryShown_shows _ e.src.val s.nextSlot (s.getF Reg.fcHistHead 5 0)
  refine ⟨hfsw, hopen, ?_⟩
  unfold State.entryMade State.bit
  rw [State.reg_entryShown_ne _ e.src.isLt (by decide) (by decide)]
  exact State.bit_entryWritten_status _ _ s.nextSlot_lt

/-- INFO of an entry: its source in bits [15:8], its class in bits [1:0]. -/
theorem State.entryInfo_fields (s : State) (e : Ev) : fld (BitVec.ofNat 32 (s.entryInfo e)) 15 8 = e.src.val ∧
    fld (BitVec.ofNat 32 (s.entryInfo e)) 1 0 = clsRank e.cls := by
  have hsrc := e.src.isLt
  have hcls : clsRank e.cls < 4 := by cases e.cls <;> decide
  obtain ⟨a, b, c, hinfo⟩ : ∃ a b c : Nat, s.entryInfo e = e.src.val * 256 + 128 + a * 32 + b * 16 + c * 8 + clsRank e.cls ∧
      a ≤ 1 ∧ b ≤ 1 ∧ c ≤ 1 := by
    refine ⟨if !s.bit Reg.fcStatus 7 then 1 else 0, if e.lost then 1 else 0, if s.inVaClass e.src.val then 1 else 0, ?_, ?_, ?_, ?_⟩
    · unfold State.entryInfo
      split_ifs <;> omega
    all_goals split_ifs <;> omega
  obtain ⟨hinfo, ha, hb, hc⟩ := hinfo
  have hlt : s.entryInfo e < 2 ^ 32 := by omega
  simp only [fld, BitVec.toNat_ushiftRight, BitVec.toNat_ofNat, Nat.mod_eq_of_lt hlt, Nat.shiftRight_eq_div_pow]
  omega

/-- Settles O58: the event's reactions change nothing, so that what is read is what was made of it. -/
theorem historyEntries : Obligations.HistoryEntries := by
  unfold Obligations.HistoryEntries
  intro s t e slot hmask hcls hslot hring ht
  have hslot : slot = s.nextSlot := hslot
  subst hslot ht
  obtain ⟨hfc, hpacer, -, -⟩ := s.lossMarked_frame s.nextSlot
  obtain ⟨htfc, htreg⟩ := State.createEntry_of_no_reaction [] hmask hcls fun p hp => by
    rw [s.reg_entryMade_ne e [] (by simp only [Reg.fcEvring]; omega)]; exact hring p hp
  obtain ⟨hfsw, hopen, hst⟩ := s.entryMade_shows e []
  obtain ⟨hsrc, hrank⟩ := (s.lossMarked s.nextSlot).entryInfo_fields e
  have hword : ∀ j, j < 8 → (s.createEntry e []).reg (Reg.fcHist s.nextSlot j) =
      (s.lossMarked s.nextSlot).entryWord e [] (s.effMask e.src.val e.cls e.react) j :=
    fun j hj => (htreg _).trans (s.reg_entryMade_hist e [] hj)
  have hseq : (s.lossMarked s.nextSlot).fc.seq + 1 = s.fc.seq + 1 := by rw [hfc]
  refine ⟨?time, ?timeHi, hword 2 (by decide), (hword 7 (by decide)).trans hseq, ?source, ?class_, ?seq, ?fsw, ?open_, ?status,
    fun hpf j hj => ?kept, fun hpf => ?taken⟩
  case time => rw [hword 0 (by decide), State.entryWord, hpacer]
  case timeHi => rw [hword 1 (by decide), State.entryWord, hpacer]
  case source => rw [hword 3 (by decide)]; exact hsrc
  case class_ => rw [hword 3 (by decide)]; exact hrank
  case seq => rw [htfc]; exact s.fc_entryMade e []
  case fsw => rw [State.bitVecGet, State.bit, htreg]; exact hfsw
  case open_ => rw [State.bitVecGet, State.bit, htreg]; exact hopen
  case status => rw [State.bit, htreg]; exact hst
  case kept => rw [htreg, s.reg_entryMade_pf e [] hj, if_pos hpf]
  case taken =>
    rw [htreg, htreg, s.reg_entryMade_pf e [] (by decide), s.reg_entryMade_pf e [] (by decide), hpf, if_neg (by decide), if_neg (by decide)]
    exact ⟨rfl, hseq⟩

end Sys2Proof.Machine
end

section
/-! Proofs: the latching of events, and the commands and registers of the collector (O36, O37). -/

namespace Sys2Proof.Machine

/-! ### What a latch keeps beside the history -/

/-- An event of a source outside the tiles that is not reserved is latched after LPn_FAULT has kept what is a lane processor's
(R261, R262). -/
theorem does_faultEventLatch {e : Ev} {s : State} (hosc : s.fc.oscStopped = false) (hres : srcReserved e.src.val = false)
    (hsrc : 144 ≤ e.src.val) : Does (.faultEventLatch [e]) s ((s.lpFaultKept e).latchCycle [e]) := by
  refine does_of_always _ (arm_faultEventLatch [e] s) ?_
  have hkept : (!srcReserved e.src.val && (decide (144 ≤ e.src.val) ||
      s.present (if e.src.val < 128 then e.src.val / 8 else e.src.val - 128))) = true := by
    rw [hres, decide_eq_true hsrc]; rfl
  simp only [hosc, Bool.false_eq_true, if_false, List.filter_cons_of_pos (p := fun e : Ev => !srcReserved e.src.val &&
    (decide (144 ≤ e.src.val) || s.present (if e.src.val < 128 then e.src.val / 8 else e.src.val - 128))) hkept, List.filter_nil,
    List.foldl_cons, List.foldl_nil]

/-- A program fault of lane processor 0: code 0x72 on source 144. -/
def lpFaultEv : Ev := { src := 144, cls := .c, react := 0, syn := 0x72000000#32 }

/-- Refutes O36: a latched event 0x72, 0x73 or 0x77 of a lane processor leaves its syndrome in LPn_FAULT (R261), and the statement's
clause on the latching of one event keeps that register. -/
theorem not_collector : ¬ Obligations.Collector := by
  unfold Obligations.Collector
  rintro ⟨-, hlatch, -⟩
  have hclosed := (hlatch lpFaultEv State.reset rfl (by decide) (by decide)).closed_unique
    (does_faultEventLatch rfl (by decide) (by decide))
  exact absurd (congrArg (fun u => u.reg (Reg.lpnFault 0)) hclosed) (by decide +kernel)

/-! ### Status words -/

/-- A loop that acts in one of its rounds alone. -/
theorem forUpto_of_only {σ : Type} {n k : Nat} {f : Nat → σ → σ} (hk : k < n) (hf : ∀ i, i ≠ k → ∀ s, f i s = s) (s : σ) :
    forUpto n f s = f k s := by
  induction n with
  | zero => omega
  | succ n ih =>
    rw [forUpto_succ]
    obtain rfl | hlt := Nat.eq_or_lt_of_le (Nat.le_of_lt_succ hk)
    · exact congrArg _ (forUpto_keeps (P := (· = s)) (fun i hi u hu => (hf i (Nat.ne_of_lt hi) u).trans hu) rfl)
    · rw [hf n (Nat.ne_of_gt hlt), ih hlt]

/-- A word with one bit set. -/
theorem bitAt_two_pow {b : Nat} (hb : b < 32) (j : Nat) : bitAt (BitVec.ofNat 32 (2 ^ b)) j = decide (j = b) := by
  simp only [bitAt, BitVec.getLsbD_ofNat, Nat.testBit_two_pow]
  by_cases h : b = j
  · simp [← h, hb]
  · simp [h, Ne.symm h]

/-- Settles O37: each clause is the rule of the reset, the write or the read it speaks of. -/
theorem collectorCommands : Obligations.CollectorCommands := by
  unfold Obligations.CollectorCommands
  refine ⟨fun k s hnone => ?doneNone, fun k s fc hin hfc => ?done, fun k s fc hfc => ?close, fun k s hnone => ?overdueNone,
    fun k s fc hin hfc => ?overdue, fun p s t hwait ht => ?holdoff, fun p s t hwait ht => ?holdoffNone,
    fun m v s hrun hmay hall hopen => ?ackOpen, fun m v s hrun hmay hall hopen => ?ackClosed, fun m v s hrun hmay hall => ?ackAll,
    fun m v s hrun hmay hv => ?pfClear, fun m v s hrun hmay hv => ?pfKeep, fun m w b v s hrun hmay hv => ?clear,
    fun s k => rfl, fun m s t hrun ht => ?fsw0, fun m k s t hrun hk ht => ?timeLo, fun m s t hrun ht => ?timeLoPf, fun s fc hfc => ?stop⟩
  case doneNone => exact does_of_always _ (arm_blockResetDone k s) (if_pos (by rw [hnone]; rfl))
  case done =>
    subst hfc
    exact does_of_always _ (arm_blockResetDone k s) (if_neg (by rw [hin]; decide))
  case close =>
    subst hfc
    exact does_of_always _ (arm_shadowClose k s) rfl
  case overdueNone => exact does_of_always _ (arm_blockResetOverdue k s) (if_pos (by rw [hnone]; rfl))
  case overdue =>
    subst hfc
    exact does_of_always _ (arm_blockResetOverdue k s) (if_neg (by rw [hin]; decide))
  case holdoff =>
    subst ht
    exact does_of_always _ (arm_intHoldoffEnd p s) (if_pos hwait)
  case holdoffNone =>
    subst ht
    exact does_of_always _ (arm_intHoldoffEnd p s) (if_neg (by rw [hwait]; decide))
  case ackOpen =>
    exact does_of_gated _ (arm_fcAckWrite m v s) hrun hmay ((if_neg (by rw [hall]; decide)).trans (if_pos hopen))
  case ackClosed =>
    exact does_of_gated _ (arm_fcAckWrite m v s) hrun hmay ((if_neg (by rw [hall]; decide)).trans (if_neg (by rw [hopen]; decide)))
  case ackAll => exact does_of_gated _ (arm_fcAckWrite m v s) hrun hmay (if_pos hall)
  case pfClear => exact does_of_gated _ (arm_fcPfClearWrite m v s) hrun hmay (if_pos hv)
  case pfKeep => exact does_of_gated _ (arm_fcPfClearWrite m v s) hrun hmay (if_neg (by rw [hv]; decide))
  case clear =>
    subst hv
    refine does_of_gated _ (arm_fcFswClear m w _ s) hrun hmay ((forUpto_of_only b.isLt (fun i hi u => ?_) s).trans ?_)
    · exact if_neg (by rw [bitAt_two_pow b.isLt]; simpa using hi)
    · exact if_pos (by rw [bitAt_two_pow b.isLt]; exact decide_eq_true rfl)
  case fsw0 =>
    subst ht
    exact does_of_run _ (arm_fcFsw0Read m s) hrun rfl
  case timeLo =>
    subst ht
    refine does_of_run _ (arm_fcHistTimeLoRead m k s) hrun ?_
    simp only [hk, if_true]
  case timeLoPf =>
    subst ht
    exact does_of_run _ (arm_fcHistTimeLoRead m 32 s) hrun rfl
  case stop =>
    subst hfc
    exact does_of_always _ (arm_collectorOscillatorStop s) rfl

end Sys2Proof.Machine
end

section
/-! Proofs: the descriptors of the collector, the unlock sequence of factory test and injected faults (O38). -/

namespace Sys2Proof.Machine

/-! ### Descriptors -/

theorem faultReactRow_commit_of_locked {e : Sched} {s : State} (hlock : s.bit Reg.fcLock 0 = true) :
    faultReactRow.commit e s = (s, .done stMode 0) :=
  if_pos hlock

section
variable {e : Sched} {d : Body} {s : State} (hd : e.desc.body = d)
include hd

theorem faultAckRow_commit_of_all (hall : d.pl 0 2 = 0xFFFF) : faultAckRow.commit e s = (s.ackAll, resOk) := by
  subst hd
  exact congrArg (·, resOk) (if_pos hall)

theorem faultAckRow_commit_of_one (hone : d.pl 0 2 ≠ 0xFFFF) :
    faultAckRow.commit e s = (if s.bitVecGet Reg.fcOpen (d.pl 0 2) then s.ackSource (d.pl 0 2) else s, resOk) := by
  subst hd
  exact congrArg (·, resOk) (if_neg hone)

theorem faultClearRow_commit {ks : List Nat} {u : State} (hks : ks = (List.range 256).filter fun k => d.byte (k / 8) / 2 ^ (k % 8) % 2 == 1)
    (hu : u = ks.foldl (fun s k => s.clearSource k) s) :
    faultClearRow.commit e s = (u, .done stOk (ks.filter fun k => u.bitVecGet Reg.fcFsw k).length) := by
  subst hd hks hu
  rfl

/-- While the lock is clear FAULT_REACT sets the masks, the VA class or both, as its flags say (R496). -/
theorem faultReactRow_commit_of_open {u : State} (hlock : s.bit Reg.fcLock 0 = false)
    (hu : u = if d.byte 1 % 2 = 1 then (s.setReg (Reg.fcSrcMask (d.byte 0)) (BitVec.ofNat 32 (d.pl 2 4) &&& 0x003F3F3F#32)).setReg
      (Reg.fcSrcAdd (d.byte 0)) (BitVec.ofNat 32 (d.pl 6 4) &&& 0x003F3F3F#32) else s) :
    faultReactRow.commit e s =
      (if d.byte 1 / 4 % 2 = 1 then u.bitVecSet Reg.fcVasel (d.byte 0) (d.byte 1 / 2 % 2 == 1) else u, resOk) := by
  subst hd hu
  exact if_neg (by rw [hlock]; decide)

end

/-! ### The unlock sequence -/

/-- A key of the sequence fits in its register. -/
theorem State.unlockKey_toNat (s : State) : (BitVec.ofNat 32 (0xC300 + s.straps.engineId.toNat)).toNat = s.unlockKey 2 := by
  have hid := s.straps.engineId.isLt
  have hkey : s.unlockKey 2 = 0xC300 + s.straps.engineId.toNat := rfl
  rw [hkey, BitVec.toNat_ofNat]
  omega

/-- The owner's first key starts the sequence (R379). -/
theorem State.unlockWrite_first {s : State} (hk : s.modes.unlock = 0) :
    s.unlockWrite true 0xF7E1#32 = { s with modes := { s.modes with unlock := 1, unlockHeat := 0 } } := by
  unfold State.unlockWrite
  rw [hk]
  rfl

/-- The owner's last key, in time, unlocks (R379). -/
theorem State.unlockWrite_last {s : State} (hk : s.modes.unlock = 2) (hheat : s.modes.unlockHeat < 100) :
    s.unlockWrite true (BitVec.ofNat 32 (0xC300 + s.straps.engineId.toNat)) =
      State.setMode { s with modes := { s.modes with unlock := 0, unlockHeat := 0 } } 18 true := by
  unfold State.unlockWrite
  simp only [hk, s.unlockKey_toNat, beq_self_eq_true, Bool.true_and, decide_eq_true hheat, Bool.or_true, if_true]

theorem does_gblFtmUnlockWrite {p : Fin 3} {v : Word} {s u : State} (hrun : s.hold = .run)
    (hmay : s.may (.host p) Reg.gblFtmUnlock = true) (hown : s.owns p.val = true) (hmode : s.bit Reg.gblMode 17 = true)
    (hu : s.unlockWrite true v = u) : Does (.gblFtmUnlockWrite (.host p) v) s u := by
  refine does_of_gated _ (arm_gblFtmUnlockWrite (.host p) v s) hrun hmay ((if_neg (by rw [hmode]; decide)).trans ?_)
  rw [State.ownsBaton, hown, hu]

theorem does_unlockWindowExpiry_of_early {b : Bool} {s : State} (hrun : s.hold = .run) (h : s.modes.unlockHeat < 100) :
    Does (.unlockWindowExpiry b) s s := by
  refine does_of_run _ (arm_unlockWindowExpiry b s) hrun (if_pos ?_)
  split_ifs <;> omega

/-! ### Injection -/

/-- An injection that is taken is reported and counted (R381, R383). -/
theorem State.injWrite_of_taken {s t : State} {p : Fin 3} {v : Word} (hown : s.owns p.val = true) (hftm : s.ftm = true)
    (hinj : s.inject v = some t) : s.injWrite (.host p) v = (t.modeEvent 0xE7 mdFtm).bump Reg.gblFtmInjCnt 32 := by
  simp only [State.injWrite, State.ownsBaton, hown, hftm, hinj, Bool.not_true, Bool.false_eq_true, if_false]

theorem State.injWrite_outside {s : State} {p : Fin 3} (v : Word) (hown : s.owns p.val = true) (hftm : s.ftm = false) :
    s.injWrite (.host p) v = s.setMode 19 true := by
  simp only [State.injWrite, State.ownsBaton, hown, hftm, Bool.not_true, Bool.not_false, Bool.false_eq_true, if_false, if_true]

theorem State.inject_frames {s : State} {v : Word} (hkind : fld v 31 30 = 2) (htile : fld v 27 20 < 16)
    (hpres : s.present (fld v 27 20) = true) (hlo : 1 ≤ fld v 15 0) (hhi : fld v 15 0 ≤ 255) :
    s.inject v = some (s.setTile (fld v 27 20) { s.tileAt (fld v 27 20) with omitFrames := fld v 15 0 }) := by
  have hok : ¬ (16 ≤ fld v 27 20 ∨ (!s.present (fld v 27 20)) = true ∨ fld v 15 0 = 0 ∨ 255 < fld v 15 0) := by
    rw [hpres]
    simp only [Bool.not_true, Bool.false_eq_true, false_or]
    omega
  simp only [State.inject, hkind, OfNat.ofNat_ne_zero, OfNat.ofNat_ne_one, if_false, if_true, if_neg hok]

theorem State.inject_cause_of_bad {s : State} {v : Word} (hkind : fld v 31 30 = 1)
    (hbad : 128 ≤ fld v 27 20 ∨ fld v 15 0 = 0 ∨ 4095 < fld v 15 0) : s.inject v = none := by
  have hout : 128 ≤ fld v 27 20 ∨ (!s.present (fld v 27 20 / 8)) = true ∨ 10 < fld v 19 16 ∨ fld v 15 0 = 0 ∨ 4095 < fld v 15 0 :=
    hbad.imp_right fun h => .inr (.inr h)
  simp only [State.inject, hkind, one_ne_zero, if_false, if_true, if_pos hout]

theorem State.inject_bits {s : State} {v : Word} (hkind : fld v 31 30 = 3) (hbank : fld v 27 20 < 16) (hsel : fld v 19 16 ≤ 1) :
    s.inject v = some (s.setBank (fld v 27 20) { s.bankAt (fld v 27 20) with inject := fld v 19 16 + 1 }) := by
  have hok : ¬ (16 ≤ fld v 27 20 ∨ 1 < fld v 19 16) := by omega
  have htwo : (3 : Nat) ≠ 2 := by decide
  simp only [State.inject, hkind, OfNat.ofNat_ne_zero, OfNat.ofNat_ne_one, htwo, if_false, if_neg hok]

/-- An injected cause whose time has passed leaves the lane's record, and ends unless the tile has it on its own. -/
theorem does_injectedCauseExpiry {n : Fin 128} {c : Fin 11} {s u v : State}
    (hover : ((s.laneAt n.val).injected.any fun x => x.1 == c.val && x.2 ≤ s.heat) = true)
    (hu : u = s.setLane n.val { s.laneAt n.val with injected := (s.laneAt n.val).injected.filter (·.1 != c.val) })
    (hv : (if u.causeStands n.val c.val then u else (u.setHold n.val c.val false 0).showFault (n.val / 8)) = v) :
    Does (.injectedCauseExpiry n c) s (v.showFault (n.val / 8)) := by
  subst hu hv
  refine does_on_tile _ (arm_injectedCauseExpiry n c s) (congrArg (State.showFault · _) (if_neg ?_))
  rw [hover]
  decide

/-- Settles O38: descriptors by what their rows commit, keys by their place in the sequence, injections by their kind. -/
theorem faultDescriptors : Obligations.FaultDescriptors := by
  unfold Obligations.FaultDescriptors
  refine ⟨fun o d s t v e hacc hv hone hopen => ?ackOne, fun o d s t v e hacc hv hone hopen => ?ackNone,
    fun o d s t v e hacc hv hall => ?ackAll, fun o d s t v e ks u hacc hv hks hu => ?clear, fun o d s t v e hacc hv => ?pfClear,
    fun o d s t e hdue ht hlock => ?locked, fun o d s t e hdue ht hlock hflags => ?masks, fun o d s t e hdue ht hlock hflags => ?vaOff,
    fun o d s t e hdue ht hlock hflags => ?vaOn, fun p s hrun hmay hown hmode hk => ?firstKey,
    fun p s hrun hmay hown hmode hk hheat => ?lastKey, fun s hrun hheat => ?entryOver, fun s hrun hheat => ?sequenceOver,
    fun b s hrun hheat => does_unlockWindowExpiry_of_early hrun hheat,
    fun p v s t hrun hown hftm hinj => does_of_run _ (arm_ftmInjSource _ v s) hrun (State.injWrite_of_taken hown hftm hinj),
    fun p v s t hrun hown hftm hinj => does_of_run _ (arm_ftmInjHoldCause _ v s) hrun (State.injWrite_of_taken hown hftm hinj),
    fun p v s t hrun hown hftm hinj => does_of_run _ (arm_ftmInjLinkFrames _ v s) hrun (State.injWrite_of_taken hown hftm hinj),
    fun p v s t hrun hown hftm hinj => does_of_run _ (arm_ftmInjVatEcc _ v s) hrun (State.injWrite_of_taken hown hftm hinj),
    fun p v s hrun hown hftm => does_of_run _ (arm_ftmInjSource _ v s) hrun (State.injWrite_outside _ hown hftm),
    fun s v => State.inject_frames, fun s v => State.inject_cause_of_bad, fun s v => State.inject_bits,
    fun n c u s hover hu hfree => ?expired, fun n c u s hover hu hstands => ?stands⟩
  case ackOne =>
    subst hv
    have h := does_now (arm_faultAck o d s) hacc rfl (faultAckRow_commit_of_one (accepts_body hacc) hone)
    rwa [if_pos hopen] at h
  case ackNone =>
    subst hv
    have h := does_now (arm_faultAck o d s) hacc rfl (faultAckRow_commit_of_one (accepts_body hacc) hone)
    rwa [if_neg (by rw [hopen]; decide)] at h
  case ackAll =>
    subst hv
    exact does_now (arm_faultAck o d s) hacc rfl (faultAckRow_commit_of_all (accepts_body hacc) hall)
  case clear =>
    subst hv
    exact does_now (arm_faultClear o d s) hacc rfl (faultClearRow_commit (accepts_body hacc) hks hu)
  case pfClear =>
    subst hv
    exact does_now (arm_faultPfClear o d s) hacc rfl rfl
  case locked =>
    subst ht
    exact does_commit (arm_faultReact .commit o d s) hdue (faultReactRow_commit_of_locked hlock)
  case masks =>
    subst ht
    have h := does_commit (arm_faultReact .commit o d s) hdue
      (faultReactRow_commit_of_open (congrArg (·.body) (due_body hdue)) hlock rfl)
    simpa [hflags] using h
  case vaOff =>
    subst ht
    have h := does_commit (arm_faultReact .commit o d s) hdue
      (faultReactRow_commit_of_open (congrArg (·.body) (due_body hdue)) hlock rfl)
    simpa [hflags] using h
  case vaOn =>
    subst ht
    have h := does_commit (arm_faultReact .commit o d s) hdue
      (faultReactRow_commit_of_open (congrArg (·.body) (due_body hdue)) hlock rfl)
    simpa [hflags] using h
  case firstKey => exact does_gblFtmUnlockWrite hrun hmay hown hmode (State.unlockWrite_first hk)
  case lastKey => exact does_gblFtmUnlockWrite hrun hmay hown hmode (State.unlockWrite_last hk hheat)
  case entryOver => exact does_of_run _ (arm_unlockWindowExpiry true s) hrun (if_neg (Nat.not_lt.mpr hheat))
  case sequenceOver => exact does_of_run _ (arm_unlockWindowExpiry false s) hrun (if_neg (Nat.not_lt.mpr hheat))
  case expired => exact does_injectedCauseExpiry hover hu (if_neg (by rw [hfree]; decide))
  case stands => exact does_injectedCauseExpiry hover hu (if_pos hstands)

end Sys2Proof.Machine
end

section
/-! Proofs: writes of the vat (O55). A byte list written from an address, what a word of a write leaves, and a write as the sequence of
its words. -/

namespace Sys2Proof.Machine

/-! ### Bytes in a row -/

/-- After bytes are written one by one from `a + k`, an address reads its byte of the list, or what it read before. -/
theorem Sparse.get_foldl_zipIdx (a b : Nat) (bs : List Byte) (k : Nat) (m : Sparse Byte) :
    Sparse.get 0#8 ((bs.zipIdx k).foldl (fun m p => Sparse.set 0#8 m (a + p.2) p.1) m) b =
      if a + k ≤ b ∧ b < a + k + bs.length then bs.getD (b - (a + k)) 0#8 else Sparse.get 0#8 m b := by
  induction bs generalizing k m with
  | nil =>
    rw [if_neg fun h : a + k ≤ b ∧ b < a + k + [].length => by simp only [List.length_nil] at h; omega]
    rfl
  | cons x bs ih =>
    rw [List.zipIdx_cons, List.foldl_cons, ih, List.length_cons]
    obtain hlt | rfl | hgt := Nat.lt_trichotomy b (a + k)
    · rw [if_neg (by omega), if_neg (by omega), Sparse.get_set_of_ne _ _ _ _ _ _ (by omega)]
    · rw [if_neg (by omega), if_pos (by omega), Sparse.get_set_same, Nat.sub_self, List.getD_cons_zero]
    · rw [Sparse.get_set_of_ne _ _ _ _ _ _ (by omega), show b - (a + k) = b - (a + (k + 1)) + 1 by omega, List.getD_cons_succ]
      exact if_congr (by omega) rfl rfl

/-- The vat with the bytes `bs` written from `a`. -/
def State.vatPut (s : State) (a : Nat) (bs : List Byte) : State :=
  { s with vat := bs.zipIdx.foldl (fun m p => Sparse.set 0 m (a + p.2) p.1) s.vat }

theorem State.vatByte_vatPut (s : State) (a b : Nat) (bs : List Byte) :
    (s.vatPut a bs).vatByte b = if a ≤ b ∧ b < a + bs.length then bs.getD (b - a) 0#8 else s.vatByte b :=
  Sparse.get_foldl_zipIdx a b bs 0 s.vat

theorem State.vatByte_congr {s t : State} (h : t.vat = s.vat) (b : Nat) : t.vatByte b = s.vatByte b :=
  congrArg (Sparse.get 0 · b) h

/-! ### One word of a write -/

/-- A write of a word is made, or leaves the vat: refused by a region, or found on a bad word (R512, R515). -/
theorem State.vatWriteWord_vat (s : State) (w : VatWriter) (a : Nat) (bs : List Byte) :
    (s.vatWriteWord w a bs).vat = s.vat ∨ (s.vatWriteWord w a bs).vat = (s.vatPut a bs).vat := by
  unfold State.vatWriteWord
  dsimp only
  split
  case isTrue => exact .inl ((State.emit_vat _ _ _ _).trans (s.vatErrInfo_vat _ _ _ _))
  case isFalse =>
    split
    case h_1 =>
      split
      case isTrue => exact .inl (s.vatFound_vat _ _ _ _)
      case isFalse =>
        right
        rw [State.setBankShown_vat]
        rfl
    case h_2 =>
      split
      case isTrue => exact .inr rfl
      case isFalse => exact .inr (State.setBank_vat _ _ _)

theorem State.vatWriteWord_outside (s : State) (w : VatWriter) {a b : Nat} {bs : List Byte} (h : b < a ∨ a + bs.length ≤ b) :
    (s.vatWriteWord w a bs).vatByte b = s.vatByte b := by
  obtain hkept | hmade := s.vatWriteWord_vat w a bs
  · exact State.vatByte_congr hkept b
  · rw [State.vatByte_congr hmade, State.vatByte_vatPut, if_neg (by omega)]

/-- No word of the vat is bad, nor about to be (R511). -/
def State.VatGood (s : State) : Prop := ∀ n, (s.bankAt n).bad = [] ∧ (s.bankAt n).inject = 0

/-- No region limits the writer and no word is bad: the word is written. -/
theorem State.vatWriteWord_of_good {s : State} {w : VatWriter} (hw : w.bit = none) (hgood : s.VatGood) (a : Nat) (bs : List Byte) :
    s.vatWriteWord w a bs = s.vatPut a bs := by
  obtain ⟨hbad, hinject⟩ := hgood (a / 0x800000 % 16)
  have hpermits : s.vatPermits w a = true := by rw [State.vatPermits, hw]
  have hfind : (s.bankAt (a / 0x800000 % 16)).find (a % 0x800000 / 8) = none := by rw [BankH.find, hbad]; rfl
  simp only [State.vatWriteWord, hpermits, Bool.not_true, Bool.false_eq_true, if_false, hfind, hinject, if_true]
  rfl

/-! ### The words of a write -/

theorem State.vatWriteGo_of_nil (w : VatWriter) (n a : Nat) (s : State) : State.vatWriteGo w n a [] s = s := by
  cases n <;> rfl

theorem State.vatWriteGo_outside (w : VatWriter) (n b : Nat) : ∀ (a : Nat) (bs : List Byte) (s : State),
    b < a ∨ a + bs.length ≤ b → (State.vatWriteGo w n a bs s).vatByte b = s.vatByte b := by
  induction n with
  | zero => exact fun _ _ _ _ => rfl
  | succ n ih =>
    intro a bs s h
    unfold State.vatWriteGo
    split
    case isTrue => rfl
    case isFalse =>
      have hrest : b < a + (8 - a % 8) ∨ a + (8 - a % 8) + (bs.drop (8 - a % 8)).length ≤ b := by
        rw [List.length_drop]
        omega
      have hword : b < a ∨ a + (bs.take (8 - a % 8)).length ≤ b := by
        rw [List.length_take]
        omega
      exact (ih _ _ _ hrest).trans (s.vatWriteWord_outside w hword)

theorem State.vatWriteGo_wf (w : VatWriter) (n : Nat) : ∀ (a : Nat) (bs : List Byte) (s : State),
    Memory.wf s.vat = true → Memory.wf (State.vatWriteGo w n a bs s).vat = true := by
  induction n with
  | zero => exact fun _ _ _ h => h
  | succ n ih =>
    intro a bs s h
    unfold State.vatWriteGo
    split
    case isTrue => exact h
    case isFalse => exact ih _ _ _ (s.vatWriteWord_wf w _ _ h)

/-- With words enough for its bytes, a write of a good vat that no region limits leaves each byte as written: its first word stands
before the words that follow. -/
theorem State.vatWriteGo_inside {w : VatWriter} (hw : w.bit = none) (n : Nat) : ∀ (a : Nat) (bs : List Byte) (s : State),
    s.VatGood → a % 8 + bs.length ≤ 8 * n → ∀ i, i < bs.length → (State.vatWriteGo w n a bs s).vatByte (a + i) = bs.getD i 0#8 := by
  induction n with
  | zero => intro a bs s _ hfuel i hi; omega
  | succ n ih =>
    intro a bs s hgood hfuel i hi
    have hne : ¬ bs.isEmpty = true := by
      rw [List.isEmpty_iff_length_eq_zero]
      omega
    have hgo : State.vatWriteGo w (n + 1) a bs s =
        State.vatWriteGo w n (a + (8 - a % 8)) (bs.drop (8 - a % 8)) (s.vatPut a (bs.take (8 - a % 8))) :=
      (if_neg hne).trans
        (congrArg (State.vatWriteGo w n _ _) (State.vatWriteWord_of_good hw hgood a _))
    rw [hgo]
    obtain hfirst | hlater := Nat.lt_or_ge i (8 - a % 8)
    · have htake : i < (bs.take (8 - a % 8)).length := by
        rw [List.length_take]
        omega
      rw [State.vatWriteGo_outside w n _ _ _ _ (.inl (by omega)), State.vatByte_vatPut, if_pos ⟨by omega, by omega⟩,
        Nat.add_sub_cancel_left, List.getD_eq_getElem _ _ htake, List.getElem_take, List.getD_eq_getElem _ _ hi]
    · have hrest := ih (a + (8 - a % 8)) (bs.drop (8 - a % 8)) (s.vatPut a (bs.take (8 - a % 8))) hgood
        (by rw [List.length_drop]; omega) (i - (8 - a % 8)) (by rw [List.length_drop]; omega)
      rwa [List.getD_eq_getElem?_getD, List.getElem?_drop, ← List.getD_eq_getElem?_getD, Nat.add_sub_cancel' hlater, Nat.add_assoc a, Nat.add_sub_cancel' hlater] at hrest

/-! ### A whole write -/

/-- A write that ends within the vat does not wrap. -/
theorem State.vatWrite_of_le (s : State) (w : VatWriter) {a : Nat} {bs : List Byte} (h : a + bs.length ≤ vatSize) :
    s.vatWrite w a bs = State.vatWriteGo w (bs.length / 8 + 2) a bs s := by
  cases bs with
  | nil => rw [State.vatWriteGo_of_nil]; exact State.vatWriteGo_of_nil w _ _ s
  | cons x bs => exact congrArg (State.vatWriteGo w _ · _ s) (Nat.mod_eq_of_lt (Nat.lt_of_lt_of_le (by simp) h))

theorem State.vatWrite_outside (s : State) (w : VatWriter) {a b : Nat} {bs : List Byte} (h : a + bs.length ≤ vatSize)
    (hout : b < a ∨ a + bs.length ≤ b) : (s.vatWrite w a bs).vatByte b = s.vatByte b := by
  rw [s.vatWrite_of_le w h]
  exact State.vatWriteGo_outside w _ b a bs s hout

theorem State.dropWrite_vat (s : State) (p : Nat) : (s.dropWrite p).vat = s.vat := by
  unfold State.dropWrite
  dsimp only
  split
  case isTrue => exact State.bump_vat _ _ _
  case isFalse => exact (State.emit_vat _ _ _ _).trans (State.bump_vat s Reg.gblBatonDropCnt 32)

/-- Settles O55: the words of a write lie within its bytes, and a write through BAR2 is one of the vat or is dropped. -/
theorem vatWrites : Obligations.VatWrites := by
  unfold Obligations.VatWrites
  refine ⟨fun s w a bs h b hout => s.vatWrite_outside w h hout, fun s w a bs h hw hgood i hi => ?inside,
    fun s w a bs h => State.vatWriteGo_wf w _ _ bs s h, fun p off bs s hrun hown h => ?owner, fun p off bs s hrun hown => ?dropped⟩
  case inside =>
    rw [s.vatWrite_of_le w h]
    exact State.vatWriteGo_inside hw _ a bs s hgood (by omega) i hi
  case owner => exact ⟨_, does_hostBar2Write hrun (if_pos hown), fun b hout => s.vatWrite_outside _ h hout⟩
  case dropped =>
    exact ⟨_, does_hostBar2Write hrun (if_neg (by rw [hown]; decide)), fun b => State.vatByte_congr (s.dropWrite_vat p) b⟩

end Sys2Proof.Machine
end

section
/-! Proofs: the control cores (O39), and the OTP, the crypto unit and the scrubbers (O40). -/

namespace Sys2Proof.Machine

/-! ### Watchdogs, mailboxes and resets of the cores -/

theorem does_coreWatchdogExpiry_of_off {c : Fin 5} {s : State} (hrun : s.hold = .run) (hoff : s.bit (Reg.coreWdog c.val) 31 = false) :
    Does (.coreWatchdogExpiry c) s s :=
  does_of_run _ (arm_coreWatchdogExpiry c s) hrun (if_pos (by rw [hoff]; rfl))

/-- An enabled watchdog that has run out raises its event, by core (R526). -/
theorem does_coreWatchdogExpiry {c : Fin 5} {s u : State} (hrun : s.hold = .run) (hon : s.bit (Reg.coreWdog c.val) 31 = true)
    (hosc : s.fc.oscStopped = false) (hover : s.getF (Reg.coreWdog c.val) 15 0 * 98 ≤ (s.coreAt c.val).wdogHeats * 100)
    (hu : (let t := s.setCore c.val { s.coreAt c.val with kicks := 0, wdogHeats := 0 }
      if c.val = 4 then t.emit 229 0x05 (syn16 0x05 0 c.val) else t.emit (223 + c.val) 0x01 (syn16 0x01 0 c.val)) = u) :
    Does (.coreWatchdogExpiry c) s u := by
  refine does_of_run _ (arm_coreWatchdogExpiry c s) hrun ((if_neg ?_).trans hu)
  rw [hon, hosc, decide_eq_false (Nat.not_lt.mpr hover)]
  decide

/-- What a write of a mailbox control register leaves after RAISE (R523). -/
theorem does_coreMboxRaise {m : Master} {c : Fin 5} {v : Word} {s t u : State} (hrun : s.hold = .run)
    (hmay : s.may m (Reg.coreMboxCtrl c.val) = true) (ht : t = s.rawWrite (Reg.coreMboxCtrl c.val) (setBitAt v 31 false))
    (hu : (if bitAt v 31 && t.bit (Reg.coreMboxCtrl c.val) 15 && t.held then
      t.msix t.owner (t.getF (Reg.coreMboxCtrl c.val) 10 0) else t) = u) : Does (.coreMboxRaise m c v) s u := by
  subst ht
  exact does_of_gated _ (arm_coreMboxRaise m c v s) hrun hmay hu

/-- A write of a core's control register, by its RESET bit (R478, R552). -/
theorem does_coreAcReset {m : Master} {n : Fin 4} {v : Word} {s t u w : State} (hrun : s.hold = .run)
    (hmay : s.may m (Reg.coreAcCtrl n.val) = true) (ht : t = s.setReg (Reg.coreAcCtrl n.val) (v &&& 1#32))
    (hu : u = t.setBit (Reg.coreAcStatus n.val) 0 (bitAt v 0 && !t.bit (Reg.coreAcStatus n.val) 1))
    (hw : (if bitAt v 1 && !u.inReset (223 + n.val) then
      State.blockReset { u with fc := { u.fc with resets := (223 + n.val) :: u.fc.resets } } (223 + n.val) else u) = w) :
    Does (.coreAcReset m n v) s w := by
  subst ht hu
  exact does_of_gated _ (arm_coreAcReset m n v s) hrun hmay hw

/-- Settles O39: each command by the branch of its definition that the hypotheses select. -/
theorem controlCores : Obligations.ControlCores := by
  unfold Obligations.ControlCores
  refine ⟨fun s t hrun hsafe ht => ?lockstep, fun c s hrun hoff => does_coreWatchdogExpiry_of_off hrun hoff,
    fun n h s hrun hon hosc hover hh => ?appWatchdog, fun h s hrun hon hosc hover hh => ?ssvWatchdog,
    fun m c s hrun hmay => does_of_gated _ (arm_coreKickWrite m c _ s) hrun hmay (if_pos rfl),
    fun m c v s hrun hmay hv => does_of_gated _ (arm_coreKickWrite m c v s) hrun hmay (if_neg hv),
    fun c s hrun => does_of_run _ (arm_machineTimer c s) hrun rfl, fun m s t hrun ht => ?mtime,
    fun m c s hrun hmay => does_of_gated _ (arm_coreMboxBell m c s) hrun hmay rfl,
    fun m c v s t hrun hmay ht hraise hen hheld => ?raise, fun m c v s hrun hmay hquiet => ?noRaise,
    fun m n v s t hrun hmay hkeep ht => ?noReset, fun m n v s t u hrun hmay hreset ht hu hfree => ?reset⟩
  case lockstep =>
    subst ht
    exact does_of_run _ (arm_lockstepMismatch s) hrun (if_neg (by rw [hsafe]; decide))
  case appWatchdog =>
    subst hh
    exact does_coreWatchdogExpiry (c := n.castSucc) hrun hon hosc hover (if_neg (Nat.ne_of_lt n.isLt))
  case ssvWatchdog =>
    subst hh
    exact does_coreWatchdogExpiry (c := 4) hrun hon hosc hover (if_pos rfl)
  case mtime =>
    subst ht
    exact does_of_run _ (arm_coreMtimeLoRead m s) hrun rfl
  case raise => exact does_coreMboxRaise hrun hmay ht (if_pos (by rw [hraise, hen, hheld]; rfl))
  case noRaise => exact does_coreMboxRaise hrun hmay rfl (if_neg (by rw [hquiet]; exact Bool.false_ne_true))
  case noReset => exact does_coreAcReset hrun hmay ht rfl (if_neg (by rw [hkeep]; exact Bool.false_ne_true))
  case reset => exact does_coreAcReset hrun hmay ht hu (if_pos (by rw [hreset, hfree]; rfl))

/-! ### The OTP and the crypto unit -/

/-- A command of the OTP or of the crypto unit is the SSV's (R533, R534). -/
theorem does_of_ssv {i : Instr} {s u : State} (f : State → State) (hx : exec i s = act s fun s => s.ssvOnly .ssv f)
    (hrun : s.hold = .run) (hf : f s = u) : Does i s u :=
  does_of_run _ hx hrun ((if_pos rfl).trans hf)

theorem does_of_not_ssv {i : Instr} {s : State} {m : Master} (f : State → State) (hx : exec i s = act s fun s => s.ssvOnly m f)
    (hrun : s.hold = .run) (hm : m ≠ .ssv) : Does i s s :=
  does_of_run _ hx hrun (State.ssvOnly_of_ne f hm)

/-- An idle OTP programs the word at its address, unless that word is refused. -/
theorem does_otpProgram {s t u : State} (hrun : s.hold = .run) (hidle : s.bit Reg.coreOtpStatus 0 = false)
    (ht : t = s.setReg Reg.coreOtpCmd 2#32)
    (hu : (if t.otpRefused (s.getF Reg.coreOtpAddr 12 2) then
      ((t.setReg Reg.coreOtpStatus 4#32).emit 230 0x03 (syn16 0x03 0 (s.getF Reg.coreOtpAddr 12 2))).otpDone
      else { t.setReg Reg.coreOtpStatus 1#32 with otpProg := some (s.getF Reg.coreOtpAddr 12 2, t.reg Reg.coreOtpData) }) = u) :
    Does (.otpProgram .ssv) s u := by
  subst ht
  exact does_of_ssv _ (arm_otpProgram .ssv s) hrun ((if_neg (by rw [hidle]; decide)).trans hu)

theorem State.otpRefused_of_devId (s : State) {w : Nat} (h : w < 2) : s.otpRefused w = true :=
  (congrArg (· || _) (decide_eq_true h)).trans (Bool.true_or _)

theorem State.cryptoStart_of_idle {s t : State} {op : Nat} (hidle : s.bit Reg.coreCryStatus 0 = false)
    (ht : t = (s.setReg Reg.coreCryCmd (BitVec.ofNat 32 op)).setReg Reg.coreCryStatus 1#32) :
    s.cryptoStart op = { t with crypto := some ⟨op, t.reg Reg.coreCrySrc, t.reg Reg.coreCryLen, t.reg Reg.coreCryArg⟩ } := by
  subst ht
  exact if_neg (by rw [hidle]; decide)

/-! ### The scrubbers -/

theorem does_scrubLineRead {bank : Fin 18} {bad : List (Fin 8 × Bool)} {s u : State} (hrun : s.hold = .run)
    (hon : s.bit Reg.mxCtrl 0 = true) (hu : (if bank.val = 16 then s.scrubCsram bad
      else if bank.val = 17 then s.scrubCtx bad else s.scrubVat bank.val bad) = u) : Does (.scrubLineRead bank bad) s u :=
  does_of_run _ (arm_scrubLineRead bank bad s) hrun ((if_neg (by rw [hon]; decide)).trans hu)

/-- A line of a vat bank that shows no error, and is not the last, only moves the scrubber on (R513). -/
theorem State.scrubVat_of_clean {s : State} {n : Nat} {b : BankH} (hb : b = s.bankAt n) (hclean : b.lineBad = []) (hline : b.line < 131071) :
    s.scrubVat n [] = (s.setBank n b).setBank n { b with line := b.line + 1 } := by
  subst hb
  have hsame : (s.bankAt n).withBad [] = s.bankAt n := by rw [BankH.withBad, List.filterMap_nil, List.append_nil]
  have hlast : ((s.bankAt n).line + 1 == 131072) = false := beq_false_of_ne (by omega)
  have hread : (s.setBank n (s.bankAt n)).bankAt n = s.bankAt n := Sparse.get_set_same ..
  simp only [State.scrubVat, hsame, hclean, List.foldl_nil, hlast, hread, Bool.false_eq_true, if_false]

/-- Settles O40: each command by the branch of its definition that the hypotheses select. -/
theorem otpCryptoScrub : Obligations.OtpCryptoScrub := by
  unfold Obligations.OtpCryptoScrub
  refine ⟨fun m s hrun hm => does_of_not_ssv _ (arm_otpRead m s) hrun hm, fun s t w hrun hidle hw ht => ?otpRead,
    fun s t w hrun hidle hw ht hbad => ?programRefused, fun s t w hrun hidle hw ht hok => ?program,
    fun s t w v hrun hprog ht => ?programmed, fun s ok hrun hprog => ?noProgram, fun s w hw => s.otpRefused_of_devId hw,
    fun s t hrun hidle ht => does_of_ssv _ (arm_cryptoSha384 .ssv s) hrun (State.cryptoStart_of_idle hidle ht),
    fun s t hrun hidle ht => does_of_ssv _ (arm_cryptoEcdsaVerify .ssv s) hrun (State.cryptoStart_of_idle hidle ht),
    fun m s hrun hm => does_of_not_ssv _ (arm_cryptoSha384 m s) hrun hm,
    fun m s hrun hm => does_of_not_ssv _ (arm_cryptoEcdsaVerify m s) hrun hm,
    fun s hrun hnone => does_of_run _ (arm_cryptoDone s) hrun (by rw [hnone]), fun s t x a hrun hx hop ht ha => ?hashed,
    fun s t x a hrun hx hop ht ha => ?verified,
    fun bank bad s hrun hoff => does_of_run _ (arm_scrubLineRead bank bad s) hrun (if_pos (by rw [hoff]; rfl)),
    fun bank s t b hrun hon hbank hb hclean hline ht => ?vatLine, fun i s t r hrun hon hr ht => ?ctxLine⟩
  case otpRead =>
    subst hw ht
    exact does_of_ssv _ (arm_otpRead .ssv s) hrun (if_neg (by rw [hidle]; decide))
  case programRefused =>
    subst hw
    exact does_otpProgram hrun hidle ht (if_pos hbad)
  case program =>
    subst hw
    exact does_otpProgram hrun hidle ht (if_neg (by rw [hok]; decide))
  case programmed =>
    subst ht
    exact does_of_run _ (arm_otpProgramDone true s) hrun (by rw [hprog]; rfl)
  case noProgram => exact does_of_run _ (arm_otpProgramDone ok s) hrun (by rw [hprog])
  case hashed =>
    subst ht ha
    exact does_of_run _ (arm_cryptoDone s) hrun (by rw [hx]; exact if_pos hop)
  case verified =>
    subst ht ha
    exact does_of_run _ (arm_cryptoDone s) hrun (by rw [hx]; exact if_neg (by rw [hop]; decide))
  case vatLine =>
    subst ht
    exact does_scrubLineRead hrun hon (((if_neg (by omega)).trans (if_neg (by omega))).trans (State.scrubVat_of_clean hb hclean hline))
  case ctxLine =>
    subst hr ht
    exact does_scrubLineRead hrun hon rfl

end Sys2Proof.Machine
end

section
/-! Proofs: the descriptors of sources, streams, flows and voted sources (O13). What the row of each commits in the cases the obligation
names. -/

namespace Sys2Proof.Machine

/-! ### Gains that wait for their time -/

theorem ChanH.ready_of_reached {h : ChanH} {w : GainWait} {t : Nat} (hdue : h.due = [w]) (ht : w.start ≤ t) (hwait : h.wait = none) :
    h.ready t = { h with due := [], wait := some w } := by
  have hone : h.due.filter (fun w => w.start ≤ t) = [w] := by
    rw [hdue, List.filter_cons_of_pos (by simpa using ht), List.filter_nil]
  have hrest : h.due.filter (fun w => t < w.start) = [] := by
    rw [hdue, List.filter_cons_of_neg (by simpa using ht), List.filter_nil]
  rw [ChanH.ready, hone, List.getLast?_singleton]
  simp only [hrest, hwait, Option.map_none, Option.getD_none]

/-! ### What the rows commit -/

section
variable {e : Sched} {d : Body} {s : State} (hd : e.desc.body = d)
include hd

theorem bindOf_tdm (hkind : d.byte 2 = 1) : bindOf e.desc.body = .tdm (d.byte 3) (d.byte 4) := by
  subst hd
  rw [bindOf, hkind]
  rfl

/-- A free entry is bound to a TDM slot whose port is live (R466). -/
theorem srcBindRow_commit_of_live (hkind : d.byte 2 = 1) (hfree : (s.srcAt (d.pl 0 2)).bind = .none)
    (hlive : s.inputLive (.tdm (d.byte 3) (d.byte 4)) = true) :
    srcBindRow.commit e s = (s.setSrc (d.pl 0 2) { s.srcAt (d.pl 0 2) with
      bind := .tdm (d.byte 3) (d.byte 4), fallback := fallbackOf (d.pl 6 2), lost := false, fb := .off, own := .on,
      fadeIn := 64 }, resOk) := by
  have hbind := bindOf_tdm hd hkind
  subst hd
  simp only [srcBindRow, hbind, hfree, hlive, reduceCtorEq, ne_eq, not_true_eq_false, if_false, if_true, Bool.not_true]

theorem srcBindRow_commit_of_bound (hkind : d.byte 2 = 1) (hbound : (s.srcAt (d.pl 0 2)).bind ≠ .none) :
    srcBindRow.commit e s = (s, .done stBad 24) := by
  have hbind := bindOf_tdm hd hkind
  subst hd
  simp only [srcBindRow, hbind, reduceCtorEq, if_false, if_pos hbound]

/-- An entry that is back on its own input takes its fallback (R467). -/
theorem srcFallbackRow_commit_of_home (hhome : (s.srcAt (d.pl 0 2)).goHome.lost = false) :
    srcFallbackRow.commit e s = (s.setSrc (d.pl 0 2) { (s.srcAt (d.pl 0 2)).goHome with fallback := fallbackOf (d.pl 2 2) }, resOk) := by
  subst hd
  simp only [srcFallbackRow, hhome, Bool.false_and, Bool.false_eq_true, if_false]

/-- A receiver's history must hold what its converter needs (R75). -/
theorem streamSetRow_commit_of_short (hkind : d.byte 0 = 2)
    (hshort : d.pl 4 2 < historyNeed (d.byte 2) (s.getF (Reg.aesRxCfg (d.byte 1)) 15 12)) :
    streamSetRow.commit e s = (s, .done stShort 0) := by
  subst hd
  have htdm : (e.desc.body.byte 0 == 1) = false := by rw [hkind]; rfl
  simp only [streamSetRow, htdm, Bool.false_and, Bool.false_eq_true, if_false, if_pos hshort]

/-- A receiver that is off takes its converter without a relock (R72). -/
theorem streamSetRow_commit_of_off {u : State} (hkind : d.byte 0 = 2)
    (hfits : historyNeed (d.byte 2) (s.getF (Reg.aesRxCfg (d.byte 1)) 15 12) ≤ d.pl 4 2)
    (htake : s.asrcTake (16 + d.byte 1) 2 2 (d.byte 2) (s.aesRate (d.byte 1)) (d.pl 4 2) = some u) (hpath : s.wupPath = false)
    (hoff : s.bit (Reg.aesRxCfg (d.byte 1)) 0 = false) :
    streamSetRow.commit e s =
      (u.setAesRx (d.byte 1) { u.aesRxAt (d.byte 1) with conv := some (d.byte 2, d.pl 4 2) }, resOk) := by
  subst hd
  have htdm : (e.desc.body.byte 0 == 1) = false := by rw [hkind]; rfl
  simp only [streamSetRow, htdm, Bool.false_and, Bool.false_eq_true, if_false, if_neg (Nat.not_lt.mpr hfits), htake, hpath, hoff,
    Bool.and_false, ite_self]

theorem flowRxSetRow_commit_of_drop (hdrop : d.byte 2 = 0) : flowRxSetRow.commit e s = ((s.dropFlow (d.pl 0 2)).showFlows, resOk) := by
  subst hd
  exact if_pos hdrop

/-- A fetched entry that is sound and fits comes into force (R469). -/
theorem flowRxSetRow_commit_of_fetched {u : State} {en : List Byte} (hset : d.byte 2 = 1) (hidle : s.flowFetch.contains e.id = false)
    (hentry : fetchedEntry e = some en) (hsound : s.rxEntryBad (d.pl 0 2) en = false) (hfits : s.rxResources (d.pl 0 2) en = some u) :
    flowRxSetRow.commit e s = ((u.setFlowEntry (d.pl 0 2) en).showFlows, resOk) := by
  subst hd
  simp only [flowRxSetRow, hset, one_ne_zero, hidle, hentry, hsound, hfits, Bool.false_eq_true, if_false]

theorem flowTxSetRow_commit_of_drop (hdrop : d.byte 2 = 0) :
    flowTxSetRow.commit e s = (((s.setTxFlow (d.pl 0 2) {}).setReg (Reg.pktTxfState (d.pl 0 2)) 0).showFlows, resOk) := by
  subst hd
  exact if_pos hdrop

/-- A transmit flow that was off starts its sequence at zero (R149). -/
theorem flowTxSetRow_commit_of_start (hset : d.byte 2 = 1) (hports : s.txPortsOk (d.pl 0 2) (txEntry d) = true)
    (hoff : s.bit (Reg.pktTxfState (d.pl 0 2)) 0 = false) :
    flowTxSetRow.commit e s = (((s.setTxFlow (d.pl 0 2) { s.txFlowAt (d.pl 0 2) with entry := txEntry d, seq := 0 }).setReg
      (Reg.pktTxfState (d.pl 0 2)) 3#32).showFlows.showSending, resOk) := by
  subst hd
  simp only [flowTxSetRow, hset, one_ne_zero, hports, hoff, Bool.not_true, Bool.false_eq_true, if_false]

theorem vsrcSetRow_commit_of_drop (hoff : vsEn (vsEntry d) = false) : vsrcSetRow.commit e s = (s.dropVsrc (d.byte 0), resOk) := by
  subst hd
  exact if_pos (by rw [hoff]; rfl)

/-- A voted source needs two bound inputs (R154). -/
theorem vsrcSetRow_commit_of_few (hon : vsEn (vsEntry d) = true) (hfew : (vsBound (vsEntry d)).length < 2) :
    vsrcSetRow.commit e s = (s, .done stBad 34) := by
  subst hd
  exact (if_neg (by rw [hon]; decide)).trans (if_pos hfew)

end

/-! ### The end of a flow's fetch (R469) -/

theorem does_flowEntryFetched_data {o : Origin} {s : State} {e : Sched} {bs : List Byte} (hrun : s.hold = .run)
    (hfind : s.sched.find? (fun e => decide (e.org = o) && s.flowFetch.contains e.id) = some e)
    (hsound : fetchedEntry { e with fetched := .data bs } ≠ none) :
    Does (.flowEntryFetched o (.data bs)) s { s with
      flowFetch := s.flowFetch.filter (· != e.id)
      sched := s.sched.map fun x => if (decide (x.org = o) && s.flowFetch.contains x.id) = true then
        { x with fetched := .data bs } else x } := by
  have hdue := List.find?_some hfind
  refine does_of_run _ (arm_flowEntryFetched o (.data bs) s) hrun ?_
  simp only [hfind, hdue, if_true, Option.isNone_iff_eq_none, if_neg hsound]

theorem does_flowEntryFetched_error {o : Origin} {s : State} {e : Sched} (hrun : s.hold = .run)
    (hfind : s.sched.find? (fun e => decide (e.org = o) && s.flowFetch.contains e.id) = some e) :
    Does (.flowEntryFetched o .error) s
      ((State.unschedule { s with flowFetch := s.flowFetch.filter (· != e.id) } e.id).completeWith e s.heat stFaulted 0) := by
  have hdue := List.find?_some hfind
  refine does_of_run _ (arm_flowEntryFetched o .error s) hrun ?_
  simp only [hfind, hdue, if_true, fetchedEntry, Option.isNone_none]
  rfl

/-- Settles O13: each descriptor by what its row commits. -/
theorem sourceDescriptors : Obligations.SourceDescriptors := by
  unfold Obligations.SourceDescriptors
  refine ⟨fun o d s t e hdue ht => ?chGain, fun h w t hdue ht => ?early, fun h w t => ChanH.ready_of_reached,
    fun o d s t e hdue ht hkind hfree hlive => ?bind, fun o d s t e hdue ht hkind hbound => ?bound,
    fun o d s t e hdue ht hhome => ?fallback, fun o d s t e hdue ht hkind hshort => ?short,
    fun o d s t u e hdue ht hkind _ hfits htake hpath hoff => ?stream, fun o d s t e hdue ht hdrop => ?rxDrop,
    fun o d s t u e en hdue ht hset hidle hentry hsound hfits => ?rxSet,
    fun o s e bs hrun hfind hsound _ _ => does_flowEntryFetched_data hrun hfind hsound,
    fun o s e hrun hfind => does_flowEntryFetched_error hrun hfind, fun o d s t e hdue ht hdrop => ?txDrop,
    fun o d s t e hdue ht hset hports hoff => ?txSet, fun o d s t e hdue ht hoff => ?vsDrop, fun o d s t e hdue ht hon hfew => ?vsFew⟩
  case early => exact ChanH.ready_of_early fun x hx => List.mem_singleton.mp (hdue ▸ hx) ▸ ht
  all_goals
    subst ht
    have hd := congrArg (·.body) (due_body hdue)
  case chGain =>
    change e.desc.body = d at hd
    subst hd
    exact does_commit (arm_chGain .commit o _ s) hdue rfl
  case bind => exact does_commit (arm_srcBind .commit o d s) hdue (srcBindRow_commit_of_live hd hkind hfree hlive)
  case bound => exact does_commit (arm_srcBind .commit o d s) hdue (srcBindRow_commit_of_bound hd hkind hbound)
  case fallback => exact does_commit (arm_srcFallback .commit o d s) hdue (srcFallbackRow_commit_of_home hd hhome)
  case short => exact does_commit (arm_streamSet .commit o d s) hdue (streamSetRow_commit_of_short hd hkind hshort)
  case stream => exact does_commit (arm_streamSet .commit o d s) hdue (streamSetRow_commit_of_off hd hkind hfits htake hpath hoff)
  case rxDrop => exact does_commit (arm_flowRxSet .commit o d s) hdue (flowRxSetRow_commit_of_drop hd hdrop)
  case rxSet =>
    exact does_commit (arm_flowRxSet .commit o d s) hdue (flowRxSetRow_commit_of_fetched hd hset hidle hentry hsound hfits)
  case txDrop => exact does_commit (arm_flowTxSet .commit o d s) hdue (flowTxSetRow_commit_of_drop hd hdrop)
  case txSet => exact does_commit (arm_flowTxSet .commit o d s) hdue (flowTxSetRow_commit_of_start hd hset hports hoff)
  case vsDrop => exact does_commit (arm_vsrcSet .commit o d s) hdue (vsrcSetRow_commit_of_drop hd hoff)
  case vsFew => exact does_commit (arm_vsrcSet .commit o d s) hdue (vsrcSetRow_commit_of_few hd hon hfew)

end Sys2Proof.Machine
end
